-- ==== Sys2Proof/Word.lean ====
section
/-!
DEFINITION. Word types of the model and the time unit.

The spec's register is 32 bits (R8), its Book word and command parameter 64 bits (R90, R290), its
frame and flash data are bytes. Device time and elapsed time are held as natural numbers of
2^-40 ns: 16 fractional bits of the counter (R255) and the accumulator 24 bits finer (R256).
-/

namespace Sys2Proof

/-- One byte of a frame, of an image or of a volume. -/
abbrev Byte := BitVec 8

/-- One setup register (R8). -/
abbrev Reg := BitVec 32

/-- One 64-bit word of the Book or of a descriptor (R110, R290). -/
abbrev W64 := BitVec 64

/-- A point or a length of time in units of 2^-40 ns (R255, R256). -/
abbrev Tick := Nat

/-- Units of 2^-40 ns in one nanosecond. -/
def tickNs : Nat := 1099511627776

/-- `n` nanoseconds in time units. -/
def nsT (n : Nat) : Tick := n * tickNs
/-- `n` microseconds in time units. -/
def usT (n : Nat) : Tick := n * 1000 * tickNs
/-- `n` milliseconds in time units. -/
def msT (n : Nat) : Tick := n * 1000000 * tickNs
/-- `n` seconds in time units. -/
def secT (n : Nat) : Tick := n * 1000000000 * tickNs
/-- Whole nanoseconds of a time. -/
def toNs (t : Tick) : Nat := t / tickNs
/-- Whole microseconds of a time. -/
def toUs (t : Tick) : Nat := t / (1000 * tickNs)

end Sys2Proof
end

