-- ==== Sys2Proof/Syntax.lean ====
section
/-!
DEFINITION. The commands of the block: one constructor per row of the opcode table.

A command of a command ring carries its descriptor (R290) and, where the command reads host memory,
what host memory answered. An event carries what the outside or the engine that raises it observed.
Squares, ports, lanes, queues and sources are numbered as R2 to R6 and R316 number them.
-/

namespace Sys2Proof

/-- A command descriptor (R290) with the ring it stands on; the opcode is the row's. -/
structure Cmd where
  ring : Nat := 0
  /-- Bytes 2–3, reserved. -/
  rsvd : BitVec 16 := 0
  tag : BitVec 32 := 0
  p0 : W64 := 0
  p1 : W64 := 0
  p2 : BitVec 32 := 0
deriving DecidableEq, Repr

/-- The answer to a read of host memory (R301). -/
inductive HostRead where
  | ok (bytes : List Byte)
  | err
deriving DecidableEq, Repr

/-- What resets the host link (R302). -/
inductive LinkReset where
  | perstN | pfFlr | linkDown
deriving DecidableEq, Repr

/-- Failures of host-memory access that are not an answer to a command (R301). -/
inductive ReadFail where
  | descriptor | doorbell | buffer | swap
  /-- The read of a function's summary, in which the bits of `rings` were pending. -/
  | summary (rings : List Nat)
deriving DecidableEq, Repr

/-- Fields of a function's configuration space that the endpoint acts on: MAX_PAYLOAD_SIZE, MAX_READ_REQUEST_SIZE and
Enable Relaxed Ordering of Device Control, MSI-X Enable and Function Mask (R272, R276). The defaults are PCI Express's.
PRESUMED, unsafe (log entry 125). -/
structure FnCtl where
  maxPayload : BitVec 3 := 0
  maxRead : BitVec 3 := 2
  relaxed : Bool := true
  msixEn : Bool := false
  msixMask : Bool := false
deriving DecidableEq, Repr

/-- An entry of an MSI-X table: message address and data, and the mask bit (R274, R276). -/
structure MsixEntry where
  addr : W64 := 0
  data : Reg := 0
  mask : Bool := true
deriving DecidableEq, Repr

/-- IEEE 1149.1 instructions (R420). -/
inductive TapInstr where
  | bypass | idcode | samplePreload | other (code : Nat)
deriving DecidableEq, Repr

/-- What an image check finds when the cryptographic arithmetic is left to its standards (R356). -/
structure Crypto where
  /-- SHA-384 of PUBKEY equals the OTP hash. -/
  keyOk : Bool := true
  sigOk : Bool := true
  /-- Both patch tags verify (R358). -/
  tagOk : Bool := true
  /-- A flash read error occurred. -/
  readErr : Bool := false
deriving DecidableEq, Repr

/-- A time correction the boundary clock service decides (R259, R270). -/
inductive Steer where
  | none
  | set (ns : Nat) (frac : Nat)
  | step (ns : Int)
  | freq (adj : Int)
  | slew (ns : Int)
deriving DecidableEq, Repr

/-- A word error the SECDED logic meets (R138): replica, area (0 A, 1 B, 2 learn cache), word index. -/
structure EccHit where
  replica : Nat := 0
  area : Nat := 0
  word : Nat := 0
deriving DecidableEq, Repr

/-- A word error that a lookup meets: in a single bit, which is corrected, or in two (R138). -/
structure EccErr extends EccHit where
  double : Bool := true
deriving DecidableEq, Repr

/-- What the board shows the device when POR_N or the device reset is released (R346, R350, R352 to R354). -/
structure BoardIn where
  bootsel : BitVec 2 := 0
  testmode : Bool := false
  /-- Some sensor still reads at or above 125 °C (R419). -/
  hot : Bool := false
  /-- Flash bytes that an external programmer has written since the device last drove the flash, by
  2^24 × slot + slot offset. -/
  flash : List (Nat × Byte) := []
deriving DecidableEq, Repr

/-- Codewords decoded in a row with one outcome: how many, and how many symbols each had corrected; none where they were
uncorrectable (R51). -/
structure CwRun where
  n : Nat := 1
  fix : Option Nat := none
deriving DecidableEq, Repr

/-- What the receiver of a port sees in one port-clock cycle (R46, R47, R51, R52, R55, R56). Lanes are those within the
port. -/
inductive Sight where
  /-- The lane's received energy has stayed below the threshold for `ns`. -/
  | energyLow (lane ns : Nat)
  /-- A window of 512 ns ends in which the lane's recovered clock was off its reference by `ppm`. -/
  | clockOff (lane ppm : Nat)
  | codewords (runs : List CwRun)
  | localFault
  | remoteFault
  /-- The bits at the lane's expected marker position are no marker. -/
  | markerMiss (lane : Nat)
  /-- The markers of the port's lanes no longer fall within the deskew buffer of one another. -/
  | deskewLost
deriving DecidableEq, Repr

/-- The configuration of the boundary clock service (R269). -/
structure BcCfg where
  domain : Nat := 0
  logSync : Int := 0
  logAnnounce : Nat := 1
  announceTimeout : Nat := 3
  logMinDelayReq : Int := 0
  priority1 : Nat := 128
  priority2 : Nat := 128
  clockClass : Nat := 248
  clockAccuracy : Nat := 254
deriving DecidableEq, Repr

/-- A message of the boundary clock service that falls due: its port and messageType, the state the port is in, and the
frame (R269). -/
structure BcDue where
  port : Nat
  msgType : Nat
  state : Nat
  frame : List Byte
deriving DecidableEq, Repr

/-- What the two firmwares of a handover do (R367 to R370). -/
structure Handover where
  /-- A hold falls between the record's write and its acceptance. -/
  hold : Bool := false
  /-- TLVs of other types that the running firmware writes. -/
  extra : List (Nat × List Byte) := []
  /-- Bytes of the record that read back otherwise than they were written, by offset. -/
  upset : List (Nat × Byte) := []
  /-- TLV types that the new firmware knows. -/
  known : List Nat := [0x8001, 0x8002, 0x8003, 0x0004, 0x8005, 0x8006, 0x0007, 0x0008]
  /-- The new firmware runs with the microcode versions of the record. -/
  ucodeOk : Bool := true
  /-- Its own check of the restored state passes. -/
  stateOk : Bool := true
  /-- Messages of the boundary clock service that fall due in the pause. -/
  due : List BcDue := []
deriving DecidableEq, Repr

/-- A technology ability of Clause 73: width, rate code and MEDIA of a port (R43). -/
structure Ability where
  width : Nat := 1
  rate : Nat := 0
  media : Nat := 2
deriving DecidableEq, Repr

/-- The commands, one constructor per row of spec/opcode_table.json. DESIGN CHOICE, unsafe (log entry 9). -/
inductive Instr where
  -- commands of the command rings (R293)
  | nop (c : Cmd)
  | enable (c : Cmd) (ctx : HostRead) (bc : Option BcCfg)
  | disable (c : Cmd)
  | bookWrite (c : Cmd) (block : HostRead)
  | bookTurn (c : Cmd)
  | bookLoad (c : Cmd) (image : HostRead)
  | learnInsert (c : Cmd)
  | learnDelete (c : Cmd)
  | learnFlushAll (c : Cmd)
  | learnFlushPort (c : Cmd)
  | timeSet (c : Cmd)
  | timeStep (c : Cmd)
  | timeFreq (c : Cmd)
  | timeSlew (c : Cmd)
  | phase (c : Cmd)
  | phaseDef (c : Cmd) (rec_ : HostRead)
  | powerCap (c : Cmd)
  | bufStateNormal (c : Cmd)
  | bufStateTest (c : Cmd)
  | svcAlloc (c : Cmd)
  | svcFree (c : Cmd)
  | isolate (c : Cmd)
  | rejoin (c : Cmd)
  | sqReset (c : Cmd)
  | flashWrite (c : Cmd) (data : HostRead) (readBackOk : Bool)
  | imageVerify (c : Cmd) (k : Crypto)
  | castle (c : Cmd)
  | rollbackConfirm (c : Cmd) (vfuse fusesOk : Bool)
  | settingsSave (c : Cmd) (readBackOk : Bool)
  | snapshot (c : Cmd)
  | faultClear (c : Cmd)
  | unsupportedOpcode (opcode : BitVec 16) (c : Cmd)
  -- register accesses with a row of their own
  | hostCfgBoot (value : Reg) (ctx0 ctx1 : HostRead)
  | globalRstWrite (value : Reg)
  | deviceResetRelease (b : BoardIn)
  | timeNowLoRead
  | tourExclLoRead
  | faultFirstTLoRead
  | firstClr (value : Reg)
  | fomMinRst (s j : Nat) (value : Reg)
  | hwmRst (s : Nat) (value : Reg)
  | portMapWrite (s : Nat) (isRate : Bool) (value : Reg)
  | squareBroadcastWrite (offset : Nat) (value : Reg) (be : BitVec 4)
  | bar2Write (offset : Nat) (fn : Nat)
  | msixUnmask (fn vec : Nat) (entry : Option MsixEntry)
  | registerWrite (addr : Nat) (value : Reg) (be : BitVec 4) (poisoned : Bool)
  -- resets and boot
  | porAssert
  | porRelease (b : BoardIn)
  | bootImageChecked (k : Crypto)
  | perst (kind : LinkReset)
  | vfFlr (v : Nat)
  | busMasterEnableChange (fn : Nat) (on : Bool) (ctl : Option FnCtl)
  | hostLinkUp (speed width : Nat)
  | hostReadError (kind : ReadFail) (fn ring : Nat) (addr : W64)
  -- ring engine
  | doorbellPollRound
  | producerReadComplete (ring : Nat) (p : BitVec 32)
  | descriptorFetchComplete (ring : Nat) (descs : List (List Byte))
  | txFrameInject (ring : Nat) (bufs : List HostRead) (ecc : Option EccErr)
  | rxFrameDeliver
  | msixModTimeout (ring : Nat)
  -- frames at the MACs and the ingress
  | frameReceive (port : Nat) (data : List Byte) (fcsBad errored : Bool)
  | pfcReceive (port : Nat) (vec : BitVec 8) (times : List Nat)
  | pfcPauseExpire (port pri : Nat)
  | packHoldExpire (s lane : Nat)
  | recircParse (s : Nat)
  | cellEnterCore (s lane : Nat) (ecc : Option EccErr)
  | deferredFrameNumber (s eport cls : Nat)
  | heldFrameRelease (s q : Nat)
  | pfcRefresh (port pri : Nat)
  | blitzRecordLookup (s : Nat) (ecc : Option EccErr)
  -- the mesh
  -- crcBad: receiver and channel of transfers that arrive changed; memBad: squares and indices of cells whose
  -- stored copy has changed since it was written (R142, R146)
  | slotRelease (d0 d1 d2 : Nat) (stalled : List Nat) (crcBad memBad : List (Nat × Nat))
  | slotComplete (last : Nat)
  | slotStallTimeout
  | directReserveExpire (s cell : Nat)
  | tourPeriodBoundary (reseedBad : List Nat)
  | gapDeclare (e isq eport cls : Nat)
  | epochRetire
  | accountUpdate (dst : Nat) (queue : Option Nat)
  | captureClaim (e : Nat)
  -- the egress
  | egressSelect (port : Nat)
  | frameTransmitStart (port : Nat)
  | frameTransmitEnd (port : Nat)
  | postcardFrameClose (s : Nat)
  | gclLoadComplete (port : Nat)
  | gclStart (port : Nat)
  | gateEntryChange (port : Nat)
  | qsampPeriod (s : Nat)
  | bwWindowEnd
  -- links
  | linkDown (port : Nat) (seen : List Sight)
  | linkHoldExpire (port : Nat)
  | linkUp (port : Nat)
  | fomBlock (lane : Nat) (symbolErrors : Nat) (cws : List CwRun)
  | refclkLoss (k : Nat)
  | refclkReturn (k : Nat)
  | errorSecond
  | mgmtSyncLoss
  -- lifecycle
  | drainComplete (cls inst : Nat)
  | drainTimeout (cls inst : Nat)
  -- Book engines
  | learnEventApply
  | ageSweepVisit (entry : Nat)
  | fragSweep (s : Nat)
  | bookEccRepair (hit : EccHit) (source : Option Nat)
  | bookScrub (hit : EccHit) (bits : Nat)
  -- buffer engines
  | bufRecoveryEnd
  | bufAuditPeriod (s : Nat)
  | sqResetDone (s : Nat) (passed : Bool)
  -- reduction
  | redFrameDeliver
  | redRoutineRun (e : Nat) (accError : Bool)
  | redSlotTimeout (c slot : Nat) (accError : Bool)
  | redCstoreError (e word : Nat)
  | enginePowerUp (e : Nat)
  -- time
  | timeVote (o0 o1 o2 : Int)
  | slewComplete
  | timeRefLoss (isTimeclk : Bool) (k : Nat)
  | timeRefReturn (isTimeclk : Bool) (k ns : Nat)
  | evtInEdge (edges : List (Nat × Bool))
  | ppsLeadingEdge (k : Nat)
  | ppsWidthEnd (k : Nat)
  | bcMessageReceive (newState clockClass : Nat) (steer : Steer)
  | bcMessageDue (m : BcDue)
  -- Triad and faults
  | coreStoreVote (c : Nat) (addr data : W64) (be : BitVec 8)
  | storeVoteTimeout
  | holdEnd (d0 d1 d2 : Nat)
  | checkpoint (diverged : List Nat)
  | watchdogTimeout
  | selftestInterval (c : Nat) (tests : BitVec 5) (failId : Nat)
  | channelRejoinTestDone (c : Nat) (passed : Bool)
  | faultQuietExpire (n : Nat)
  | aliveEdge
  | slowSquareReport (s : Nat)
  -- tempo and power
  | canaryReport (s : Nat) (margin : Int)
  | governorTrim (s : Nat)
  | setpointSave
  | powerEstimate (est : Nat)
  | pmbusCorrection (pmb est : Nat)
  | powerLimiterAct
  | capUnattainable
  | thermalSensorUpdate (temps : List Int)
  | thermalLimiterAct
  | thermtrip (reading : Int)
  | phaseScheduleEntry
  | regulatorAlert
  -- Castling and scoresheet
  | castleHandover (h : Handover)
  | castleCommit (writeOk : Bool)
  | scoresheetCounterWrite (ok : Bool)
  | meshStart
  -- link bring-up
  | losClear (lane ns : Nat)
  | lolClear (lane ppm0 ppm1 : Nat)
  | adaptOk (port : Nat)
  | amLock (lane pos : Nat) (aligned : Bool)
  | fecCodewordLock (port : Nat)
  | faultSequenceClear (port : Nat) (localFault remoteFault : Bool)
  | autonegComplete (port : Nat) (partner : List Ability)
  | linkTrainingComplete (lane : Nat) (ok : Bool)
  | mgmtSyncAcquire
  | mgmtAutonegComplete (speed : Nat) (fullDuplex linkOk remoteFault : Bool) (drift : List Int)
  | mgmtFrameReceive (data : List Byte) (errored : Bool) (gap : List Int) (drift : Int)
  | summaryReadComplete (fn : Nat) (words : List W64)
  | swapComplete (fn word : Nat) (bits : W64)
  | castleLoadComplete (sigOk : Bool)
  | sriovVfEnable (on : Bool) (numVfs : Nat)
  | railOutOfRange (rail : Nat)
  | boundaryScanInstruction (i : TapInstr)
deriving DecidableEq, Repr

end Sys2Proof
end

