-- ==== Sys2Proof/Decode.lean ====
section
/-!
DEFINITION. The decoder of the opcode table's words.

The block takes commands, not instruction words: no row of the opcode table has bits, so no word
spells a command.
-/

namespace Sys2Proof

/-- The command that a word of the opcode table spells: none, since no row gives bits.
DESIGN CHOICE, safe (log entry 7). -/
def decodeTableWord (_nbits _w : Nat) : Option Instr := none

end Sys2Proof
end

