-- ==== Sys2Proof/Config.lean ====
section
/-!
DEFINITION. What one implementation fixes, and the free values.

A free value has no body: nothing can evaluate it, and a statement about it holds for every value.
-/

namespace Sys2Proof.Config

/-- Length of port-clock cycle `n` on the time PLL's reference, before the frequency adjustment, in
units of 2^-40 ns. Nominally 2/3 ns; the ratio the PLL measures is outside the device (R256).
DESIGN CHOICE, safe (log entry 4). -/
opaque cycleTime : Nat → Nat

/-- Internal receive latency with the measured deskew, of the frame stamped `n`-th, in 2^-16 ns (R266).
DESIGN CHOICE, safe (log entry 77). -/
opaque rxLatency : Nat → Nat

/-- Internal transmit latency of the frame stamped `n`-th, in 2^-16 ns (R266). -/
opaque txLatency : Nat → Nat

/-- Class of the frames of port 1089 at port 1088; the manual names none (R285).
DESIGN CHOICE, safe (log entry 76). -/
opaque mgmtClass : BitVec 4

/-- Class of the frames the boundary clock service sends; the manual names none (R268). -/
opaque bcTxClass : BitVec 4

/-- Slot that a FLASH_WRITE with parameters P0 and P1 targets in recovery mode; the manual lets it be either
and names no field for it (R359, R360). DESIGN CHOICE, safe (log entry 22). -/
opaque recoverySlot : Nat → Nat → Bool

/-- Contents of a flash byte (slot and offset) after an erase or program whose read-back failed (R360).
DESIGN CHOICE, safe (log entry 21). -/
opaque badFlash : Nat → BitVec 8

/-- Tempo in MHz that the silicon reaches in free-run, or that is measured there, at slot `n` after the last
reset, `c` port-clock cycles into the device's life (R328). DESIGN CHOICE, safe (log entry 59). -/
opaque naturalTempo : Nat → Nat → Nat

/-- Status of a SETTINGS_SAVE whose read-back fails; the manual names none (R365).
DESIGN CHOICE, safe (log entry 20). -/
opaque saveFailStatus : BitVec 8

/-- Which of two serial numbers 2^31 apart counts as the later; the manual names neither (R243).
DESIGN CHOICE, safe (log entry 37). -/
opaque serialTie : Nat → Nat → Bool

/-- CHANNEL of a result or abort sent to a member (channel, member index); the member record holds none (R237, R247).
DESIGN CHOICE, safe (log entry 83). -/
opaque memberChannel : Nat → Nat → BitVec 16

/-- Word of the control store that the reduction patch of an image of this version holds; the manual gives the
microcode's bits no meaning of their own (R239). DESIGN CHOICE, safe (log entry 124). -/
opaque redPatch : Nat → Nat → BitVec 256

/-- Payload byte of an abort frame, or one that LEN claims past the end of a reduction frame, by frame name
and offset; the manual states neither (R241, R249). -/
opaque redByte : Nat → Nat → BitVec 8

/-- Spacing in bits of the alignment markers of one lane, by rate code and width of the port; 802.3 fixes it for the PCS
(R52). DESIGN CHOICE, safe (log entry 117). -/
opaque amSpacing : Nat → Nat → Nat

/-- Consecutive mismatches after which 802.3 gives up marker lock, by rate code and width of the port (R52). -/
opaque amMisses : Nat → Nat → Nat

end Sys2Proof.Config
end

