-- ==== Sys2Proof/Machine/Map.lean ====
section
/-!
DEFINITION. Sparse maps in one canonical form, and the list, bit and byte-order helpers.

A sparse map is a list of keys with their values, keys strictly rising, no entry equal to what an
unlisted key reads as. What an unlisted key reads as is the function `d` its owner passes: its reset
contents. `set` keeps the form (Laws/Map.lean), so equal maps are equal lists.
-/

namespace Sys2Proof.Machine

/-- A sparse map by natural-number key. DESIGN CHOICE, unsafe (log entry 94). -/
abbrev SMap (α : Type) := List (Nat × α)

/-- The value at key `k`; `d k` where no entry lists it. -/
def SMap.get {α : Type} (d : Nat → α) : SMap α → Nat → α
  | [], k => d k
  | (j, v) :: m, k => if k = j then v else SMap.get d m k

/-- Remove what is listed for key `k`. -/
def SMap.erase {α : Type} : SMap α → Nat → SMap α
  | [], _ => []
  | (j, v) :: m, k => if k = j then SMap.erase m k else (j, v) :: SMap.erase m k

/-- Insert or replace the entry of key `k`, keeping keys in rising order. -/
def SMap.insert {α : Type} : SMap α → Nat → α → SMap α
  | [], k, x => [(k, x)]
  | (j, v) :: m, k, x =>
    if k < j then (k, x) :: (j, v) :: m
    else if k = j then (k, x) :: m
    else (j, v) :: SMap.insert m k x

/-- Write `x` at key `k`; writing what an unlisted key reads as removes the entry. -/
def SMap.set {α : Type} [DecidableEq α] (d : Nat → α) (m : SMap α) (k : Nat) (x : α) : SMap α :=
  if x = d k then SMap.erase m k else SMap.insert m k x

/-- Apply `f` to the value at key `k`. -/
def SMap.upd {α : Type} [DecidableEq α] (d : Nat → α) (m : SMap α) (k : Nat) (f : α → α) : SMap α :=
  SMap.set d m k (f (SMap.get d m k))

/-- Keys strictly rising. -/
def SMap.sorted {α : Type} : SMap α → Bool
  | [] => true
  | [_] => true
  | (j, _) :: (k, y) :: m => decide (j < k) && SMap.sorted ((k, y) :: m)

/-- No entry equals what an unlisted key reads as. -/
def SMap.noDefault {α : Type} [DecidableEq α] (d : Nat → α) (m : SMap α) : Bool :=
  m.all (fun e => decide (e.2 ≠ d e.1))

/-- The canonical form. -/
def SMap.wf {α : Type} [DecidableEq α] (d : Nat → α) (m : SMap α) : Bool :=
  SMap.sorted m && SMap.noDefault d m

/-! ### Tables without a default: an absent key has no entry -/

/-- The entry at key `k` of a table in which an unlisted key has none. -/
def tget {α : Type} (m : List (Nat × α)) (k : Nat) : Option α :=
  SMap.get (fun _ => none) (m.map (fun e => (e.1, some e.2))) k

/-- Is key `k` listed? -/
def thas {α : Type} (m : List (Nat × α)) (k : Nat) : Bool := (tget m k).isSome

/-- Apply `f` to the entry at key `k`, if it is listed. -/
def tmod {α : Type} (m : List (Nat × α)) (k : Nat) (f : α → α) : List (Nat × α) :=
  m.map (fun e => if e.1 = k then (e.1, f e.2) else e)

/-! ### Bits and bytes -/

/-- Field `[hi:lo]` of a natural number. -/
def bits (v hi lo : Nat) : Nat := v / 2 ^ lo % 2 ^ (hi + 1 - lo)

/-- Bit `i` of a natural number. -/
def bit (v i : Nat) : Bool := v / 2 ^ i % 2 == 1

/-- Bit `i` of a natural number set to `b`. -/
def setBit (v i : Nat) (b : Bool) : Nat :=
  if bit v i = b then v else if b then v + 2 ^ i else v - 2 ^ i

/-- Field `[hi:lo]` of a register. -/
def fld (r : Reg) (hi lo : Nat) : Nat := bits r.toNat hi lo

/-- Bit `i` of a register. -/
def rbit (r : Reg) (i : Nat) : Bool := bit r.toNat i

/-- A register with field `[hi:lo]` replaced. -/
def putFld (r : Reg) (hi lo v : Nat) : Reg :=
  let n := r.toNat
  BitVec.ofNat 32 (n - bits n hi lo * 2 ^ lo + v % 2 ^ (hi + 1 - lo) * 2 ^ lo)

def b2n (b : Bool) : Nat := if b then 1 else 0

/-- Number of set bits below `n`. -/
def popcount (v : Nat) : Nat → Nat
  | 0 => 0
  | n + 1 => popcount v n + b2n (bit v n)

/-- Bytes as a little-endian number (R8). -/
def leNat : List Byte → Nat
  | [] => 0
  | b :: bs => b.toNat + 256 * leNat bs

/-- Bytes as a big-endian number, network order (R8). -/
def beNat (bs : List Byte) : Nat := leNat bs.reverse

/-- `n` little-endian bytes of a number. -/
def leBytes : Nat → Nat → List Byte
  | 0, _ => []
  | n + 1, v => BitVec.ofNat 8 v :: leBytes n (v / 256)

/-- `n` big-endian bytes of a number. -/
def beBytes (n v : Nat) : List Byte := (leBytes n v).reverse

/-- `n` bytes from offset `o`; bytes past the end are absent. -/
def slice (bs : List Byte) (o n : Nat) : List Byte := (bs.drop o).take n

/-- `n`-byte little-endian field at offset `o`. -/
def leAt (bs : List Byte) (o n : Nat) : Nat := leNat (slice bs o n)

/-- `n`-byte big-endian field at offset `o`. -/
def beAt (bs : List Byte) (o n : Nat) : Nat := beNat (slice bs o n)

/-- `bs` with the bytes at offset `o` replaced. -/
def patch (bs : List Byte) (o : Nat) (xs : List Byte) : List Byte :=
  bs.take o ++ xs.take (bs.length - o) ++ bs.drop (o + xs.length)

/-- `⌈a / b⌉`. -/
def cdiv (a b : Nat) : Nat := (a + b - 1) / b

/-- `v` clipped to `lo..hi`. -/
def clip (lo hi v : Nat) : Nat := if v < lo then lo else if hi < v then hi else v

/-- 0 acts as 1. -/
def atLeast1 (v : Nat) : Nat := if v = 0 then 1 else v

/-- Serial comparison modulo 2^32: `a` lies after `b` (R243, R354). Numbers 2^31 apart are unordered. -/
def after32 (a b : Nat) : Bool :=
  let d := (a + 2 ^ 32 - b) % 2 ^ 32
  if d = 2 ^ 31 then Config.serialTie a b else decide (0 < d ∧ d < 2 ^ 31)

/-- Signed value of the low `n` bits. -/
def signed (n v : Nat) : Int :=
  let w := v % 2 ^ n
  if w < 2 ^ (n - 1) then (w : Int) else (w : Int) - 2 ^ n

/-- The numbers below `n` whose bit is set in `v`, ascending. -/
def bitList (v n : Nat) : List Nat := (List.range n).filter (fun i => bit v i)

/-- CRC-32C (Castagnoli, reflected polynomial 0x82F6_3B78), one byte. -/
def crc32cByte (c : Nat) (b : Byte) : Nat :=
  (List.range 8).foldl (fun c _ => if c % 2 = 1 then (c / 2) ^^^ 0x82F63B78 else c / 2)
    (c ^^^ b.toNat)

/-- CRC-32C of a list of bytes (R136, R142, R354). -/
def crc32c (bs : List Byte) : Nat := (bs.foldl crc32cByte 0xFFFFFFFF) ^^^ 0xFFFFFFFF

/-- Insertion of `x` into a list kept in rising order of `f`, after equals. -/
def insertBy {α : Type} (f : α → Nat) (x : α) : List α → List α
  | [] => [x]
  | y :: ys => if f x < f y then x :: y :: ys else y :: insertBy f x ys

/-- Stable sort by a key. -/
def sortBy {α : Type} (f : α → Nat) (xs : List α) : List α :=
  xs.foldl (fun acc x => insertBy f x acc) []

/-- Take one element out of a list: the first that `p` holds of, and the rest. -/
def takeFirst {α : Type} (p : α → Bool) : List α → Option (α × List α)
  | [] => none
  | x :: xs => if p x then some (x, xs) else (takeFirst p xs).map (fun r => (r.1, x :: r.2))

end Sys2Proof.Machine
end

