-- ==== Sys2Proof/Machine/State.lean ====
section
/-!
DEFINITION. The state of the device as plain data, its faults and refusals, and its reset value.

Every part follows one chapter of the spec. A table with one entry per square, port, queue and so on
is a sparse map (`SMap`): an entry that is not listed holds the default the accessor names, which is
the entry's reset value. Times are in units of 2^-40 ns.
-/

namespace Sys2Proof.Machine

/-! ### Frames and cells (R99, R146, R147, R286) -/

/-- Metadata of a frame on its second move (R99). -/
structure SecondMeta where
  epoch : Nat := 0
  origPort : Nat := 0
  winOff : Nat := 0
  vrf2 : Nat := 0
  cls : Nat := 0
  ingressNs : Nat := 0
deriving DecidableEq, Repr

/-- What a frame for the host carries to its receive ring (R97, R286). -/
structure HostTag where
  /-- Ring named by the policy record (R94); `none` selects the ring of `HOST_RX_MAP` (R285). -/
  ring : Option Nat := none
  reason : Nat := 0
  /-- 0 forwarding, 1 trap, 2 copy, 3 postcard (R286). -/
  action : Nat := 0
  second : Bool := false
deriving DecidableEq, Repr

/-- The frame word of R147 with the metadata that travels with a frame (R99, R286, R387).
DESIGN CHOICE, unsafe (log entry 46). -/
structure FrameHdr where
  /-- The model's own name of the frame; the hardware names it by START and END alone. -/
  fid : Nat := 0
  length : Nat := 0
  iport : Nat := 0
  colour : Nat := 0
  telem : Nat := 0
  nh : Option Nat := none
  fcsBad : Bool := false
  otag : Bool := false
  ingressNs : Nat := 0
  second : Option SecondMeta := none
  host : Option HostTag := none
  /-- Flow words F of R119, hashed into postcards (R388). -/
  flow : List W64 := []
  /-- Egress class carried for recirculation and postcards. -/
  cls : Nat := 0
  /-- Transmit ring that waits for this frame's return with its tag (R289); TS_REQ set. -/
  txRet : Option (Nat × Nat) := none
  /-- One-step Sync of the boundary clock service (R268). -/
  oneStep : Bool := false
  /-- Reduction steering word (R231) of a frame for port 1090. -/
  red : Option W64 := none
  /-- PTP frame steered to the service (R267). -/
  bc : Bool := false
  /-- May take a cut-through path (R66). -/
  ct : Bool := false
  /-- The trace or collector flag: frame built by the device (R113, R247, R389). -/
  built : Bool := false
  /-- Injected by the host interface: never metered (R218, R288). -/
  inj : Bool := false
deriving DecidableEq, Repr

/-- Bytes of one frame inside one cell (R147); `hdr` is present where the frame starts. -/
structure Seg where
  fid : Nat := 0
  hdr : Option FrameHdr := none
  bytes : List Byte := []
  last : Bool := false
  /-- The frame started in an earlier cell, ends here and failed its ingress FCS check (R147). -/
  badEnd : Bool := false
deriving DecidableEq, Repr

/-- Parse result of a frame (R78 to R86). Fields the parser could not take are zero. -/
structure Parse where
  dmac : Nat := 0
  smac : Nat := 0
  etype : Nat := 0
  otag : Bool := false
  tagged : Bool := false
  vid : Nat := 0
  pcp : Nat := 0
  /-- Key type of the ACL key (R85): 1 L2 only, 2 IPv4, 4 IPv6. -/
  kt : Nat := 1
  vrf : Nat := 0
  sa : Nat := 0
  da : Nat := 0
  dscp : Nat := 0
  ecn : Nat := 0
  proto : Nat := 0
  sport : Nat := 0
  dport : Nat := 0
  tcpFlags : Nat := 0
  ttl : Nat := 0
  opts : Bool := false
  /-- 0 not a fragment, 1 first, 2 non-first (R86). -/
  frag : Nat := 0
  ident : Nat := 0
  vni : Option Nat := none
  /-- Marked as reduction (R79), with the steering word when it lies in the window (R231). -/
  redMark : Bool := false
  redSteer : Option W64 := none
  ptp : Bool := false
  ptpMsg : Nat := 0
  /-- Parser reasons met (R92). -/
  reasons : List Nat := []
  iport : Nat := 0
  second : Bool := false
  /-- Frame bytes without FCS. -/
  len : Nat := 0
  /-- Window offset of the pass (R77, R100). -/
  winOff : Nat := 0
  tagBad : Bool := false
deriving DecidableEq, Repr

/-- The forwarding context of a frame: egress port and class (R148). -/
structure Ctx where
  eport : Nat := 0
  cls : Nat := 0
deriving DecidableEq, Repr

/-- What the core decided for a frame at its first cell (R93, R95, R98, R124, R185). -/
structure Verdict where
  /-- Where the frame itself goes, with its completed header; `none` = dropped. -/
  main : Option (Ctx × FrameHdr) := none
  /-- The frame is held at the ingress (R187). -/
  held : Bool := false
  /-- A second copy for the host (R95 copy). -/
  copy : Option (Ctx × FrameHdr) := none
  copyHeld : Bool := false
  epoch : Nat := 0
deriving DecidableEq, Repr

/-- A cell in an ingress or recirculation crossing, with the parse results of the frames that start
in it (R16). -/
structure RawCell where
  segs : List Seg := []
  parses : List (Nat × Parse) := []
  /-- Forwarding context previewed when the cell was filled (R147). -/
  ctx : Option Ctx := none
deriving DecidableEq, Repr

/-- An open cell of a parse lane (R147). -/
structure OpenCell where
  cell : RawCell := {}
  /-- Slot number at which its last frame ended; `none` while a frame still runs in it. -/
  endSlot : Option Nat := none
deriving DecidableEq, Repr

/-- Where a cell in memory stands in its life (R148 to R153, R187). -/
inductive CellSt where
  | deferred   -- waits for its number (R148)
  | held       -- lossless, held at the ingress (R187)
  | waiting    -- waits for its first move (R149)
  | unannounced -- at its holding square, ARRIVE not yet sent (R152)
  | announced  -- linked or parked by its egress square
  | pulled     -- a PULL has reached the holding square (R153)
  | released   -- delivered or discarded; its free was discarded because its square is in X (R176)
deriving DecidableEq, Repr

/-- One cell of a square's memory with its side-band header (R146), its pool tags (R172) and its
life. COUNT, START and END are what `segs` says. -/
structure Cell where
  typ : Nat := 0
  isq : Nat := 0
  ctx : Ctx := {}
  seq : Nat := 0
  epoch : Nat := 0
  segs : List Seg := []
  bad : Bool := false
  /-- The cell was found not to match its CRC-32C and is marked bad (R142). -/
  crcBad : Bool := false
  /-- CRC-32C stored with the cell, over its header and its 256 payload bytes (R146). -/
  crc : BitVec 32 := 0
  owner : Nat := 0
  age : Nat := 0
  st : CellSt := .waiting
  /-- Its place in the numbering order of its ingress square (R149). -/
  num : Nat := 0
  /-- Slot in which it was numbered (R150). -/
  numSlot : Nat := 0
  reserved : Bool := false
  /-- Slot of its first move (R152). -/
  sendSlot : Nat := 0
  /-- Pull-buffer position asked for (R153). -/
  pullPos : Nat := 0
deriving DecidableEq, Repr

/-- A deferred frame of a context (R148): its cells wait unnumbered. -/
structure Deferred where
  fid : Nat := 0
  cells : List Nat := []
  done : Bool := false
  held : Bool := false
deriving DecidableEq, Repr

/-- Numbering state of one context at its ingress square (R148). -/
structure CtxIn where
  next : Nat := 0
  owner : Option Nat := none
  /-- The owner was deferred: its later cells, too, stay at the ingress square (R148). -/
  kept : Bool := false
  deferred : List Deferred := []
deriving DecidableEq, Repr

/-- Staging of an admitted frame whose last cell is not yet written (R185). -/
structure Staging where
  fid : Nat := 0
  need : Nat := 0
  written : Nat := 0
deriving DecidableEq, Repr

/-- A parked entry of the resequencer (R154). -/
structure Parked where
  seq : Nat := 0
  hsq : Nat := 0
  idx : Nat := 0
  sendSlot : Nat := 0
  bad : Bool := false
  order : Nat := 0
deriving DecidableEq, Repr

/-- Resequencer state of one context at its egress square (R154, R155). -/
structure CtxOut where
  exp : Nat := 0
  parked : List Parked := []
  /-- Tour-period boundaries counted since every watermark passed the lowest parked cell, with that
  cell's sequence number (R155). -/
  gapFor : Nat := 0
  gapCount : Nat := 0
  /-- Frame of the context whose bytes still run, if any (R157). -/
  running : Option Nat := none
deriving DecidableEq, Repr

/-- A linked pointer of a frame (R154). -/
structure CellRef where
  hsq : Nat := 0
  idx : Nat := 0
  seq : Nat := 0
  bad : Bool := false
  /-- The pointer was marked lost with its square (R168), or its memory is gone. -/
  lost : Bool := false
deriving DecidableEq, Repr

/-- A frame in an egress queue (R202). -/
structure QFrame where
  fid : Nat := 0
  hdr : FrameHdr := {}
  isq : Nat := 0
  typ : Nat := 0
  epoch : Nat := 0
  refs : List CellRef := []
  complete : Bool := false
  /-- A gap ended the frame before its last byte (R157). -/
  gap : Bool := false
  /-- The frame's own FCS verdict is bad (R147, R157). -/
  fcs : Bool := false
  ecn : Bool := false
  qdepth : Nat := 0
  tourDelay : Nat := 0
  linkSlot : Nat := 0
  selected : Bool := false
  started : Bool := false
  /-- Bytes that have passed into the egress crossing (R153), and the cells they came in. -/
  bytes : List Byte := []
  passed : Nat := 0
  /-- A cell that has passed was bad (R157). -/
  crc : Bool := false
deriving DecidableEq, Repr

/-- One position of the pull buffer (R153). -/
structure PullPos where
  pos : Nat := 0
  fids : List Nat := []
  port : Nat := 0
  ref : CellRef := {}
  /-- The cell, once it is at the egress. -/
  data : Option Cell := none
  /-- Taken only to free a captured or discarded cell (R193). -/
  skip : Bool := false
deriving DecidableEq, Repr

/-- A PULL record waiting for the next slot its pair shares (R152, R153). -/
structure PullRec where
  hsq : Nat := 0
  idx : Nat := 0
  pos : Nat := 0
deriving DecidableEq, Repr

/-- A token bucket: contents in the unit its rule names, as they stood at an elapsed time. -/
structure Bucket where
  tok : Int := 0
  at_ : Tick := 0
deriving DecidableEq, Repr

/-- The bucket pair of a trTCM meter (R216), in units of 1 byte ÷ (10^9 × 2^40); `tp` is te in RFC 4115
mode. A rate of 1 kb/s fills 125 such units in each time unit, so contents are exact. -/
structure MeterSt where
  tc : Int := 0
  tp : Int := 0
  at_ : Tick := 0
deriving DecidableEq, Repr

/-- One settled lookup up to, but not including, ECMP resolution (R87, R124). -/
structure LookRes where
  kind : Nat := 0
  target : Nat := 0
  cls : Nat := 0
  meter : Option Nat := none
  telem : Nat := 0
  second : Option (Nat × Nat) := none
  /-- Port of a learn-cache hit (R124). -/
  learned : Option Nat := none
  reasons : List Nat := []
  aclDrop : Bool := false
deriving DecidableEq, Repr

/-- An entry of the fragment table (R87). -/
structure FragEnt where
  key : List W64 := []
  epoch : Nat := 0
  created : Tick := 0
  res : LookRes := {}
deriving DecidableEq, Repr

/-- A learn event (R126). -/
structure LearnEv where
  key : W64 := 0
  port : Nat := 0
deriving DecidableEq, Repr

/-- A Blitz frame record in the hand-off crossing (R16, R163). -/
structure BlitzRec where
  entry : Nat := 0
  eport : Nat := 0
  parse : Parse := {}
  hdr : FrameHdr := {}
  /-- Egress stamp in ns, length and stomp of the frame once its transmission has ended (R387). -/
  done : Option (Nat × Nat × Bool) := none
deriving DecidableEq, Repr

/-- A postcard record (R388), kept as its 32 bytes in little-endian order. -/
structure Postcard where
  bytes : List Byte := []
  /-- Elapsed time at which it was made (R389). -/
  at_ : Tick := 0
deriving DecidableEq, Repr

/-- A recirculated frame waiting for its second parse (R76). -/
structure RecircFrame where
  hdr : FrameHdr := {}
  bytes : List Byte := []
  sm : SecondMeta := {}
deriving DecidableEq, Repr

/-- A capture claim on its way to the square that holds a port's queues (R192). -/
structure Claim where
  from_ : Nat := 0
  queue : Nat := 0
  cells : Nat := 0
deriving DecidableEq, Repr

/-- State of one square. Every default is the state after a reset that clears the square. -/
structure Sq where
  /-- Open cell of each parse lane 0–3 (R147). -/
  opened : SMap OpenCell := []
  /-- Ingress crossings of parse lanes 0–3 and the recirculation crossing towards the core at key 4 (R16). -/
  xing : SMap (List RawCell) := []
  /-- Cells of frames whose first cell has entered a full crossing, on their way into it, with the same keys (R18). -/
  backlog : SMap (List RawCell) := []
  /-- Frames of the recirculation crossing towards the port domain, oldest first (R16, R76). -/
  recirc : List RecircFrame := []
  /-- Parse lane of the next frame of the 8-lane port at base 0 and at base 8: true = upper lane (R74). -/
  alt : SMap Bool := []
  /-- Core side of that alternation (R74). -/
  altCore : SMap Bool := []
  /-- Verdicts of frames whose first cell has entered the core and whose last has not. -/
  verdicts : SMap Verdict := []
  /-- Cell memory: the cells in use, by index 0–16,383 (R172). An index not listed is free. -/
  cells : List (Nat × Cell) := []
  /-- Rotation pointer P of the pool manager and of claims (R174, R193). -/
  rotP : Nat := 0
  /-- Contexts by 16 × egress port + class at the ingress (R148). -/
  ctxIn : SMap CtxIn := []
  /-- Cells waiting for a first move, in numbering order (R149). -/
  waiting : List Nat := []
  /-- Cells numbered so far: the place of the next one in the numbering order (R149). -/
  numNext : Nat := 0
  /-- Cells held for a queue, in numbering order (R187). -/
  heldCells : List Nat := []
  staging : List Staging := []
  /-- TYPE 1 frames: frames whose head made a direct move (R151). -/
  eager : List Nat := []
  /-- Most recent IDLE vector of each square (R152). -/
  idleView : SMap Nat := []
  /-- Resequencer contexts by 2^15 × ingress square + 16 × egress port + class... (R154). -/
  ctxOut : SMap CtxOut := []
  /-- Order of the next parked entry (R156). -/
  parkOrder : Nat := 0
  /-- RESEQ_STAT.HWM (R170). -/
  reseqHwm : Nat := 0
  /-- Latest watermark received from each square (R152). -/
  marks : SMap Nat := []
  /-- Pull buffer in position order (R153). -/
  pullBuf : List PullPos := []
  pullNext : Nat := 0
  /-- PULL records not yet sent (R153). -/
  pulls : List PullRec := []
  /-- Cells of removed frames held elsewhere that still wait for a discard pull (R193). -/
  discards : List CellRef := []
  /-- PULL requests received: egress square, cell index and position (R153). -/
  pullReqs : List (Nat × PullRec) := []
  /-- Global free count last received (R180). -/
  viewGf : Nat := 0
  /-- LEVEL of each queue last received (R180). -/
  viewLevel : SMap Nat := []
  /-- VICTIM bit of each queue last received (R180). -/
  viewVictim : SMap Bool := []
  /-- Capture claims received and not yet carried out (R193). -/
  claims : List Claim := []
  /-- Priorities in XOFF by 8 × local lane + priority (R188). -/
  xoff : SMap Bool := []
  /-- Elapsed time at which the XOFF of a priority was last sent, with the same keys (R189). -/
  xoffAt : SMap Tick := []
  /-- Pause timers by 8 × local lane + priority: elapsed time of their end (R191). -/
  pause : SMap Tick := []
  /-- Fragment table by 4 × set + way (R87). -/
  frag : List (Nat × FragEnt) := []
  /-- Policy buckets by reason, in 10^-9 token (R96). -/
  policy : SMap Bucket := []
  /-- Meter bucket pairs by index (R216). `none` listed nowhere: full at the record in force. -/
  meters : List (Nat × MeterSt) := []
  /-- Learn event queue (R126). -/
  learnQ : List LearnEv := []
  /-- Blitz hand-off crossing (R16). -/
  blitz : List BlitzRec := []
  /-- Postcard queue (R388) and the next sequence number. -/
  postcards : List Postcard := []
  pcSeq : Nat := 0
  /-- Sample counters by local lane (R387). -/
  sampleCnt : SMap Nat := []
  /-- Square fenced for the rest of the period (R167). -/
  fenced : Bool := false
  /-- Reset and self-test of the square: 0 none, 1 running, 2 passed, 3 failed (R169, R418). -/
  resetSt : Nat := 0
  /-- Command ring and tag that wait for the reset's end. -/
  resetCmd : Option (Nat × BitVec 32) := none
  /-- End of the last audit period, and `BUF_AUDIT` as it was latched then (R199, R201). -/
  auditAt : Tick := 0
  /-- End of the last sampling period (R227). -/
  qsampAt : Tick := 0
  audit : Reg := 0x800A03E8
  /-- Periods in a row recorded as completing last, as the time of the first (R166). -/
  lastSince : Option Tick := none
  lastRecorded : Bool := false
deriving DecidableEq, Repr

/-! ### Lanes and links (chapter 02) -/

/-- One serial lane. -/
structure Lane where
  los : Bool := false
  lol : Bool := false
  /-- Step 3 reached: signal qualified (R46). -/
  sig : Bool := false
  /-- Step 5 reached: CDR locked (R47). -/
  cdr : Bool := false
  am : Bool := false
  fom : Nat := 0
  fomMin : Nat := 255
  /-- TRAIN_STATE: 0 idle, 1 training, 2 trained, 3 failed. -/
  train : Nat := 0
  /-- The FOM has held at or above MIN_FOM since this elapsed time (R49). -/
  fomOkAt : Option Tick := none
  /-- Bit position of the candidate marker; with lock, the position of the marker it was declared at (R52). -/
  cand : Option Nat := none
  /-- Mismatches in a row at the expected marker positions (R52). -/
  misses : Nat := 0
deriving DecidableEq, Repr

/-- Class of a second (R60). -/
inductive SecClass where
  | clean | es | ses
deriving DecidableEq, Repr

/-- One front-panel port's link, by base lane. -/
structure Link where
  up : Bool := false
  fec : Bool := false
  deskew : Bool := false
  adapt : Bool := false
  anDone : Bool := false
  rxLf : Bool := false
  rxRf : Bool := false
  /-- UP_HOLD runs since this elapsed time (R50). -/
  upHold : Option Tick := none
  cause : Nat := 0
  lane : Nat := 255
  /-- Down event whose LINK_HOLD still runs (R196). -/
  holdFrom : Option Tick := none
  /-- The hold was extended because UP_HOLD was running (R196). -/
  holdExt : Bool := false
  /-- Lossless frames are dropped as link down (R196). -/
  discarding : Bool := false
  /-- Error seconds: the first whole second has begun, the link was down in it, uncorrectable
  codewords in it, and the delay line of 10 seconds, oldest first (R60, R61). -/
  secOn : Bool := false
  secDown : Bool := false
  secUcw : Nat := 0
  secs : List SecClass := []
  /-- An unavailable period runs (R60). -/
  uas : Bool := false
  /-- Uncorrectable codewords in a row (R56). -/
  ucwRun : Nat := 0
deriving DecidableEq, Repr

/-- Link of the management port (R68 to R71). -/
structure MgmtLink where
  sync : Bool := false
  anDone : Bool := false
  up : Bool := false
  /-- SPEED: 0 = 10, 1 = 100, 2 = 1,000 Mb/s. -/
  speed : Nat := 2
  rxRf : Bool := false
  halfDuplex : Bool := false
  /-- Auto-negotiation runs since this elapsed time (R68). -/
  anFrom : Option Tick := none
  /-- Code-groups in the elastic buffer (R70). -/
  fill : Int := 16
deriving DecidableEq, Repr

/-! ### Lifecycle (R11, R25 to R38) -/

inductive Life where
  | off | on | draining
deriving DecidableEq, Repr

/-- Lifecycle state of one function. -/
structure Fn where
  st : Life := .off
  /-- Draining under a command of its own; false while it drains with its container (R31). -/
  own : Bool := true
  since : Tick := 0
  deadline : Tick := 0
  discarded : Nat := 0
  /-- The timeout has ended and only frames in transmission remain (R27). -/
  timedOut : Bool := false
  /-- Disabled by a phase (R334). -/
  byPhase : Bool := false
  /-- The container that drains this function (function key), if any (R31). -/
  inside : Option Nat := none
deriving DecidableEq, Repr

/-! ### The Book (chapter 04) -/

/-- An entry of the learn cache (R125). -/
structure LearnEnt where
  key : W64 := 0
  port : Nat := 0
  /-- HIT bits of the 8 replicas. -/
  hit : Nat := 0
  idle : Bool := false
  static : Bool := false
  flap : Bool := false
  moved : Bool := false
  /-- MOVE_T: elapsed µs of the last applied move, low 32 bits. -/
  moveT : Nat := 0
deriving DecidableEq, Repr

/-- A committed turn: the commit word of R133. -/
structure Turn where
  epoch : Nat := 0
  mask : Nat := 0
  act : Nat := 0
deriving DecidableEq, Repr

/-- The live old epoch (R134). -/
structure OldEpoch where
  epoch : Nat := 0
  mask : Nat := 0
  swapAt : Tick := 0
  stragglers : Nat := 0
deriving DecidableEq, Repr

/-- A host learn command waiting for the learn engine (R129). -/
structure LearnCmd where
  op : Nat := 0
  key : W64 := 0
  port : Nat := 0
  static : Bool := false
  ring : Nat := 0
  tag : BitVec 32 := 0
  opcode : Nat := 0
deriving DecidableEq, Repr

structure Book where
  /-- Words of the active side of each volume, by 2^22 × volume + byte offset ÷ 8 (R105). -/
  active : SMap W64 := []
  /-- Words of the standby side (R105). While an old epoch is live, its volumes' old sides. -/
  standby : SMap W64 := []
  /-- Volume map in force: SIZE × 2^16 + BASE by volume (R106). -/
  map : SMap Nat := []
  /-- New map loaded and not yet turned to (R106). -/
  newMap : Option (SMap Nat) := none
  /-- Bit v: the standby side of volume v was loaded or written since it became standby (R133). -/
  loaded : Nat := 0
  /-- Bit v: side B of volume v is the active one (R105). -/
  sideB : Nat := 0
  epoch : Nat := 0
  lastOld : Nat := 0
  old : Option OldEpoch := none
  turn : Option Turn := none
  /-- At least one turn since POR_N (R139 LOADED). -/
  turned : Bool := false
  /-- Epoch from which the policy records are read from volume 0 (R94). -/
  policyFrom : Option Nat := none
  /-- The volume map that belongs to the old epoch. -/
  oldMap : SMap Nat := []
  /-- Learn cache by 4 × set + way (R125). -/
  learn : List (Nat × LearnEnt) := []
  /-- Source the learn engine served last, 0–63 squares, 64 host (R127). -/
  learnRot : Nat := 64
  learnCmds : List LearnCmd := []
  /-- Elapsed time of the sweeper's last visit to each learn-cache entry (R128). -/
  sweptAt : List (Nat × Tick) := []
  /-- Words known bad, by replica × 2^24 + area × 2^22 + word (R138). -/
  badWords : SMap Bool := []
  /-- Link state vector bits by port, as the replicas see it (R58, R121). -/
  lsv : SMap Bool := []
deriving DecidableEq, Repr

/-! ### Mesh, buffer and egress (chapters 05 to 07) -/

structure Tour where
  running : Bool := false
  /-- Slot number of R140: the slot released or about to be released. -/
  slot : Nat := 0
  /-- The slot is released and not complete (R141). -/
  released : Bool := false
  /-- Bit i: square i has not signalled completion of the released slot (R140, R167). -/
  unfinished : Nat := 0
  lastReleased : Nat := 0
  /-- Elapsed time of the last release (R141, R167). -/
  releasedAt : Tick := 0
  /-- Run-time excluded set X (bit mask over squares), and the set in force in the mesh (R145). -/
  x : Nat := 0
  xInForce : Nat := 0
  /-- Squares added to X: the source + 1, or 0x10000 for ISOLATE (R320). -/
  xSource : SMap Nat := []
  /-- Squares whose rejoin waits for the next boundary (R169), and the commands that wait. -/
  rejoin : Nat := 0
  slow : Bool := false
  slowSq : Nat := 0
  /-- Current attachment squares of the host interface and of the services complex (R14). -/
  attHost : Nat := 27
  attSvc : Nat := 28
  /-- The slot is at the end of a period and its boundary is due. -/
  boundary : Bool := false
deriving DecidableEq, Repr

/-- A buffer-state change accepted and not yet made (R183, R426). -/
structure BufChange where
  target : Nat := 0
  regs : SMap Reg := []
deriving DecidableEq, Repr

structure Buf where
  /-- 0 STARTUP, 1 NORMAL, 2 TEST, 3 RECOVERY (R182). -/
  state : Nat := 0
  pending : List BufChange := []
  /-- End of RECOVERY (R182). -/
  recovEnd : Tick := 0
  /-- The end of RECOVERY is due and waits for the boundary (R183). -/
  recovDue : Bool := false
  /-- Global free count last summed (R180). -/
  gf : Nat := 0
deriving DecidableEq, Repr

/-- Egress queue (chapter 07). -/
structure Queue where
  frames : List QFrame := []
  tag : Option Nat := none
  shaper : Option Bucket := none
  depthHwm : Nat := 0
  depthNow : Nat := 0
  delayLast : Nat := 0
  delayMax : Nat := 0
deriving DecidableEq, Repr

/-- What a frame's next hop writes at the egress (R113, R425), as the frame's start reads it. -/
structure Rewrite where
  route : Bool := false
  tag : Bool := false
  vid : Nat := 0
  dmac : Nat := 0
  smac : Nat := 0
deriving DecidableEq, Repr

/-- Frame in transmission at a port. -/
structure Tx where
  fid : Nat := 0
  cls : Nat := 0
  /-- Egress stamp in ns (R262), and the transmit stamp at the balls (R266). -/
  startNs : Nat := 0
  /-- Elapsed time of the first byte: a later byte is due after the bytes before it (R159). -/
  startAt : Tick := 0
  stamp : Tick := 0
  rw : Option Rewrite := none
  /-- Cause of a stomp already known: 0 FCS, 1 CRC, 2 gap, 3 underrun (R158); 4 Blitz mismatch. -/
  stomp : Option Nat := none
  blitz : Option (List Byte) := none
  hdr : FrameHdr := {}
  /-- Depth, slots and ECN mark of the frame at linking (R194, R387). -/
  qdepth : Nat := 0
  tourDelay : Nat := 0
  ecn : Bool := false
  epoch : Nat := 0
  /-- A gate closed on the frame before device time `gateFrom`, up to which the lists then in force are judged (R223). -/
  overrun : Bool := false
  gateFrom : Nat := 0
deriving DecidableEq, Repr

/-- A gate control list (R221). -/
structure GateList where
  num : Nat := 0
  base : Nat := 0
  cycle : Nat := 0
  /-- ENTRY_OFF of the header. -/
  off : Nat := 0
  entries : List (Nat × Nat) := []
deriving DecidableEq, Repr

/-- Egress state of a port. -/
structure EPort where
  /-- Virtual time V (R209). -/
  v : Nat := 0
  shaper : Option Bucket := none
  tx : Option Tx := none
  /-- Frames selected and not yet started, in selection order. -/
  selected : List Nat := []
  gate : Option GateList := none
  pendGate : Option (GateList × Nat) := none
  /-- A load of this list is in progress (R224). -/
  loadGate : Option Nat := none
  gateEntry : Nat := 0
  /-- Bytes in the current bandwidth window (R382). -/
  bwRx : Nat := 0
  bwTx : Nat := 0
deriving DecidableEq, Repr

/-! ### Reduction (chapter 08) -/

/-- Input descriptor (R241). -/
structure InDesc where
  hdr : List Byte := []
  sa : Nat := 0
  payload : List Byte := []
  buf : Nat := 0
  udpLen : Nat := 0
deriving DecidableEq, Repr

/-- Slot word (R243) with the two accumulator buffers (R240). -/
structure Slot where
  state : Nat := 0
  sel : Bool := false
  partial_ : Bool := false
  len : Nat := 0
  gen : Nat := 0
  block : Nat := 0
  bitmap : Nat := 0
  /-- T0: elapsed time in µs, low 32 bits, at which the slot was claimed or sent up. -/
  t0 : Nat := 0
  acc0 : List (BitVec 32) := []
  acc1 : List (BitVec 32) := []
deriving DecidableEq, Repr

/-- A reduction channel, with the fields latched at its enable (R238). -/
structure Chan where
  op : Nat := 0
  dtype : Nat := 0
  ncontrib : Nat := 0
  window : Nat := 0
  blockBytes : Nat := 0
  slots : SMap Slot := []
  inq : List InDesc := []
  /-- Slots whose timeout routines are due and wait for the dispatcher (R242, R250). -/
  due : List Nat := []
  /-- Abandons in a row of the routine at the head (R251). -/
  abandons : Nat := 0
  accBufs : List Nat := []
deriving DecidableEq, Repr

/-- A reduction engine (R239, R242). -/
structure Engine where
  /-- Channel that holds the slice, routines run in a row, and last urgent channel served. -/
  sliceCh : Nat := 0
  sliceCnt : Nat := 0
  urgentLast : Nat := 0
  powered : Bool := true
  /-- Channel whose routine runs and has not committed. -/
  running : Option Nat := none
  /-- Output stage: context and bytes of the frames that a routine emits, in order, until its commit releases them to
  injection (R239, R244). -/
  out : List (Ctx × List Byte) := []
  /-- Control store: the data of its 2,048 words of 256 bits (R239). -/
  cstore : List (BitVec 256) := []
deriving DecidableEq, Repr

/-- A frame the device itself injects or holds whole: its header and bytes without FCS. -/
structure WholeFrame where
  hdr : FrameHdr := {}
  bytes : List Byte := []
  ctx : Ctx := {}
  /-- Book epoch of its lookup (R286). -/
  epoch : Nat := 0
deriving DecidableEq, Repr

structure Red where
  chans : SMap Chan := []
  engines : SMap Engine := []
  /-- Loaded reduction microcode version; 0 = not loaded (R254). -/
  ver : Reg := 0
  /-- The Triad's copy of the control store's words, from the reduction patch of the image started (R239, R251). -/
  patch : List (BitVec 256) := []
  /-- Services memory: owner tag by 2^16 × pool + buffer (R178). -/
  svc : List (Nat × Nat) := []
  svcRotP : Nat := 0
  /-- Frames port 1090 has delivered, oldest first (R241, R267). -/
  inbox : List WholeFrame := []
  /-- Frames waiting for cells at the attachment square (R175). -/
  outbox : List WholeFrame := []
deriving DecidableEq, Repr

/-! ### Time (chapter 09) -/

/-- Pulse output (R265). -/
structure Pps where
  active : Bool := false
  /-- Device time at which the pulse ends. -/
  widthEnd : Tick := 0
deriving DecidableEq, Repr

/-- An edge waiting for posting (R264). -/
structure Edge where
  input : Nat := 0
  falling : Bool := false
  stamp : Tick := 0
deriving DecidableEq, Repr

/-- A stamp kept for the boundary clock service: the frame, the stamp at the balls, and delayAsymmetry of its port as it
stood then, in 1/256 ns (R266, R269). -/
structure BcStamp where
  fid : Nat := 0
  stamp : Tick := 0
  asym : Int := 0
deriving DecidableEq, Repr

/-- The last Sync of a port: its frame, its transmit stamp once taken, and whether it was reported lost (R268). -/
structure BcSync where
  fid : Nat := 0
  stamp : Option Tick := none
  lost : Bool := false
deriving DecidableEq, Repr

structure TimeSt where
  /-- The three counters (R255, R257). -/
  c0 : Tick := 0
  c1 : Tick := 0
  c2 : Tick := 0
  /-- Elapsed time since reset (R258). -/
  elapsed : Tick := 0
  /-- Second of device time that runs (R60), and bandwidth window that runs (R382). -/
  second : Nat := 0
  bwWin : Nat := 0
  /-- Port-clock cycles counted, the index of the free rate (R256). -/
  cycles : Nat := 0
  /-- Frequency adjustment in 2^-8 ppb (R259). -/
  freq : Int := 0
  /-- Offset of a slew not yet used up (R259). -/
  slew : Int := 0
  slewing : Bool := false
  isSet : Bool := false
  latchHi : Reg := 0
  latchFrac : Reg := 0
  holdover : Bool := false
  noRef : Bool := false
  /-- TIMECLK_IN is fit for use: present since the start, or 10 ms of good edges since it returned (R256). -/
  tclkOk : Bool := false
  refUsed : Nat := 0
  pps : SMap Pps := []
  edges : SMap (List Edge) := []
  /-- Boundary clock service: port states (0 INITIALIZING … 9 SLAVE) by port, clockClass in force,
  stamps kept for the service (R266, R269, R270). -/
  bcPorts : SMap Nat := []
  bcClass : Nat := 248
  bcStamps : List BcStamp := []
  /-- Messages that fell due while the firmware services paused (R270). -/
  bcTxDue : List BcDue := []
  bcCfg : BcCfg := {}
  /-- Syncs by port that wait for their Follow_Up (R268). -/
  bcSync : SMap BcSync := []
  /-- Pdelay, Signaling and Management messages discarded (R269). -/
  bcIgnored : Nat := 0
  /-- Stamp of the last 1 PPS edge (R269). -/
  bcPps : Option Tick := none
deriving DecidableEq, Repr

/-! ### Host interface (chapter 10) -/

/-- An event entry (R295). -/
structure Event where
  type : Nat := 0
  sub : Nat := 0
  src : Nat := 0
  time : Nat := 0
  payload : List Byte := []
  seq : Nat := 0
deriving DecidableEq, Repr

/-- A ring (R277 to R284): the device's copy of its context and its own counts. -/
structure Ring where
  type : Nat := 0
  base : Nat := 0
  log2 : Nat := 6
  fn : Nat := 0
  vec : Nat := 65535
  modCnt : Nat := 0
  modTime : Nat := 0
  bufSize : Nat := 1
  /-- HOST_CFG.SPLIT_WB as the ring's enable found it (R21, R280). -/
  splitWb : Bool := true
  /-- Descriptors returned, C (R279). -/
  c : Nat := 0
  /-- Fetch point and last producer word read. -/
  fetch : Nat := 0
  prod : Nat := 0
  /-- Descriptors asked for and not yet arrived (R282). -/
  asked : Nat := 0
  /-- Descriptors fetched and not yet filled, run or accepted, oldest first. -/
  fetched : List (List Byte) := []
  /-- Bytes 0–27 of the command accepted and not yet returned (R291). -/
  accepted : Option (List Byte) := none
  /-- Returns made and not yet written, bytes 0–27 and return word: they wait while the function may
  issue no requests (R302). -/
  retq : List (List Byte × Nat) := []
  stopped : Bool := false
  unsignalled : Nat := 0
  oldest : Tick := 0
  /-- Device-side event queue (R295). -/
  evq : List Event := []
  /-- Transmit frames not yet returned, in ring order: frame name, outcome (status, stamp) once known,
  and the bytes of its descriptors (R289). -/
  txWait : List (Nat × Option (Nat × Nat) × List Byte) := []
deriving DecidableEq, Repr

structure HostIf where
  linkUp : Bool := false
  /-- SPEED and WIDTH of HOST_STAT (R273). -/
  speed : Nat := 0
  width : Nat := 0
  bootOn : Bool := false
  /-- Bus Master Enable by function (R302). -/
  bme : SMap Bool := []
  vfEnable : Bool := false
  /-- Control fields of each function's configuration space (R272, R276). -/
  ctl : SMap FnCtl := []
  /-- MSI-X tables of VFs by 16 × (VF − 1) + vector, and pending bits (R274, R276). -/
  vfMsix : SMap MsixEntry := []
  vfPending : SMap Bool := []
  /-- VFs whose BAR2 view reads zero since a function-level reset (R302). -/
  vfZero : SMap Bool := []
  numVfs : Nat := 0
  rings : SMap Ring := []
  /-- SEQ of each ring's next event (R295). -/
  evSeq : SMap Nat := []
  /-- Boot event waiting for the event ring (R351). -/
  bootEvent : Option Event := none
  /-- Command ring accepted last (R291). -/
  cmdRot : Nat := 0
  /-- A doorbell round is in progress: areas whose summary is being read, words whose Swap is out,
  and rings whose producer word is being read (R282). -/
  summaryOut : List Nat := []
  /-- Function, word and the bits that the summary showed. -/
  swapOut : List (Nat × Nat × W64) := []
  prodOut : List Nat := []
  /-- Rings whose bits were taken while their function could issue no read (R302). -/
  prodWait : List Nat := []
  /-- Start of the last round, and descriptors asked for in it (R282, R283). -/
  roundAt : Option Tick := none
  roundCnt : Nat := 0
  /-- Frames delivered to port 1088, oldest first (R285). -/
  inbox : List WholeFrame := []
  /-- Host frames waiting for cells at the attachment square (R175). -/
  outbox : List WholeFrame := []
  mgmt : MgmtLink := {}
deriving DecidableEq, Repr

/-! ### Triad, faults (chapter 11) -/

/-- A store presented to the voter (R306). -/
structure StoreVal where
  addr : W64 := 0
  data : W64 := 0
  be : BitVec 8 := 0
deriving DecidableEq, Repr

structure Chn where
  /-- Act line (R307). -/
  act : Bool := true
  failed : Bool := false
  /-- Outvoted in the boundary slot (R308). -/
  outvoted : Bool := false
  /-- Rejoin: 0 none, 1 waits for a checkpoint, 2 self-test, 3 waits for the boundary (R314). -/
  rejoin : Nat := 0
  /-- A FAULT_CLEAR has named the last of its sources (R314). -/
  cleared : Bool := false
  presented : Option StoreVal := none
  /-- Stores of higher numbers that the core has presented already, in program order (R306). -/
  later : List StoreVal := []
  /-- Health word fields (R315, R327). -/
  seqno : Nat := 0
  failId : Nat := 0
  tests : Nat := 0
  valid : Bool := false
  /-- Start of the self-test interval that runs (R315). -/
  testAt : Tick := 0
deriving DecidableEq, Repr

/-- Why a hold runs (R310, R427). -/
inductive HoldKind where
  | slot | store | reaction
deriving DecidableEq, Repr

structure Triad where
  chans : SMap Chn := []
  hold : Option HoldKind := none
  /-- Consecutive failed holds on the same slot, and on the same store (R311). -/
  failedHolds : Nat := 0
  failedStores : Nat := 0
  holds : Nat := 0
  lost : Bool := false
  simplex : Bool := false
  /-- Number of the next store to issue, and elapsed time of its first value (R306). -/
  storeNo : Nat := 0
  /-- Stores issued, and number of the store after the last checkpoint's: a replay starts there, and what it presents
  below the first is compared and not issued again (R310). -/
  issuedNo : Nat := 0
  ckptStore : Nat := 0
  storeAt : Tick := 0
  storeWait : Bool := false
  /-- The store was issued on two equal values and the third is still due. -/
  issued : Option StoreVal := none
  lastStore : Option StoreVal := none
  ckptNo : Nat := 0
  ckptAt : Tick := 0
  /-- The watchdog event of a late checkpoint has been recorded (R309). -/
  bitten : Bool := false
  /-- Firmware services pause for a rollback or a hand-over (R310, R367). -/
  paused : Bool := false
  alive : Bool := false
  aliveAt : Tick := 0
deriving DecidableEq, Repr

inductive SrcSt where
  | idle | active | severe
deriving DecidableEq, Repr

/-- A fault source (R317). -/
structure Src where
  st : SrcSt := .idle
  count : Nat := 0
  start : Tick := 0
  last : Tick := 0
  recov : Nat := 0
deriving DecidableEq, Repr

structure FaultU where
  srcs : SMap Src := []
  /-- FAULT_FIRST: severity and source, and device time (R319). -/
  first : Option (Nat × Nat) := none
  firstT : Nat := 0
  latchHi : Reg := 0
deriving DecidableEq, Repr

/-! ### Tempo and power (chapter 12) -/

/-- A phase record (R333). -/
structure PhaseRec where
  mode : Nat := 0
  serdes : Nat := 0
  redPwr : Nat := 15
  tempo : Nat := 135
  vmin : Nat := 650
  vmax : Nat := 850
deriving DecidableEq, Repr

/-- Governor state of a square (R336 to R339). -/
structure Vsq where
  setpoint : Nat := 750
  margin : Int := 0
  lastRaise : Option Tick := none
  lastLower : Option Tick := none
  /-- Last time the square was recorded as completing last (R338). -/
  recorded : Option Tick := none
deriving DecidableEq, Repr

structure Power where
  /-- When each periodic action last ran: 0 estimate, 1 PMBus correction, 2 power limiter, 3 sensors, 4 thermal limiter,
  5 save of setpoints, 6 + s canary report of square s (R336, R339, R341 to R345). -/
  jobs : SMap (Option Tick) := []
  phases : SMap PhaseRec := [(0, { mode := 0 })]
  phase : Nat := 0
  /-- The record in force: that of the phase in force when it was last selected (R333, R334). -/
  cur : PhaseRec := {}
  /-- Selections accepted and not yet latched: phase, origin (0 command, 1 schedule), ring, tag (R334). -/
  pending : List (Nat × Nat × Option (Nat × BitVec 32)) := []
  /-- Paced tempo in MHz; 0 before mesh start (R349). -/
  tempo : Nat := 0
  /-- A rise of the target waits for the margins or 100 µs since this boundary (R334). -/
  rampFrom : Option Tick := none
  /-- Target tempo of the last boundary. -/
  lastTarget : Nat := 0
  tcap : Nat := 0
  ttherm : Nat := 0
  /-- The condition for a rise has held since (R342, R345). -/
  capOkAt : Option Tick := none
  thermOkAt : Option Tick := none
  cap : Nat := 2000
  est : Nat := 0
  pmb : Nat := 0
  /-- EST has exceeded the cap at the floor since (R343). -/
  overAt : Option Tick := none
  unatt : Bool := false
  /-- Sensor readings in 0.125 °C (R344). -/
  temps : SMap Int := []
  hot : Nat := 0
  vsq : SMap Vsq := []
  /-- Number of schedule entries that have fallen due, or been passed over, since installation (R335). -/
  schedOn : Bool := false
  schedLast : Nat := 0
  /-- SERDES mode applied to each port (R334). -/
  serdes : SMap Nat := []
  /-- Scheduled setpoint limits to apply after the ramp (R334). -/
  lowerLater : Bool := false
deriving DecidableEq, Repr

/-! ### Boot, Castling and non-volatile stores (chapter 13) -/

/-- What a valid commit record says (R354). -/
structure Commit where
  seq : Nat := 0
  imgLen : Nat := 0
  imgCrc : BitVec 32 := 0
deriving DecidableEq, Repr

/-- A settings snapshot (R365). -/
structure Snap where
  seq : Nat := 0
  regs : List (Nat × Reg) := []
  phases : SMap PhaseRec := []
  phase : Nat := 0
  cap : Nat := 2000
  bc : BcCfg := {}
  unknownCritical : Bool := false
deriving DecidableEq, Repr

/-- What survives every reset: OTP, flash and scoresheet (R353, R363, R418), and the outside levels. -/
structure Nv where
  rbc : Nat := 0
  keySet : Bool := true
  grade : Nat := 140
  serial : W64 := 0
  factoryBit : Bool := false
  /-- Flash bytes by 2^24 × slot + offset; erased flash reads 0xFF (R353). -/
  flash : SMap Byte := []
  settings0 : Option Snap := none
  settings1 : Option Snap := none
  faultLog : List (List Nat) := []
  recov : SMap Nat := []
  recovCopy : Nat := 0
  setpoints : SMap Nat := []
  setTempo : SMap Nat := []
  bootRecs : List (List Nat) := []
  isoRecs : List (List Nat) := []
  /-- Reference clocks present. -/
  refclk : Nat := 65535
  timeclk : Bool := false
deriving DecidableEq, Repr

/-- Boot-time view of one slot (R373 BOOT_SLOT, BOOT_SEQ). -/
structure SlotSt where
  commitOk : Bool := false
  verified : Bool := false
  svn : Nat := 0
  fail : Nat := 0
  seq : Nat := 0
  /-- The commit sector was erased since the slot last passed IMAGE_VERIFY or POR_N (R360). -/
  erased : Bool := false
deriving DecidableEq, Repr

structure Boot where
  /-- 0 = POR_N low, 1 = ROM checking an image, 2 = firmware running, 3 = recovery, 4 = device reset held. -/
  stage : Nat := 0
  dpReady : Bool := false
  recovery : Bool := false
  restoreRef : Bool := false
  restored : Bool := false
  fellBack : Bool := false
  slot : Nat := 0
  /-- Slots left to try, in order (R356). -/
  order : List Nat := []
  failCode : Nat := 0
  bootsel : Nat := 0
  testmode : Bool := false
  fwver : Reg := 0
  parseVer : Reg := 0
  slotA : SlotSt := {}
  slotB : SlotSt := {}
  /-- Castling: STATE, ring and tag, instant S, retries, image versions (R367). -/
  castle : Nat := 0
  castleCmd : Option (Nat × BitVec 32) := none
  castleS : Tick := 0
  castleRetry : Bool := false
  castleReady : Bool := false
  /-- The handover record last written (R368). -/
  handover : List Byte := []
  lastValid : Bool := false
  lastReason : Nat := 0
  lastTlv : Nat := 0
  lastSave : Option Tick := none
  saveSeq : Nat := 0
  logDrop : Nat := 0
  /-- Records written in the current second (R364). -/
  logSec : Nat := 0
  logCnt : Nat := 0
  /-- Recovery counters changed and not yet written (R364). -/
  recovDirty : List Nat := []
  devCnt : Nat := 0
  perstCnt : Nat := 0
  cause : Bool := false
  /-- Elapsed time at which the device reset was asserted (R404). -/
  rstAt : Tick := 0
deriving DecidableEq, Repr

/-! ### Pins and what has left the device -/

/-- A frame on a wire. -/
structure WireTx where
  port : Nat := 0
  bytes : List Byte := []
  /-- 0 good FCS, 1 stomped, 2 aborted. -/
  fcs : Nat := 0
  startNs : Nat := 0
deriving DecidableEq, Repr

/-- A return of a command, as its descriptor says (R290). -/
structure Ret where
  ring : Nat := 0
  tag : BitVec 32 := 0
  opcode : Nat := 0
  status : Nat := 0
  res : Nat := 0
deriving DecidableEq, Repr

/-- Pins the device reads or drives beside its ports. -/
structure Pins where
  thermtrip : Bool := false
  /-- A rail left its range while POR_N was high (R415). -/
  railBad : Bool := false
  /-- Boundary scan has taken the pins (R420). -/
  scan : Bool := false
  /-- EVT_IN levels are not held; PPS and ALIVE levels are in their chapters' state. -/
  spiFree : Bool := false
deriving DecidableEq, Repr

/-- A memory write the device sends to the host; Relaxed Ordering is set on frame and snapshot bytes only (R272). -/
structure HostWr where
  fn : Nat
  addr : Nat
  relaxed : Bool
  bytes : List Byte
deriving DecidableEq, Repr

/-- An MSI-X message: function and vector, and the address and data of its entry (R276). -/
structure MsixMsg where
  fn : Nat
  vec : Nat
  addr : W64
  data : Reg
deriving DecidableEq, Repr

/-- What the device has driven out, newest first (the model's own record of its outputs). While boundary scan
has the pins it does not reach the board. DESIGN CHOICE, unsafe (log entry 8). -/
structure Io where
  rets : List Ret := []
  wire : List WireTx := []
  /-- PFC frames sent: port and bytes without FCS (R189). -/
  pfc : List (Nat × List Byte) := []
  hostw : List HostWr := []
  msix : List MsixMsg := []
  /-- 64-bit Swaps with zero: function and address (R282). -/
  swaps : List (Nat × Nat) := []
  /-- Errors reported through AER: function and KIND of HOST_ERR_LOG (R272, R301). -/
  aer : List (Nat × Nat) := []
  /-- Host-memory reads asked for: function, address and length (R282). -/
  reads : List (Nat × Nat × Nat) := []
  latched : Reg := 0
deriving DecidableEq, Repr

/-! ### The device -/

/-- Why the model stops with a fault. -/
inductive Fault where
  /-- A rail left its recommended range while POR_N was high: every guarantee of the manual is void
  until the next POR_N (R415). Raised by every command but POR_ASSERT in that state. Safe: the model
  states nothing where the manual states nothing. -/
  | guaranteesVoid
deriving DecidableEq, Repr

/-- Why the model refuses a command. -/
inductive Refusal where
  /-- The command has no meaning in the model. Raised by a dispatch arm alone. Safe. -/
  | notModelled (mnemonic : String)
deriving DecidableEq, Repr

/-- The state of the device and the queue of commands that wait. -/
structure State where
  /-- Commands waiting, first in first out. -/
  pending : List Instr := []
  /-- Setup registers by BAR0 offset, as last written, with the sticky bits hardware sets (R392, R396). -/
  regs : SMap Reg := []
  /-- Values in force of latched registers, by BAR0 offset (R21, R396). -/
  force : SMap Reg := []
  /-- Lifecycle state of functions by 2^16 × class + instance (R30). -/
  fns : SMap Fn := []
  /-- Front-panel links by base lane (R45, R56). -/
  links : SMap Link := []
  /-- Serial lanes 0–1023. -/
  lanes : SMap Lane := []
  /-- Squares 0–63. -/
  sqs : SMap Sq := []
  book : Book := {}
  tour : Tour := {}
  buf : Buf := {}
  /-- Egress queues by number (R202). -/
  queues : SMap Queue := []
  /-- Egress ports by number 0–1090. -/
  eports : SMap EPort := []
  red : Red := {}
  time : TimeSt := {}
  host : HostIf := {}
  triad : Triad := {}
  fault : FaultU := {}
  power : Power := {}
  boot : Boot := {}
  nv : Nv := {}
  pins : Pins := {}
  /-- Counter words by BAR2 offset: count in [47:0], WRAP in bit 48 (R375). -/
  cnt : SMap Nat := []
  /-- Name of the next frame. -/
  nextFid : Nat := 1
  io : Io := {}
deriving DecidableEq, Repr

/-- The device right after reset: POR_N low, every part at its reset value. DESIGN CHOICE, unsafe (log entry 2). -/
def State.reset : State := {}

end Sys2Proof.Machine
end

