-- ==== Sys2Proof/Machine/Regs.lean ====
section
/-!
DEFINITION. The setup register map of BAR0: every register's address, access masks and reset value.

Addresses are those of R405, masks and reset values those of each register's field table. A field
that is WO or reserved is in no mask; a field that is RO is in no mask and is written by hardware.
-/

namespace Sys2Proof.Machine

/-- One row of the register index (R405): registers at `base + i × stride`, `i < count`. -/
structure RegRow where
  base : Nat
  count : Nat
  stride : Nat
  rw : Nat
  w1c : Nat
  reset : Nat
deriving DecidableEq, Repr

/-- Registers of the blocks outside the square blocks (R405). -/
def globalRows0 : List RegRow := [
  ⟨0x1F000, 1, 4, 0x3FFF0007, 0x0, 0x25800004⟩,
  ⟨0x1F004, 1, 4, 0x0, 0x40, 0x20⟩,
  ⟨0x80000, 1, 4, 0x0, 0x0, 0x0⟩,
  ⟨0x80004, 1, 4, 0x8FFF03FF, 0x0, 0x1⟩,
  ⟨0x80008, 1, 4, 0xFFF, 0x0, 0x64⟩,
  ⟨0x8000C, 1, 4, 0x0, 0x0, 0x0⟩,
  ⟨0x80010, 1, 4, 0x0, 0x80000000, 0x0⟩,
  ⟨0x80100, 16, 4, 0x0, 0x0, 0x0⟩,
  ⟨0x100000, 1, 4, 0xFFFF3F03, 0x0, 0x40031903⟩,
  ⟨0x100004, 1, 4, 0x0, 0x0, 0x0⟩,
  ⟨0x100008, 1, 4, 0x0, 0x0, 0x0⟩,
  ⟨0x10000C, 1, 4, 0x0, 0x0, 0x0⟩]

def globalRows1 : List RegRow := [
  ⟨0x100010, 1, 4, 0x0, 0x0, 0x0⟩,
  ⟨0x101000, 1, 4, 0x0, 0x4, 0x0⟩,
  ⟨0x101004, 1, 4, 0xFFFF03FF, 0x0, 0x400A0002⟩,
  ⟨0x101008, 1, 4, 0x1FFFFF, 0x0, 0x10000⟩,
  ⟨0x10100C, 1, 4, 0x800FFFFF, 0x0, 0x800A03E8⟩,
  ⟨0x101010, 1, 4, 0x0, 0x0, 0x0⟩,
  ⟨0x101014, 1, 4, 0xFFFFFF, 0x0, 0xFAC688⟩,
  ⟨0x101018, 1, 4, 0xFFFFFF, 0x0, 0xFAC688⟩,
  ⟨0x10101C, 1, 4, 0xFFFF, 0x0, 0xFFFF⟩,
  ⟨0x101100, 16, 16, 0x1FFFFF, 0x0, 0x20000⟩,
  ⟨0x101104, 16, 16, 0x1FFFFF, 0x0, 0x10000⟩,
  ⟨0x101108, 16, 16, 0x1FFFFF, 0x0, 0x8000⟩]

def globalRows2 : List RegRow := [
  ⟨0x10110C, 16, 16, 0xFFFF007F, 0x0, 0x64⟩,
  ⟨0x201000, 1, 4, 0xFFF0FFF, 0x0, 0x4000400⟩,
  ⟨0x201004, 1, 4, 0x3FF, 0x0, 0x40⟩,
  ⟨0x200000, 1, 4, 0x3FFFFFFF, 0x0, 0x10440000⟩,
  ⟨0x200004, 1, 4, 0x0, 0x0, 0x0⟩,
  ⟨0x200008, 1, 4, 0x0, 0x0, 0x0⟩,
  ⟨0x200010, 4, 4, 0x0, 0x0, 0x0⟩,
  ⟨0x200020, 4, 4, 0x0, 0x0, 0x0⟩,
  ⟨0x50000, 1, 4, 0x1, 0x0, 0x0⟩,
  ⟨0x50004, 1, 4, 0x0, 0x0, 0x0⟩,
  ⟨0x50008, 1, 4, 0x0, 0x0, 0x0⟩,
  ⟨0x5000C, 1, 4, 0x0, 0x0, 0x0⟩]

def globalRows3 : List RegRow := [
  ⟨0x50010, 1, 4, 0x0, 0x0, 0x0⟩,
  ⟨0x50014, 1, 4, 0xFFF00FF, 0x0, 0x0⟩,
  ⟨0x50018, 1, 4, 0xBF, 0x0, 0x7⟩,
  ⟨0x50020, 2, 8, 0xDFFFFFFF, 0x0, 0x5F5E100⟩,
  ⟨0x50024, 2, 8, 0xFFFFFFFF, 0x0, 0x3B9ACA00⟩,
  ⟨0x10000, 1, 4, 0xFFF0004, 0x0, 0x10004⟩,
  ⟨0x10004, 1, 4, 0x0, 0x4, 0x0⟩,
  ⟨0x10008, 1, 4, 0xFFFFF000, 0x0, 0x0⟩,
  ⟨0x1000C, 1, 4, 0xFFFFFFFF, 0x0, 0x0⟩,
  ⟨0x10010, 1, 4, 0x3FFFF, 0x0, 0x14⟩,
  ⟨0x10020, 9, 8, 0xFFFFF001, 0x0, 0x0⟩,
  ⟨0x10024, 9, 8, 0xFFFFFFFF, 0x0, 0x0⟩]

def globalRows4 : List RegRow := [
  ⟨0x10080, 8, 4, 0xFFF0FFF, 0x0, 0x0⟩,
  ⟨0x100A0, 1, 4, 0x0, 0x80000000, 0x0⟩,
  ⟨0x12000, 2048, 4, 0xFFFFFFFF, 0x0, 0x0⟩,
  ⟨0x20000, 1, 4, 0x18FFF, 0x0, 0x1840A⟩,
  ⟨0x20004, 1, 4, 0x0, 0x0, 0x7⟩,
  ⟨0x20008, 1, 4, 0x0, 0x0, 0x0⟩,
  ⟨0x20010, 3, 4, 0x0, 0x0, 0x0⟩,
  ⟨0x30000, 1, 4, 0x0, 0x0, 0x0⟩,
  ⟨0x30004, 1, 4, 0x0, 0x0, 0x0⟩,
  ⟨0x30008, 1, 4, 0x0, 0x0, 0x0⟩,
  ⟨0x3000C, 1, 4, 0x0, 0x0, 0x0⟩,
  ⟨0x30100, 32, 4, 0x0, 0x0, 0x0⟩]

def globalRows5 : List RegRow := [
  ⟨0x30F00, 1, 4, 0x0, 0x0, 0x0⟩,
  ⟨0x31000, 1024, 4, 0x3FFFFFFF, 0x0, 0x0⟩,
  ⟨0x32000, 1024, 4, 0x3FFFFF, 0x0, 0x2710⟩,
  ⟨0x33000, 1024, 4, 0x0, 0x0, 0x0⟩,
  ⟨0x40000, 1, 4, 0x1FFFFFFF, 0x0, 0x1364050A⟩,
  ⟨0x40004, 1, 4, 0x0, 0x40000000, 0x10000⟩,
  ⟨0x40008, 1, 4, 0x0, 0x0, 0x7D0⟩,
  ⟨0x4000C, 1, 4, 0x0, 0x0, 0x0⟩,
  ⟨0x40010, 1, 4, 0x0, 0x0, 0x0⟩,
  ⟨0x40014, 1, 4, 0x0, 0x0, 0x0⟩,
  ⟨0x40400, 85, 4, 0x0, 0x0, 0x0⟩,
  ⟨0x60000, 1, 4, 0x0, 0x0, 0x0⟩]

def globalRows6 : List RegRow := [
  ⟨0x60004, 1, 4, 0x0, 0x0, 0x0⟩,
  ⟨0x60008, 2, 4, 0x0, 0x0, 0x0⟩,
  ⟨0x60010, 2, 4, 0x0, 0x0, 0x0⟩,
  ⟨0x60018, 1, 4, 0x0, 0x0, 0x0⟩,
  ⟨0x6001C, 1, 4, 0x0, 0x0, 0x0⟩,
  ⟨0x60020, 1, 4, 0x0, 0x80000000, 0x0⟩,
  ⟨0x202000, 1, 4, 0x1FFFFFFF, 0x0, 0x0⟩,
  ⟨0x202004, 1, 4, 0x3FFFF, 0x0, 0x0⟩,
  ⟨0x202008, 1, 4, 0xFFFF, 0x0, 0x88B5⟩,
  ⟨0x20200C, 1, 4, 0xFFFFF, 0x0, 0x3E8⟩,
  ⟨0x0, 1, 4, 0x0, 0x0, 0x4C101F9D⟩,
  ⟨0x4, 1, 4, 0x0, 0x0, 0x4101⟩]

def globalRows7 : List RegRow := [
  ⟨0x8, 1, 4, 0x0, 0x0, 0x0⟩,
  ⟨0xC, 1, 4, 0x0, 0x0, 0x0⟩,
  ⟨0x10, 1, 4, 0x0, 0x0, 0x0⟩,
  ⟨0x14, 1, 4, 0x0, 0x0, 0x0⟩,
  ⟨0x18, 1, 4, 0xFFFFFFFF, 0x0, 0x0⟩,
  ⟨0x1C, 1, 4, 0x0, 0x80000000, 0x0⟩,
  ⟨0x20, 1, 4, 0x0, 0x0, 0x0⟩,
  ⟨0x24, 1, 4, 0x0, 0x0, 0x0⟩,
  ⟨0x14000, 2048, 16, 0xFFFFFFFC, 0x0, 0x0⟩,
  ⟨0x14004, 2048, 16, 0xFFFFFFFF, 0x0, 0x0⟩,
  ⟨0x14008, 2048, 16, 0xFFFFFFFF, 0x0, 0x0⟩,
  ⟨0x1400C, 2048, 16, 0x1, 0x0, 0x1⟩]

def globalRows8 : List RegRow := [
  ⟨0x1C000, 64, 4, 0x0, 0x0, 0x0⟩]

/-- The register index outside the square blocks (R405). -/
def globalRows : List RegRow :=
  globalRows0 ++ globalRows1 ++ globalRows2 ++ globalRows3 ++ globalRows4 ++ globalRows5 ++ globalRows6 ++ globalRows7 ++ globalRows8

def squareRows0 : List RegRow := [
  ⟨0x0, 1, 4, 0xFFFFFFFF, 0x0, 0x0⟩,
  ⟨0x4, 1, 4, 0xFFFFFFFF, 0x0, 0x0⟩,
  ⟨0x8, 1, 4, 0x0, 0x1, 0x0⟩,
  ⟨0xC, 1, 4, 0x3FF000F, 0x0, 0xA0004⟩,
  ⟨0x10, 1, 4, 0xFFFFFF, 0x0, 0x801000⟩,
  ⟨0x100, 16, 4, 0xF8FF3FFF, 0x0, 0x88102580⟩,
  ⟨0x200, 16, 4, 0x0, 0x1000000, 0xFF0000⟩,
  ⟨0x300, 16, 4, 0x0, 0x0, 0xFF00⟩,
  ⟨0x1000, 1, 4, 0xFFFFFFFF, 0x0, 0x88A812B5⟩,
  ⟨0x1004, 1, 4, 0x7FF, 0x0, 0xC9⟩,
  ⟨0x1008, 1, 4, 0x0, 0x0, 0x0⟩,
  ⟨0x100C, 1, 4, 0x0, 0x0, 0x0⟩]

def squareRows1 : List RegRow := [
  ⟨0x1100, 16, 4, 0xFFFFF03, 0x0, 0x100⟩,
  ⟨0x1200, 1, 4, 0xFFFF, 0x0, 0xFFFF⟩,
  ⟨0x2000, 1, 4, 0xFFFF, 0x0, 0x0⟩,
  ⟨0x2004, 1, 4, 0x0, 0x0, 0x0⟩,
  ⟨0x2100, 16, 16, 0xFFFFFFFF, 0x0, 0x0⟩,
  ⟨0x2104, 16, 16, 0xFFFFFFF, 0x0, 0x0⟩,
  ⟨0x2108, 16, 16, 0x800000FF, 0x0, 0x0⟩,
  ⟨0x3000, 1, 4, 0x7FFF7FFF, 0x0, 0x30001000⟩,
  ⟨0x3004, 1, 4, 0x7FFF7FFF, 0x0, 0x8000040⟩,
  ⟨0x3008, 1, 4, 0x7FFF7FFF, 0x0, 0x8000100⟩,
  ⟨0x300C, 1, 4, 0x7FFF7FFF, 0x0, 0x4000080⟩,
  ⟨0x3010, 1, 4, 0x0, 0x10000, 0x4000⟩]

def squareRows2 : List RegRow := [
  ⟨0x3014, 1, 4, 0x0, 0x80000000, 0x0⟩,
  ⟨0x3100, 16, 8, 0x3FFF3FFF, 0x0, 0x1800200⟩,
  ⟨0x3104, 16, 8, 0xFFFF3FFF, 0x0, 0x400⟩,
  ⟨0x4000, 1, 4, 0xFFFF0000, 0x0, 0x143C0000⟩,
  ⟨0x4004, 1, 4, 0x1FFFF, 0x0, 0x10064⟩,
  ⟨0x4008, 1, 4, 0x0, 0x80000000, 0x0⟩,
  ⟨0x4100, 16, 4, 0x0, 0x40000000, 0x0⟩,
  ⟨0x5000, 16, 8, 0xFFFFFFFF, 0x0, 0x0⟩,
  ⟨0x5004, 16, 8, 0xFFFFFFFF, 0x0, 0x0⟩,
  ⟨0x6000, 1, 4, 0x0, 0x0, 0x2EE⟩,
  ⟨0x7000, 1, 4, 0xFFFF0000, 0x0, 0x4000000⟩]

/-- The register index of a square block (R405). -/
def squareRows : List RegRow :=
  squareRows0 ++ squareRows1 ++ squareRows2

/-! ### Addresses by name (R405) -/

namespace A
/-- `HOST_MGMT_CFG` (R73). -/
def hostMgmtCfg : Nat := 0x1F000
/-- `HOST_MGMT_STAT` (R73). -/
def hostMgmtStat : Nat := 0x1F004
/-- `BOOK_STAT` (R139). -/
def bookStat : Nat := 0x80000
/-- `BOOK_LEARN_CFG` (R139). -/
def bookLearnCfg : Nat := 0x80004
/-- `BOOK_AGE_CFG` (R139). -/
def bookAgeCfg : Nat := 0x80008
/-- `BOOK_LEARN_STAT` (R139). -/
def bookLearnStat : Nat := 0x8000C
/-- `BOOK_ECC_LOG` (R139). -/
def bookEccLog : Nat := 0x80010
/-- `BOOK_VOLMAP[v]` (R139). -/
def bookVolmap (i : Nat) : Nat := 0x80100 + 4 * i
/-- `TOUR_CFG` (R170). -/
def tourCfg : Nat := 0x100000
/-- `TOUR_STAT` (R170). -/
def tourStat : Nat := 0x100004
/-- `TOUR_EXCL_LO, TOUR_EXCL_HI` (R170). -/
def tourExclLo : Nat := 0x100008
/-- `TOUR_EXCL_LO, TOUR_EXCL_HI` (R170). -/
def tourExclHi : Nat := 0x10000C
/-- `TOUR_SLOT` (R170). -/
def tourSlot : Nat := 0x100010
/-- `BUF_STATE` (R201). -/
def bufStateReg : Nat := 0x101000
/-- `BUF_CFG` (R201). -/
def bufCfg : Nat := 0x101004
/-- `BUF_FLOOR` (R201). -/
def bufFloor : Nat := 0x101008
/-- `BUF_AUDIT` (R201). -/
def bufAudit : Nat := 0x10100C
/-- `BUF_GFREE` (R201). -/
def bufGfree : Nat := 0x101010
/-- `BUF_PRI_MAP_LO, BUF_PRI_MAP_HI` (R201). -/
def bufPriMapLo : Nat := 0x101014
/-- `BUF_PRI_MAP_LO, BUF_PRI_MAP_HI` (R201). -/
def bufPriMapHi : Nat := 0x101018
/-- `BUF_PFC` (R201). -/
def bufPfc : Nat := 0x10101C
/-- `BUF_CLASS_LIM[c], BUF_CLASS_YEL[c], BUF_CLASS_RED[c]` (R201). -/
def bufClassLim (i : Nat) : Nat := 0x101100 + 16 * i
/-- `BUF_CLASS_LIM[c], BUF_CLASS_YEL[c], BUF_CLASS_RED[c]` (R201). -/
def bufClassYel (i : Nat) : Nat := 0x101104 + 16 * i
/-- `BUF_CLASS_LIM[c], BUF_CLASS_YEL[c], BUF_CLASS_RED[c]` (R201). -/
def bufClassRed (i : Nat) : Nat := 0x101108 + 16 * i
/-- `BUF_CLASS_CFG[c]` (R201). -/
def bufClassCfg (i : Nat) : Nat := 0x10110C + 16 * i
/-- `SVC_POOL_CFG` (R201). -/
def svcPoolCfg : Nat := 0x201000
/-- `SVC_QUOTA_HOST` (R201). -/
def svcQuotaHost : Nat := 0x201004
/-- `SVC_RED_CFG` (R254). -/
def svcRedCfg : Nat := 0x200000
/-- `SVC_RED_STAT` (R254). -/
def svcRedStat : Nat := 0x200004
/-- `SVC_RED_VER` (R254). -/
def svcRedVer : Nat := 0x200008
/-- `SVC_RED_ENG[e]` (R254). -/
def svcRedEng (i : Nat) : Nat := 0x200010 + 4 * i
/-- `SVC_RED_ENG_SLOTS[e] (slot-use word)` (R254). -/
def svcRedSlots (i : Nat) : Nat := 0x200020 + 4 * i
/-- `TIME_CFG` (R271). -/
def timeCfg : Nat := 0x50000
/-- `TIME_STAT` (R271). -/
def timeStat : Nat := 0x50004
/-- `TIME_NOW_LO, TIME_NOW_HI` (R271). -/
def timeNowLo : Nat := 0x50008
/-- `TIME_NOW_LO, TIME_NOW_HI` (R271). -/
def timeNowHi : Nat := 0x5000C
/-- `TIME_NOW_FRAC` (R271). -/
def timeNowFrac : Nat := 0x50010
/-- `TIME_EVT_CFG` (R271). -/
def timeEvtCfg : Nat := 0x50014
/-- `TIME_BC_CFG` (R271). -/
def timeBcCfg : Nat := 0x50018
/-- `TIME_PPS_CFG[k]` (R271). -/
def timePpsCfg (i : Nat) : Nat := 0x50020 + 8 * i
/-- `TIME_PPS_PERIOD[k]` (R271). -/
def timePpsPeriod (i : Nat) : Nat := 0x50024 + 8 * i
/-- `HOST_CFG` (R303). -/
def hostCfg : Nat := 0x10000
/-- `HOST_STAT` (R303). -/
def hostStat : Nat := 0x10004
/-- `HOST_RCT_LO, HOST_RCT_HI` (R303). -/
def hostRctLo : Nat := 0x10008
/-- `HOST_RCT_LO, HOST_RCT_HI` (R303). -/
def hostRctHi : Nat := 0x1000C
/-- `HOST_DB_CFG` (R303). -/
def hostDbCfg : Nat := 0x10010
/-- `HOST_DB_LO[f], HOST_DB_HI[f]` (R303). -/
def hostDbLo (i : Nat) : Nat := 0x10020 + 8 * i
/-- `HOST_DB_LO[f], HOST_DB_HI[f]` (R303). -/
def hostDbHi (i : Nat) : Nat := 0x10024 + 8 * i
/-- `HOST_RX_MAP[j]` (R303). -/
def hostRxMap (i : Nat) : Nat := 0x10080 + 4 * i
/-- `HOST_ERR_LOG` (R303). -/
def hostErrLog : Nat := 0x100A0
/-- `HOST_VF_ALLOW[v][w]` (R303). -/
def hostVfAllow (i : Nat) : Nat := 0x12000 + 4 * i
/-- `TRIAD_CFG` (R327). -/
def triadCfg : Nat := 0x20000
/-- `TRIAD_STAT` (R327). -/
def triadStat : Nat := 0x20004
/-- `TRIAD_HOLDS` (R327). -/
def triadHolds : Nat := 0x20008
/-- `TRIAD_HEALTH[c]` (R327). -/
def triadHealth (i : Nat) : Nat := 0x20010 + 4 * i
/-- `FAULT_CTL` (R327). -/
def faultCtl : Nat := 0x30000
/-- `FAULT_FIRST` (R327). -/
def faultFirst : Nat := 0x30004
/-- `FAULT_FIRST_T_LO, FAULT_FIRST_T_HI` (R327). -/
def faultFirstTLo : Nat := 0x30008
/-- `FAULT_FIRST_T_LO, FAULT_FIRST_T_HI` (R327). -/
def faultFirstTHi : Nat := 0x3000C
/-- `FAULT_SEVERE[w]` (R327). -/
def faultSevere (i : Nat) : Nat := 0x30100 + 4 * i
/-- `FAULT_INJ` (R327). -/
def faultInj : Nat := 0x30F00
/-- `FAULT_CFG[n]` (R327). -/
def faultCfg (i : Nat) : Nat := 0x31000 + 4 * i
/-- `FAULT_QUIET[n]` (R327). -/
def faultQuiet (i : Nat) : Nat := 0x32000 + 4 * i
/-- `FAULT_STAT[n]` (R327). -/
def faultStat (i : Nat) : Nat := 0x33000 + 4 * i
/-- `POWER_CFG` (R349). -/
def powerCfg : Nat := 0x40000
/-- `POWER_STAT` (R349). -/
def powerStat : Nat := 0x40004
/-- `POWER_CAP` (R349). -/
def powerCapReg : Nat := 0x40008
/-- `POWER_EST` (R349). -/
def powerEst : Nat := 0x4000C
/-- `POWER_LIMIT` (R349). -/
def powerLimit : Nat := 0x40010
/-- `POWER_HOT` (R349). -/
def powerHot : Nat := 0x40014
/-- `POWER_TEMP[n]` (R349). -/
def powerTemp (i : Nat) : Nat := 0x40400 + 4 * i
/-- `BOOT_STAT` (R373). -/
def bootStat : Nat := 0x60000
/-- `BOOT_FWVER` (R373). -/
def bootFwver : Nat := 0x60004
/-- `BOOT_SLOT[k]` (R373). -/
def bootSlot (i : Nat) : Nat := 0x60008 + 4 * i
/-- `BOOT_SEQ[k]` (R373). -/
def bootSeq (i : Nat) : Nat := 0x60010 + 4 * i
/-- `BOOT_CASTLE` (R373). -/
def bootCastle : Nat := 0x60018
/-- `BOOT_OTP` (R373). -/
def bootOtp : Nat := 0x6001C
/-- `BOOT_SS_STAT` (R373). -/
def bootSsStat : Nat := 0x60020
/-- `TELEM_CFG` (R391). -/
def telemCfg : Nat := 0x202000
/-- `TELEM_COLL_NH` (R391). -/
def telemCollNh : Nat := 0x202004
/-- `TELEM_COLL_ET` (R391). -/
def telemCollEt : Nat := 0x202008
/-- `CNT_BW_CFG` (R391). -/
def cntBwCfg : Nat := 0x20200C
/-- `GLOBAL_ID` (R403). -/
def globalId : Nat := 0x0
/-- `GLOBAL_STEP` (R403). -/
def globalStep : Nat := 0x4
/-- `GLOBAL_GRADE` (R403). -/
def globalGrade : Nat := 0x8
/-- `GLOBAL_STRAP` (R403). -/
def globalStrap : Nat := 0xC
/-- `GLOBAL_SERIAL_LO, GLOBAL_SERIAL_HI` (R403). -/
def globalSerialLo : Nat := 0x10
/-- `GLOBAL_SERIAL_LO, GLOBAL_SERIAL_HI` (R403). -/
def globalSerialHi : Nat := 0x14
/-- `GLOBAL_SCRATCH` (R403). -/
def globalScratch : Nat := 0x18
/-- `GLOBAL_ACC_LOG` (R403). -/
def globalAccLog : Nat := 0x1C
/-- `GLOBAL_RST` (R403). -/
def globalRst : Nat := 0x20
/-- `GLOBAL_RST_STAT` (R403). -/
def globalRstStat : Nat := 0x24
/-- `MSI-X table entry n` (R276). -/
def msixAddrLo (i : Nat) : Nat := 0x14000 + 16 * i
/-- `MSI-X table entry n` (R276). -/
def msixAddrHi (i : Nat) : Nat := 0x14004 + 16 * i
/-- `MSI-X table entry n` (R276). -/
def msixData (i : Nat) : Nat := 0x14008 + 16 * i
/-- `MSI-X table entry n` (R276). -/
def msixCtl (i : Nat) : Nat := 0x1400C + 16 * i
/-- `MSI-X pending bit array` (R276). -/
def msixPba (i : Nat) : Nat := 0x1C000 + 4 * i
/-- Start of square block `s` (R9). -/
def sq (s : Nat) : Nat := 0x1000000 + s * 0x40000
/-- `SQ[s].PORT_MAP` (R73). -/
def portMap (s : Nat) : Nat := sq s + 0x0
/-- `SQ[s].LANE_RATE` (R73). -/
def laneRate (s : Nat) : Nat := sq s + 0x4
/-- `SQ[s].MAP_STAT` (R73). -/
def mapStat (s : Nat) : Nat := sq s + 0x8
/-- `SQ[s].LINK_TMR` (R73). -/
def linkTmr (s : Nat) : Nat := sq s + 0xC
/-- `SQ[s].LINK_THR` (R73). -/
def linkThr (s : Nat) : Nat := sq s + 0x10
/-- `SQ[s].PORT_CFG[i]` (R73). -/
def portCfg (s i : Nat) : Nat := sq s + 0x100 + 4 * i
/-- `SQ[s].LINK_STAT[i]` (R73). -/
def linkStat (s i : Nat) : Nat := sq s + 0x200 + 4 * i
/-- `SQ[s].LANE_FOM[j]` (R73). -/
def laneFom (s i : Nat) : Nat := sq s + 0x300 + 4 * i
/-- `SQ[s].PARSE_CFG` (R103). -/
def parseCfg (s : Nat) : Nat := sq s + 0x1000
/-- `SQ[s].FRAG_CFG` (R103). -/
def fragCfg (s : Nat) : Nat := sq s + 0x1004
/-- `SQ[s].FRAG_STAT` (R103). -/
def fragStat (s : Nat) : Nat := sq s + 0x1008
/-- `SQ[s].PARSE_VER` (R103). -/
def parseVerReg (s : Nat) : Nat := sq s + 0x100C
/-- `SQ[s].PORT_PARSE[i]` (R103). -/
def portParse (s i : Nat) : Nat := sq s + 0x1100 + 4 * i
/-- `SQ[s].LEARN_PORT` (R139). -/
def learnPort (s : Nat) : Nat := sq s + 0x1200
/-- `SQ[s].BLITZ_CFG` (R170). -/
def blitzCfg (s : Nat) : Nat := sq s + 0x2000
/-- `SQ[s].RESEQ_STAT` (R170). -/
def reseqStat (s : Nat) : Nat := sq s + 0x2004
/-- `SQ[s].BLITZ_MAC_LO[e]` (R170). -/
def blitzMacLo (s i : Nat) : Nat := sq s + 0x2100 + 16 * i
/-- `SQ[s].BLITZ_MAC_HI[e]` (R170). -/
def blitzMacHi (s i : Nat) : Nat := sq s + 0x2104 + 16 * i
/-- `SQ[s].BLITZ_ACT[e]` (R170). -/
def blitzAct (s i : Nat) : Nat := sq s + 0x2108 + 16 * i
/-- `SQ[s].BUF_QUOTA_OWN, _PEER, _SVC, _HOST` (R201). -/
def bufQuotaOwn (s : Nat) : Nat := sq s + 0x3000
/-- `SQ[s].BUF_QUOTA_OWN, _PEER, _SVC, _HOST` (R201). -/
def bufQuotaPeer (s : Nat) : Nat := sq s + 0x3004
/-- `SQ[s].BUF_QUOTA_OWN, _PEER, _SVC, _HOST` (R201). -/
def bufQuotaSvc (s : Nat) : Nat := sq s + 0x3008
/-- `SQ[s].BUF_QUOTA_OWN, _PEER, _SVC, _HOST` (R201). -/
def bufQuotaHost (s : Nat) : Nat := sq s + 0x300C
/-- `SQ[s].BUF_STAT` (R201). -/
def bufStat (s : Nat) : Nat := sq s + 0x3010
/-- `SQ[s].BUF_FREE_LOG` (R201). -/
def bufFreeLog (s : Nat) : Nat := sq s + 0x3014
/-- `SQ[s].PFC_THR[i]` (R201). -/
def pfcThr (s i : Nat) : Nat := sq s + 0x3100 + 8 * i
/-- `SQ[s].PFC_CFG[i]` (R201). -/
def pfcCfg (s i : Nat) : Nat := sq s + 0x3104 + 8 * i
/-- `SQ[s].EGR_CFG` (R229). -/
def egrCfg (s : Nat) : Nat := sq s + 0x4000
/-- `SQ[s].QSAMP_CFG` (R229). -/
def qsampCfg (s : Nat) : Nat := sq s + 0x4004
/-- `SQ[s].EGR_STAT` (R229). -/
def egrStat (s : Nat) : Nat := sq s + 0x4008
/-- `SQ[s].GATE_STAT[i]` (R229). -/
def gateStat (s i : Nat) : Nat := sq s + 0x4100 + 4 * i
/-- `SQ[s].PTP_CFG[i]` (R271). -/
def ptpCfg (s i : Nat) : Nat := sq s + 0x5000 + 8 * i
/-- `SQ[s].PTP_ASYM[i]` (R271). -/
def ptpAsym (s i : Nat) : Nat := sq s + 0x5004 + 8 * i
/-- `SQ[s].VSQ_STAT` (R349). -/
def vsqStat (s : Nat) : Nat := sq s + 0x6000
/-- `SQ[s].TELEM_SQ` (R391). -/
def telemSq (s : Nat) : Nat := sq s + 0x7000
end A

/-- The value in force of a telemetry register in one square (R391) is kept beyond BAR0, at a key of
its own: register `k` (TELEM_CFG, TELEM_COLL_NH, TELEM_COLL_ET) of square `s`. -/
def telemKey (s k : Nat) : Nat := 0x4000000 + 16 * s + 4 * k

/-- Find the row that holds offset `o`. -/
def findRow : List RegRow → Nat → Option RegRow
  | [], _ => none
  | r :: rs, o =>
    if r.base ≤ o ∧ (o - r.base) % r.stride = 0 ∧ (o - r.base) / r.stride < r.count then some r
    else findRow rs o

/-- Is `a` in a square block (R392, R400)? -/
def inSquare (a : Nat) : Bool := decide (0x1000000 ≤ a ∧ a < 0x2000000)

/-- Square and offset of an address in a square block (R9). -/
def squareOf (a : Nat) : Nat := (a - 0x1000000) / 0x40000
def offsetOf (a : Nat) : Nat := (a - 0x1000000) % 0x40000

/-- The register row at BAR0 offset `a`, if a register occupies it (R392, R393). -/
def regRow (a : Nat) : Option RegRow :=
  if inSquare a then findRow squareRows (offsetOf a) else findRow globalRows a

/-- The reset value of `FAULT_CFG[n]` with N, window unit, window, minor and severe reaction (R316). -/
def faultCfgWord (n unit win rmin rsev : Nat) : Nat :=
  n + win * 0x100 + unit * 0x400000 + rmin * 0x1000000 + rsev * 0x8000000

/-- Default fault setting of source `n` (R316); a "—" is a 1 s window and REACT_MIN 0. -/
def faultCfgReset (n : Nat) : Nat :=
  if n ≤ 2 then faultCfgWord 3 1 10 0 2
  else if n = 3 then faultCfgWord 8 2 1 1 1
  else if n = 4 then faultCfgWord 1 2 1 0 1
  else if n ≤ 7 then faultCfgWord 2 2 1 1 2
  else if n ≤ 10 then faultCfgWord 3 2 1 1 2
  else if n = 11 then faultCfgWord 1 2 1 0 1
  else if n = 12 then faultCfgWord 3 2 1 1 1
  else if n = 13 then faultCfgWord 2 2 1 1 1
  else if n = 14 then faultCfgWord 4 2 1 1 1
  else if n = 15 then faultCfgWord 1 2 1 0 1
  else if n = 16 then faultCfgWord 4 2 1 1 1
  else if n = 17 then faultCfgWord 16 2 1 0 1
  else if n = 18 then faultCfgWord 1 2 1 0 1
  else if n = 19 then faultCfgWord 8 2 1 1 1
  else if n = 20 then faultCfgWord 4 2 1 1 1
  else if n ≤ 23 then faultCfgWord 1 2 1 0 1
  else if 32 ≤ n ∧ n < 48 then faultCfgWord 2 2 10 1 1
  else if 64 ≤ n ∧ n < 576 then
    match (n - 64) % 8 with
    | 0 => faultCfgWord 1 2 1 0 3
    | 1 => faultCfgWord 1 2 1 0 1
    | 2 => faultCfgWord 16 2 1 0 1
    | 3 => faultCfgWord 1 2 1 0 1
    | 4 => faultCfgWord 1 2 1 0 1
    | 5 => faultCfgWord 16 2 100 0 1
    | 6 => faultCfgWord 64 2 1 0 1
    | _ => faultCfgWord 2 2 1 1 1
  else if 768 ≤ n ∧ n < 1024 then faultCfgWord 8 2 10 0 1
  else 0

/-- Does source `n` exist (R316)? -/
def srcExists (n : Nat) : Bool :=
  decide (n ≤ 23 ∨ (32 ≤ n ∧ n < 48) ∨ (64 ≤ n ∧ n < 576) ∨ (768 ≤ n ∧ n < 1024))

/-- Reset value of the register at `a` (R402, and each field table); 0 where no register stands. -/
def regReset (a : Nat) : Reg :=
  if 0x31000 ≤ a ∧ a < 0x32000 then BitVec.ofNat 32 (faultCfgReset ((a - 0x31000) / 4))
  else if 0x4000000 ≤ a then (if a % 16 = 8 then 0x88B5#32 else 0#32)
  else match regRow a with
    | some r => BitVec.ofNat 32 r.reset
    | none => 0

/-- Value last written to the register at `a`, with hardware's sticky bits. -/
def State.reg (s : State) (a : Nat) : Reg := SMap.get regReset s.regs a

/-- Value in force of the latched register at `a` (R21, R396). -/
def State.inForce (s : State) (a : Nat) : Reg := SMap.get regReset s.force a

def State.setReg (s : State) (a : Nat) (v : Reg) : State :=
  { s with regs := SMap.set regReset s.regs a v }

def State.setForce (s : State) (a : Nat) (v : Reg) : State :=
  { s with force := SMap.set regReset s.force a v }

/-- Latch the registers `as`: the values last written come into force. DEDUCED, unsafe (log entry 12). -/
def State.latch (s : State) (as : List Nat) : State :=
  { s with force := as.foldl (fun f a => SMap.set regReset f a (s.reg a)) s.force }

end Sys2Proof.Machine
end

