-- ==== Sys2Proof/Machine/Ops.lean ====
section
/-!
DEFINITION. The named operations every meaning is written over: the parts of the state by number,
time, counters, ports, lifecycle states, host writes, returns, events and Book reads.
-/

namespace Sys2Proof.Machine

/-! ### Parts of the state by number; an unlisted part is at its reset value -/

def State.sq (s : State) (i : Nat) : Sq := SMap.get (fun _ => {}) s.sqs i
def State.setSq (s : State) (i : Nat) (x : Sq) : State :=
  { s with sqs := SMap.set (fun _ => {}) s.sqs i x }
def State.modSq (s : State) (i : Nat) (f : Sq → Sq) : State := s.setSq i (f (s.sq i))

def State.lane (s : State) (i : Nat) : Lane := SMap.get (fun _ => {}) s.lanes i
def State.modLane (s : State) (i : Nat) (f : Lane → Lane) : State :=
  { s with lanes := SMap.upd (fun _ => {}) s.lanes i f }

def State.link (s : State) (p : Nat) : Link := SMap.get (fun _ => {}) s.links p
def State.modLink (s : State) (p : Nat) (f : Link → Link) : State :=
  { s with links := SMap.upd (fun _ => {}) s.links p f }

def State.queue (s : State) (q : Nat) : Queue := SMap.get (fun _ => {}) s.queues q
def State.modQueue (s : State) (q : Nat) (f : Queue → Queue) : State :=
  { s with queues := SMap.upd (fun _ => {}) s.queues q f }

def State.eport (s : State) (p : Nat) : EPort := SMap.get (fun _ => {}) s.eports p
def State.modEport (s : State) (p : Nat) (f : EPort → EPort) : State :=
  { s with eports := SMap.upd (fun _ => {}) s.eports p f }

def State.ring (s : State) (n : Nat) : Ring := SMap.get (fun _ => {}) s.host.rings n
def State.modRing (s : State) (n : Nat) (f : Ring → Ring) : State :=
  { s with host := { s.host with rings := SMap.upd (fun _ => {}) s.host.rings n f } }

def State.chan (s : State) (c : Nat) : Chan := SMap.get (fun _ => {}) s.red.chans c
def State.modChan (s : State) (c : Nat) (f : Chan → Chan) : State :=
  { s with red := { s.red with chans := SMap.upd (fun _ => {}) s.red.chans c f } }

def State.engine (s : State) (e : Nat) : Engine := SMap.get (fun _ => {}) s.red.engines e
def State.modEngine (s : State) (e : Nat) (f : Engine → Engine) : State :=
  { s with red := { s.red with engines := SMap.upd (fun _ => {}) s.red.engines e f } }

def State.chn (s : State) (c : Nat) : Chn := SMap.get (fun _ => {}) s.triad.chans c
def State.modChn (s : State) (c : Nat) (f : Chn → Chn) : State :=
  { s with triad := { s.triad with chans := SMap.upd (fun _ => {}) s.triad.chans c f } }

def State.src (s : State) (n : Nat) : Src := SMap.get (fun _ => {}) s.fault.srcs n
def State.modSrc (s : State) (n : Nat) (f : Src → Src) : State :=
  { s with fault := { s.fault with srcs := SMap.upd (fun _ => {}) s.fault.srcs n f } }

def State.vsq (s : State) (i : Nat) : Vsq := SMap.get (fun _ => {}) s.power.vsq i
def State.modVsq (s : State) (i : Nat) (f : Vsq → Vsq) : State :=
  { s with power := { s.power with vsq := SMap.upd (fun _ => {}) s.power.vsq i f } }

/-! ### The gate every command passes -/

/-- The device runs: POR_N is high and no device reset is held. -/
def State.running (s : State) : Bool := !(s.boot.stage == 0 || s.boot.stage == 4)

/-- A command's effect when the device runs. Nothing happens while it is in reset (R404, R418); once a rail has
left its range with POR_N high, the manual guarantees nothing until the next POR_N (R415).
DESIGN CHOICE, safe (log entry 5). DEDUCED, unsafe (log entry 6). DEDUCED, unsafe (log entry 27). -/
def gated (s : State) (f : State → State) : Host.Outcome State Fault Refusal :=
  if s.pins.railBad then .fault .guaranteesVoid
  else if s.running then .next (f s)
  else .next s

/-- The effect of what arrives at a pin: none while boundary scan has the pins (R420). -/
def atPins (s : State) (f : State → State) : Host.Outcome State Fault Refusal :=
  gated s fun s => if s.pins.scan then s else f s

/-- A command that acts whether or not the device runs, with the guarantees of R415 still in force. -/
def always (s : State) (f : State → State) : Host.Outcome State Fault Refusal :=
  if s.pins.railBad then .fault .guaranteesVoid else .next (f s)

/-! ### Time (R255, R257, R258) -/

/-- The voted value of three counters: two equal ones, else the median (R257). -/
def votedTick (a b c : Tick) : Tick :=
  if a = b ∨ a = c then a
  else if b = c then b
  else if (a ≤ b ∧ b ≤ c) ∨ (c ≤ b ∧ b ≤ a) then b
  else if (b ≤ a ∧ a ≤ c) ∨ (c ≤ a ∧ a ≤ b) then a
  else c

/-- Device time as every reader sees it (R257). DEDUCED, unsafe (log entry 95). -/
def State.now (s : State) : Tick := votedTick s.time.c0 s.time.c1 s.time.c2
/-- Device time in whole ns (R255). -/
def State.nowNs (s : State) : Nat := toNs s.now
/-- Elapsed time (R258). DESIGN CHOICE, unsafe (log entry 93). -/
def State.elapsed (s : State) : Tick := s.time.elapsed

/-- Elapsed time in µs, low 32 bits, as MOVE_T and T0 hold it (R125, R243). -/
def State.nowUs32 (s : State) : Nat := toUs s.elapsed % 2 ^ 32

/-- Microseconds since such a value was taken, modulo 2^32. -/
def State.sinceUs (s : State) (t : Nat) : Nat := (s.nowUs32 + 2 ^ 32 - t) % 2 ^ 32

/-- One past the largest device time: 2^64 ns (R259). -/
def timeModulus : Nat := 2 ^ 104

/-- All three counters loaded with one value. -/
def State.loadTime (s : State) (t : Tick) : State :=
  { s with time := { s.time with c0 := t, c1 := t, c2 := t } }

/-! ### Counters (R374 to R381) -/

def count48 : Nat := 2 ^ 48

/-- A counter word advanced by `n`: the count wraps modulo 2^48 and sets WRAP in bit 48 (R375). -/
def bumpWord (w n : Nat) : Nat :=
  let t := w % count48 + n
  t % count48 + (if t ≥ count48 ∨ w ≥ count48 then count48 else 0)

/-- The counter word at BAR2 offset `o`. -/
def State.counter (s : State) (o : Nat) : Nat := SMap.get (fun _ => 0) s.cnt o

def State.setCounter (s : State) (o v : Nat) : State :=
  { s with cnt := SMap.set (fun _ => 0) s.cnt o v }

/-- Add `n` to the counter at BAR2 offset `o`. -/
def State.count (s : State) (o n : Nat) : State :=
  if n = 0 then s else s.setCounter o (bumpWord (s.counter o) n)

/-- Word `w` of the port set (R374, R377). -/
def portCtr (p w : Nat) : Nat := 512 * p + 8 * w
/-- Word `w` of the queue set (R374, R378). -/
def queueCtr (q w : Nat) : Nat := 0x100000 + 128 * q + 8 * w
/-- Offset `o` of the square set (R374, R379). -/
def sqCtr (s o : Nat) : Nat := 0x400000 + 0x8000 * s + o
/-- Word `k` of the last table of R379. -/
def sqWord (s k : Nat) : Nat := sqCtr s (0x1000 + 8 * k)
def devCtr (w : Nat) : Nat := 0x600000 + 8 * w
def ringCtr (n w : Nat) : Nat := 0x610000 + 32 * n + 8 * w
def chanCtr (c w : Nat) : Nat := 0x640000 + 128 * c + 8 * w
def meterCtr (s m w : Nat) : Nat := 0x800000 + 0x60000 * s + 24 * m + 8 * w

/-- Words of the port set that ports 1024–1090 keep (R377). -/
def internalPortWord (w : Nat) : Bool := decide (w ≤ 3 ∨ (48 ≤ w ∧ w ≤ 51) ∨ w = 61)

/-- Count in the port set; an internal port keeps only its own words (R377). -/
def State.countPort (s : State) (p w n : Nat) : State :=
  if p < 1024 ∨ internalPortWord w then s.count (portCtr p w) n else s

/-- Count a whole frame of `n` bytes, its FCS apart, that a port takes in, at its crossing where it has no wire (R377). -/
def State.portIn (s : State) (p n : Nat) : State := (s.countPort p 0 1).countPort p 1 (n + 4)

/-! ### Ports and squares (R2 to R6, R23, R39, R73) -/

/-- Lanes of the port that contains lane `l`, by the map in force (R73). -/
def State.portWidth (s : State) (l : Nat) : Nat :=
  let i := l % 16
  2 ^ bits (s.inForce (A.portMap (l / 16))).toNat (2 * i + 1) (2 * i)

/-- Base lane of the port that contains lane `l` (R4). -/
def State.portBase (s : State) (l : Nat) : Nat := l / s.portWidth l * s.portWidth l

/-- The port number names a port (R4 to R6). -/
def State.portExists (s : State) (p : Nat) : Bool :=
  if p < 1024 then p % s.portWidth p == 0 else decide (p ≤ 1090)

/-- Lanes of a front-panel port. -/
def State.portLanes (s : State) (p : Nat) : List Nat := (List.range (s.portWidth p)).map (p + ·)

/-- Rate code of a lane in force (R39). -/
def State.laneRateCode (s : State) (l : Nat) : Nat :=
  let i := l % 16
  bits (s.inForce (A.laneRate (l / 16))).toNat (2 * i + 1) (2 * i)

/-- Carried rate of one lane in Gb/s (R39). -/
def carriedOfCode (c : Nat) : Nat := if c = 0 then 200 else if c = 1 then 100 else 50

/-- Carried rate of a port in Gb/s: front-panel ports by R39, recirculation ports at 400 (R1). -/
def State.carriedRate (s : State) (p : Nat) : Nat :=
  if p < 1024 then s.portWidth p * carriedOfCode (s.laneRateCode p) else 400

/-- Carried rate of a port in Mb/s: the management port by its SPEED (R68), the others by R39 and R1. -/
def State.rateMb (s : State) (p : Nat) : Nat :=
  if p = 1089 then 10 * 10 ^ min 2 s.host.mgmt.speed else 1000 * s.carriedRate p

/-- Time that `n` bytes take at a port's carried rate. -/
def State.byteTime (s : State) (p n : Nat) : Tick := n * 8000 * tickNs / s.rateMb p

/-- Base lanes of the ports of square `i` under the map in force. -/
def State.squarePorts (s : State) (i : Nat) : List Nat :=
  ((List.range 16).map (16 * i + ·)).filter s.portExists

/-- Square that holds the queues of a port (R14, R180). -/
def State.queueSquare (s : State) (p : Nat) : Nat :=
  if p < 1024 then p / 16
  else if p < 1088 then p - 1024
  else if p < 1090 then s.tour.attHost
  else s.tour.attSvc

/-- A port of the boundary clock service is in state SLAVE. -/
def State.bcSlave (s : State) : Bool := s.time.bcPorts.any (fun e => e.2 == 9)

/-- A port of the service takes a state, and the service advertises `clockClass`; without its last SLAVE port it keeps the
frequency adjustment and advertises 7 where it advertised 6 (R270). -/
def State.bcPortState (s : State) (p st clockClass : Nat) : State :=
  let s1 := { s with time := { s.time with bcPorts := SMap.set (fun _ => 0) s.time.bcPorts p st } }
  let c := if s.bcSlave && !s1.bcSlave && s.time.bcClass == 6 then 7 else clockClass
  { s1 with time := { s1.time with bcClass := c } }

/-- A port leaves the service: its link is down, it takes part no more, or the service is OFF (R267, R270). -/
def State.bcLeave (s : State) (p : Nat) : State :=
  if SMap.get (fun _ => 0) s.time.bcPorts p = 0 then s else s.bcPortState p 0 s.time.bcClass

/-- A Sync that will not leave whole is reported to the service as lost (R268). -/
def State.bcLost (s : State) (fid : Nat) : State :=
  if s.time.bcSync.any (fun e => e.2.fid == fid) then
    { s with time := { s.time with
      bcSync := s.time.bcSync.map (fun e => if e.2.fid = fid then (e.1, { e.2 with lost := true }) else e) } }
  else s

/-- The Book replica that serves a square (R23). -/
def replicaOf (i : Nat) : Nat := 2 * (i / 16) + i % 8 / 4

/-- The core die of a square (R23). -/
def coreDieOf (i : Nat) : Nat := 2 * (i / 32) + i % 8 / 4

/-- PORT_CFG in force of a front-panel port. -/
def State.portCfg (s : State) (p : Nat) : Reg := s.inForce (A.portCfg (p / 16) (p % 16))

/-- MAX_FRAME of a port (R45, R73); 9,600 where a port has none. -/
def State.maxFrame (s : State) (p : Nat) : Nat :=
  if p < 1024 then clip 64 9600 (fld (s.portCfg p) 13 0)
  else if p = 1089 then clip 64 9600 (fld (s.inForce A.hostMgmtCfg) 29 16)
  else 9600

/-! ### Lifecycle states (R25 to R33) -/

def fnKey (cls inst : Nat) : Nat := 65536 * cls + inst

/-- State of a function that nothing has changed since reset: OFF (R36, R38, R366). The queues of ports 1088 and
1090, which no port's ENABLE turns on, are enabled by their numbers (R30). DEDUCED, unsafe (log entry 29). -/
def fnInit (_k : Nat) : Fn := {}

def State.fn (s : State) (cls inst : Nat) : Fn := SMap.get fnInit s.fns (fnKey cls inst)
def State.setFn (s : State) (cls inst : Nat) (x : Fn) : State :=
  { s with fns := SMap.set fnInit s.fns (fnKey cls inst) x }
def State.modFn (s : State) (cls inst : Nat) (f : Fn → Fn) : State :=
  s.setFn cls inst (f (s.fn cls inst))

def State.isOn (s : State) (cls inst : Nat) : Bool := (s.fn cls inst).st == .on
def State.isOff (s : State) (cls inst : Nat) : Bool := (s.fn cls inst).st == .off
def State.isDraining (s : State) (cls inst : Nat) : Bool := (s.fn cls inst).st == .draining

/-- Units discarded during a drain join the discard count of the function that drains them: that of queue `q` where it
drains under a command of its own, else that of its container (R27, R31, R34). -/
def State.chargeQueue (s : State) (q n : Nat) : State :=
  let f := s.fn 1 q
  if f.st = .draining then
    if f.own then s.modFn 1 q (fun x => { x with discarded := x.discarded + n })
    else match f.inside with
      | some k => s.modFn (k / 65536) (k % 65536) (fun x => { x with discarded := x.discarded + n })
      | none => s
  else s

/-- Lifecycle function of a port: class 0, or class 2 for a recirculation port (R30). -/
def portClass (p : Nat) : Nat × Nat := if 1024 ≤ p ∧ p < 1088 then (2, p - 1024) else (0, p)

/-- The port admits new frames. Ports 1088 and 1090 have no function of their own (R30). -/
def State.portOn (s : State) (p : Nat) : Bool :=
  if p = 1088 ∨ p = 1090 then true else s.isOn (portClass p).1 (portClass p).2

/-! ### Book memory (R105, R106) -/

def bookKey (v w : Nat) : Nat := 4194304 * v + w

def mapSize (m : SMap Nat) (v : Nat) : Nat := SMap.get (fun _ => 0) m v / 65536
def mapBase (m : SMap Nat) (v : Nat) : Nat := SMap.get (fun _ => 0) m v % 65536

/-- 64-bit word at byte offset `o` of volume `v`; zero beyond the volume's SIZE (R111). -/
def bookAt (side : SMap W64) (m : SMap Nat) (v o : Nat) : Nat :=
  if o < 4096 * mapSize m v then (SMap.get (fun _ => 0) side (bookKey v (o / 8))).toNat else 0

/-- A reader of the Book: byte offset `o` of volume `v`. -/
abbrev BookView := Nat → Nat → Nat

/-- The current epoch's view. -/
def Book.current (b : Book) : BookView := fun v o => bookAt b.active b.map v o

/-- The standby sides, under the map a turn would bring. -/
def Book.standbyView (b : Book) : BookView := fun v o => bookAt b.standby (b.newMap.getD b.map) v o

/-- The view of epoch `e`: the old sides of a live old epoch, else the current ones (R134, R160). -/
def Book.view (b : Book) (e : Nat) : BookView := fun v o =>
  match b.old with
  | some x =>
    if x.epoch = e ∧ bit x.mask v then bookAt b.standby b.oldMap v o else bookAt b.active b.map v o
  | none => bookAt b.active b.map v o

/-- `n` bytes (1, 2 or 4, naturally aligned) at byte offset `o` of a volume. -/
def bookField (w : BookView) (v o n : Nat) : Nat :=
  w v (o / 8 * 8) / 2 ^ (8 * (o % 8)) % 2 ^ (8 * n)

/-- Epoch `e` is live (R132). -/
def Book.live (b : Book) (e : Nat) : Bool :=
  e == b.epoch || (match b.old with | some x => x.epoch == e | none => false)

/-! ### Squares of the Tour (R143 to R145) -/

/-- BASE_EXCL of the active Tour table (R143). -/
def State.baseExcl (s : State) : Nat := s.book.current 10 8

/-- Bit i: square i is excluded, base or run time (R145, R170). DEDUCED, unsafe (log entry 98). -/
def State.exclMask (s : State) : Nat :=
  ((List.range 64).map (fun i => b2n (bit s.tour.x i || bit s.baseExcl i) * 2 ^ i)).sum

/-- The square takes part in the Tour in force. -/
def State.sqActive (s : State) (i : Nat) : Bool :=
  s.tour.running && !bit s.baseExcl i && !bit s.tour.xInForce i

/-- Both attachment squares of a block are excluded (R15). -/
def State.attLost (s : State) (a b : Nat) : Bool :=
  s.tour.running && !s.sqActive a && !s.sqActive b

def State.hostLost (s : State) : Bool := s.attLost 27 36
def State.svcLost (s : State) : Bool := s.attLost 28 35

/-- A command that names the port is answered UNREACHABLE (R15). -/
def State.portUnreachable (s : State) (p : Nat) : Bool :=
  ((p == 1088 || p == 1089) && s.hostLost) || (p == 1090 && s.svcLost)

/-! ### Host memory writes, interrupts, returns (R276, R280, R284, R300) -/

/-- The endpoint function may issue requests (R302). -/
def State.fnLive (s : State) (fn : Nat) : Bool :=
  s.host.linkUp && SMap.get (fun _ => false) s.host.bme fn

/-- Control fields of a function. The payload and read sizes of a VF are the PF's. -/
def State.ctl (s : State) (fn : Nat) : FnCtl := SMap.get (fun _ => {}) s.host.ctl fn

/-- Bytes of the largest payload and read request, up to what the endpoint supports (R272). -/
def State.maxPayload (s : State) : Nat := 128 * 2 ^ min 2 (s.ctl 0).maxPayload.toNat
def State.maxRead (s : State) : Nat := 128 * 2 ^ min 5 (s.ctl 0).maxRead.toNat

/-- The pieces of an access of `n` bytes: offset and length of each, none longer than `max` and none across a 4 KiB
boundary. `o` bytes have been cut already. -/
def pieces (max addr : Nat) : Nat → Nat → Nat → List (Nat × Nat)
  | 0, _, _ => []
  | fuel + 1, o, n =>
    if n = 0 then []
    else
      let k := min n (min (atLeast1 max) (4096 - (addr + o) % 4096))
      (o, k) :: pieces max addr fuel (o + k) (n - k)

/-- The memory writes that carry bytes to the host (R272, R300). -/
def State.hostTlps (s : State) (fn addr : Nat) (relaxed : Bool) (bs : List Byte) : List HostWr :=
  (pieces s.maxPayload addr bs.length 0 bs.length).map (fun p =>
    { fn := fn, addr := addr + p.1, relaxed := relaxed && (s.ctl 0).relaxed, bytes := slice bs p.1 p.2 })

def State.hostWrite (s : State) (fn addr : Nat) (relaxed : Bool) (bs : List Byte) : State :=
  { s with io := { s.io with hostw := (s.hostTlps fn addr relaxed bs).reverse ++ s.io.hostw } }

/-- The read requests for `len` bytes of host memory (R272). -/
def State.readTlps (s : State) (fn addr len : Nat) : List (Nat × Nat × Nat) :=
  (pieces s.maxRead addr len 0 len).map (fun p => (fn, addr + p.1, p.2))

def State.askRead (s : State) (fn addr len : Nat) : State :=
  { s with io := { s.io with reads := (s.readTlps fn addr len).reverse ++ s.io.reads } }

/-- Entry `vec` of a function's MSI-X table (R276, R303). -/
def State.msixEntry (s : State) (fn vec : Nat) : MsixEntry :=
  if fn = 0 then
    { addr := BitVec.ofNat 64 ((s.reg (A.msixAddrHi vec)).toNat * 2 ^ 32 + (s.reg (A.msixAddrLo vec)).toNat)
      data := s.reg (A.msixData vec), mask := rbit (s.reg (A.msixCtl vec)) 0 }
  else SMap.get (fun _ => {}) s.host.vfMsix (16 * (fn - 1) + vec)

/-- The message of a vector. -/
def State.msixMsg (s : State) (fn vec : Nat) : MsixMsg :=
  let e := s.msixEntry fn vec
  { fn := fn, vec := vec, addr := e.addr, data := e.data }

def State.msixSend (s : State) (fn vec : Nat) : State :=
  { s with io := { s.io with msix := s.msixMsg fn vec :: s.io.msix } }

/-- Mask bit of a vector (R276). -/
def State.vecMasked (s : State) (fn vec : Nat) : Bool := (s.msixEntry fn vec).mask

/-- A vector's message may be sent: MSI-X is enabled, and neither the function nor the vector is masked (R276). -/
def State.vecOpen (s : State) (fn vec : Nat) : Bool :=
  (s.ctl fn).msixEn && !(s.ctl fn).msixMask && !s.vecMasked fn vec

def State.vecPending (s : State) (fn vec : Nat) : Bool :=
  if fn = 0 then rbit (s.reg (A.msixPba (vec / 32))) (vec % 32)
  else SMap.get (fun _ => false) s.host.vfPending (16 * (fn - 1) + vec)

def State.setVecPending (s : State) (fn vec : Nat) (b : Bool) : State :=
  if fn = 0 then
    let r := s.reg (A.msixPba (vec / 32))
    s.setReg (A.msixPba (vec / 32)) (BitVec.ofNat 32 (setBit r.toNat (vec % 32) b))
  else { s with host := { s.host with
      vfPending := SMap.set (fun _ => false) s.host.vfPending (16 * (fn - 1) + vec) b } }

/-- Fire a vector: send its message, or set its pending bit where it may not be sent (R276). -/
def State.fireVector (s : State) (fn vec : Nat) : State :=
  if s.vecOpen fn vec then s.msixSend fn vec else s.setVecPending fn vec true

/-- Send the message of a pending vector that may be sent now, if the function may issue requests (R276, R302). -/
def State.sendPending (s : State) (fn vec : Nat) : State :=
  if s.vecPending fn vec && s.vecOpen fn vec && s.fnLive fn then (s.setVecPending fn vec false).msixSend fn vec else s

/-- Fire a ring's vector for all its unsignalled returns (R284). -/
def State.signalRing (s : State) (n : Nat) : State :=
  let r := s.ring n
  let s := s.modRing n (fun r => { r with unsignalled := 0 })
  if r.vec = 65535 then s else s.fireVector r.fn r.vec

/-- Bytes 0–27 of a descriptor. -/
def body28 (bs : List Byte) : List Byte := (bs ++ List.replicate 28 0).take 28

/-- Write one return at the ring's index C: the descriptor in place with its return word (R280). -/
def State.writeReturn (s : State) (n : Nat) (bs : List Byte) (word : Nat) : State :=
  let r := s.ring n
  let size := 2 ^ r.log2
  let addr := r.base + 32 * (r.c % size)
  let done := 1 - r.c / size % 2
  let w := leBytes 4 (word % 2147483648 + 2147483648 * done)
  let s :=
    if r.splitWb then (s.hostWrite r.fn addr false (body28 bs)).hostWrite r.fn (addr + 28) false w
    else s.hostWrite r.fn addr false (body28 bs ++ w)
  let s := s.modRing n (fun r => { r with
    c := (r.c + 1) % 4294967296
    unsignalled := r.unsignalled + 1
    oldest := if r.unsignalled = 0 then s.elapsed else r.oldest })
  if atLeast1 r.modCnt ≤ r.unsignalled + 1 ∧ r.vec ≠ 65535 then s.signalRing n else s

/-- Write the returns that wait, if the ring's function may issue requests (R302). -/
def State.flushReturns (s : State) (n : Nat) : State :=
  if s.fnLive (s.ring n).fn then
    (s.ring n).retq.foldl (fun s e => s.writeReturn n e.1 e.2)
      (s.modRing n (fun r => { r with retq := [] }))
  else s

/-- Return one descriptor of a ring, in index order (R279, R280). -/
def State.ringReturn (s : State) (n : Nat) (bs : List Byte) (word : Nat) : State :=
  (s.modRing n (fun r => { r with retq := r.retq ++ [(body28 bs, word)] })).flushReturns n

/-! ### Events (R295) -/

/-- Bytes 0–27 of an event entry. -/
def eventBytes (e : Event) : List Byte :=
  leBytes 1 e.type ++ leBytes 1 e.sub ++ leBytes 2 e.src ++ leBytes 8 e.time ++
    (e.payload ++ List.replicate 16 0).take 16

/-- Write one waiting event into the ring's oldest fetched descriptor. -/
def State.fillEvent (s : State) (n : Nat) : State :=
  let r := s.ring n
  match r.evq, r.fetched with
  | e :: es, _ :: ds =>
    (s.modRing n (fun r => { r with evq := es, fetched := ds })).ringReturn n (eventBytes e) e.seq
  | _, _ => s

/-- Write waiting events while the ring has descriptors. -/
def State.fillEvents (s : State) (n : Nat) : State :=
  (List.range (min (s.ring n).evq.length (s.ring n).fetched.length)).foldl
    (fun s _ => s.fillEvent n) s

/-- The ring is ON and of the given type. -/
def State.ringIs (s : State) (n type : Nat) : Bool := s.isOn 5 n && (s.ring n).type == type

/-- An event ring takes an event: it is ON, an event ring, and its device-side queue has room (R295). -/
def State.evRoom (s : State) (n : Nat) : Bool :=
  s.ringIs n 4 && decide ((s.ring n).evq.length < 256)

/-- Post an event with a time of its own to a ring (R295). -/
def State.postAt (s : State) (ring type sub src : Nat) (payload : List Byte) (time : Nat) : State :=
  let seq := SMap.get (fun _ => 0) s.host.evSeq ring
  let s1 := { s with host := { s.host with
    evSeq := SMap.set (fun _ => 0) s.host.evSeq ring ((seq + 1) % 2147483648) } }
  if s.evRoom ring then
    (s1.modRing ring (fun r => { r with evq := r.evq ++
      [{ type := type, sub := sub, src := src, time := time, payload := payload, seq := seq }] })).fillEvents ring
  else s1.count (ringCtr ring 1) 1

/-- Ring of every event that no other rule routes (R295), as latched (R303). -/
def State.evtRing (s : State) : Nat := fld (s.inForce A.hostCfg) 27 16

/-- Post an event to the event ring, stamped with device time. -/
def State.post (s : State) (type sub src : Nat) (payload : List Byte) : State :=
  s.postAt s.evtRing type sub src payload s.nowNs

/-- Payload of a lifecycle event (R296). -/
def lifePayload (cls units us : Nat) : List Byte :=
  leBytes 4 cls ++ leBytes 4 (units % 4294967296) ++ leBytes 4 (us % 4294967296)

/-- Post a lifecycle event (R28). Ring and VF events go where every other lifecycle event goes. -/
def State.postLife (s : State) (cls inst outcome units us : Nat) : State :=
  s.post 1 outcome inst (lifePayload cls units us)

/-! ### Registers hardware writes -/

/-- Set bits of a register by hardware (W1C and RS fields, R10). -/
def State.orReg (s : State) (a v : Nat) : State :=
  s.setReg a (s.reg a ||| BitVec.ofNat 32 v)

/-- Log in a register with a VALID bit 31: the first entry stays until VALID is cleared. -/
def State.logReg (s : State) (a v : Nat) : State :=
  if rbit (s.reg a) 31 then s else s.setReg a (BitVec.ofNat 32 (2147483648 + v))

/-- An error on the host link: reported through AER, and held in `HOST_ERR_LOG` if it is the first (R272, R301, R303). A
write to BAR2 is no failure and is logged alone (R275). -/
def State.hostErr (s : State) (kind ring fn : Nat) : State :=
  let s1 := s.logReg A.hostErrLog (kind * 2 ^ 28 + ring * 2 ^ 16 + fn)
  if kind = 5 then s1 else { s1 with io := { s1.io with aer := (fn, kind) :: s1.io.aer } }

/-- `GLOBAL_ACC_LOG` (R403). -/
def State.accErr (s : State) (kind addr : Nat) : State :=
  s.logReg A.globalAccLog (kind * 2 ^ 28 + addr / 4 % 2 ^ 24)

/-- The name of the next frame. -/
def State.freshFid (s : State) : State × Nat := ({ s with nextFid := s.nextFid + 1 }, s.nextFid)

end Sys2Proof.Machine
end

