-- ==== Sys2Proof/Machine/Flags.lean ====
section
/-!
DEFINITION. The fault unit: severity, first-event latch, log, reactions, holds, failed channels and
the removal of squares from the Tour's set X (R310 to R324, R427).
-/

namespace Sys2Proof.Machine

/-! ### Settings of a source (R316, R327) -/

/-- `FAULT_CFG[n]` as it acts: source 4 is fixed, and the N of source 15 is 1. -/
def State.faultCfgOf (s : State) (n : Nat) : Nat :=
  if n = 4 then faultCfgWord 1 2 1 0 1
  else
    let v := (s.reg (A.faultCfg n)).toNat
    if n = 15 then v / 256 * 256 + 1 else v

def faultN (v : Nat) : Nat := atLeast1 (bits v 7 0)

/-- Window length (R327 field WIN_UNIT). -/
def faultWindow (v : Nat) : Tick :=
  let w := atLeast1 (bits v 21 8)
  if bits v 23 22 = 0 then usT w else if bits v 23 22 = 1 then msT w else secT w

/-- Reaction code set for a severity. -/
def faultReact (v : Nat) (severe : Bool) : Nat := if severe then bits v 29 27 else bits v 26 24

/-- Quiet period (R321). -/
def State.quietOf (s : State) (n : Nat) : Tick :=
  msT (min 3600000 (atLeast1 (fld (s.reg (A.faultQuiet n)) 21 0)))

/-- Channel of a channel source (R312, R318). -/
def srcChannel (n : Nat) : Option Nat :=
  if n ≤ 2 then some n
  else if 5 ≤ n ∧ n ≤ 7 then some (n - 5)
  else if 8 ≤ n ∧ n ≤ 10 then some (n - 8)
  else none

/-- Square of a square source (R316). -/
def srcSquare (n : Nat) : Option Nat := if 64 ≤ n ∧ n < 576 then some ((n - 64) / 8) else none

/-- Number of square `i`'s source `j` (R316). -/
def sqSrc (i j : Nat) : Nat := 64 + 8 * i + j

/-- Source of a front-panel port (R316). -/
def portSrc (p : Nat) : Nat := 768 + p / 4

/-- Squares that would be left if X were `x`. -/
def State.leaves (s : State) (x : Nat) : Nat :=
  ((List.range 64).filter (fun i => !bit x i && !bit s.baseExcl i)).length

/-- The reaction code that takes effect (R318): codes 5 to 7 act as 1, codes with no meaning for the
source act as 1, a SLOW source takes none of 2 to 4, and the last active square is not isolated. -/
def State.effectiveCode (s : State) (n code : Nat) : Nat :=
  if code ≤ 1 then code
  else if 5 ≤ code then 1
  else match srcSquare n with
    | some i =>
      if (n - 64) % 8 = 1 then 1
      else if code = 3 ∧ !bit s.tour.x i ∧ s.leaves (setBit s.tour.x i true) = 0 then 1
      else code
    | none =>
      if code = 4 then 4
      else match srcChannel n with
        | some _ => 2
        | none => 1

/-! ### Scoresheet records -/

/-- Append a record to a circular region of `cap` records (R363); newest first. -/
def circ (cap : Nat) (r : List Nat) (rs : List (List Nat)) : List (List Nat) := (r :: rs).take cap

/-- Write a fault-log record, at most 10,000 in a second (R364). -/
def State.logFault (s : State) (r : List Nat) : State :=
  let sec := s.elapsed / secT 1
  let cnt := if s.boot.logSec = sec then s.boot.logCnt else 0
  if cnt < 10000 then
    { s with nv := { s.nv with faultLog := circ 65536 r s.nv.faultLog }
             boot := { s.boot with logSec := sec, logCnt := cnt + 1 } }
  else
    let s1 := { s with boot := { s.boot with
      logSec := sec, logCnt := cnt + 1, logDrop := min 65535 (s.boot.logDrop + 1) } }
    if cnt = 10000 then s1.post 0x33 1 0x21 (leBytes 4 s1.boot.logDrop) else s1

/-! ### Recording an event (R317, R319) -/

def SrcSt.code : SrcSt → Nat
  | .idle => 0
  | .active => 1
  | .severe => 2

/-- The source after one event, by R317. -/
def srcAfter (cfg : Nat) (forced : Bool) (now : Tick) (x : Src) : Src :=
  let fresh := decide (now ≥ x.start + faultWindow cfg) || x.st == .idle
  let cnt := min 255 ((if fresh then 0 else x.count) + 1)
  let sev := forced || decide (cnt ≥ faultN cfg) || x.st == .severe
  { x with st := if sev then .severe else .active
           count := cnt
           start := if fresh then now else x.start
           last := now }

/-- The first-event latch (R319). -/
def State.latchFirst (s : State) (n sev : Nat) : State :=
  match s.fault.first with
  | some _ => s
  | none => { s with fault := { s.fault with first := some (sev, n), firstT := s.nowNs } }

/-- Record an event of source `n` with every consequence but its reaction: the new source state, the
first-event latch, the fault log at a change of state, and the fault event for a code of 1 or more. -/
def State.recordFault (s : State) (n detail concerned cause : Nat) (forced : Bool) : State × Nat :=
  let cfg := s.faultCfgOf n
  let old := s.src n
  let new := srcAfter cfg forced s.elapsed old
  let severe := new.st == .severe
  let code := s.effectiveCode n (faultReact cfg severe)
  let s1 := (s.modSrc n (fun _ => new)).latchFirst n new.st.code
  let s2 := if new.st = old.st then s1
    else s1.logFault [n, new.st.code, detail, concerned, new.count, s.nowNs]
  let s3 := if code = 0 then s2
    else s2.post 0x10 new.st.code n
      (leBytes 1 detail ++ leBytes 1 code ++ leBytes 2 concerned ++ leBytes 1 new.count ++
        leBytes 1 cause ++ leBytes 2 new.recov)
  (s3, code)

/-! ### Reactions (R310 to R313, R318, R427) -/

/-- Lose the Triad (R311). -/
def State.loseTriad (s : State) : State :=
  if s.triad.lost then s
  else
    let s1 := { s with triad := { s.triad with lost := true, simplex := false, hold := none } }
    (s1.post 0x14 0 0 (leBytes 8 s1.tour.lastReleased)).recordFault 4 0 0 0 false |>.1

/-- Live channels: not failed (R312). -/
def State.liveChns (s : State) : List Nat := (List.range 3).filter (fun c => !(s.chn c).failed)

/-- Fail a channel; a second failure leaves simplex or loses the Triad, a third loses it (R312, R313). -/
def State.failChannel (s : State) (c : Nat) : State :=
  if (s.chn c).failed then s
  else
    let s1 := (s.modChn c (fun x => { x with
      failed := true, act := false, rejoin := 0, cleared := false })).post 0x12 0 c []
    match s1.liveChns with
    | [] => s1.loseTriad
    | [l] =>
      if rbit (s1.inForce A.triadCfg) 16 then
        ({ s1.modChn l (fun x => { x with act := true }) with
          triad := { (s1.modChn l (fun x => { x with act := true })).triad with simplex := true } }).post
          0x12 2 l []
      else s1.loseTriad
    | _ => s1

/-- Begin a hold of 256 tempo cycles; one requested during another is dropped (R310, R427). -/
def State.beginHold (s : State) (k : HoldKind) : State :=
  if s.triad.hold.isSome || s.triad.lost then s
  else { s with triad := { s.triad with
    hold := some k, holds := min 4294967295 (s.triad.holds + 1) } }

/-- Add a square to X (R167, R168): it leaves at the next Tour-period boundary. -/
def State.addToX (s : State) (i source : Nat) : State :=
  if bit s.tour.x i then s
  else { s with tour := { s.tour with
    x := setBit s.tour.x i true
    xSource := SMap.set (fun _ => 0) s.tour.xSource i (source + 1) } }

/-- Carry out reaction `code` of source `n` (R318). -/
def State.react (s : State) (n code : Nat) : State :=
  if code = 2 then
    match srcChannel n, srcSquare n with
    | some c, _ => s.failChannel c
    | none, some i => s.modSq i (fun q => { q with fenced := true })
    | none, none => s
  else if code = 3 then
    match srcSquare n with
    | some i => s.addToX i n
    | none => s
  else if code = 4 then s.beginHold .reaction
  else s

/-- An event of a fault source: recorded, then reacted to (R317, R318). A source that does not exist
raises none (R316). DEDUCED, unsafe (log entry 42). -/
def State.faultEvent (s : State) (n : Nat) (detail : Nat := 0) (concerned : Nat := 0)
    (cause : Nat := 0) (forced : Bool := false) : State :=
  if srcExists n then (s.recordFault n detail concerned cause forced).1.react n
      (s.recordFault n detail concerned cause forced).2
  else s

/-- An event of source `n` would now make it, or find it, severe (R317). -/
def State.wouldBeSevere (s : State) (n : Nat) : Bool := (srcAfter (s.faultCfgOf n) false s.elapsed (s.src n)).st == .severe

/-- Items in ascending order of their sources, whose events arrive in one cycle, in the order in which the events are
recorded: higher severity first (R319). -/
def State.faultOrder (s : State) (src : Nat → Nat) (l : List Nat) : List Nat :=
  l.filter (fun i => s.wouldBeSevere (src i)) ++ l.filter (fun i => !s.wouldBeSevere (src i))

/-- An event of square `i`'s source `j`. -/
def State.sqFault (s : State) (i j : Nat) : State := s.faultEvent (sqSrc i j) 0 i

/-! ### ERR_N and ALIVE (R323, R324) -/

def State.anySevere (s : State) : Bool := s.fault.srcs.any (fun e => e.2.st == .severe)

/-- ERR_N is held low (R323). -/
def State.errLow (s : State) : Bool := s.anySevere || s.triad.lost

end Sys2Proof.Machine
end

