-- ==== Sys2Proof/WellFormed.lean ====
section
/-!
DEFINITION. Which commands are well formed: every operand within the range its rule gives.

A command descriptor is a bit pattern and is always well formed: the device itself checks it (R293).
-/

namespace Sys2Proof

/-- Square index (R2). -/
def sqOk (s : Nat) : Bool := decide (s < 64)
/-- Lane number (R3). -/
def laneOk (l : Nat) : Bool := decide (l < 1024)
/-- Front-panel port number (R4). -/
def frontOk (p : Nat) : Bool := decide (p < 1024)
/-- Port number (R5). -/
def portOk (p : Nat) : Bool := decide (p ≤ 1090)
/-- Queue number (R6). -/
def queueOk (q : Nat) : Bool := decide (q < 17456)
/-- Function class (R30). -/
def classOk (c : Nat) : Bool := decide (c ≤ 10)
/-- Ring number (R277). -/
def ringOk (n : Nat) : Bool := decide (n < 4096)
/-- Function number of the endpoint (R274). -/
def fnOk (f : Nat) : Bool := decide (f ≤ 8)
/-- Triad channel (R304). -/
def chOk (c : Nat) : Bool := decide (c < 3)

def EccHit.wf (h : EccHit) : Bool :=
  decide (h.replica < 8 ∧ h.area < 3 ∧ h.word < (if h.area = 2 then 131072 else 3145728))

def optEccWf : Option EccErr → Bool
  | none => true
  | some h => h.toEccHit.wf

/-- P1[13:12] of a LEARN command holds the operation of its row (R293). -/
def learnOpOk (op : Nat) (c : Cmd) : Bool := decide (c.p1.toNat / 4096 % 4 = op)

/-- Flash addresses that an external programmer can reach: the two slots (R353). -/
def BoardIn.wf (b : BoardIn) : Bool := b.flash.all (fun e => decide (e.1 < 33554432))

/-- The opcodes of R293. -/
def knownOpcodes : List Nat :=
  [0x01, 0x10, 0x11, 0x20, 0x21, 0x22, 0x23, 0x30, 0x31, 0x32, 0x33, 0x40, 0x41, 0x42, 0x50, 0x51, 0x52, 0x60,
   0x61, 0x62, 0x70, 0x71, 0x72, 0x73, 0x74, 0x80, 0x90]

/-- A message of the boundary clock service: a front-panel port, a messageType, a port state and a whole frame. -/
def BcDue.wf (m : BcDue) : Bool := frontOk m.port && decide (m.msgType < 16 ∧ m.state ≤ 9 ∧ 60 ≤ m.frame.length)

/-- At most 15 corrected symbols (R51). -/
def CwRun.wf (r : CwRun) : Bool := match r.fix with
  | some k => decide (k ≤ 15)
  | none => true

/-- Lanes of a sight lie within a port. -/
def Sight.wf : Sight → Bool
  | .energyLow k _ | .clockOff k _ | .markerMiss k => decide (k < 8)
  | .codewords rs => rs.all CwRun.wf
  | .localFault | .remoteFault | .deskewLost => true

/-- The commands whose operands lie in their ranges. -/
def Instr.wf : Instr → Bool
  | .learnInsert c => learnOpOk 0 c
  | .learnDelete c => learnOpOk 1 c
  | .learnFlushAll c => learnOpOk 2 c
  | .learnFlushPort c => learnOpOk 3 c
  | .bufStateNormal c => decide (c.p0.toNat % 4 ≠ 2)
  | .bufStateTest c => decide (c.p0.toNat % 4 ≠ 1)
  | .fomMinRst s j _ => sqOk s && decide (j < 16)
  | .hwmRst s _ => sqOk s
  | .portMapWrite s _ _ => sqOk s
  | .squareBroadcastWrite o _ _ => decide (o < 0x40000)
  | .bar2Write o f => decide (o < 0x2000000) && fnOk f
  | .msixUnmask f v _ => fnOk f && decide (v < (if f = 0 then 2048 else 16))
  | .registerWrite a _ _ _ => decide (a < 0x4000000 ∧ a % 4 = 0)
  | .vfFlr v => decide (1 ≤ v ∧ v ≤ 8)
  | .busMasterEnableChange f _ _ => fnOk f
  | .hostReadError _ f r _ => fnOk f && ringOk r
  | .producerReadComplete r _ => ringOk r
  | .descriptorFetchComplete r ds => ringOk r && ds.all (fun d => d.length == 32)
  | .txFrameInject r bufs u => ringOk r && decide (1 ≤ bufs.length ∧ bufs.length ≤ 8) && optEccWf u
  | .msixModTimeout r => ringOk r
  | .frameReceive p _ _ _ => frontOk p
  | .pfcReceive p _ ts => frontOk p && decide (ts.length = 8) && ts.all (fun t => decide (t < 65536))
  | .pfcPauseExpire p k => frontOk p && decide (k < 8)
  | .packHoldExpire s l => sqOk s && decide (l < 4)
  | .recircParse s => sqOk s
  | .cellEnterCore s l u => sqOk s && decide (l < 5) && optEccWf u
  | .deferredFrameNumber s p c => sqOk s && portOk p && decide (c < 16)
  | .heldFrameRelease s q => sqOk s && queueOk q
  | .pfcRefresh p k => frontOk p && decide (k < 8)
  | .blitzRecordLookup s u => sqOk s && optEccWf u
  | .directReserveExpire s c => sqOk s && decide (c < 16384)
  | .slotRelease _ _ _ st cb mb => st.all sqOk && cb.all (fun e => sqOk e.1 && decide (e.2 < 3)) &&
      mb.all (fun e => sqOk e.1 && decide (e.2 < 16384))
  | .slotComplete l => sqOk l
  | .tourPeriodBoundary bad => bad.all chOk
  | .gapDeclare e i p c => sqOk e && sqOk i && portOk p && decide (c < 16)
  | .accountUpdate d q => sqOk d && (match q with | none => true | some x => queueOk x)
  | .captureClaim e => sqOk e
  | .egressSelect p => portOk p
  | .frameTransmitStart p => portOk p
  | .frameTransmitEnd p => portOk p
  | .postcardFrameClose s => sqOk s
  | .gclLoadComplete p => frontOk p
  | .gclStart p => frontOk p
  | .gateEntryChange p => frontOk p
  | .qsampPeriod s => sqOk s
  | .linkDown p seen => frontOk p && seen.all Sight.wf
  | .linkHoldExpire p => frontOk p || decide (p = 1089)
  | .linkUp p => frontOk p
  | .fomBlock l n cws => laneOk l && decide (n ≤ 16777216) && cws.all CwRun.wf
  | .refclkLoss k => decide (k < 16)
  | .refclkReturn k => decide (k < 16)
  | .drainComplete c _ => classOk c
  | .drainTimeout c _ => classOk c
  | .ageSweepVisit e => decide (e < 65536)
  | .fragSweep s => sqOk s
  | .bookEccRepair h src => h.wf && (match src with | none => true | some j => decide (j < 8))
  | .bookScrub h b => h.wf && decide (b ≤ 2)
  | .bufAuditPeriod s => sqOk s
  | .sqResetDone s _ => sqOk s
  | .redRoutineRun e _ => decide (e < 4)
  | .redSlotTimeout c sl _ => decide (c < 512 ∧ sl < 64)
  | .redCstoreError e w => decide (e < 4 ∧ w < 2048)
  | .enginePowerUp e => decide (e < 4)
  | .timeRefLoss _ k => decide (k < 16)
  | .timeRefReturn _ k _ => decide (k < 16)
  | .evtInEdge es => es.all (fun e => decide (e.1 < 4)) && decide ((es.map (fun e => e.1)).Nodup)
  | .ppsLeadingEdge k => decide (k < 2)
  | .ppsWidthEnd k => decide (k < 2)
  | .bcMessageReceive st _ _ => decide (st < 10)
  | .bcMessageDue m => m.wf
  | .coreStoreVote c _ _ _ => chOk c
  | .checkpoint ds => ds.all chOk
  | .selftestInterval c _ f => chOk c && decide (f ≤ 5)
  | .channelRejoinTestDone c _ => chOk c
  | .faultQuietExpire n => decide (n < 1024)
  | .slowSquareReport s => sqOk s
  | .canaryReport s _ => sqOk s
  | .governorTrim s => sqOk s
  | .thermalSensorUpdate ts => decide (ts.length = 85)
  | .castleHandover h => h.extra.all (fun t => decide (t.1 < 65536 ∧ t.2.length < 65536)) && h.due.all BcDue.wf
  | .losClear l _ => laneOk l
  | .lolClear l _ _ => laneOk l
  | .amLock l _ _ => laneOk l
  | .linkTrainingComplete l _ => laneOk l
  | .adaptOk p => frontOk p
  | .fecCodewordLock p => frontOk p
  | .faultSequenceClear p _ _ => frontOk p
  | .autonegComplete p _ => frontOk p
  | .mgmtAutonegComplete sp _ _ _ _ => decide (sp ≤ 2)
  | .summaryReadComplete f ws => fnOk f && decide (ws.length = 64)
  | .swapComplete f w _ => fnOk f && decide (w < 64)
  | .sriovVfEnable _ n => decide (n ≤ 8)
  | .porRelease b => b.wf
  | .deviceResetRelease b => b.wf
  | .unsupportedOpcode op _ => !knownOpcodes.contains op.toNat
  | .nop _ | .enable _ _ _ | .disable _ | .bookWrite _ _ | .bookTurn _ | .bookLoad _ _
  | .timeSet _ | .timeStep _ | .timeFreq _ | .timeSlew _ | .phase _ | .phaseDef _ _ | .powerCap _
  | .svcAlloc _ | .svcFree _ | .isolate _ | .rejoin _
  | .sqReset _ | .flashWrite _ _ _ | .imageVerify _ _ | .castle _ | .rollbackConfirm _ _ _
  | .settingsSave _ _ | .snapshot _ | .faultClear _
  | .hostCfgBoot _ _ _ | .globalRstWrite _ | .timeNowLoRead
  | .tourExclLoRead | .faultFirstTLoRead | .firstClr _ | .porAssert
  | .bootImageChecked _ | .perst _ | .hostLinkUp _ _ | .doorbellPollRound | .rxFrameDeliver
  | .slotStallTimeout | .epochRetire | .bwWindowEnd | .errorSecond | .mgmtSyncLoss
  | .learnEventApply | .bufRecoveryEnd | .redFrameDeliver | .timeVote _ _ _ | .slewComplete
  | .storeVoteTimeout | .holdEnd _ _ _ | .watchdogTimeout | .aliveEdge | .setpointSave
  | .powerEstimate _ | .pmbusCorrection _ _ | .powerLimiterAct | .capUnattainable
  | .thermalLimiterAct | .thermtrip _ | .phaseScheduleEntry | .regulatorAlert | .castleCommit _
  | .scoresheetCounterWrite _ | .meshStart | .mgmtSyncAcquire | .mgmtFrameReceive _ _ _ _
  | .castleLoadComplete _ | .railOutOfRange _ | .boundaryScanInstruction _ => true

end Sys2Proof
end

