-- ==== Sys2Proof/Machine/Operands.lean ====
section
/-!
DEFINITION. Commands of the command rings: descriptors, acceptance, parameter checks and return
(R290 to R293), and failures of host-memory reads (R301).
-/

namespace Sys2Proof.Machine

/-! ### Status codes (R292) -/

def stOk : Nat := 0
def stInvalid : Nat := 1
def stTarget : Nat := 2
def stBusy : Nat := 3
def stNoSpace : Nat := 4
def stUnreachable : Nat := 5
def stAlreadyOn : Nat := 6
def stAlreadyOff : Nat := 7
def stAlreadyDraining : Nat := 8
def stUnsupported : Nat := 9
def stHostErr : Nat := 10
def stDropped : Nat := 11
def stDeclined : Nat := 12

/-- What a command does: it returns with a status and a result, or it returns later. -/
inductive CmdOut where
  | ret (s : State) (status res : Nat)
  | later (s : State)

/-- Bytes 0–27 of a command descriptor (R290). -/
def cmdBytes (op : Nat) (c : Cmd) : List Byte :=
  leBytes 2 op ++ leBytes 2 c.rsvd.toNat ++ leBytes 4 c.tag.toNat ++ leBytes 8 c.p0.toNat ++
    leBytes 8 c.p1.toNat ++ leBytes 4 c.p2.toNat

/-- The command probation of Castling: 50 ms after S (R367). -/
def State.probation (s : State) : Bool :=
  s.boot.castle == 3 && decide (s.elapsed < s.boot.castleS + msT 50)

/-- Commands are accepted at all: the data path is ready, or recovery mode serves rings 0 and 1
(R351, R359). -/
def State.serves (s : State) (ring : Nat) : Bool :=
  s.boot.dpReady || (s.boot.recovery && decide (ring ≤ 1) && s.boot.bootsel != 3)

/-- The ring's next command is accepted now (R291): the ring is a command ring, ON or DRAINING with a command it fetched
before (R298), whose previous command has returned, the PF may issue requests, and no probation runs.
DEDUCED, unsafe (log entry 10). -/
def State.accepts (s : State) (ring : Nat) : Bool :=
  !s.isOff 5 ring && (s.ring ring).type == 3 && s.fnLive 0 && (s.ring ring).accepted.isNone && s.serves ring && !s.probation

/-- Opcodes that recovery mode serves (R359). -/
def recoveryOp (op : Nat) : Bool := decide (op = 0x0001 ∨ op = 0x0070 ∨ op = 0x0071)

/-- Commands that need the Triad (R311). -/
def needsTriad (op : Nat) : Bool :=
  decide (op = 0x20 ∨ op = 0x21 ∨ (0x30 ≤ op ∧ op ≤ 0x33) ∨ (0x40 ≤ op ∧ op ≤ 0x42) ∨ op = 0x50 ∨
    op = 0x60 ∨ op = 0x61 ∨ op = 0x72)

/-- Return a command with its status and result (R290). -/
def State.completeCmd (s : State) (ring : Nat) (d : List Byte) (status res : Nat) : State :=
  let s1 := s.modRing ring (fun r => { r with accepted := none })
  let s2 := { s1 with io := { s1.io with rets :=
    { ring := ring, tag := BitVec.ofNat 32 (leAt d 4 4), opcode := leAt d 0 2, status := status,
      res := res } :: s1.io.rets } }
  s2.ringReturn ring (patch (body28 d) 8 (leBytes 8 res)) (status * 65536)

/-- Return the command that a ring accepted and has not returned, if its tag is `tag`. -/
def State.finishCmd (s : State) (ring : Nat) (tag : BitVec 32) (status res : Nat) : State :=
  match (s.ring ring).accepted with
  | some d => if leAt d 4 4 = tag.toNat then s.completeCmd ring d status res else s
  | none => s

/-- Accept a command (R291) and run it: reserved bits checked (R293), commands that recovery mode or a
lost Triad turns away answered BUSY (R311, R359). A command that is not accepted changes nothing. -/
def runCmd (op : Nat) (c : Cmd) (resOk : Bool) (f : State → CmdOut) (s : State) : State :=
  if s.accepts c.ring then
    let d := cmdBytes op c
    let s1 := s.modRing c.ring (fun r => { r with fetched := r.fetched.drop 1, accepted := some d })
    let s2 := { s1 with host := { s1.host with cmdRot := c.ring } }
    if s.boot.recovery && !recoveryOp op then s2.completeCmd c.ring d stBusy 0
    else if s.triad.lost && needsTriad op then s2.completeCmd c.ring d stBusy 0
    else if knownOpcodes.contains op && (c.rsvd != 0 || !resOk) then s2.completeCmd c.ring d stInvalid 0
    else match f s2 with
      | .ret s3 status res => s3.completeCmd c.ring d status res
      | .later s3 => s3
  else s

/-! ### Parameters (R293): `true` where every bit not listed is zero -/

/-- P0 holds nothing outside bits `[hi:0]`. -/
def p0Below (c : Cmd) (n : Nat) : Bool := decide (c.p0.toNat < 2 ^ n)
def p1Below (c : Cmd) (n : Nat) : Bool := decide (c.p1.toNat < 2 ^ n)
def p2Below (c : Cmd) (n : Nat) : Bool := decide (c.p2.toNat < 2 ^ n)

/-- Function class and instance of ENABLE and DISABLE. -/
def cmdCls (c : Cmd) : Nat := bits c.p0.toNat 7 0
def cmdInst (c : Cmd) : Nat := bits c.p0.toNat 31 16
/-- P0 of ENABLE and DISABLE has no reserved bit set. -/
def fnParamsOk (c : Cmd) : Bool := decide (bits c.p0.toNat 15 8 = 0) && p0Below c 32

/-! ### Host-memory read failures (R301) -/

/-- A parameter block or frame buffer could not be read: logged, and an event of source 19. -/
def State.bufferReadFailed (s : State) (ring fn : Nat) : State :=
  (s.hostErr 3 ring fn).faultEvent 19

/-- Run `f` on a parameter block read from host memory; a failed read returns HOST_ERR (R301). -/
def withBlock (c : Cmd) (r : HostRead) (f : List Byte → State → CmdOut) (s : State) : CmdOut :=
  match r with
  | .ok bs => f bs s
  | .err => .ret (s.bufferReadFailed c.ring 0) stHostErr 0

end Sys2Proof.Machine
end

