-- ==== Sys2Proof/Machine/Parser.lean ====
section
/-!
DEFINITION. The 64-byte parser: recognised headers, reason codes, keys and flow words
(R74 to R86, R119, R424).
-/

namespace Sys2Proof.Machine

/-! ### The window (R77) -/

/-- Settings of one pass. -/
structure ParseCfg where
  stag : Nat
  vxlan : Nat
  red : Nat
  pvid : Nat
  vrf : Nat
  tagMode : Nat
  iport : Nat
  second : Bool
  win : Nat

/-- `n` bytes at offset `o` of the pass lie inside the frame's data. -/
def inData (d : List Byte) (o n : Nat) : Bool := decide (o + n ≤ d.length)
/-- `n` bytes at offset `o` lie inside the 64-byte window. -/
def inWin (o n : Nat) : Bool := decide (o + n ≤ 64)
/-- A usable big-endian field; zero where it is absent (R77, R424). -/
def pfield (d : List Byte) (o n : Nat) : Nat := if inData d o n && inWin o n then beAt d o n else 0

/-- Ones' complement sum of the 16-bit words of a header. -/
def onesSum : Nat → List Byte → Nat
  | 0, _ => 0
  | n + 1, bs =>
    let t := beAt bs 0 2 + onesSum n (bs.drop 2)
    t % 65536 + t / 65536

/-- IPv4 header checksum of `n` bytes is right. -/
def csumOk (bs : List Byte) (n : Nat) : Bool := onesSum (n / 2) (bs.take n) == 65535

/-! ### L4 (R79, R80, R424) -/

/-- Reason for `n` required bytes at `o`: 1 where the data ends first, 12 where the window does. -/
def l4Reason (d : List Byte) (o n : Nat) : List Nat :=
  if !inData d o n then [1] else if !inWin o n then [12] else []

/-- The port fields that lie in the frame's data and in the window, with the reason where one is missing
(R80, R85, R424). -/
def takePorts (d : List Byte) (o : Nat) (p : Parse) : Parse :=
  { p with sport := pfield d o 2, dport := pfield d (o + 2) 2, reasons := p.reasons ++ l4Reason d o 4 }

/-- UDP: ports, PTP, VXLAN and reduction. -/
def parseUdp (c : ParseCfg) (d : List Byte) (o : Nat) (v4 : Bool) (p : Parse) : Parse :=
  let p := takePorts d o p
  if l4Reason d o 4 ≠ [] then p
  else
    let dp := p.dport
    let p := if dp = 319 ∨ dp = 320 then { p with ptp := true, ptpMsg := pfield d (o + 8) 1 % 16 } else p
    let p := if c.vxlan ≠ 0 ∧ dp = c.vxlan then
        if !inData d (o + 8) 8 then { p with reasons := p.reasons ++ [1] }
        else if inWin (o + 12) 3 then { p with vni := some (beAt d (o + 12) 3) } else p
      else p
    if c.red ≠ 0 ∧ dp = c.red then
      let p := { p with redMark := v4 }
      if !inData d (o + 8) 8 then { p with reasons := p.reasons ++ [1] }
      else if inWin (o + 8) 8 then { p with redSteer := some (BitVec.ofNat 64 (beAt d (o + 8) 8)) } else p
    else p

/-- The L4 header at offset `o`, for a frame that is no later fragment. ICMP, protocol 1, is recognised over IPv4 only,
not as an IPv6 next header. DESIGN CHOICE, unsafe (log entry 108). -/
def parseL4 (c : ParseCfg) (d : List Byte) (o : Nat) (v4 : Bool) (p : Parse) : Parse :=
  if p.proto = 6 then { takePorts d o p with tcpFlags := pfield d (o + 13) 1 }
  else if p.proto = 17 then parseUdp c d o v4 p
  else if p.proto = 1 ∧ v4 then
    { p with sport := pfield d o 1 * 256 + pfield d (o + 1) 1, reasons := p.reasons ++ l4Reason d o 2 }
  else if p.proto = 58 ∧ !v4 then
    let t := pfield d o 1
    if 133 ≤ t ∧ t ≤ 137 then { p with reasons := p.reasons ++ [5] } else p
  else p

/-! ### L3 -/

/-- IPv4 at offset `o` (R79, R80, R86, R92). -/
def parseIp4 (c : ParseCfg) (d : List Byte) (o : Nat) (p : Parse) : Parse :=
  if !inData d o 1 then { p with reasons := p.reasons ++ [1] }
  else
    let ihl := beAt d o 1 % 16
    if !inData d o (4 * ihl) then { p with reasons := p.reasons ++ [1] }
    else if beAt d o 1 / 16 ≠ 4 ∨ ihl < 5 then { p with reasons := p.reasons ++ [6] }
    else
      let tl := beAt d (o + 2) 2
      let ff := beAt d (o + 6) 2
      let mf := bit ff 13
      let off := ff % 8192
      let frag := if off ≠ 0 then 2 else if mf then 1 else 0
      let rs := (if tl < 4 * ihl ∨ d.length - o < tl then [6] else []) ++
        (if inWin o (4 * ihl) && !csumOk (d.drop o) (4 * ihl) then [7] else []) ++
        (if 5 < ihl then [9] else [])
      let p := { p with
        kt := 2, dscp := beAt d (o + 1) 1 / 4, ecn := beAt d (o + 1) 1 % 4, ttl := beAt d (o + 8) 1
        proto := beAt d (o + 9) 1, ident := beAt d (o + 4) 2, sa := beAt d (o + 12) 4, da := beAt d (o + 16) 4
        opts := decide (5 < ihl), frag := frag, reasons := p.reasons ++ rs }
      if frag = 2 then p else parseL4 c d (o + 4 * ihl) true p

/-- The IPv6 extension chain: at most two headers, each of (length + 1) × 8 bytes wholly inside the window (R80, R81,
R424). PROTO is the next header after those recognised (R85); the answer names the offset of the L4 header, if the
chain is resolved. -/
def parseExt (d : List Byte) : Nat → Nat → Nat → Parse → Parse × Option Nat
  | fuel, nh, o, p =>
    let p := { p with proto := nh }
    if nh = 0 ∨ nh = 43 ∨ nh = 60 ∨ nh = 44 then
      match fuel with
      | 0 => ({ p with reasons := p.reasons ++ [10] }, none)
      | fuel + 1 =>
        if !inData d o 2 then ({ p with reasons := p.reasons ++ [1] }, none)
        else
          let n := 8 * (beAt d (o + 1) 1 + 1)
          if !inData d o n then ({ p with reasons := p.reasons ++ [1] }, none)
          else if !inWin o n then ({ p with reasons := p.reasons ++ [10] }, none)
          else
            let p := if nh = 44 then
                { p with frag := if beAt d (o + 2) 2 / 8 = 0 then 1 else 2, ident := beAt d (o + 4) 4 }
              else p
            parseExt d fuel (beAt d o 1) (o + n) p
    else (p, some o)

/-- IPv6 at offset `o` (R79, R80, R86, R92). -/
def parseIp6 (c : ParseCfg) (d : List Byte) (o : Nat) (p : Parse) : Parse :=
  if !inData d o 40 then { p with reasons := p.reasons ++ [1] }
  else if beAt d o 1 / 16 ≠ 6 then { p with reasons := p.reasons ++ [8] }
  else
    let tc := beAt d o 2 / 16 % 256
    let p := { p with
      reasons := p.reasons ++ (if d.length - o - 40 < beAt d (o + 4) 2 then [8] else [])
      kt := 4, dscp := tc / 4, ecn := tc % 4, ttl := beAt d (o + 7) 1
      sa := pfield d (o + 8) 16, da := pfield d (o + 24) 16 }
    match parseExt d 2 (beAt d (o + 6) 1) (o + 40) p with
    | (p, none) => p
    | (p, some o4) => if p.frag = 2 then p else parseL4 c d o4 false p

/-! ### L2 -/

def isTag (c : ParseCfg) (et : Nat) : Bool := et == 0x8100 || et == c.stag

/-- One pass of the parser over a frame's bytes without FCS (R77 to R80, R92). DEDUCED, unsafe (log entry 32). -/
def parse (c : ParseCfg) (data : List Byte) : Parse :=
  let d := data.drop c.win
  let p : Parse := { iport := c.iport, second := c.second, len := data.length, winOff := c.win
                     vrf := c.vrf, vid := c.pvid }
  if !inData d 0 14 then { p with reasons := [1] }
  else
    let et0 := beAt d 12 2
    let outer := isTag c et0
    let p := { p with dmac := beAt d 0 6, smac := beAt d 6 6, etype := et0 }
    let p := if bit (beAt d 6 1) 0 || p.smac == 0 then { p with reasons := p.reasons ++ [2] } else p
    let p := if p.dmac / 16 = 0x0180C200000 then { p with reasons := p.reasons ++ [3] } else p
    if outer && !inData d 14 4 then { p with reasons := p.reasons ++ [1] }
    else
      let tci := beAt d 14 2
      let p := if outer then
          { p with otag := true, tagged := true, pcp := tci / 8192
                   vid := if tci % 4096 = 0 then c.pvid else tci % 4096, etype := beAt d 16 2 }
        else p
      let inner := outer && p.etype == 0x8100
      if inner && !inData d 18 4 then { p with reasons := p.reasons ++ [1] }
      else
        let p := if inner then { p with etype := beAt d 20 2 } else p
        let o := if inner then 22 else if outer then 18 else 14
        let p := { p with tagBad := (c.tagMode == 1 && !outer) || (c.tagMode == 2 && outer) }
        if p.etype < 0x0600 then { p with reasons := p.reasons ++ [4] }
        else if p.etype = 0x0806 then { p with reasons := p.reasons ++ [5] }
        else if p.etype = 0x88F7 then { p with ptp := true, ptpMsg := pfield d o 1 % 16 }
        else if p.etype = 0x0800 then parseIp4 c d o p
        else if p.etype = 0x86DD then parseIp6 c d o p
        else p

/-- Settings of a port's first pass, or of a second pass of its frame, to which the port's TAG_MODE does not apply
(R83, R100, R103, R254). DESIGN CHOICE, unsafe (log entry 109). -/
def State.parseCfgOf (s : State) (sq port : Nat) (second : Option SecondMeta) : ParseCfg :=
  let g := s.inForce (A.parseCfg sq)
  let r := s.inForce (A.portParse (port / 16) (port % 16))
  { stag := fld g 31 16, vxlan := fld g 15 0, red := fld (s.inForce A.svcRedCfg) 15 0
    pvid := fld r 19 8, tagMode := if second.isSome then 0 else fld r 1 0, iport := port
    vrf := match second with | some m => m.vrf2 | none => fld r 27 20
    second := second.isSome, win := match second with | some m => m.winOff | none => 0 }

/-! ### Keys (R83 to R85, R108, R119) -/

def w64 (n : Nat) : W64 := BitVec.ofNat 64 n

/-- L2 key (R83). -/
def l2Key (vid mac : Nat) : W64 := w64 (1 + 16 * vid + 65536 * mac)

/-- The three words of a 160-bit key (R108). -/
def words160 (k : Nat) : List W64 := [w64 k, w64 (k / 2 ^ 64), w64 (k / 2 ^ 128 % 2 ^ 32)]

def flowKey4 (p : Parse) : Nat :=
  2 + 2 ^ 4 * p.vrf + 2 ^ 12 * p.sa + 2 ^ 44 * p.da + 2 ^ 76 * p.sport + 2 ^ 92 * p.dport + 2 ^ 108 * p.proto
def hostKey4 (p : Parse) : Nat := 3 + 2 ^ 4 * p.vrf + 2 ^ 12 * p.da
def hostKey6 (p : Parse) : Nat := 4 + 2 ^ 4 * p.vrf + 2 ^ 12 * p.da
def vxlanKey (p : Parse) (vni : Nat) : Nat := 5 + 2 ^ 4 * p.vrf + 2 ^ 12 * vni + 2 ^ 36 * p.da

/-- The ACL key (R85). -/
def aclKey (p : Parse) : Nat :=
  let low := p.kt + 2 ^ 4 * p.vrf + 2 ^ 12 * p.dscp + 2 ^ 18 * p.ecn + 2 ^ 20 * p.proto + 2 ^ 28 * p.sport +
    2 ^ 44 * p.dport + 2 ^ 60 * p.frag + 2 ^ 62 * b2n p.second
  if p.kt = 4 then low + 2 ^ 64 * p.sa + 2 ^ 192 * p.da
  else low + 2 ^ 64 * p.sa + 2 ^ 96 * p.da + 2 ^ 128 * p.iport + 2 ^ 139 * p.vid + 2 ^ 151 * p.pcp +
    2 ^ 154 * p.tcpFlags + 2 ^ 162 * b2n p.opts + 2 ^ 164 * p.etype + 2 ^ 180 * p.dmac + 2 ^ 228 * p.smac

/-- Flow words F (R119): ports are zero for fragments and for frames that raise reason 12. -/
def flowWords (p : Parse) : List W64 :=
  let noPorts := p.frag != 0 || p.reasons.contains 12
  let sp := if noPorts then 0 else p.sport
  let dp := if noPorts then 0 else p.dport
  if p.kt = 2 then [w64 (p.sa + 2 ^ 32 * p.da), w64 (sp + 2 ^ 16 * dp + 2 ^ 32 * p.proto + 2 ^ 40 * p.vrf)]
  else if p.kt = 4 then
    [w64 p.sa, w64 (p.sa / 2 ^ 64), w64 p.da, w64 (p.da / 2 ^ 64),
      w64 (sp + 2 ^ 16 * dp + 2 ^ 32 * p.proto + 2 ^ 40 * p.vrf)]
  else [w64 (p.dmac + 2 ^ 48 * p.vid), w64 (p.smac + 2 ^ 48 * p.etype)]

/-- Datagram key words of the fragment table (R86, R108). -/
def datagramKey (p : Parse) : List W64 :=
  if p.kt = 2 then [w64 (p.sa + 2 ^ 32 * p.da), w64 (p.ident + 2 ^ 16 * p.proto + 2 ^ 24 * p.vrf)]
  else [w64 p.sa, w64 (p.sa / 2 ^ 64), w64 p.da, w64 (p.da / 2 ^ 64), w64 (p.ident + 2 ^ 32 * p.vrf)]

/-- MIX64 (R108). -/
def mix64 (ws : List W64) (seed : W64) : W64 :=
  let h0 := seed ^^^ (BitVec.ofNat 64 ws.length * 0x9E3779B97F4A7C15#64)
  let h1 := ws.foldl (fun h w =>
    let h := (h ^^^ w) * 0x8F3A5D21C7E46B9D#64
    h ^^^ (h >>> 29)) h0
  let h2 := h1 * 0xB5E12C974A0FD363#64
  h2 ^^^ (h2 >>> 32)

/-- The frame has no forwarding result with this reason (R92). -/
def resultNo (r : Nat) : Bool :=
  [1, 2, 6, 7, 8, 11, 14, 15, 16, 17, 18, 19, 20, 21, 22, 23].contains r

end Sys2Proof.Machine
end

