-- ==== Sys2Proof/Machine/Pool.lean ====
section
/-!
DEFINITION. Cell pools, quotas, buffer limits and levels, egress queues and the removal of queued
frames (R171 to R181, R193, R195).
-/

namespace Sys2Proof.Machine

/-! ### Pool managers (R172 to R177) -/

/-- Cells of a square. -/
def cellsPerSquare : Nat := 16384

/-- The quota register of requester `r` in square `i` (R173). -/
def quotaAddr (i r : Nat) : Nat :=
  if r = i then A.bufQuotaOwn i
  else if r < 64 then A.bufQuotaPeer i
  else if r = 64 then A.bufQuotaSvc i
  else A.bufQuotaHost i

def State.quotaMin (s : State) (i r : Nat) : Nat := fld (s.inForce (quotaAddr i r)) 14 0
/-- MAX; below MIN it acts as MIN (R177). -/
def State.quotaMax (s : State) (i r : Nat) : Nat :=
  max (s.quotaMin i r) (fld (s.inForce (quotaAddr i r)) 30 16)

def Sq.free (q : Sq) : Nat := cellsPerSquare - q.cells.length
/-- USED[r]: cells charged to a requester (R171, R173). -/
def Sq.used (q : Sq) (r : Nat) : Nat := (q.cells.filter (fun e => e.2.owner == r)).length

/-- Free cells beyond every requester's reserve (R173). -/
def State.shared (s : State) (i : Nat) : Int :=
  ((s.sq i).free : Int) -
    ((List.range 66).map (fun r => s.quotaMin i r - (s.sq i).used r)).sum

/-- Requester `r` may take a cell in square `i` now (R173). -/
def State.mayAlloc (s : State) (i r : Nat) : Bool :=
  decide (0 < (s.sq i).free) &&
    (decide ((s.sq i).used r < s.quotaMin i r) ||
      (decide ((s.sq i).used r < s.quotaMax i r) && decide (0 < s.shared i)))

/-- Cells requester `r` may still take in square `i` before it gets none (R185). -/
def State.mayTake (s : State) (i r : Nat) : Nat :=
  let u := (s.sq i).used r
  let own := s.quotaMin i r - u
  let sh := min (s.quotaMax i r - max u (s.quotaMin i r)) (s.shared i).toNat
  min (s.sq i).free (own + sh)

/-- The lowest index not listed. -/
def lowestFree : List (Nat × Cell) → Nat → Nat
  | [], n => n
  | (k, _) :: m, n => if k = n then lowestFree m (n + 1) else n

/-! ### The header and the CRC-32C of a cell (R146, R147) -/

/-- The frame word of a frame that starts in a cell (R147). -/
def FrameHdr.word (h : FrameHdr) : Nat :=
  h.length % 2 ^ 14 + h.iport % 2 ^ 11 * 2 ^ 14 + h.colour % 4 * 2 ^ 25 + h.telem % 16 * 2 ^ 27 +
    b2n h.nh.isSome * 2 ^ 31 + h.nh.getD 0 % 2 ^ 18 * 2 ^ 32 + b2n h.fcsBad * 2 ^ 50 + b2n h.otag * 2 ^ 51 +
    h.ingressNs % 2 ^ 32 * 2 ^ 64

/-- Payload bytes in use: every frame word, then its frame's bytes (R147). -/
def Cell.used (c : Cell) : List Byte :=
  c.segs.flatMap (fun g => (g.hdr.map (fun h => leBytes 16 h.word)).getD [] ++ g.bytes)

/-- The 256 payload bytes. -/
def Cell.payload (c : Cell) : List Byte := (c.used ++ List.replicate 256 0).take 256

/-- The 64-bit side-band header (R146). -/
def Cell.header (c : Cell) : Nat :=
  c.typ % 4 + b2n (c.segs.any (fun g => g.hdr.isSome)) * 4 + b2n (c.segs.any (fun g => g.last)) * 8 +
    (c.used.length - 1) % 256 * 2 ^ 4 + c.seq % 2 ^ 22 * 2 ^ 12 + c.isq % 64 * 2 ^ 34 +
    c.ctx.eport % 2 ^ 11 * 2 ^ 40 + c.ctx.cls % 16 * 2 ^ 51 + c.epoch % 256 * 2 ^ 55 + b2n c.bad * 2 ^ 63

/-- The CRC-32C over header and payload (R146). -/
def Cell.crcNow (c : Cell) : BitVec 32 := BitVec.ofNat 32 (crc32c (leBytes 8 c.header ++ c.payload))

/-- The stored CRC-32C does not match the cell (R142). -/
def Cell.crcWrong (c : Cell) : Bool := c.crc != c.crcNow

/-- The cell with its CRC-32C stored. -/
def Cell.sealed (c : Cell) : Cell := { c with crc := c.crcNow }

/-- A change of the header: the stored CRC-32C follows it, a mismatch stays one. -/
def Cell.update (f : Cell → Cell) (c : Cell) : Cell := { f c with crc := c.crc ^^^ c.crcNow ^^^ (f c).crcNow }

/-- The stored or sent copy of a cell changes: its CRC-32C no longer matches (R142, R146). -/
def Cell.upset (c : Cell) : Cell := if c.crcWrong then c else { c with crc := c.crc ^^^ 1 }

/-- A cell as its receiver finds it, `bad` where it has changed on its way, and whether the check finds a mismatch on
a cell not yet marked bad (R142). -/
def Cell.arrived (c : Cell) (bad : Bool) : Cell × Bool :=
  let y := if bad then c.upset else c
  ({ y with crcBad := c.crcBad || y.crcWrong }, y.crcWrong && !c.crcBad)

/-- The copy at index `k` of square `i` has changed since it was written. -/
def State.upsetCell (s : State) (e : Nat × Nat) : State :=
  s.modSq e.1 (fun q => { q with cells := tmod q.cells e.2 Cell.upset })

/-- A CRC-32C mismatch on a cell that a square received or read (R142, R379). -/
def State.noteCrc (s : State) (i : Nat) (bad : Bool) : State :=
  if bad then (s.count (sqWord i 15) 1).sqFault i 6 else s

/-- Square `i` reads a cell of its memory: a mismatch that is new is counted, and the cell is marked bad (R142).
DEDUCED, unsafe (log entry 104). -/
def State.readCell (s : State) (i : Nat) (c : Cell) : State × Cell := (s.noteCrc i (c.arrived false).2, (c.arrived false).1)

/-- Take the lowest free cell for requester `r` and fill it; nothing where the answer is none, which
is counted (R173, R175). -/
def State.alloc (s : State) (i r : Nat) (c : Cell) : State × Option Nat :=
  if s.mayAlloc i r then
    let k := lowestFree (s.sq i).cells 0
    (s.modSq i (fun q => { q with
      cells := SMap.insert q.cells k { c with owner := r, age := 0 } }), some k)
  else (s.count (sqCtr i (8 * r)) 1, none)

/-- The requester a freeing agent derives from a cell's header (R176). -/
def Cell.requester (c : Cell) : Nat := if c.typ = 2 then 65 else if c.typ = 3 then 64 else c.isq

/-- Log a rejected free, count it and raise the square's source (R176). -/
def State.badFree (s : State) (i k r owner : Nat) (foreign : Bool) : State :=
  let s1 := s.count (sqCtr i ((if foreign then 0x800 else 0x400) + 8 * r)) 1
  (s1.logReg (A.bufFreeLog i)
    (b2n foreign * 2 ^ 30 + r % 128 * 2 ^ 23 + owner * 2 ^ 16 + k % 16384)).sqFault i 2

/-- Free a cell presented with a requester (R176). A free for a square in X is discarded before it reaches the pool
manager: the cell stays in use, and no list holds it any more. -/
def State.freeCell (s : State) (i k r : Nat) : State :=
  if bit s.tour.x i then
    s.modSq i (fun q => { q with
      cells := tmod q.cells k (fun c => { c with st := .released, reserved := false })
      waiting := q.waiting.erase k
      heldCells := q.heldCells.erase k })
  else match tget (s.sq i).cells k with
    | none => s.badFree i k r 127 false
    | some c =>
      if c.owner = r then
        s.modSq i (fun q => { q with
          cells := SMap.erase q.cells k
          waiting := q.waiting.erase k
          heldCells := q.heldCells.erase k })
      else s.badFree i k r c.owner true

/-- Free a cell with the requester its header gives. -/
def State.freeByHeader (s : State) (i k : Nat) : State :=
  match tget (s.sq i).cells k with
  | none => s.freeCell i k 0
  | some c => s.freeCell i k c.requester

/-- Quotas of a square are valid (R177). -/
def State.quotasValid (s : State) (i : Nat) : Bool :=
  decide (fld (s.reg (A.bufQuotaOwn i)) 14 0 + 63 * fld (s.reg (A.bufQuotaPeer i)) 14 0 +
    fld (s.reg (A.bufQuotaSvc i)) 14 0 + fld (s.reg (A.bufQuotaHost i)) 14 0 ≤ cellsPerSquare)

/-- Latch a square's quotas; an invalid set is replaced by the reset values (R177).
DEDUCED, unsafe (log entry 100). -/
def State.latchQuotas (s : State) (i : Nat) : State :=
  let as := [A.bufQuotaOwn i, A.bufQuotaPeer i, A.bufQuotaSvc i, A.bufQuotaHost i]
  if s.quotasValid i then s.latch as
  else (as.foldl (fun s a => s.setForce a (regReset a)) s).orReg (A.bufStat i) 65536

/-! ### Classes and priorities (R181, R184, R188) -/

def State.classCfg (s : State) (c : Nat) : Nat := (s.inForce (A.bufClassCfg c)).toNat
def State.lossless (s : State) (c : Nat) : Bool := bit (s.classCfg c) 4

/-- Priority of a class (R188). -/
def State.priority (s : State) (c : Nat) : Nat :=
  if c < 8 then bits (s.inForce A.bufPriMapLo).toNat (3 * c + 2) (3 * c)
  else bits (s.inForce A.bufPriMapHi).toNat (3 * (c - 8) + 2) (3 * (c - 8))

/-- A lossless class maps to the priority (R188). -/
def State.losslessPri (s : State) (k : Nat) : Bool :=
  (List.range 16).any (fun c => s.lossless c && s.priority c == k)

/-- `⌊α × gf⌋` with α = 2^(ALPHA − 4) (R184). -/
def alphaLimit (alpha gf : Nat) : Nat := gf * 2 ^ min 8 alpha / 16

/-- LIM, YEL and RED of a class: static in NORMAL, else from the global free count (R181, R184). -/
def State.limits (s : State) (c gf : Nat) : Nat × Nat × Nat :=
  if s.buf.state = 1 then
    (fld (s.inForce (A.bufClassLim c)) 20 0, fld (s.inForce (A.bufClassYel c)) 20 0,
      fld (s.inForce (A.bufClassRed c)) 20 0)
  else
    let l := alphaLimit (bits (s.classCfg c) 3 0) gf
    (l, l / 2, l / 4)

/-! ### Queues (R181, R193, R202) -/

/-- Cells that a frame of `n` bytes takes on its own. -/
def cellsOf (n : Nat) : Nat := cdiv (n + 16) 256

/-- Number of distinct cells in a list of pointers. -/
def distinctRefs (rs : List CellRef) : Nat := ((rs.map (fun r => (r.hsq, r.idx))).eraseDups).length

/-- D(q): cells linked and not yet sent into the egress crossing or discarded, each counted once (R181). -/
def Queue.depth (q : Queue) : Nat := distinctRefs (q.frames.flatMap (fun f => f.refs))

/-- The frame may be captured: wholly linked, not selected, not started (R193). -/
def QFrame.eligible (f : QFrame) : Bool := f.complete && !f.selected && !f.started

def Queue.victim (q : Queue) : Bool := q.frames.any QFrame.eligible

/-- The link of a port that has one is down (R195). -/
def State.portDown (s : State) (p : Nat) : Bool :=
  if p < 1024 then !(s.link p).up else if p = 1089 then !s.host.mgmt.up else false

/-- LEVEL of a queue (R181), forced to 3 while the port is down (R195). -/
def State.level (s : State) (q : Nat) : Nat :=
  let e := s.queueSquare (q / 16)
  let d := (s.queue q).depth
  let l := s.limits (q % 16) (s.sq e).viewGf
  if s.portDown (q / 16) then 3
  else if d ≥ l.1 then 3
  else if d ≥ l.2.1 then 2
  else if d ≥ l.2.2 then 1
  else 0

end Sys2Proof.Machine
end

