-- ==== Sys2Proof/Machine/Sched.lean ====
section
/-!
DEFINITION. The records, buckets and gates that an egress queue's frames wait for, their eligibility and finish tags, and
frames that leave a queue unsent (R193, R203 to R205, R207 to R214, R221 to R223, R287, R289).
-/

namespace Sys2Proof.Machine

/-! ### Token buckets (R213, R216) -/

/-- One byte of a meter or shaper bucket: a rate of 1 kb/s fills 125 units in a time unit. -/
def byteUnit : Nat := 1000000000 * 1099511627776

/-- Contents after `dt` at `rate` kb/s, up to `size` bytes. DEDUCED, unsafe (log entry 36). -/
def fillTo (tok : Int) (rate size dt : Nat) : Int :=
  min ((size * byteUnit : Nat) : Int) (tok + ((rate * 125 * dt : Nat) : Int))

/-! ### Queue, port and shaper records (R203 to R205, R213) -/

/-- COST of queue `q` (R204). -/
def queueCost (w : BookView) (q : Nat) : Nat :=
  let c := bits (w 8 (0x90000 + 8 * q)) 24 0
  if c = 0 then 16777216 else c
def queueStrict (w : BookView) (q : Nat) : Bool := bit (w 8 (0x90000 + 8 * q)) 25
def queueShaper (w : BookView) (q : Nat) : Nat := bits (w 8 (0x90000 + 8 * q)) 37 26
def portRec (w : BookView) (p : Nat) : Nat := w 8 (0xB2180 + 8 * p)
def portShaper (w : BookView) (p : Nat) : Nat := bits (portRec w p) 11 0
/-- Gate list of a port; ignored for ports 1024–1090 (R205). -/
def portGcl (w : BookView) (p : Nat) : Nat := if p < 1024 then bits (portRec w p) 21 12 else 0
def portNoGuard (w : BookView) (p : Nat) : Bool := bit (portRec w p) 22

def shaperRate (w : BookView) (j : Nat) : Nat := bookField w 8 (0x80000 + 16 * j) 4
def shaperBurst (w : BookView) (j : Nat) : Nat := bookField w 8 (0x80000 + 16 * j + 4) 4
def shaperOvh (w : BookView) (j : Nat) : Nat := bookField w 8 (0x80000 + 16 * j + 8) 1 % 64

/-- Contents as a shaper keeps them: whole multiples of 2^-16 byte, rounded down (R213). DEDUCED, unsafe (log entry 36). -/
def tokens (x : Int) : Int := x / (byteUnit / 65536 : Nat) * (byteUnit / 65536 : Nat)

/-- TOKENS of a shaper with profile `j` at `t`, in units of 1 byte ÷ (10^9 × 2^40); one not yet used
stands at BURST (R213). -/
def shaperNow (w : BookView) (j : Nat) (b : Option Bucket) (t : Tick) : Int :=
  match b with
  | none => ((shaperBurst w j * byteUnit : Nat) : Int)
  | some x => tokens (fillTo x.tok (shaperRate w j) (shaperBurst w j) (t - x.at_))

/-- The shaper conforms; profile 0 is no shaper (R213). -/
def shaperOk (w : BookView) (j : Nat) (b : Option Bucket) (t : Tick) : Bool :=
  j == 0 || decide (0 ≤ shaperNow w j b t)

/-- Charge `n` bytes (R213). -/
def shaperCharge (w : BookView) (j : Nat) (b : Option Bucket) (t : Tick) (n : Nat) : Option Bucket :=
  if j = 0 then none
  else some { tok := shaperNow w j b t - ((n * byteUnit : Nat) : Int), at_ := t }

/-- Return `n` bytes of an over-estimate, cut to BURST (R212). -/
def shaperCredit (w : BookView) (j : Nat) (b : Option Bucket) (t : Tick) (n : Nat) : Option Bucket :=
  if j = 0 then none
  else some { tok := min ((shaperBurst w j * byteUnit : Nat) : Int)
                       (shaperNow w j b t + ((n * byteUnit : Nat) : Int)), at_ := t }

/-- A bucket carried over a change of records from view `w0` to `w1`: one whose index was 0 starts at BURST, every other,
used or not, is kept and cut to the new BURST (R213, R214). -/
def shaperChange (w0 w1 : BookView) (j0 j1 : Nat) (b : Option Bucket) (t : Tick) : Option Bucket :=
  if j1 = 0 then none
  else
    let full : Int := ((shaperBurst w1 j1 * byteUnit : Nat) : Int)
    some { tok := if j0 = 0 then full else min full (shaperNow w0 j0 b t), at_ := t }

/-- The shaper of a queue or port has another index or another profile in view `w1` than in `w0`. -/
def shaperDiffers (w0 w1 : BookView) (j0 j1 : Nat) : Bool :=
  j0 != j1 || shaperRate w0 j0 != shaperRate w1 j1 || shaperBurst w0 j0 != shaperBurst w1 j1

/-! ### Gates (R221 to R223) -/

/-- Entry of a gate list at device time `t` in ns: the position is (t − BASE) mod CYCLE, and the last entry
holds to the cycle's end (R222, R226). -/
def GateList.entryAt (g : GateList) (t : Nat) : Nat :=
  let pos := (((t : Int) - g.base) % (atLeast1 g.cycle : Nat)).toNat
  let ends := g.entries.zipIdx.filter (fun e => decide (((g.entries.take (e.2 + 1)).map (fun x => x.2)).sum ≤ pos))
  min ends.length (g.entries.length - 1)

/-- Class `c`'s gate under a list at device time `t`. -/
def GateList.openAt (g : GateList) (c t : Nat) : Bool :=
  match g.entries[g.entryAt t]? with
  | some e => bit e.1 c
  | none => true

/-- Class `c`'s gate at device time `t`: under the operational list and, from its start, the pending one (R223).
DEDUCED, unsafe (log entry 63). -/
def State.gateAt (s : State) (p c t : Nat) : Bool :=
  let oper := match (s.eport p).gate with
    | some g => g.openAt c t
    | none => true
  match (s.eport p).pendGate with
  | some (g, st) => if st ≤ t then g.openAt c t else oper
  | none => oper

/-- The gate of a port's class stands open now (R222). -/
def State.gateOpen (s : State) (p c : Nat) : Bool := s.gateAt p c s.nowNs

/-! ### Eligibility (R207, R222, R223) -/

/-- LENGTH of a frame as the scheduler counts it: MAX_FRAME − 4 while its last cell is not linked (R212). -/
def State.countedLen (s : State) (q : Nat) (f : QFrame) : Nat :=
  if f.complete then f.hdr.length else s.maxFrame (q / 16) - 4

/-- Priority `k` of a front-panel port is paused (R191). -/
def State.paused (s : State) (p c : Nat) : Bool :=
  decide (p < 1024) &&
    decide (s.elapsed < SMap.get (fun _ => 0) (s.sq (p / 16)).pause (8 * (p % 16) + s.priority c))

/-- GATE_LEAD in ns, and PULL_EST (R229). -/
def State.gateLead (s : State) (p : Nat) : Nat := 10 * fld (s.inForce (A.egrCfg (p / 16))) 31 24
def State.pullEst (s : State) (p : Nat) : Nat := fld (s.inForce (A.egrCfg (p / 16))) 23 16

/-- No gate list bears on the port. -/
def State.ungated (s : State) (p : Nat) : Bool := (s.eport p).gate.isNone && (s.eport p).pendGate.isNone

/-- The gate of class `c` allows the selection of a frame of `len` bytes (R223): it is open or opens within the
lead, and the frame ends before the gate next closes unless NO_GUARD is set. -/
def State.gateAllows (s : State) (p c len : Nat) : Bool :=
  s.ungated p ||
    (match (List.range (s.gateLead p + 1)).find? (fun d => s.gateAt p c (s.nowNs + d)) with
    | none => false
    | some d =>
      let opens := s.nowNs + d
      let start := max (s.nowNs + s.pullEst p) opens
      let fin := start + cdiv ((len + 24) * 8) (s.carriedRate p)
      portNoGuard s.book.current p || (List.range (fin - opens)).all (fun k => s.gateAt p c (opens + k)))

/-- The queue's head: its first frame not yet selected. -/
def Queue.head (q : Queue) : Option QFrame := q.frames.find? (fun f => !f.selected)

/-- The batch of a queue: the head and every following frame that ends in the cell in which it ends (R208). -/
def Queue.batch (q : Queue) : List QFrame :=
  match q.frames.filter (fun f => !f.selected) with
  | [] => []
  | h :: fs =>
    h :: (if h.complete then fs.filter (fun f => f.complete && f.refs.getLast? == h.refs.getLast?) else [])

/-- Charge of a batch in WFQ: Σ (LENGTH + 4) (R209). -/
def State.batchLen (s : State) (q : Nat) : Nat :=
  (((s.queue q).batch).map (fun f => s.countedLen q f + 4)).sum

/-- The head frame of queue `q` is eligible (R207). -/
def State.eligible (s : State) (q : Nat) : Bool :=
  let w := s.book.current
  match (s.queue q).head with
  | none => false
  | some f =>
    !s.isOff 1 q && (f.complete || f.hdr.ct) && !s.paused (q / 16) (q % 16) &&
      s.gateAllows (q / 16) (q % 16) (s.countedLen q f) &&
      shaperOk w (queueShaper w q) (s.queue q).shaper s.elapsed

/-! ### Finish tags (R209, R210) -/

/-- Tag arithmetic (R210). -/
def tagMod : Nat := 2 ^ 48

/-- Finish tag of a queue's head from the port's virtual time (R209). -/
def State.newTag (s : State) (q : Nat) : Nat :=
  ((s.eport (q / 16)).v + s.batchLen q * queueCost s.book.current q) % tagMod

/-- Tag of a WFQ queue: its tag, or a new one where it has become eligible or its head has changed; a queue that is not
eligible has none (R209). DEDUCED, unsafe (log entry 62). -/
def State.tagFor (s : State) (q : Nat) : Option Nat :=
  if s.eligible q && !queueStrict s.book.current q then some ((s.queue q).tag.getD (s.newTag q)) else none

def State.setTag (s : State) (q : Nat) (t : Option Nat) : State :=
  if (s.queue q).tag = t then s else s.modQueue q (fun x => { x with tag := t })

/-- Tag a queue as its eligibility now says (R209). -/
def State.tagQueue (s : State) (q : Nat) : State := s.setTag q (s.tagFor q)

/-- Tag every queue of a port (R209). -/
def State.tagPort (s : State) (p : Nat) : State := ((List.range 16).map (16 * p + ·)).foldl State.tagQueue s

/-! ### Frames that leave a queue unsent (R193, R195) -/

/-- Free, or ask the discard pull of, one cell that only removed frames used (R193 step 2). -/
def State.dropRef (s : State) (e : Nat) (r : CellRef) : State :=
  if r.lost then s
  else if r.hsq = e then s.freeByHeader e r.idx
  else s.modSq e (fun q => { q with discards := q.discards ++ [r] })

/-- Remove from queue `q` the frames that `gone` names. A new head gets a new tag (R209). Their cells are freed or pulled for discard
unless a frame that stays still needs them; pull-buffer positions of theirs are skipped. -/
def State.removeFrames (s : State) (q : Nat) (gone : QFrame → Bool) : State :=
  let e := s.queueSquare (q / 16)
  let fs := (s.queue q).frames
  let stay := fs.filter (fun f => !gone f)
  let out := fs.filter gone
  let ids := out.map (fun f => f.fid)
  let kept := stay.flatMap (fun f => f.refs.map (fun r => (r.hsq, r.idx)))
  let inPull := (s.sq e).pullBuf.map (fun p => (p.ref.hsq, p.ref.idx))
  let refs := ((out.flatMap (fun f => f.refs)).filter
    (fun r => !kept.contains (r.hsq, r.idx) && !inPull.contains (r.hsq, r.idx))).eraseDups
  let headOf (l : List QFrame) : Option Nat := (l.find? (fun f => !f.selected)).map (fun f => f.fid)
  let s1 := (s.modQueue q (fun x => { x with
    frames := stay
    tag := if headOf fs = headOf stay then x.tag else none })).modEport (q / 16)
    (fun x => { x with selected := x.selected.filter (fun i => !ids.contains i) })
  let s2 := s1.modSq e (fun x => { x with pullBuf := x.pullBuf.map (fun p =>
    if p.port = q / 16 ∧ p.fids.all (fun i => ids.contains i) ∧ p.fids ≠ [] then
      { p with skip := true, fids := [] }
    else { p with fids := p.fids.filter (fun i => !ids.contains i) }) })
  (refs.foldl (fun s r => s.dropRef e r) s2).tagQueue q

/-! ### Outcomes of transmit-ring frames (R287, R289) -/

/-- The next `n` descriptors of 32 bytes. -/
def chunks32 : Nat → List Byte → List (List Byte)
  | 0, _ => []
  | n + 1, bs => bs.take 32 :: chunks32 n (bs.drop 32)

/-- Return every descriptor of a transmit frame: the last carries the outcome, the others OK, and
bytes 16–19 the stamp (R287, R289). -/
def State.returnTx (s : State) (n status stamp : Nat) (bs : List Byte) : State :=
  let k := bs.length / 32
  ((chunks32 k bs).zipIdx).foldl (fun s d =>
    s.ringReturn n (patch d.1 16 (leBytes 4 stamp))
      ((if d.2 + 1 = k then status else stOk') * 65536)) s
where
  /-- OK (R292). -/
  stOk' : Nat := 0

/-- Return the oldest transmit frame if its outcome is known (R279, R289). -/
def State.flushTxOne (s : State) (n : Nat) : State :=
  match (s.ring n).txWait with
  | (_, some (st, stamp), bs) :: ws => (s.modRing n (fun r => { r with txWait := ws })).returnTx n st stamp bs
  | _ => s

/-- Return transmit frames in ring order as far as their outcomes are known. -/
def State.flushTx (s : State) (n : Nat) : State :=
  (List.range (s.ring n).txWait.length).foldl (fun s _ => s.flushTxOne n) s

/-- Record the outcome of a frame that a transmit ring waits for: status and stamp (R289). One that did not leave whole is
a lost Sync where the service sent it as such (R268). -/
def State.reportTx (s : State) (h : FrameHdr) (status stamp : Nat) : State :=
  let s := if h.built && status != 0 then s.bcLost h.fid else s
  match h.txRet with
  | none => s
  | some (n, key) => (s.modRing n (fun r => { r with txWait := r.txWait.map (fun w =>
      if w.1 = key ∧ w.2.1 = none then (w.1, some (status, stamp), w.2.2) else w) })).flushTx n

/-- Discard the frames of queue `q` that `gone` names, counted in word `w` of the queue set. -/
def State.discardFrames (s : State) (q w : Nat) (gone : QFrame → Bool) : State :=
  let out := (s.queue q).frames.filter gone
  let s1 := (s.removeFrames q gone).count (queueCtr q w) out.length
  out.foldl (fun s f => s.reportTx f.hdr 11 0) s1

/-- Frames that start in the cells of a list. -/
def cellFrames (cs : List Cell) : List FrameHdr :=
  cs.flatMap (fun c => c.segs.filterMap (fun g => g.hdr))

/-- Squares of the board. -/
def squares : List Nat := List.range 64

end Sys2Proof.Machine
end

