-- ==== Sys2Proof/Machine/Lookup.lean ====
section
/-!
DEFINITION. The Book lookup: exact match, LPM, ECMP, ternary ACL, the learn cache, the order that
settles a result, reduction and PTP steering, the fragment table, exceptions and their buckets, and
meters (R83 to R129, R216 to R220, R230 to R232, R267).
-/

namespace Sys2Proof.Machine

/-! ### Perfect-hash tables (R109 to R111) -/

/-- Slot of a displacement perfect hash (R111). -/
def phSlot (w : BookView) (v seed slots blog2 disp : Nat) (key : List W64) : Nat :=
  let h := (mix64 key (w64 seed)).toNat
  let b := if blog2 = 0 then 0 else h / 2 ^ (64 - blog2)
  let x := (h % 2 ^ 32) ^^^ bookField w v (disp + 4 * b) 4
  x * slots / 2 ^ 32

/-- The words of a table's slot at offset `o` equal `ks`. -/
def slotIs (w : BookView) (v o : Nat) : List W64 → Bool
  | [] => true
  | k :: ks => w v o == k.toNat && slotIs w v (o + 8) ks

/-- Exact match of a 160-bit key in volume 2 (EM-N) or 3 (EM-W): the result record (R109 to R111). -/
def em (w : BookView) (v key : Nat) : Option Nat :=
  let slots := bookField w v 8 4
  let ks := if v = 2 then [w64 key] else words160 key
  let size := if v = 2 then 16 else 32
  if slots = 0 then none
  else
    let o := bookField w v 0x14 4 +
      size * phSlot w v (w v 0) slots (bookField w v 0x0C 1) (bookField w v 0x10 4) ks
    if slotIs w v o ks then some (w v (o + size - 8)) else none

/-! ### LPM (R115 to R117) -/

/-- The lengths of the 8 highest set bits of a filter of `n` bits, longest first. -/
def lpmLens (f n : Nat) : List Nat :=
  (((List.range n).reverse.filter (fun i => bit f i)).take 8).map (· + 1)

/-- `a` of `n` bits masked to its `l` highest bits. -/
def maskTo (n l a : Nat) : Nat := a / 2 ^ (n - l) * 2 ^ (n - l)

/-- One IPv4 probe. -/
def probe4 (w : BookView) (vrf da l : Nat) : Option Nat :=
  let slots := bookField w 4 8 4
  let k := w64 (maskTo 32 l da + vrf * 2 ^ 32 + l * 2 ^ 40 + 2 ^ 46)
  if slots = 0 then none
  else
    let o := bookField w 4 0x14 4 + 16 * phSlot w 4 (w 4 0) slots (bookField w 4 0x0C 1) (bookField w 4 0x10 4) [k]
    if slotIs w 4 o [k] then some (w 4 (o + 8)) else none

/-- One IPv6 probe. -/
def probe6 (w : BookView) (vrf da l : Nat) : Option Nat :=
  let slots := bookField w 4 0x20 4
  let p := maskTo 128 l da
  let ks := [w64 p, w64 (p / 2 ^ 64), w64 (vrf + l * 2 ^ 8 + 2 * 2 ^ 16)]
  if slots = 0 then none
  else
    let o := bookField w 4 0x2C 4 +
      32 * phSlot w 4 (w 4 0x18) slots (bookField w 4 0x24 1) (bookField w 4 0x28 4) ks
    if slotIs w 4 o ks then some (w 4 (o + 24)) else none

/-- The filter entry of a destination (R115): 32 or 128 bits. -/
def lpmFilter (w : BookView) (six : Bool) (da : Nat) : Nat :=
  if six then
    let i := (da / 2 ^ 112) ^^^ (da / 2 ^ 96 % 65536)
    let o := bookField w 4 0x34 4 + 16 * i
    w 4 o + 2 ^ 64 * w 4 (o + 8)
  else bookField w 4 (bookField w 4 0x30 4 + 4 * (da / 65536)) 4

/-- LPM with the VRF default (R117). -/
def lpm (w : BookView) (six : Bool) (vrf da : Nat) : Option Nat :=
  let lens := lpmLens (lpmFilter w six da) (if six then 128 else 32)
  match lens.findSome? (fun l => if six then probe6 w vrf da l else probe4 w vrf da l) with
  | some r => some r
  | none =>
    let d := w 4 (bookField w 4 0x38 4 + 16 * vrf + (if six then 8 else 0))
    if bit d 63 then some d else none

/-! ### Next hops and ECMP (R113, R118 to R121) -/

/-- A next hop (R113). -/
structure NextHop where
  port : Nat := 0
  unres : Bool := false
  route : Bool := false
  tag : Bool := false
  vid : Nat := 0
  mtu : Nat := 0
  smacIdx : Nat := 0
  dmac : Nat := 0
deriving DecidableEq, Repr

/-- Bytes of volume `v` that a lookup stamped `e` sees. -/
def Book.bytesOf (b : Book) (e v : Nat) : Nat :=
  match b.old with
  | some x => 4096 * mapSize (if x.epoch = e ∧ bit x.mask v then b.oldMap else b.map) v
  | none => 4096 * mapSize b.map v

/-- Next hop `n` as a lookup stamped `e` reads it; one beyond the end of volume 5 is unresolved. -/
def Book.nextHop (b : Book) (e n : Nat) : NextHop :=
  let o := 0x800 + 16 * n
  let x := b.view e 5 o
  { port := bits x 10 0, unres := bit x 11 || decide (b.bytesOf e 5 < o + 16), route := bit x 12
    tag := bit x 13, vid := bits x 25 14, mtu := bits x 39 26, smacIdx := bits x 47 40
    dmac := bits (b.view e 5 (o + 8)) 47 0 }

/-- Rotation of a 64-bit word to the right. -/
def rotr64 (h : W64) (r : Nat) : W64 := h.rotateRight r

/-- ECMP selection: the next hop, or none for a dead result (R118, R120). -/
def State.ecmp (s : State) (e g : Nat) (flow : List W64) : Option Nat :=
  let w := s.book.view e
  let grp := w 6 (bookField w 6 8 4 + 8 * g)
  let base := bits grp 19 0
  let size := bits grp 29 20
  let mem := fun i => bookField w 6 (bookField w 6 0x0C 4 + 4 * i) 4
  if size = 0 then none
  else
    let h := (rotr64 (mix64 flow (w64 (w 6 0))) (bits grp 35 30)).toNat
    let m0 := mem (base + h / 2 ^ 32 * size / 2 ^ 32)
    let m1 := mem (base + bits m0 26 18)
    let m2 := mem (base + bits m1 26 18)
    let alive := fun m =>
      let p := (s.book.nextHop e (bits m 17 0)).port
      bit m 31 && (decide (1024 ≤ p) || SMap.get (fun _ => false) s.book.lsv p)
    ([m0, m1, m2].find? alive).map (fun m => bits m 17 0)

/-! ### Ternary ACL (R122) -/

/-- The five 64-bit words at offset `o` as one 320-bit number. -/
def word320 (w : BookView) (o : Nat) : Nat :=
  w 7 o + 2 ^ 64 * w 7 (o + 8) + 2 ^ 128 * w 7 (o + 16) + 2 ^ 192 * w 7 (o + 24) + 2 ^ 256 * w 7 (o + 32)

/-- ACL entry `i` matches a key. -/
def aclHit (w : BookView) (key i : Nat) : Bool :=
  bit (w 7 (96 * i + 88)) 6 && (key &&& word320 w (96 * i + 40)) == word320 w (96 * i)

/-- Action and extension word of the winning ACL entry. -/
def Book.acl (b : Book) (e key : Nat) : Option (Nat × Nat) :=
  let w := b.view e
  ((List.range (min 16384 (b.bytesOf e 7 / 96))).find? (aclHit w key)).map (fun i =>
    (w 7 (96 * i + 80), w 7 (96 * i + 88)))

/-! ### Learn cache reads (R125) -/

def learnSet (key : W64) : Nat := (mix64 [key] 0).toNat % 16384

/-- The entry of a key, with its index (R125). -/
def State.learnFind (s : State) (key : W64) : Option (Nat × LearnEnt) :=
  (List.range 4).findSome? (fun k =>
    match tget s.book.learn (4 * learnSet key + k) with
    | some x => if x.key = key then some (4 * learnSet key + k, x) else none
    | none => none)

/-! ### The lookup up to ECMP resolution (R112, R114, R123, R124) -/

/-- A result record with no target: no forwarding result (a miss). -/
def kindNone : Nat := 5
/-- A target that is a port itself: a learn-cache hit or a steered frame. -/
def kindPort : Nat := 4

/-- The base result of R124, and the reason its miss raises. -/
structure Base where
  rec_ : Nat := 0
  kind : Nat := 5
  port : Option Nat := none
  reasons : List Nat := []
deriving DecidableEq, Repr

/-- A routed frame's result (R124). KIND 0 acts as 3 here (R112). -/
def routed (w : BookView) (p : Parse) : Base :=
  let hit := if p.kt = 2 then
      match p.vni.bind (fun v => em w 3 (vxlanKey p v)) with
      | some r => some r
      | none => match em w 3 (flowKey4 p) with
        | some r => some r
        | none => match em w 2 (hostKey4 p) with
          | some r => some r
          | none => lpm w false p.vrf p.da
    else if p.kt = 4 then
      match em w 3 (hostKey6 p) with
      | some r => some r
      | none => lpm w true p.vrf p.da
    else none
  match hit with
  | some r => { rec_ := r, kind := if r % 4 = 0 then 3 else r % 4 }
  | none => { reasons := [19] }

/-- The forwarding result before the ACL stage (R124). -/
def State.baseResult (s : State) (e : Nat) (p : Parse) : Base :=
  let w := s.book.view e
  let v := w 1 (8 * p.vid)
  match em w 2 (l2Key p.vid p.dmac).toNat with
  | some r => if r % 4 = 0 then routed w p else { rec_ := r, kind := r % 4 }
  | none =>
    match s.learnFind (l2Key p.vid p.dmac) with
    | some x => { kind := kindPort, port := some x.2.port }
    | none => if v % 4 = 0 then { reasons := [18] } else { rec_ := v, kind := v % 4 }

/-- The frame is a reduction frame on its first pass (R230, R231). -/
def State.isReduction (s : State) (p : Parse) : Bool :=
  p.redMark && !p.second && p.kt == 2 && p.da == s.book.current 12 0 % 2 ^ 32

/-- Reason 22 for a reduction frame (R232). -/
def State.redBad (s : State) (p : Parse) : Bool :=
  match p.redSteer with
  | none => true
  | some x =>
    let h := x.toNat
    let kind := bits h 59 56
    let c := bits h 47 32
    let r := s.book.current 12 (0x40 + 64 * c)
    p.frag != 0 || bits h 63 60 != 1 || decide (2 < kind) || decide (511 < c) ||
      !bit r 0 || bits r 2 1 == 3 || bits r 11 5 == 0 ||
      (decide (kind ≤ 1) && (bits h 55 52 != bits r 2 1 || bits h 51 48 != bits r 4 3))

/-- The frame is steered to the boundary clock service (R267). -/
def State.ptpSteered (s : State) (p : Parse) : Bool :=
  p.ptp && !p.second && s.isOn 9 0 && decide (p.iport < 1024) &&
    rbit (s.reg (A.ptpCfg (p.iport / 16) (p.iport % 16))) 31 &&
    (p.dmac == 0x011B19000000 ||
      (p.kt == 2 && p.da == 0xE0000181 && p.proto == 17 && (p.dport == 319 || p.dport == 320)))

/-- Result of a steered frame: port 1090 in class `c`. -/
def steerBase (c : Nat) (rs : List Nat) : Base :=
  { rec_ := c * 2 ^ 20 + 2 ^ 24, kind := kindPort, port := some 1090, reasons := rs }

/-- The result that stands before the ACL stage, with reduction and PTP steering in place of it.
DEDUCED, unsafe (log entry 33). -/
def State.steered (s : State) (e : Nat) (p : Parse) : Base :=
  if s.isReduction p then
    let c := bits ((p.redSteer.getD 0).toNat) 47 32
    steerBase (bits (s.book.current 12 (0x40 + 64 * c)) 43 40) (if s.redBad p then [22] else [])
  else if s.ptpSteered p then steerBase (fld (s.inForce A.timeBcCfg) 3 0) []
  else s.baseResult e p

/-- Class of a frame (R114): the first of the records that sets one, else the PCP map. -/
def classOf (w : BookView) (recs : List Nat) (pcp : Nat) : Nat :=
  match recs.find? (fun r => bit r 24) with
  | some r => bits r 23 20
  | none => bits (w 1 0x8000) (4 * pcp + 3) (4 * pcp)

/-- Meter of a frame (R114). -/
def meterOf (recs : List Nat) : Option Nat := (recs.find? (fun r => bit r 39)).map (fun r => bits r 38 25)

/-- Window offset and VRF of a record that asks for a second move (R112). -/
def secondOf (r : Nat) : Option (Nat × Nat) := if bit r 44 then some (bits r 52 45, bits r 60 53) else none

/-- The lookup of one pass, up to but not including ECMP resolution (R114, R123, R124). -/
def State.lookup (s : State) (e : Nat) (p : Parse) : LookRes :=
  let w := s.book.view e
  let v := w 1 (8 * p.vid)
  let b := s.steered e p
  let red := s.isReduction p
  let vrec := if bit v 63 && !red then [v] else []
  let rs := p.reasons ++ (if !bit v 63 || p.tagBad then [16] else []) ++ b.reasons
  match s.book.acl e (aclKey p) with
  | none =>
    { kind := b.kind, target := bits b.rec_ 19 2, learned := b.port
      cls := classOf w (b.rec_ :: vrec) p.pcp
      meter := if red then none else meterOf (b.rec_ :: vrec)
      telem := bits b.rec_ 43 40, second := if red then none else secondOf b.rec_, reasons := rs }
  | some (a, x) =>
    let k := a % 4
    { kind := if k = 0 then b.kind else k
      target := if k = 0 then bits b.rec_ 19 2 else bits a 19 2
      learned := if k = 0 then b.port else none
      cls := classOf w (a :: b.rec_ :: vrec) p.pcp
      meter := if red then meterOf [a] else meterOf (a :: b.rec_ :: vrec)
      telem := bits b.rec_ 43 40 ||| bits a 43 40
      second := if red then none else if bit a 44 then secondOf a else secondOf b.rec_
      reasons := rs ++ (if 48 ≤ bits x 5 0 then [bits x 5 0] else [])
      aclDrop := k == 3 }

/-! ### Resolution (R98, R113, R120, R124) -/

/-- Where a frame's forwarding result leads. -/
structure Fwd where
  port : Option Nat := none
  nh : Option Nat := none
  second : Option (Nat × Nat) := none
  /-- Word of the square set that counts the drop of this result (R379). -/
  drop : Option Nat := none
  reasons : List Nat := []
deriving DecidableEq, Repr

/-- Reasons that a next hop raises (R124). -/
def nhReasons (h : NextHop) (p : Parse) : List Nat :=
  (if h.unres then [20] else []) ++
  (if h.route && p.kt != 1 && decide (p.ttl ≤ 1) then [17] else []) ++
  (if h.route && decide (h.mtu < p.len + 4) then [21] else [])

/-- Resolve a settled lookup in square `i` for a frame of its own (R124). -/
def State.resolve (s : State) (i e : Nat) (p : Parse) (r : LookRes) : Fwd :=
  match r.second, p.second with
  | some x, false => { port := some (1024 + i), second := some x }
  | sec, _ =>
    let rs := if sec.isSome then [23] else []
    let viaNh := fun n =>
      let h := s.book.nextHop e n
      { port := some h.port, nh := some n, reasons := rs ++ nhReasons h p
        drop := if s.portExists h.port then none else some 2 : Fwd }
    if r.kind = 1 then viaNh r.target
    else if r.kind = 2 then
      match s.ecmp e (r.target % 16384) (flowWords p) with
      | some n => viaNh n
      | none => { drop := some 3, reasons := rs }
    else if r.kind = kindPort then
      { port := r.learned, reasons := rs
        drop := if s.portExists (r.learned.getD 0) then none else some 2 }
    else if r.kind = kindNone then { reasons := rs }
    else { drop := some (if r.aclDrop then 4 else 5), reasons := rs }

/-! ### Exceptions (R92 to R97) -/

/-- The policy record of a reason as a lookup stamped `e` reads it (R94). -/
def Book.policy (b : Book) (e n : Nat) : Nat :=
  match b.policyFrom with
  | none => 3
  | some f => if e ≠ b.epoch ∧ b.epoch = f then 3 else b.view e 0 (8 * n)

/-- Action of a reason, folded where the frame has no forwarding result (R93). -/
def foldAction (noRes : Bool) (a : Nat) : Nat :=
  if noRes then (if a = 2 then 1 else if a = 0 then 3 else a) else a

/-- The reason raised and its folded action (R93). -/
def raised (pol : Nat → Nat) (rs : List Nat) : Option (Nat × Nat) :=
  let noRes := rs.any resultNo
  ((List.range 64).filter (fun n => rs.contains n)).findSome? (fun n =>
    let a := foldAction noRes (pol n % 4)
    if a = 0 then none else some (n, a))

def polRate (r : Nat) : Nat := bits r 39 20
def polBurst (r : Nat) : Nat := atLeast1 (bits r 47 40)

/-- Units of a policy bucket in one token. -/
def polUnit : Nat := 1000000000

/-- A policy bucket's contents at `ns` under a record (R96). -/
def polNow (r : Nat) (b : Bucket) (ns : Nat) : Int :=
  if polRate r = 0 then 0
  else min ((polBurst r * polUnit : Nat) : Int) (b.tok + ((polRate r * (ns - b.at_) : Nat) : Int))

/-- The bucket of reason `n` in square `i`. -/
def State.polBucket (s : State) (i n : Nat) : Bucket := SMap.get (fun _ => {}) (s.sq i).policy n

/-- The record that refills reason `n`'s buckets: the one the current epoch reads. -/
def State.polRec (s : State) (n : Nat) : Nat := s.book.policy s.book.epoch n

def State.setPol (s : State) (i n : Nat) (v : Int) : State :=
  s.modSq i (fun q => { q with
    policy := SMap.set (fun _ => {}) q.policy n (if v = 0 then {} else { tok := v, at_ := toNs s.elapsed }) })

/-- Take a token of reason `n` in square `i`, counting a frame that finds none (R96). -/
def State.takeToken (s : State) (i n : Nat) : State × Bool :=
  let v := polNow (s.polRec n) (s.polBucket i n) (toNs s.elapsed)
  if (polUnit : Int) ≤ v then
    (s.modSq i (fun q => { q with
      policy := SMap.insert q.policy n { tok := v - polUnit, at_ := toNs s.elapsed } }), true)
  else (s.count (sqCtr i (0x0E00 + 8 * n)) 1, false)

/-- Carry the buckets of every square over a change of records from state `s0` to `s` (R96). `full`: the
first turn whose mask includes volume 0. -/
def State.repolicy (s s0 : State) (full : Bool) (is : List Nat) : State :=
  let ns := toNs s.elapsed
  is.foldl (fun s i => (List.range 64).foldl (fun s n =>
    let r := s.polRec n
    let v : Int :=
      if polRate r = 0 then 0
      else if full then ((polBurst r * polUnit : Nat) : Int)
      else min ((polBurst r * polUnit : Nat) : Int) (polNow (s0.polRec n) (s0.polBucket i n) ns)
    s.modSq i (fun q => { q with
      policy := if polRate r = 0 then SMap.erase q.policy n
                else SMap.insert q.policy n { tok := v, at_ := ns } })) s) s

/-! ### Meters (R216 to R220) -/

/-- A meter record (R216). -/
structure MeterRec where
  cir : Nat := 0
  pir : Nat := 0
  cbs : Nat := 0
  pbs : Nat := 0
  rfc4115 : Bool := false
  dropRed : Bool := false
deriving DecidableEq, Repr

/-- Meter record `m` in a view of volume 8; in RFC 2698 mode a PIR below CIR acts as CIR (R217). -/
def meterRec (w : BookView) (m : Nat) : MeterRec :=
  let o := 32 * m
  let f := bookField w 8 (o + 16) 1
  let cir := bookField w 8 o 4
  let pir := bookField w 8 (o + 4) 4
  { cir := cir, pir := if bit f 0 then pir else max cir pir, cbs := bookField w 8 (o + 8) 4
    pbs := bookField w 8 (o + 12) 4, rfc4115 := bit f 0, dropRed := bit f 1 }

/-- Bucket contents of a meter at `t`; a pair that has never been used is full. -/
def meterNow (r : MeterRec) (m : Option MeterSt) (t : Tick) : MeterSt :=
  match m with
  | none => { tc := ((r.cbs * byteUnit : Nat) : Int), tp := ((r.pbs * byteUnit : Nat) : Int), at_ := t }
  | some x => { tc := fillTo x.tc r.cir r.cbs (t - x.at_), tp := fillTo x.tp r.pir r.pbs (t - x.at_), at_ := t }

/-- Colour a frame of `b` bytes: buckets after it and colour 0 green, 1 yellow, 2 red (R217). -/
def colourOf (r : MeterRec) (x : MeterSt) (b : Nat) : MeterSt × Nat :=
  let n : Int := ((b * byteUnit : Nat) : Int)
  if r.rfc4115 then
    if n ≤ x.tc then ({ x with tc := x.tc - n }, 0)
    else if n ≤ x.tp then ({ x with tp := x.tp - n }, 1)
    else (x, 2)
  else if x.tp < n then (x, 2)
  else if x.tc < n then ({ x with tp := x.tp - n }, 1)
  else ({ x with tp := x.tp - n, tc := x.tc - n }, 0)

/-- Meter a frame of `b` bytes and class `c` in square `i`: its colour, and whether it is dropped red
(R217, R219, R380). -/
def State.meterFrame (s : State) (i m b c : Nat) : State × Nat × Bool :=
  let r := meterRec s.book.current m
  let y := colourOf r (meterNow r (tget (s.sq i).meters m) s.elapsed) b
  let s1 := s.modSq i (fun q => { q with meters := SMap.insert q.meters m y.1 })
  if y.2 = 2 ∧ r.dropRed then
    if s.lossless c then (s1.count (sqWord i 14) 1, 2, false)
    else (s1.count (meterCtr i m 2) b, 2, true)
  else (s1.count (meterCtr i m y.2) b, y.2, false)

/-- Carry the meters of square `i` over a change of records from state `s0` to `s` (R220): a pair never used is full of the
old record's sizes, which are 0 in an all-zero record. -/
def State.remeter (s s0 : State) (i : Nat) (ms : List Nat) : State :=
  let t := s.elapsed
  s.modSq i (fun q => { q with meters := ms.foldl (fun xs m =>
    let r0 := meterRec s0.book.current m
    let r1 := meterRec s.book.current m
    let old := tget xs m
    if r0 = r1 then xs
    else
      let x := meterNow r0 old t
      SMap.insert xs m { x with tc := min x.tc ((r1.cbs * byteUnit : Nat) : Int)
                                tp := min x.tp ((r1.pbs * byteUnit : Nat) : Int) }) q.meters })

/-! ### The fragment table (R87 to R91) -/

def fragSet (k : List W64) : Nat := (mix64 k 0).toNat % 2048

/-- LIFE (R90, R103). -/
def State.fragLife (s : State) (i : Nat) : Tick :=
  msT (clip 1 1000 (fld (s.inForce (A.fragCfg i)) 10 1))
def State.fragOn (s : State) (i : Nat) : Bool := rbit (s.inForce (A.fragCfg i)) 0

/-- An entry has expired (R90). -/
def State.fragOld (s : State) (i : Nat) (x : FragEnt) : Bool := decide (x.created + s.fragLife i ≤ s.elapsed)

/-- The live entry of a datagram key, with its index. -/
def State.fragFind (s : State) (i : Nat) (k : List W64) : Option (Nat × FragEnt) :=
  (List.range 4).findSome? (fun j =>
    match tget (s.sq i).frag (4 * fragSet k + j) with
    | some x => if x.key = k ∧ !s.fragOld i x then some (4 * fragSet k + j, x) else none
    | none => none)

/-- The lowest way of a key's set that is empty or expired. -/
def State.fragFree (s : State) (i : Nat) (k : List W64) : Option Nat :=
  ((List.range 4).find? (fun j =>
    match tget (s.sq i).frag (4 * fragSet k + j) with
    | some x => s.fragOld i x
    | none => true)).map (fun j => 4 * fragSet k + j)

/-- Write a first fragment's outcome (R88). -/
def State.fragWrite (s : State) (i e : Nat) (p : Parse) (idx : Nat) (r : LookRes) : State :=
  let x : FragEnt := { key := datagramKey p, epoch := e, created := s.elapsed, res := r }
  s.modSq i (fun q => { q with frag := SMap.insert q.frag idx x })

/-- Where a first fragment's outcome goes; none: every way is taken (R88). -/
def State.fragSlot (s : State) (i : Nat) (p : Parse) : Option Nat :=
  match s.fragFind i (datagramKey p) with
  | some x => some x.1
  | none => s.fragFree i (datagramKey p)

/-- The settled lookup of a non-first fragment stamped `e`, with the epoch whose pages its outcome names (R89, R91). A
retired entry is cleared. -/
def State.fragRead (s : State) (i e : Nat) (p : Parse) : State × LookRes × Nat :=
  let miss : LookRes := { kind := kindNone, reasons := p.reasons ++ [14] }
  if !s.fragOn i then (s, miss, e)
  else match s.fragFind i (datagramKey p) with
    | none => (s, miss, e)
    | some (idx, x) =>
      if s.book.live x.epoch then (s, { x.res with reasons := p.reasons ++ x.res.reasons }, x.epoch)
      else (s.modSq i (fun q => { q with frag := SMap.erase q.frag idx }),
        { kind := kindNone, reasons := p.reasons ++ [15] }, e)

/-! ### Learn events (R126) -/

/-- What one lookup does to learning: HIT, or a learn event (R126). A new event that finds the engine in DRAINING is
dropped and counted with the square's lost events (R26, R30). DEDUCED, unsafe (log entry 113). -/
def State.learnFrom (s : State) (i e : Nat) (p : Parse) (bad : Bool) : State :=
  if p.second || decide (1024 ≤ p.iport) then s
  else
    let key := l2Key p.vid p.smac
    let event := rbit (s.inForce (A.learnPort (p.iport / 16))) (p.iport % 16) && !bad && !s.isOff 7 0
    let push := fun (s : State) =>
      let q := (s.sq i).learnQ
      let ev : LearnEv := { key := key, port := p.iport }
      if q.contains ev then s
      else if s.isDraining 7 0 ∨ 64 ≤ q.length then s.count (sqWord i 6) 1
      else s.modSq i (fun x => { x with learnQ := x.learnQ ++ [ev] })
    match s.learnFind key with
    | some (idx, x) =>
      if x.port = p.iport then
        let es := tmod s.book.learn idx (fun y => { y with hit := setBit y.hit (replicaOf i) true })
        { s with book := { s.book with learn := es } }
      else if event then push s else s
    | none =>
      if event && (em (s.book.view e) 2 key.toNat).isNone then push s else s

/-! ### Book word errors (R138) -/

/-- Key of a word in the set of bad words. -/
def eccKey (h : EccHit) : Nat := h.replica * 2 ^ 24 + h.area * 2 ^ 22 + h.word % 2 ^ 22

/-- Log a Book word error (R139). -/
def State.eccLog (s : State) (h : EccHit) (ue : Bool) : State :=
  s.logReg A.bookEccLog (b2n ue * 2 ^ 30 + h.replica % 8 * 2 ^ 27 + h.area % 4 * 2 ^ 25 + h.word % 2 ^ 22)

def State.setBadWord (s : State) (k : Nat) (b : Bool) : State :=
  { s with book := { s.book with badWords := SMap.set (fun _ => false) s.book.badWords k b } }

/-- A double-bit error met: the word is bad until repaired, logged, and an event of BOOK_UE (R138). -/
def State.eccUe (s : State) (h : EccHit) : State :=
  ((s.setBadWord (eccKey h) true).eccLog h true).faultEvent 14

/-- A single-bit error met: corrected, written back, counted and logged (R138). -/
def State.eccSbe (s : State) (h : EccHit) : State := (s.count (devCtr 4) 1).eccLog h false

/-- The word error a frame's lookup meets, if any, and whether it drops the frame (R138). -/
def State.meetEcc (s : State) (e : Option EccErr) : State × Bool :=
  match e with
  | none => (s, false)
  | some x => if x.double then ((s.eccUe x.toEccHit).count (devCtr 5) 1, true) else (s.eccSbe x.toEccHit, false)

/-! ### One frame's decision (R93, R95, R96, R101, R124, R218) -/

/-- What the lookup and the exceptions decide for a frame, before admission. -/
structure Decision where
  /-- Where the frame itself goes: port, class and next hop; none: it is dropped. -/
  main : Option (Ctx × Option Nat) := none
  /-- The frame itself goes to the host: the reason's tag. -/
  trap : Option HostTag := none
  /-- A copy for the host: its class and tag. -/
  copy : Option (Nat × HostTag) := none
  second : Option (Nat × Nat) := none
  colour : Nat := 0
  telem : Nat := 0
  raised : Option Nat := none
  metered : Bool := false
deriving DecidableEq, Repr

/-- The settled lookup of a frame with its fragment-table step: the state, the result, where a first fragment's outcome
is to be written, and the epoch whose groups and next hops resolve the result. DEDUCED, unsafe (log entry 34).
DEDUCED, unsafe (log entry 111). -/
def State.settle (s : State) (i e : Nat) (p : Parse) : State × LookRes × Option Nat × Nat :=
  if p.frag = 2 then
    let r := s.fragRead i e p
    (r.1, r.2.1, none, r.2.2)
  else
    let r := s.lookup e p
    if p.frag = 1 && s.fragOn i then
      match s.fragSlot i p with
      | some k => (s, r, some k, e)
      | none => (s, { r with reasons := r.reasons ++ [13] }, none, e)
    else (s, r, none, e)

/-- The host tag of a raised reason. -/
def hostTag (pol n a : Nat) (second : Bool) : HostTag :=
  { ring := some (bits pol 19 8), reason := n, action := a, second := second }

/-- What a settled lookup leaves behind: the fragment entry, the learn event, the count of the reason (R87, R93, R126). -/
def State.noteLookup (s : State) (i e : Nat) (p : Parse) (inj : Bool) (slot : Option Nat) (r : LookRes)
    (rz : Option (Nat × Nat)) : State :=
  let bad := match rz with | some x => resultNo x.1 | none => false
  let s1 := match slot with
    | some k => s.fragWrite i e p k { r with reasons := (rz.map (fun x : Nat × Nat => x.1)).toList }
    | none => s
  let s2 := if inj then s1 else s1.learnFrom i e p bad
  match rz with
  | some x => s2.count (sqCtr i (0x0C00 + 8 * x.1)) 1
  | none => s2

/-- Delivery to the host (R95, R96): the raised reason and its action, where a token is left for it. -/
def State.hostToken (s : State) (i : Nat) (rz : Option (Nat × Nat)) : State × Option (Nat × Nat) :=
  match rz with
  | some (n, a) =>
    if a = 1 ∨ a = 2 then
      let tk := s.takeToken i n
      (tk.1, if tk.2 then some (n, a) else none)
    else (s, none)
  | none => (s, none)

/-- Where a frame that forwards goes, with its meter (R98, R99, R216, R425). DEDUCED, unsafe (log entry 35). -/
def State.forwardFrame (s : State) (i : Nat) (p : Parse) (inj : Bool) (r : LookRes) (f : Fwd) (d : Decision) :
    State × Decision :=
  match f.drop, f.port with
  | some w, _ => (s.count (sqWord i w) 1, d)
  | none, none => (s, d)
  | none, some port =>
    let dst : Ctx × Option Nat := ({ eport := port, cls := r.cls }, f.nh)
    match f.second, r.meter with
    | some x, _ => (s, { d with main := some dst, second := some x })
    | none, some m =>
      if inj then (s, { d with main := some dst })
      else
        let c := s.meterFrame i m (p.len + 4) r.cls
        (c.1, { d with main := if c.2.2 then none else some dst, colour := c.2.1, metered := true })
    | none, none => (s, { d with main := some dst })

/-- Decide a frame in square `i` (R93 to R97, R124): lookup, fragment table, exception, learn event and
meter. `inj`: a frame injected by the host interface or the services complex, which is neither metered
nor learned from (R218, R288). -/
def State.decideFrame (s : State) (i e : Nat) (p : Parse) (inj : Bool) : State × Decision :=
  let t := s.settle i e p
  let r := t.2.1
  let f := t.1.resolve i t.2.2.2 p r
  let rs := r.reasons ++ f.reasons
  let pol := t.1.book.policy e
  let rz := raised pol rs
  let noRes := rs.any resultNo
  let s3 := t.1.noteLookup i e p inj t.2.2.1 r rz
  let h := s3.hostToken i rz
  let tag := h.2.map (fun x : Nat × Nat => (bits (pol x.1) 5 2, hostTag (pol x.1) x.1 x.2 p.second))
  let trapped := match rz with | some (_, a) => a == 1 | none => false
  let forwards := !noRes && (match rz with | some (_, a) => a == 2 | none => true)
  let d : Decision := { telem := r.telem, raised := rz.map (fun x => x.1) }
  if trapped then
    (h.1, { d with main := tag.map (fun x => ({ eport := 1088, cls := x.1 }, none)), trap := tag.map (fun x => x.2) })
  else if forwards then h.1.forwardFrame i p inj r f { d with copy := tag }
  else (h.1, { d with copy := tag })

/-- The forwarding context a frame would get now, read without any effect (R147). -/
def State.preview (s : State) (i e : Nat) (p : Parse) : Option Ctx :=
  (s.decideFrame i e p true).2.main.map (fun x => x.1)

end Sys2Proof.Machine
end

