-- ==== Sys2Proof/Machine/Profiles.lean ====
section
/-!
DEFINITION. Records of volumes 8, 9 and 11 as the egress and the phase scheduler read them, and what a
change of the Book's active sides does to buckets, gate lists and the schedule (R96, R203 to R206,
R213, R214, R220, R221, R224, R335).
-/

namespace Sys2Proof.Machine

/-- Carry every shaper over a change of records from state `s0` to `s` (R214). -/
def State.reshape (s s0 : State) : State :=
  let w0 := s0.book.current
  let w1 := s.book.current
  let t := s.elapsed
  let s1 := ((List.range 17456).filter (fun q => shaperDiffers w0 w1 (queueShaper w0 q) (queueShaper w1 q))).foldl
    (fun s q => s.modQueue q (fun x => { x with
      shaper := shaperChange w0 w1 (queueShaper w0 q) (queueShaper w1 q) x.shaper t })) s
  ((List.range 1091).filter (fun p => shaperDiffers w0 w1 (portShaper w0 p) (portShaper w1 p))).foldl
    (fun s p => s.modEport p (fun x => { x with
      shaper := shaperChange w0 w1 (portShaper w0 p) (portShaper w1 p) x.shaper t })) s1

/-- Queues keep the tags they had under the records of `s0`: a new COST is for the next tag (R206, R209). -/
def State.keepTags (s s0 : State) : State := s0.queues.foldl (fun s e => s.setTag e.1 (s0.tagFor e.1)) s

/-! ### Gate lists (R221, R224) -/

/-- Header `n` of volume 9: BASE, CYCLE, COUNT and ENTRY_OFF. -/
def gclHeader (w : BookView) (n : Nat) : Nat × Nat × Nat × Nat :=
  (w 9 (32 * n), bookField w 9 (32 * n + 8) 4, bookField w 9 (32 * n + 12) 2, bookField w 9 (32 * n + 16) 4)

/-- Gate list `n` with its entries (gates, interval); an interval below 8 acts as 8 (R221). -/
def gclRead (w : BookView) (n : Nat) : GateList :=
  let h := gclHeader w n
  { num := n, base := h.1, cycle := h.2.1, off := h.2.2.2
    entries := (List.range h.2.2.1).map (fun i =>
      let e := w 9 (h.2.2.2 + 8 * i)
      (bits e 15 0, max 8 (bits e 47 16))) }

/-- Begin loading a port's list (R224). -/
def State.startGclLoad (s : State) (p : Nat) : State :=
  let n := portGcl s.book.current p
  let e := s.eport p
  if n = 0 ∧ e.gate = none ∧ e.pendGate = none ∧ e.loadGate = none then s
  else s.modEport p (fun e => { e with loadGate := some n })

/-- Begin loading the lists of every front-panel port (R224). -/
def State.startGclLoads (s : State) : State :=
  ((List.range 1024).filter s.portExists).foldl State.startGclLoad s

/-! ### The phase schedule (R335) -/

def schedBase (w : BookView) : Nat := w 11 0
def schedCycle (w : BookView) : Nat := w 11 8
def schedCount (w : BookView) : Nat := bookField w 11 16 2
def schedOffset (w : BookView) (i : Nat) : Nat := w 11 (0x40 + 16 * i)
def schedPhase (w : BookView) (i : Nat) : Nat := w 11 (0x48 + 16 * i) % 8

/-- The first entry that breaks a rule of R335, if any. -/
def schedFault (w : BookView) : Option Nat :=
  if 64 < schedCount w then some 64
  else (List.range (schedCount w)).find? (fun i =>
    (decide (0 < i) && decide (schedOffset w i ≤ schedOffset w (i - 1))) ||
      (decide (schedCycle w ≠ 0) && decide (schedCycle w ≤ schedOffset w i)))

/-- Entries that fall due at or before device time `t`, counted over all cycles. -/
def schedDue (w : BookView) (t : Nat) : Nat :=
  let d := t - schedBase w
  let upTo := fun x => ((List.range (schedCount w)).filter (fun i => schedOffset w i ≤ x)).length
  if t < schedBase w then 0
  else if schedCycle w = 0 then upTo d
  else d / schedCycle w * schedCount w + upTo (d % schedCycle w)

/-- `POWER_CFG.SCHED_EN` in force (R349). -/
def State.schedEn (s : State) : Bool := rbit (s.inForce A.powerCfg) 28

/-- Take the schedule from the active side: refused whole, or installed with nothing applied (R335). -/
def State.installSchedule (s : State) : State :=
  let w := s.book.current
  match schedFault w with
  | some i =>
    (({ s with power := { s.power with schedOn := false } }).orReg A.powerStat (2 ^ 30)).post 0x42 0 i []
  | none =>
    { s with power := { s.power with
      schedOn := decide (0 < schedCount w), schedLast := schedDue w s.nowNs } }

/-! ### After a change of the active sides -/

/-- Meters whose record differs between two states. -/
def changedMeters (s0 s : State) : List Nat :=
  (List.range 16384).filter (fun m => meterRec s0.book.current m ≠ meterRec s.book.current m)

/-- What follows a change of the active sides of the volumes `vs` from `s0` to `s`: buckets of policies,
meters and shapers keep their contents, and the schedule is taken again (R96, R206, R214, R220, R335).
`full`: the first turn whose mask includes volume 0. -/
def State.afterBook (s s0 : State) (vs : List Nat) (full : Bool) : State :=
  let s1 := if vs.contains 0 then s.repolicy s0 full squares else s
  let s2 := if vs.contains 8 then
      let ms := changedMeters s0 s
      ((squares.foldl (fun s i => s.remeter s0 i ms) s1).reshape s0).keepTags s0
    else s1
  if vs.contains 11 then s2.installSchedule else s2

end Sys2Proof.Machine
end

