-- ==== Sys2Proof/Machine/BookCmds.lean ====
section
/-!
DEFINITION. Table writes, turns, book images, the learn engine, the sweeper, the fragment sweep, ECC
repair and scrubbing (R90, R125 to R138, R144, R293, R294).
-/

namespace Sys2Proof.Machine

/-! ### Table writes (R130, R131, R294) -/

/-- Page word index of byte offset `o` of volume `v` (R104, R139). -/
def pageWord (m : SMap Nat) (v o : Nat) : Nat := 512 * mapBase m v + o / 8

/-- Area (0 side A, 1 side B) of a side of volume `v`. -/
def Book.areaOf (b : Book) (v : Nat) (standby : Bool) : Nat := b2n (xor (bit b.sideB v) standby)

/-- The words of an area from `lo` on, `n` of them, are written: they are good again in every replica (R138). -/
def Book.clearArea (b : Book) (area lo n : Nat) : Book :=
  { b with badWords := b.badWords.filter (fun e =>
      !(e.1 / 2 ^ 22 % 4 == area && decide (lo ≤ e.1 % 2 ^ 22 ∧ e.1 % 2 ^ 22 < lo + n))) }

/-- A word written by the host is good again in every replica (R138). -/
def Book.clearBad (b : Book) (area word : Nat) : Book :=
  { b with badWords := (List.range 8).foldl (fun m j =>
      SMap.set (fun _ => false) m (eccKey { replica := j, area := area, word := word }) false) b.badWords }

/-- The map a side is laid out under: a new map that waits for its turn rules the standby sides. -/
def Book.sideMap (b : Book) (standby : Bool) : SMap Nat := if standby then b.newMap.getD b.map else b.map

/-- Write one word of a side in all replicas. -/
def Book.putWord (b : Book) (v : Nat) (standby : Bool) (o : Nat) (x : W64) : Book :=
  let b1 := b.clearBad (b.areaOf v standby) (pageWord (b.sideMap standby) v o)
  if standby then { b1 with standby := SMap.set (fun _ => 0) b1.standby (bookKey v (o / 8)) x }
  else { b1 with active := SMap.set (fun _ => 0) b1.active (bookKey v (o / 8)) x }

/-- Pair `k` of a write-group block. -/
def groupOff (bs : List Byte) (k : Nat) : Nat := leAt bs (8 + 16 * k) 8
def groupWord (bs : List Byte) (k : Nat) : W64 := BitVec.ofNat 64 (leAt bs (16 + 16 * k) 8)

/-- Ports whose record a group on the active side of volume 8 reaches. -/
def groupPorts (bs : List Byte) : List Nat :=
  ((List.range (leAt bs 2 1)).map (groupOff bs)).filterMap (fun o =>
    if 0xB2180 ≤ o ∧ o < 0xB2180 + 8 * 1024 then some ((o - 0xB2180) / 8) else none)

/-- Apply a checked write group (R130). -/
def State.applyGroup (s : State) (bs : List Byte) : State :=
  let v := leAt bs 0 1
  let sb := leAt bs 1 1 == 1
  let b := (List.range (leAt bs 2 1)).foldl (fun b k => b.putWord v sb (groupOff bs k) (groupWord bs k)) s.book
  if sb then { s with book := { b with loaded := setBit b.loaded v true } }
  else
    let s1 := ({ s with book := b }).afterBook s [v] false
    if v = 9 then s1.startGclLoads
    else if v = 8 then ((groupPorts bs).filter s1.portExists).foldl State.startGclLoad s1
    else s1

/-- Check and apply a write group: the state and the status (R130, R294). -/
def State.writeGroup (s : State) (bs : List Byte) : State × Nat :=
  let v := leAt bs 0 1
  let side := leAt bs 1 1
  let n := leAt bs 2 1
  let offs := (List.range n).map (groupOff bs)
  if n = 0 ∨ 32 < n ∨ 1 < side ∨ leAt bs 3 5 ≠ 0 ∨ bs.length < 8 + 16 * n ∨ offs.any (fun o => o % 8 ≠ 0) then
    (s, stInvalid)
  else if 13 ≤ v ∨ offs.any (fun o => 4096 * mapSize (s.book.sideMap (side == 1)) v ≤ o) then (s, stTarget)
  else if side = 1 ∧ s.book.old.isSome then (s, stBusy)
  else (s.applyGroup bs, stOk)

/-- BOOK_WRITE (R130, R293, R294). -/
def execBookWrite (c : Cmd) (block : HostRead) (s : State) : Host.Outcome State Fault Refusal :=
  gated s (runCmd 0x20 c (p1Below c 0 && p2Below c 0)
    (withBlock c block fun bs s =>
      let r := s.writeGroup bs
      .ret r.1 r.2 0))

/-! ### Turns (R132 to R134) -/

/-- Entry of a Tour in a view of volume 10 (R143). -/
def tourEntry (w : BookView) (x t k i : Nat) : Nat :=
  bookField w 10 (0x40 + 12288 * x + 192 * t + 64 * k + i) 1

/-- Square `i` is inactive in Tour `x` (R144). -/
def tourInactive (w : BookView) (x i : Nat) : Bool := bit (w 10 8) i || decide (x = i + 1)

/-- Active squares of a Tour. -/
def tourActive (w : BookView) (x : Nat) : List Nat := (List.range 64).filter (fun i => !tourInactive w x i)

/-- Rule 1 of R144 for one row. -/
def rowOk (w : BookView) (x t k : Nat) : Bool :=
  let act := tourActive w x
  let ps := act.map (fun i => bits (tourEntry w x t k i) 5 0)
  (List.range 64).all (fun i => bit (tourEntry w x t k i) 7 == tourInactive w x i && !bit (tourEntry w x t k i) 6) &&
    ps.all (fun p => act.contains p) && decide ps.Nodup

/-- Slots in which Tour `x` pairs `i` with `j`, in rising order, one for each channel that does. -/
def pairSlots (w : BookView) (x i j : Nat) : List Nat :=
  (List.range 64).flatMap (fun t => ((List.range 3).filter (fun k =>
    tourEntry w x t k i % 64 == j && !bit (tourEntry w x t k i) 7)).map (fun _ => t))

/-- Cyclic distances between consecutive slots are at most `g` (rule 3). -/
def gapsOk (g : Nat) (ts : List Nat) : Bool :=
  match ts with
  | [] => false
  | t :: _ => ((ts ++ [t + 64]).zip (ts.drop 1 ++ [t + 64, t + 64])).all (fun e => decide (e.2 ≤ e.1 + g))

/-- Rules 2 and 3 of R144 for one Tour. -/
def pairsOk (w : BookView) (x : Nat) : Bool :=
  let act := tourActive w x
  let exact := decide (x = 0) && w 10 8 == 0
  act.all (fun i => act.all (fun j =>
    let ts := pairSlots w x i j
    decide (3 ≤ ts.length) && (!exact || ts.length == 3) && (i == j || gapsOk (bookField w 10 2 1) ts)))

/-- The checks of a turn that names volume 10 (R144). -/
def tourOk (w : BookView) : Bool :=
  bookField w 10 0 2 == 65 && decide (1 ≤ bookField w 10 2 1 ∧ bookField w 10 2 1 ≤ 24) &&
  w 10 0 / 2 ^ 24 == 0 && (List.range 6).all (fun i => w 10 (16 + 8 * i) == 0) &&
  (List.range 65).all (fun x =>
    (List.range 64).all (fun t => (List.range 3).all (rowOk w x t)) && pairsOk w x) &&
  (bitList (w 10 8) 64).all (fun x => (List.range 1536).all (fun i =>
    w 10 (0x40 + 12288 * (x + 1) + 8 * i) == w 10 (0x40 + 8 * i)))

/-- A new map that waits is turned to as a whole: the mask names every volume that has a SIZE in either
map (R106). -/
def Book.mapRule (b : Book) (mask : Nat) : Bool :=
  match b.newMap with
  | none => true
  | some m => (List.range 16).all (fun v => (mapSize b.map v == 0 && mapSize m v == 0) || bit mask v)

/-- The checks of a commit other than those that answer BUSY (R133, R144). -/
def Book.turnValid (b : Book) (mask : Nat) : Bool :=
  decide (mask ≠ 0) && decide (mask < 2 ^ 13) && (bitList mask 16).all (fun v => bit b.loaded v) &&
    b.mapRule mask && (!bit mask 10 || tourOk b.standbyView)

/-- Keep the entries of `a` for volumes outside the mask and those of `b` for volumes in it. -/
def mixSides (mask : Nat) (a b : SMap W64) : SMap W64 :=
  (b.filter (fun e => bit mask (e.1 / 4194304))).foldl (fun m e => SMap.insert m e.1 e.2)
    (a.filter (fun e => !bit mask (e.1 / 4194304)))

/-- The swap of a committed turn (R133): the named volumes change sides, the epoch advances and the old
one stays live. -/
def Book.swap (b : Book) (t : Turn) (now : Tick) : Book :=
  { b with
    active := mixSides t.mask b.active b.standby
    standby := mixSides t.mask b.standby b.active
    map := b.newMap.getD b.map, newMap := none, oldMap := b.map
    sideB := (bitList t.mask 16).foldl (fun m v => setBit m v (!bit m v)) b.sideB
    loaded := (bitList t.mask 16).foldl (fun m v => setBit m v false) b.loaded
    epoch := t.epoch, turn := none, turned := true
    old := some { epoch := b.epoch, mask := t.mask, swapAt := now }
    policyFrom := if bit t.mask 0 && b.policyFrom.isNone then some t.epoch else b.policyFrom }

/-- A committed turn is due: its activation time is 0 or has come (R133). -/
def State.turnDue (s : State) : Bool :=
  match s.book.turn with
  | some t => t.act == 0 || decide (t.act ≤ s.nowNs)
  | none => false

/-- Make the swap of a due turn with what follows it (R96, R133, R220, R224, R335). -/
def State.swapTurn (s : State) : State :=
  match s.book.turn with
  | none => s
  | some t =>
    let first := bit t.mask 0 && s.book.policyFrom.isNone
    let s1 := ({ s with book := s.book.swap t s.elapsed }).afterBook s (bitList t.mask 16) first
    if bit t.mask 8 || bit t.mask 9 then s1.startGclLoads else s1

/-- Commit a turn: the state and the status (R133). Before the mesh starts there is no boundary: a due
turn that does not name volume 10 swaps as it commits.
DEDUCED, unsafe (log entry 39). DEDUCED, unsafe (log entry 40). -/
def State.commitTurn (s : State) (mask act : Nat) : State × Nat :=
  if s.book.turn.isSome ∨ s.book.old.isSome then (s, stBusy)
  else if !s.book.turnValid mask then (s, stInvalid)
  else
    let s1 := { s with book := { s.book with
      turn := some { epoch := (s.book.epoch + 1) % 256, mask := mask, act := act } } }
    (if !s1.tour.running && !bit mask 10 && s1.turnDue then s1.swapTurn else s1, stOk)

/-- BOOK_TURN (R133, R293). -/
def execBookTurn (c : Cmd) (s : State) : Host.Outcome State Fault Refusal :=
  gated s (runCmd 0x21 c (p0Below c 16 && p2Below c 0) fun s =>
    let r := s.commitTurn c.p0.toNat c.p1.toNat
    .ret r.1 r.2 0)

/-- Headers of the frames that wait for their second pass: in cells for a recirculation port, in its queues and its
crossing, in transmission there, recirculated, and in the crossing towards the core until their lookup. -/
def State.secondHdrs (s : State) : List FrameHdr :=
  let recirc (p : Nat) : Bool := decide (1024 ≤ p ∧ p < 1088)
  let starts (cs : List RawCell) : List FrameHdr := cs.flatMap (fun c => c.segs.filterMap (fun g => g.hdr))
  s.sqs.flatMap (fun q =>
    cellFrames ((q.2.cells.filter (fun c => recirc c.2.ctx.eport && c.2.st != .released)).map (fun c => c.2)) ++
    q.2.recirc.map (fun f => { f.hdr with second := some f.sm }) ++
    (starts (SMap.get (fun _ => []) q.2.xing 4 ++ SMap.get (fun _ => []) q.2.backlog 4)).filter (fun h =>
      !thas q.2.verdicts h.fid)) ++
  (s.queues.filter (fun q => recirc (q.1 / 16))).flatMap (fun q => q.2.frames.map (fun f => f.hdr)) ++
  (s.eports.filter (fun e => recirc e.1)).flatMap (fun e => (e.2.tx.map (fun t => t.hdr)).toList)

/-- Frames stamped with epoch `e` that wait for their second-pass lookup, wherever they are (R101, R134). -/
def State.waitSecond (s : State) (e : Nat) : Nat :=
  (((s.secondHdrs.filter (fun h => (h.second.map (fun m => m.epoch)) == some e)).map (fun h => h.fid)).eraseDups).length

/-- EPOCH_RETIRE (R134): when no frame waits with the old epoch, or 100 µs after the swap. -/
def execEpochRetire (s : State) : Host.Outcome State Fault Refusal :=
  gated s fun s =>
    match s.book.old with
    | none => s
    | some x =>
      let n := s.waitSecond x.epoch
      if n = 0 ∨ x.swapAt + usT 100 ≤ s.elapsed then
        ({ s with book := { s.book with
            old := none, oldMap := [], lastOld := x.epoch
            policyFrom := s.book.policyFrom.map (fun _ => 256) } }).post 2 0 s.book.epoch
          (leBytes 2 x.mask ++ leBytes 2 0 ++ leBytes 4 n)
      else s

/-! ### The book image (R106, R107, R136, R137) -/

/-- Volume map of a KIND 0 section: 16 words in the format of `BOOK_VOLMAP[v]`. -/
def imageMap (bs : List Byte) (o : Nat) : SMap Nat :=
  (List.range 16).foldl (fun m v =>
    let x := leAt bs (o + 4 * v) 4
    SMap.set (fun _ => 0) m v (bits x 28 16 * 65536 + bits x 12 0)) []

/-- The regions of a map do not overlap, fit in 24 MiB, and give reserved volumes nothing (R106). -/
def mapOk (m : SMap Nat) : Bool :=
  decide (((List.range 16).map (mapSize m)).sum ≤ 6144) &&
  (List.range 16).all (fun v =>
    (mapSize m v == 0 || decide (v < 13 ∧ mapBase m v + mapSize m v ≤ 6144)) &&
    (List.range v).all (fun u => mapSize m v == 0 || mapSize m u == 0 ||
      decide (mapBase m v + mapSize m v ≤ mapBase m u ∨ mapBase m u + mapSize m u ≤ mapBase m v)))

/-- Section `i` of an image: KIND, VOLUME, reserved, OFFSET, LENGTH, DEST. -/
structure Section where
  kind : Nat
  vol : Nat
  rsvd : Nat
  off : Nat
  len : Nat
  dest : Nat
deriving DecidableEq, Repr

def imageSection (bs : List Byte) (i : Nat) : Section :=
  let o := 64 + 16 * i
  { kind := leAt bs o 1, vol := leAt bs (o + 1) 1, rsvd := leAt bs (o + 2) 2, off := leAt bs (o + 4) 4
    len := leAt bs (o + 8) 4, dest := leAt bs (o + 12) 4 }

def imageSections (bs : List Byte) : List Section := (List.range (leAt bs 10 2)).map (imageSection bs)
def imageMask (bs : List Byte) : Nat := leAt bs 16 4

/-- The header and CRC of an image of `len` bytes (R136). DEDUCED, unsafe (log entry 38). -/
def imageHeaderOk (bs : List Byte) (len : Nat) : Bool :=
  decide (64 ≤ bs.length ∧ bs.length = len) &&
  leAt bs 0 4 == 0x4B42564D && leAt bs 4 2 == 1 && leAt bs 6 2 == 64 && leAt bs 8 2 == 0x4C10 &&
  decide (1 ≤ leAt bs 10 2 ∧ leAt bs 10 2 ≤ 64 ∧ 64 + 16 * leAt bs 10 2 ≤ bs.length) && leAt bs 12 4 == len &&
  decide (imageMask bs < 2 ^ 13) && (slice bs 32 32).all (fun b => b == 0) &&
  leAt bs 20 4 == crc32c (patch bs 20 [0, 0, 0, 0])

/-- The new map an image carries, if any: its last KIND 0 section. -/
def imageNewMap (bs : List Byte) : Option (SMap Nat) :=
  ((imageSections bs).reverse.find? (fun x => x.kind == 0)).map (fun x => imageMap bs x.off)

/-- One section against R106 and VOL_MASK, under the map that will hold. -/
def sectionOk (bs : List Byte) (m : SMap Nat) (x : Section) : Bool :=
  x.rsvd == 0 && x.len % 8 == 0 &&
  (if x.kind = 0 then x.len == 64 && x.off % 8 == 0 && decide (x.off + 64 ≤ bs.length) && mapOk (imageMap bs x.off) &&
      (List.range 16).all (fun v => leAt bs (x.off + 4 * v) 4 &&& 0xE000E000 == 0)
   else decide (x.kind ≤ 2 ∧ x.vol < 13) && bit (imageMask bs) x.vol && x.dest % 8 == 0 &&
      decide (x.dest + x.len ≤ 4096 * mapSize m x.vol) &&
      (x.kind == 2 || (x.off % 8 == 0 && decide (x.off + x.len ≤ bs.length))))

/-- Apply one section to the standby sides. -/
def applySection (bs : List Byte) (side : SMap W64) (x : Section) : SMap W64 :=
  if x.kind = 0 then side
  else (List.range (x.len / 8)).foldl (fun m i =>
    SMap.set (fun _ => 0) m (bookKey x.vol ((x.dest + 8 * i) / 8))
      (if x.kind = 1 then BitVec.ofNat 64 (leAt bs (x.off + 8 * i) 8) else 0)) side

/-- The standby sides before the sections: every volume of the mask, and every volume that a new map
moves, zero-filled (R137). -/
def Book.clearedStandby (b : Book) (bs : List Byte) : SMap W64 :=
  let m := b.newMap.getD b.map
  b.standby.filter (fun e =>
    let v := e.1 / 4194304
    !bit (imageMask bs) v && (match imageNewMap bs with
      | some n => SMap.get (fun _ => 0) n v == SMap.get (fun _ => 0) m v
      | none => true))

/-- Units that volumes 5 to 7 take at the limits of R107: 262,144 next hops, 1,048,576 members, 16,384 ACL entries. -/
def sizesOk (m : SMap Nat) : Bool :=
  decide (mapSize m 5 ≤ cdiv (2048 + 16 * 262144) 4096 ∧ mapSize m 6 ≤ cdiv (64 + 131072 + 4 * 1048576) 4096 ∧
    mapSize m 7 ≤ 96 * 16384 / 4096)

/-- The group records of volume 6 that a side holds: 512 members each at most, all within the 1,048,576 (R107, R118). -/
def groupsOk (w : BookView) (side : SMap W64) : Bool :=
  let g0 := bookField w 6 8 4 / 8
  side.all (fun e =>
    let k := e.1 % 4194304
    let g := e.2.toNat
    !(e.1 / 4194304 == 6 && decide (g0 ≤ k ∧ k < g0 + 16384)) ||
      decide (bits g 29 20 ≤ 512 ∧ bits g 19 0 + bits g 29 20 ≤ 1048576))

/-- The limits of R107 on tables whose parameters lie in the loaded volumes. DEDUCED, unsafe (log entry 112). -/
def limitsOk (w : BookView) (m : SMap Nat) (side : SMap W64) (mask : Nat) : Bool :=
  sizesOk m && (!bit mask 6 || groupsOk w side) &&
  (!(bit mask 2 || bit mask 3) || (decide (bookField w 2 8 4 + 2 * bookField w 3 8 4 ≤ 1048576) &&
    decide (bookField w 2 12 1 ≤ 20 ∧ bookField w 3 12 1 ≤ 20))) &&
  (!bit mask 4 || (decide (bookField w 4 8 4 + 2 * bookField w 4 0x20 4 ≤ 1048576) &&
    decide (bookField w 4 12 1 ≤ 20 ∧ bookField w 4 0x24 1 ≤ 20)))

/-- Check and load a book image: the state and the status (R137). -/
def State.loadImage (s : State) (bs : List Byte) (len : Nat) : State × Nat :=
  let b := s.book
  if b.old.isSome ∨ b.turn.isSome then (s, stBusy)
  else
    let m0 := b.newMap.getD b.map
    let m := (imageNewMap bs).getD m0
    let side := (imageSections bs).foldl (applySection bs) (b.clearedStandby bs)
    let view : BookView := fun v o =>
      if bit (imageMask bs) v then bookAt side m v o else b.current v o
    if imageHeaderOk bs len && (imageSections bs).all (sectionOk bs m) && limitsOk view m side (imageMask bs) then
      let moved := fun v => SMap.get (fun _ => 0) m v ≠ SMap.get (fun _ => 0) m0 v
      let b1 := (((List.range 16).filter (fun v => bit (imageMask bs) v || decide (moved v))).foldl (fun b v =>
        b.clearArea (b.areaOf v true) (512 * mapBase m v) (512 * mapSize m v)) b)
      ({ s with book := { b1 with
          standby := side
          newMap := match imageNewMap bs with | some n => some n | none => b.newMap
          loaded := (List.range 16).foldl (fun l v =>
            if bit (imageMask bs) v then setBit l v true else if moved v then setBit l v false else l) b.loaded } },
        stOk)
    else
      ({ s with book := { b with loaded := (List.range 16).foldl (fun l v =>
          if bit (imageMask bs) v then setBit l v false else l) b.loaded } }, stInvalid)

/-- BOOK_LOAD (R137, R293). -/
def execBookLoad (c : Cmd) (image : HostRead) (s : State) : Host.Outcome State Fault Refusal :=
  gated s (runCmd 0x22 c (p1Below c 0)
    (withBlock c image fun bs s =>
      let r := s.loadImage bs c.p2.toNat
      .ret r.1 r.2 0))

/-! ### The learn engine (R127 to R129) -/

/-- `BOOK_LEARN_CFG` and `BOOK_AGE_CFG` as latched (R139): the hold in µs, the period in s. -/
def State.moveHold (s : State) : Nat := 1000 * min 1000 (fld (s.inForce A.bookLearnCfg) 9 0)
def State.agePeriod (s : State) : Nat := min 4000 (fld (s.inForce A.bookAgeCfg) 11 0)

/-- The last move of an entry was applied less than MOVE_HOLD ago (R127, R128). -/
def State.inHold (s : State) (x : LearnEnt) : Bool :=
  x.moved && decide (s.sinceUs x.moveT < s.moveHold)

/-- A notification of the learn engine (R129, R296). DEDUCED, unsafe (log entry 31). -/
def State.learnNote (s : State) (type : Nat) (key : W64) (port prev : Nat) : State :=
  if rbit (s.inForce A.bookLearnCfg) 31 then
    let ring := fld (s.inForce A.bookLearnCfg) 27 16
    let s1 := if s.evRoom ring then s else s.count (devCtr 3) 1
    s1.postAt ring type 0 0 (leBytes 8 key.toNat ++ leBytes 2 port ++ leBytes 2 prev) s1.nowNs
  else s

/-- Put an entry into the lowest empty way of its set, or nothing where none is empty. -/
def State.learnPut (s : State) (x : LearnEnt) : Option State :=
  ((List.range 4).find? (fun k => !thas s.book.learn (4 * learnSet x.key + k))).map (fun k =>
    let es := SMap.insert s.book.learn (4 * learnSet x.key + k) x
    let b := s.book.clearArea 2 (2 * (4 * learnSet x.key + k)) 2
    { s with book := { b with learn := es } })

/-- Write word 1 of an entry. -/
def State.learnMod (s : State) (idx : Nat) (f : LearnEnt → LearnEnt) : State :=
  let es := tmod s.book.learn idx f
  let b := s.book.clearArea 2 (2 * idx + 1) 1
  { s with book := { b with learn := es } }

/-- The set of a key is full: counted and notified (R127). -/
def State.learnFull (s : State) (key : W64) (port : Nat) : State :=
  (s.count (devCtr 0) 1).learnNote 0x24 key port 0

/-- Apply one event of the engine's rotation, with the status that a host's insert returns (R127, R129); `static`: a host
insert that sets STATIC. The flapping notification names the port of the refused event. A host's insert makes the same
notifications as a square's event. DEDUCED, unsafe (log entry 113). -/
def State.applyLearn (s : State) (key : W64) (port : Nat) (static : Bool) : State × Nat :=
  match s.learnFind key with
  | none =>
    match s.learnPut { key := key, port := port, static := static } with
    | some s1 => (s1.learnNote 0x20 key port 0, stOk)
    | none => (s.learnFull key port, stNoSpace)
  | some (idx, x) =>
    if x.port = port then (if static then s.learnMod idx (fun y => { y with static := true }) else s, stOk)
    else if x.static then (s.count (devCtr 1) 1, stBusy)
    else if s.inHold x then
      let s1 := (s.count (devCtr 2) 1).learnMod idx (fun y => { y with flap := true })
      (if x.flap then s1 else s1.learnNote 0x23 key port 0, stBusy)
    else
      ((s.learnMod idx (fun y => { y with
        port := port, static := static, moved := true, moveT := s.nowUs32, flap := false })).learnNote 0x21 key port x.port,
        stOk)

/-- Remove the learn-cache entries that `f` names. -/
def State.learnErase (s : State) (f : LearnEnt → Bool) : State :=
  let b := (s.book.learn.filter (fun e => f e.2)).foldl (fun b e => b.clearArea 2 (2 * e.1) 2) s.book
  let es := s.book.learn.filter (fun e => !f e.2)
  { s with book := { b with learn := es } }

/-- Apply a host learn command: the state, the status, and whether an entry was found (R129, R293). An insert of an
absent key posts a learned notification, as a square's event does. DEDUCED, unsafe (log entry 113). -/
def State.applyLearnCmd (s : State) (c : LearnCmd) : State × Nat × Bool :=
  match c.op with
  | 0 =>
    let r := s.applyLearn c.key c.port c.static
    (r.1, r.2, (s.learnFind c.key).isSome)
  | 1 => (s.learnErase (fun x => x.key == c.key), stOk, (s.learnFind c.key).isSome)
  | 2 => (s.learnErase (fun x => !x.static), stOk, s.book.learn.any (fun e => !e.2.static))
  | _ => (s.learnErase (fun x => x.port == c.port), stOk, s.book.learn.any (fun e => e.2.port == c.port))

/-- The source after the one served last that has work, in rotating order (R127). -/
def State.learnNext (s : State) : Option Nat :=
  ((List.range 65).map (fun d => (s.book.learnRot + 1 + d) % 65)).find? (fun k =>
    if k = 64 then !s.book.learnCmds.isEmpty else !(s.sq k).learnQ.isEmpty)

/-- LEARN_EVENT_APPLY (R127, R129). -/
def execLearnEventApply (s : State) : Host.Outcome State Fault Refusal :=
  gated s fun s =>
    if s.isOff 7 0 then s
    else match s.learnNext with
      | none => s
      | some k =>
        let s1 := { s with book := { s.book with learnRot := k } }
        if k = 64 then
          match s.book.learnCmds with
          | c :: cs =>
            let r := ({ s1 with book := { s1.book with learnCmds := cs } }).applyLearnCmd c
            r.1.finishCmd c.ring c.tag r.2.1 (b2n r.2.2)
          | [] => s1
        else match (s.sq k).learnQ with
          | ev :: evs => ((s1.modSq k (fun q => { q with learnQ := evs })).applyLearn ev.key ev.port false).1
          | [] => s1

/-- A LEARN command joins the engine's rotation (R6, R15, R129, R293). An insert and a flush of a port name the port in
P1[10:0], which is judged before anything else; a delete and a flush of all entries name none, and the field is not
looked at. DESIGN CHOICE, unsafe (log entry 30). -/
def learnCmd (op : Nat) (c : Cmd) (s : State) : State :=
  runCmd 0x23 c (p1Below c 15 && bits c.p1.toNat 11 11 == 0 && p2Below c 0) (fun s =>
    let port := bits c.p1.toNat 10 0
    let names : Bool := op == 0 || op == 3
    if names && !s.portExists port then .ret s stTarget 0
    else if names && s.portUnreachable port then .ret s stUnreachable 0
    else if (op = 0 ∨ op = 1) ∧ c.p0.toNat % 16 ≠ 1 then .ret s stInvalid 0
    else if !s.isOn 7 0 then .ret s stBusy 0
    else
      let x : LearnCmd := { op := op, key := c.p0, port := port, static := bit c.p1.toNat 14
                            ring := c.ring, tag := c.tag, opcode := 0x23 }
      .later { s with book := { s.book with learnCmds := s.book.learnCmds ++ [x] } }) s

/-- LEARN_INSERT (R129). -/
def execLearnInsert (c : Cmd) (s : State) : Host.Outcome State Fault Refusal := gated s (learnCmd 0 c)
/-- LEARN_DELETE (R129). -/
def execLearnDelete (c : Cmd) (s : State) : Host.Outcome State Fault Refusal := gated s (learnCmd 1 c)
/-- LEARN_FLUSH_ALL (R129). -/
def execLearnFlushAll (c : Cmd) (s : State) : Host.Outcome State Fault Refusal := gated s (learnCmd 2 c)
/-- LEARN_FLUSH_PORT (R129). -/
def execLearnFlushPort (c : Cmd) (s : State) : Host.Outcome State Fault Refusal := gated s (learnCmd 3 c)

/-- The sweeper's period: 100 s where nothing ages (R128). -/
def State.sweepPeriod (s : State) : Tick := secT (if s.agePeriod = 0 then 100 else s.agePeriod)

/-- A visit of the sweeper to an entry is due: a period has passed since the one before (R128). -/
def State.sweepDue (s : State) (entry : Nat) : Bool :=
  match tget s.book.sweptAt entry with
  | some t => decide (t + s.sweepPeriod ≤ s.elapsed)
  | none => true

/-- AGE_SWEEP_VISIT (R128, R129): once per period for each entry. DEDUCED, unsafe (log entry 114). -/
def execAgeSweepVisit (entry : Nat) (s : State) : Host.Outcome State Fault Refusal :=
  gated s fun s =>
    if !s.isOn 7 0 || !s.sweepDue entry then s
    else
      let at_ := SMap.insert s.book.sweptAt entry s.elapsed
      let s := { s with book := { s.book with sweptAt := at_ } }
      match tget s.book.learn entry with
      | none => s
      | some x =>
        let s1 := s.learnMod entry (fun y => { y with hit := 0, moved := s.inHold y })
        if s.agePeriod = 0 ∨ x.static then s1
        else if x.hit ≠ 0 then s1.learnMod entry (fun y => { y with idle := false })
        else if !x.idle then s1.learnMod entry (fun y => { y with idle := true })
        else
          let es := SMap.erase s1.book.learn entry
          ({ s1 with book := { s1.book with learn := es } }).learnNote 0x22 x.key x.port 0

/-! ### Fragment sweep (R90) -/

/-- FRAG_SWEEP (R90). -/
def execFragSweep (sq : Nat) (s : State) : Host.Outcome State Fault Refusal :=
  gated s fun s => s.modSq sq (fun q => { q with frag := q.frag.filter (fun e => !s.fragOld sq e.2) })

/-! ### ECC (R138) -/

/-- The word is bad in replica `j`. -/
def State.wordBad (s : State) (h : EccHit) (j : Nat) : Bool :=
  SMap.get (fun _ => false) s.book.badWords (eccKey { h with replica := j })

/-- The replica a repair copies from: j xor 1, else the lowest-numbered good one. -/
def State.repairSource (s : State) (h : EccHit) : Option Nat :=
  if !s.wordBad h (h.replica ^^^ 1) then some (h.replica ^^^ 1)
  else (List.range 8).find? (fun j => !s.wordBad h j)

/-- BOOK_ECC_REPAIR (R138): the bad word is rewritten from the source; a word bad in all 8 replicas stays
bad and is reported. -/
def execBookEccRepair (hit : EccHit) (source : Option Nat) (s : State) : Host.Outcome State Fault Refusal :=
  gated s fun s =>
    if s.wordBad hit hit.replica && decide (s.repairSource hit = source) then
      match source with
      | none => s.faultEvent 15
      | some _ =>
        let s1 := s.setBadWord (eccKey hit) false
        if hit.area = 2 then
          let es := tmod s1.book.learn (hit.word / 2) (fun y => { y with hit := setBit y.hit (hit.replica % 8) true })
          { s1 with book := { s1.book with learn := es } }
        else s1
    else s

/-- BOOK_SCRUB (R138): a visit that meets 0, 1 or 2 wrong bits. -/
def execBookScrub (hit : EccHit) (bits : Nat) (s : State) : Host.Outcome State Fault Refusal :=
  gated s fun s =>
    if bits = 0 then s
    else if bits = 1 then s.eccSbe hit
    else s.eccUe hit

end Sys2Proof.Machine
end

