-- ==== Sys2Proof/Machine/Pfc.lean ====
section
/-!
DEFINITION. Lossless frames held at an ingress square, PFC as it is sent, and the discard of held frames
(R187 to R190, R196).
-/

namespace Sys2Proof.Machine

/-! ### Thresholds (R188, R190, R201) -/

/-- XOFF, XON, HEADROOM and the TX_EN bits that count of a front-panel port (R188, R190, R201). -/
def State.pfcXoff (s : State) (p : Nat) : Nat := atLeast1 (fld (s.inForce (A.pfcThr (p / 16) (p % 16))) 13 0)
def State.pfcXon (s : State) (p : Nat) : Nat :=
  min (fld (s.inForce (A.pfcThr (p / 16) (p % 16))) 29 16) (s.pfcXoff p - 1)
def State.pfcHeadroom (s : State) (p : Nat) : Nat := fld (s.inForce (A.pfcCfg (p / 16) (p % 16))) 13 0
def State.pfcTxEn (s : State) (p k : Nat) : Bool :=
  rbit (s.inForce (A.pfcCfg (p / 16) (p % 16))) (16 + k) && s.losslessPri k

/-- XOFF time (R189). -/
def State.quanta (s : State) : Nat := atLeast1 (fld (s.inForce A.bufPfc) 15 0)

/-! ### Held cells (R187, R188) -/

/-- Cells of a square that belong to held frames: those numbered and those still deferred. -/
def Sq.heldAll (q : Sq) : List Nat :=
  q.heldCells ++ q.ctxIn.flatMap (fun x => (x.2.deferred.filter (fun d => d.held)).flatMap (fun d => d.cells))

/-- The held cells of a square. -/
def Sq.heldList (q : Sq) : List Cell := q.heldAll.filterMap (tget q.cells)

/-- Frames of a front-panel port that start in cells held at its square for classes of priority `k`. -/
def State.heldFids (s : State) (p k : Nat) : List Nat :=
  (s.sq (p / 16)).heldList.flatMap (fun c =>
    if c.typ ≤ 1 ∧ s.priority c.ctx.cls = k then
      c.segs.filterMap (fun g => g.hdr.bind (fun h => if h.iport = p then some g.fid else none))
    else [])

/-- H: cells held from a port's frames of classes that map to priority `k` (R188). DEDUCED, unsafe (log entry 88). -/
def State.pfcH (s : State) (p k : Nat) : Nat :=
  let ids := s.heldFids p k
  ((s.sq (p / 16)).heldList.filter (fun c =>
    c.typ ≤ 1 && s.priority c.ctx.cls == k && c.segs.any (fun g => ids.contains g.fid))).length

def State.inXoff (s : State) (p k : Nat) : Bool :=
  SMap.get (fun _ => false) (s.sq (p / 16)).xoff (8 * (p % 16) + k)

/-! ### PFC frames (R189) -/

/-- A PFC frame without its FCS: priorities with their times, padded to 60 bytes (R189, log entry 68). -/
def State.pfcFrame (s : State) (pris : List (Nat × Nat)) : List Byte :=
  let time (k : Nat) : Nat := ((pris.find? (fun e => e.1 == k)).map (fun e => e.2)).getD 0
  beBytes 6 0x0180C2000001 ++ beBytes 6 (bits (s.book.current 5 0) 47 0) ++ beBytes 2 0x8808 ++ beBytes 2 0x0101 ++
    beBytes 2 ((pris.map (fun e => 2 ^ e.1)).sum) ++ (List.range 8).flatMap (fun k => beBytes 2 (time k)) ++
    List.replicate 26 0

/-- Send one PFC frame: the enabled priorities with their times (R189). -/
def State.sendPfc (s : State) (p : Nat) (pris : List (Nat × Nat)) : State :=
  if pris = [] ∨ !(s.link p).up then s
  else
    let s1 := { s with io := { s.io with pfc := (p, s.pfcFrame pris) :: s.io.pfc } }
    let s2 := pris.foldl (fun s e => s.countPort p (16 + e.1) 1) s1
    s2.modSq (p / 16) (fun q => { q with xoffAt := pris.foldl (fun m e =>
      SMap.set (fun _ => 0) m (8 * (p % 16) + e.1) (if e.2 = 0 then 0 else s.elapsed)) q.xoffAt })

/-- Priorities of a port in XOFF that are still at or above their threshold (R189). -/
def State.xoffPris (s : State) (p : Nat) : List Nat :=
  (List.range 8).filter (fun k => s.inXoff p k && decide (s.pfcXoff p ≤ s.pfcH p k))

/-- Priorities of a port that change, with the time each sends (R188, R189). -/
def State.pfcChanges (s : State) (p : Nat) : List (Nat × Nat) :=
  (List.range 8).filterMap (fun k =>
    if !s.inXoff p k && s.pfcTxEn p k && decide (s.pfcXoff p ≤ s.pfcH p k) then some (k, s.quanta)
    else if s.inXoff p k && decide (s.pfcH p k ≤ s.pfcXon p) then some (k, 0)
    else none)

/-- Enter XOFF and XON for one port; one frame carries every change (R188, R189). -/
def State.pfcPort (s : State) (p : Nat) : State :=
  let cs := s.pfcChanges p
  if cs = [] then s
  else
    (s.modSq (p / 16) (fun q => { q with
      xoff := cs.foldl (fun m e => SMap.set (fun _ => false) m (8 * (p % 16) + e.1) (e.2 ≠ 0)) q.xoff })).sendPfc p cs

/-- PFC of every front-panel port of a square. -/
def State.pfcSquare (s : State) (i : Nat) : State := (s.squarePorts i).foldl State.pfcPort s

/-! ### The discard of held frames (R196) -/

/-- Held cells of square `i` for queue `q`. -/
def State.heldFor (s : State) (i q : Nat) : List Nat :=
  (s.sq i).heldAll.filter (fun k =>
    match tget (s.sq i).cells k with
    | some c => 16 * c.ctx.eport + c.ctx.cls == q
    | none => false)

/-- Frames that start in the cells held at square `i` for queue `q`. -/
def State.heldFrames (s : State) (i q : Nat) : List FrameHdr :=
  cellFrames ((s.heldFor i q).filterMap (tget (s.sq i).cells))

/-- The frames and copies of a verdict, each with whether it is held. -/
def Verdict.outs (v : Verdict) : List (Ctx × FrameHdr × Bool) :=
  (v.main.map (fun m => (m.1, m.2, v.held))).toList ++ (v.copy.map (fun m => (m.1, m.2, v.copyHeld))).toList

/-- A square forgets the frames for queue `q` that `gone` names by their number and whether they are held: those that
still arrive have no further cells (R27, R196). -/
def Sq.dropFrames (x : Sq) (q : Nat) (gone : Nat → Bool → Bool) : Sq :=
  let hit (c : Ctx) (h : FrameHdr) (held : Bool) : Bool := 16 * c.eport + c.cls == q && gone h.fid held
  let ids := (x.verdicts.flatMap (fun v => v.2.outs)).filterMap (fun o =>
    if hit o.1 o.2.1 o.2.2 then some o.2.1.fid else none)
  let drop (v : Verdict) : Verdict :=
    { v with main := v.main.filter (fun m => !hit m.1 m.2 v.held), copy := v.copy.filter (fun m => !hit m.1 m.2 v.copyHeld) }
  { x with
    verdicts := x.verdicts.map (fun v => (v.1, drop v.2))
    staging := x.staging.filter (fun t => !ids.contains t.fid)
    ctxIn := SMap.upd (fun _ => {}) x.ctxIn q (fun c => { c with
      deferred := c.deferred.filter (fun d => !gone d.fid d.held), owner := c.owner.filter (fun f => !ids.contains f) }) }

/-- Discard the frames held at square `i` for queue `q`, counted in word `w` of its queue set (R196): their cells are
freed at once, and H falls (R188). -/
def State.discardHeld (s : State) (i q w : Nat) : State :=
  let hs := s.heldFrames i q
  let s1 := ((s.heldFor i q).foldl (fun s k => s.freeByHeader i k) s).modSq i (fun x => x.dropFrames q (fun _ held => held))
  (hs.foldl (fun s h => s.reportTx h 11 0) (s1.count (queueCtr q w) hs.length)).pfcSquare i

end Sys2Proof.Machine
end

