-- ==== Sys2Proof/Machine/Links.lean ====
section
/-!
DEFINITION. Lanes, links, error seconds and the management port's link (R39 to R73, R195, R196).
-/

namespace Sys2Proof.Machine

/-! ### Settings -/

/-- UP_HOLD (R50, R73). -/
def State.upHold (s : State) (p : Nat) : Tick :=
  msT (min 1000 (fld (s.inForce (A.linkTmr (p / 16))) 25 16))

/-- MIN_FOM (R49). -/
def State.minFom (s : State) (lane : Nat) : Nat := fld (s.inForce (A.linkThr (lane / 16))) 23 16

/-- SES_UCW; 0 acts as 1 (R60). -/
def State.sesUcw (s : State) (p : Nat) : Nat := atLeast1 (fld (s.inForce (A.linkThr (p / 16))) 15 0)

/-- LOS_QUAL in ns; values above 9 act as 9 (R46, R73). -/
def State.losQual (s : State) (p : Nat) : Nat := (min 9 (fld (s.inForce (A.linkTmr (p / 16))) 3 0) + 1) * 100

/-- UCW_BURST; 0 disables cause 3 (R56). -/
def State.ucwBurst (s : State) (p : Nat) : Nat := fld (s.portCfg p) 23 16

/-- The port's lanes are trained before they carry data; TRAIN_EN is ignored with MEDIA 2 (R43, R73). -/
def State.trains (s : State) (p : Nat) : Bool := rbit (s.portCfg p) 28 && fld (s.portCfg p) 31 30 != 2

/-- The one technology ability that a port advertises: that of its width, rate and MEDIA, with no FEC choice and no
pause ability (R43). -/
def State.advertised (s : State) (p : Nat) : Ability :=
  { width := s.portWidth p, rate := s.laneRateCode p, media := fld (s.portCfg p) 31 30 }

/-- Spacing of a port's alignment markers, and the mismatches in a row that lose their lock: a single one costs nothing
(R52). -/
def State.amSpacing (s : State) (p : Nat) : Nat := Config.amSpacing (s.laneRateCode p) (s.portWidth p)
def State.amMisses (s : State) (p : Nat) : Nat := max 2 (Config.amMisses (s.laneRateCode p) (s.portWidth p))

/-- LINK_HOLD (R196). -/
def State.linkHold (s : State) : Tick := msT (min 1000 (fld (s.inForce A.bufCfg) 9 0))

/-- A front-panel port exists and is ON or DRAINING. -/
def State.portLive (s : State) (p : Nat) : Bool :=
  decide (p < 1024) && s.portExists p && !s.isOff 0 p

/-- A lane's transmitter is driven: its port is ON or DRAINING, whether or not its link is up. The transmitter of a lane in
OFF is squelched to electrical idle (R42). -/
def State.laneDriven (s : State) (lane : Nat) : Bool := s.portLive (s.portBase lane)

/-! ### Conditions of bring-up (steps 2 to 7) and of fault signalling -/

/-- The port's reference clock is present (R64, R67). -/
def State.refOk (s : State) (p : Nat) : Bool := bit s.nv.refclk (p / 64)

/-- Steps 2 to 7 of bring-up hold (R43, R46 to R52, R54). -/
def State.linkQualified (s : State) (p : Nat) : Bool :=
  let c := s.portCfg p
  let l := s.link p
  s.refOk p && fld c 31 30 != 3 &&
    (!rbit c 29 || l.anDone) &&
    (!s.trains p || (s.portLanes p).all (fun k => (s.lane k).train == 2)) &&
    (s.portLanes p).all (fun k =>
      let x := s.lane k
      x.sig && !x.los && x.cdr && !x.lol && x.am) &&
    l.adapt && l.fec && l.deskew

/-- No fault sequence is received (R55, step 8). -/
def State.noFaultSeq (s : State) (p : Nat) : Bool := !(s.link p).rxLf && !(s.link p).rxRf

/-- Start UP_HOLD where every condition of the link holds and it does not run yet (R50). -/
def State.tryUpHold (s : State) (p : Nat) : State :=
  if s.portLive p && !(s.link p).up && (s.link p).upHold.isNone && s.linkQualified p && s.noFaultSeq p
  then s.modLink p (fun l => { l with upHold := some s.elapsed })
  else s

/-! ### A port that goes down (R56 to R59, R195, R196) -/

/-- Discard what R196 discards when LINK_HOLD ends without the link: queued and held lossless frames.
While a queue drains, by its own command or with its port, they are lifecycle discards of that drain (R31, R197). -/
def State.dropLossless (s : State) (p : Nat) : State :=
  let qs := ((List.range 16).filter s.lossless).map (fun c => 16 * p + c)
  let s1 := qs.foldl (fun s q =>
    let n := (s.queue q).frames.length + (squares.map (fun i => (s.heldFrames i q).length)).sum
    let w := if s.isDraining 1 q then 13 else 9
    (squares.foldl (fun s i => s.discardHeld i q w) (s.discardFrames q w (fun _ => true))).chargeQueue q n) s
  s1.modLink p (fun l => { l with holdFrom := none, holdExt := false, discarding := true })

/-- Abort the frame in transmission at a port: its remaining bytes are lost (R195). -/
def State.abortTx (s : State) (p : Nat) : State :=
  match (s.eport p).tx with
  | none => s
  | some t =>
    let s1 := s.modEport p (fun e => { e with tx := none })
    let s2 := (s1.removeFrames (16 * p + t.cls) (fun f => f.fid == t.fid)).countPort p 52 1
    let s3 := { s2 with io := { s2.io with
      wire := { port := p, bytes := [], fcs := 2, startNs := t.startNs } :: s2.io.wire } }
    s3.reportTx t.hdr 11 t.startNs

/-- What a down event does to the port's queues (R195, R191): the frame in transmission is aborted,
drop-eligible queues are emptied, pause timers end. -/
def State.queuesDown (s : State) (p : Nat) : State :=
  let s1 := s.abortTx p
  let s2 := (List.range 16).foldl (fun s c =>
    if s.lossless c then s else s.discardFrames (16 * p + c) 9 (fun _ => true)) s1
  if p < 1024 then
    s2.modSq (p / 16) (fun q => { q with pause := q.pause.filter (fun e => e.1 / 8 ≠ p % 16) })
  else s2

/-- Clear or set the port's bit in the link state vector (R58). -/
def State.setLsv (s : State) (p : Nat) (b : Bool) : State :=
  { s with book := { s.book with lsv := SMap.set (fun _ => false) s.book.lsv p b } }

/-- A down event of a front-panel port whose link was up (R58, R59, R195). -/
def State.linkDownEvent (s : State) (p cause lane : Nat) : State :=
  let s1 := ((s.modLink p (fun l => { l with
      up := false, upHold := none, cause := cause
      lane := if cause = 1 ∨ cause = 2 ∨ cause = 6 then lane else 255
      secDown := l.secDown || decide (cause ≠ 9 ∧ cause ≠ 10)
      holdFrom := some s.elapsed, holdExt := false, discarding := false })).setLsv p false).bcLeave p
  let s2 := (s1.orReg (A.linkStat (p / 16) (p % 16)) (2 ^ 24)).countPort p 24 1
  let s3 := (s2.queuesDown p).faultEvent (portSrc p) 1 p cause
  if s3.linkHold = 0 then s3.dropLossless p else s3

/-- A condition of R56 is seen: the link goes down if it was up; the hold of R50 restarts, and an
extended LINK_HOLD ends (R196). -/
def State.downCondition (s : State) (p cause lane : Nat) : State :=
  if (s.link p).up then s.linkDownEvent p cause lane
  else
    let s1 := s.modLink p (fun l => { l with upHold := none })
    if (s.link p).holdExt then s1.dropLossless p else s1

/-- LOS or LOL on a lane: steps 2 and 4 of bring-up are repeated (R54), training at once on the lanes with signal. -/
def State.restartBringUp (s : State) (p : Nat) : State :=
  (s.portLanes p).foldl (fun s k => s.modLane k (fun l => { l with train := b2n (s.trains p && l.sig) }))
    (s.modLink p (fun l => { l with adapt := false, anDone := false }))

/-! ### FEC codewords (R51, R56, R60) -/

/-- Count a run of codewords with one outcome: codewords, those corrected, those uncorrectable, and the histogram of
corrected symbols (R51). An uncorrectable run adds to the burst count and to the second; any other ends the burst. -/
def State.countCw (s : State) (p : Nat) (r : CwRun) : State :=
  let s1 := s.countPort p 28 r.n
  match r.fix with
  | some k =>
    let s2 := (if k = 0 then s1 else s1.countPort p 29 r.n).countPort p (32 + k) r.n
    if r.n = 0 then s2 else s2.modLink p (fun l => { l with ucwRun := 0 })
  | none => (s1.countPort p 30 r.n).modLink p (fun l => { l with secUcw := l.secUcw + r.n, ucwRun := l.ucwRun + r.n })

def State.countCws (s : State) (p : Nat) (rs : List CwRun) : State := rs.foldl (fun s r => s.countCw p r) s

/-- Longest run of uncorrectable codewords that `rs` brings, where `n` precede them. -/
def burstOf : Nat → List CwRun → Nat
  | n, [] => n
  | n, r :: rs => match r.fix with
    | none => burstOf (n + r.n) rs
    | some _ => if r.n = 0 then burstOf n rs else max n (burstOf 0 rs)

/-- The codewords bring UCW_BURST uncorrectable ones in a row (R56). -/
def State.ucwFires (s : State) (p : Nat) (rs : List CwRun) : Bool :=
  s.ucwBurst p != 0 && decide (s.ucwBurst p ≤ burstOf (s.link p).ucwRun rs)

/-! ### Link down (R56) -/

/-- What a sight says of the link: the cause, with the lane for causes 1, 2 and 6 and 255 for the others (R46, R47, R52, R56). -/
def State.causeOf (s : State) (p : Nat) : Sight → Option (Nat × Nat)
  | .energyLow k ns => if k < s.portWidth p ∧ s.losQual p ≤ ns then some (1, k) else none
  | .clockOff k ppm => if k < s.portWidth p ∧ 1000 < ppm then some (2, k) else none
  | .codewords rs => if s.ucwFires p rs then some (3, 255) else none
  | .localFault => some (4, 255)
  | .remoteFault => some (5, 255)
  | .markerMiss k =>
    if k < s.portWidth p ∧ (s.lane (p + k)).am ∧ s.amMisses p ≤ (s.lane (p + k)).misses + 1 then some (6, k) else none
  | .deskewLost => some (7, 255)

/-- The lower cause, and the lower lane of one cause (R56). -/
def lowerCause (a b : Nat × Nat) : Nat × Nat := if b.1 < a.1 ∨ (b.1 = a.1 ∧ b.2 < a.2) then b else a

/-- The lowest cause among those first seen in one cycle, with its lowest lane (R56). -/
def lowestCause : List (Nat × Nat) → Option (Nat × Nat)
  | [] => none
  | c :: cs => some (cs.foldl lowerCause c)

/-- What a sight leaves in the receiver's state; `hit` says that it is a condition of R56. A burst of uncorrectable
codewords loses codeword lock too (DESIGN CHOICE, unsafe, log entry 116). -/
def State.markSight (s : State) (p : Nat) (hit : Bool) : Sight → State
  | .energyLow k _ => if hit then
      (s.modLane (p + k) (fun l => { l with los := true, sig := false, fomOkAt := none })).restartBringUp p else s
  | .clockOff k _ => if hit then
      (s.modLane (p + k) (fun l => { l with lol := true, cdr := false, fomOkAt := none })).restartBringUp p else s
  | .codewords rs =>
    let s1 := s.countCws p rs
    if hit then s1.modLink p (fun l => { l with fec := false }) else s1
  | .localFault => s.modLink p (fun l => { l with rxLf := true })
  | .remoteFault => s.modLink p (fun l => { l with rxRf := true })
  | .markerMiss k => if hit then
      (s.modLane (p + k) (fun l => { l with am := false, misses := 0, cand := none })).modLink p
        (fun l => { l with deskew := false })
    else if k < s.portWidth p ∧ (s.lane (p + k)).am then s.modLane (p + k) (fun l => { l with misses := l.misses + 1 }) else s
  | .deskewLost => s.modLink p (fun l => { l with deskew := false })

/-- What a port's receiver sees in one cycle: the link goes down with the lowest cause, and every sight leaves its mark. -/
def State.see (s : State) (p : Nat) (seen : List Sight) : State :=
  let marks := seen.map (fun x => ((s.causeOf p x).isSome, x))
  let s1 := match lowestCause (seen.filterMap (s.causeOf p)) with
    | some c => s.downCondition p c.1 c.2
    | none => s
  marks.foldl (fun s m => s.markSight p m.1 m.2) s1

/-- LINK_DOWN (R46, R47, R51, R52, R55, R56, R60). DEDUCED, unsafe (log entry 41). -/
def execLinkDown (port : Nat) (seen : List Sight) (s : State) : Host.Outcome State Fault Refusal :=
  gated s fun s => if s.portLive port then s.see port seen else s

/-- LINK_HOLD_EXPIRE (R196). -/
def execLinkHoldExpire (port : Nat) (s : State) : Host.Outcome State Fault Refusal :=
  gated s fun s =>
    match (s.link port).holdFrom with
    | none => s
    | some t =>
      if s.elapsed < t + s.linkHold then s
      else if !s.portDown port then s.modLink port (fun l => { l with holdFrom := none })
      else if s.linkQualified port && (s.link port).upHold.isSome then
        s.modLink port (fun l => { l with holdExt := true })
      else s.dropLossless port

/-! ### Link up (R50) -/

/-- LINK_UP (R50, R58, R189, R196). -/
def execLinkUp (port : Nat) (s : State) : Host.Outcome State Fault Refusal :=
  gated s fun s =>
    match (s.link port).upHold with
    | none => s
    | some t =>
      if s.portLive port && !(s.link port).up && s.linkQualified port && s.noFaultSeq port &&
          decide (t + s.upHold port ≤ s.elapsed) then
        let s1 := (s.modLink port (fun l => { l with
          up := true, upHold := none, holdFrom := none, holdExt := false, discarding := false })).setLsv port true
        s1.sendPfc port ((s1.xoffPris port).map (fun k => (k, s1.quanta)))
      else s

/-! ### Lane detectors and bring-up steps (R46 to R55) -/

/-- LOS_CLEAR (R46): the energy has stayed above the threshold for `ns`, which counts from LOS_QUAL on. -/
def execLosClear (lane ns : Nat) (s : State) : Host.Outcome State Fault Refusal :=
  atPins s fun s =>
    let p := s.portBase lane
    if s.portLive p && decide (s.losQual p ≤ ns) then
      (s.modLane lane (fun l => { l with
        los := false, sig := true
        train := if s.trains p ∧ l.train = 0 then 1 else l.train })).tryUpHold p
    else s

/-- LOL_CLEAR (R47): two consecutive windows, both within 300 ppm. -/
def execLolClear (lane ppm0 ppm1 : Nat) (s : State) : Host.Outcome State Fault Refusal :=
  atPins s fun s =>
    if s.portLive (s.portBase lane) && decide (ppm0 ≤ 300 ∧ ppm1 ≤ 300) then
      (s.modLane lane (fun l => { l with lol := false, cdr := true })).tryUpHold (s.portBase lane)
    else s

/-- Every lane's FOM has held at or above MIN_FOM for 1 ms (R49). -/
def State.fomHeld (s : State) (p : Nat) : Bool :=
  (s.portLanes p).all (fun k =>
    match (s.lane k).fomOkAt with
    | some t => decide (t + msT 1 ≤ s.elapsed)
    | none => false)

/-- ADAPT_OK (R49). -/
def execAdaptOk (port : Nat) (s : State) : Host.Outcome State Fault Refusal :=
  gated s fun s =>
    if s.portLive port && s.fomHeld port then
      (s.modLink port (fun l => { l with adapt := true })).tryUpHold port
    else s

/-- A lane's marker pattern matches at bit position `pos` (R52). Without a candidate it becomes one. At one spacing after
the candidate it is the second match, and the lane locks; short of that it is not compared, and past it the candidate has
failed and the search goes on from there. With lock, only expected positions are compared, and a match ends a row of
mismatches. -/
def Lane.match_ (spacing pos : Nat) (l : Lane) : Lane :=
  match l.cand with
  | none => { l with cand := some pos }
  | some c =>
    if l.am then if pos % atLeast1 spacing = c % atLeast1 spacing then { l with misses := 0 } else l
    else if pos = c + spacing then { l with am := true, misses := 0, cand := some pos }
    else if pos < c + spacing then l
    else { l with cand := some pos }

/-- Deskew of a port whose lanes are all locked: complete where the lanes' markers lie within the deskew buffer; with more
skew than that the port stays down with cause 7 (R52, R53). DEDUCED, unsafe (log entry 117). -/
def State.deskewTo (s : State) (p : Nat) (aligned : Bool) : State :=
  if aligned then s.modLink p (fun l => { l with deskew := true })
  else if (s.link p).up || (s.link p).deskew then s
  else s.modLink p (fun l => { l with cause := 7, lane := 255 })

/-- AM_LOCK (R52). DESIGN CHOICE, safe (log entry 117). -/
def execAmLock (lane pos : Nat) (aligned : Bool) (s : State) : Host.Outcome State Fault Refusal :=
  atPins s fun s =>
    let p := s.portBase lane
    if s.portLive p then
      let s1 := s.modLane lane (Lane.match_ (s.amSpacing p) pos)
      let s2 := if (s1.portLanes p).all (fun k => (s1.lane k).am) then s1.deskewTo p aligned else s1
      s2.tryUpHold p
    else s

/-- FEC_CODEWORD_LOCK (R54). -/
def execFecCodewordLock (port : Nat) (s : State) : Host.Outcome State Fault Refusal :=
  atPins s fun s =>
    if s.portLive port then (s.modLink port (fun l => { l with fec := true, ucwRun := 0 })).tryUpHold port else s

/-- FAULT_SEQUENCE_CLEAR (R55). -/
def execFaultSequenceClear (port : Nat) (localFault remoteFault : Bool) (s : State) :
    Host.Outcome State Fault Refusal :=
  atPins s fun s =>
    if s.portLive port then
      (s.modLink port (fun l => { l with
        rxLf := l.rxLf && !localFault, rxRf := l.rxRf && !remoteFault })).tryUpHold port
    else s

/-- AUTONEG_COMPLETE (R43): `partner` is what the link partner advertises, and there is no parallel detection (R44). -/
def execAutonegComplete (port : Nat) (partner : List Ability) (s : State) : Host.Outcome State Fault Refusal :=
  atPins s fun s =>
    if s.portLive port && rbit (s.portCfg port) 29 && partner.contains (s.advertised port) then
      (s.modLink port (fun l => { l with anDone := true })).tryUpHold port
    else s

/-- LINK_TRAINING_COMPLETE (R43). -/
def execLinkTrainingComplete (lane : Nat) (ok : Bool) (s : State) : Host.Outcome State Fault Refusal :=
  atPins s fun s =>
    let p := s.portBase lane
    if s.portLive p && s.trains p then
      (s.modLane lane (fun l => { l with train := if ok then 2 else 3 })).tryUpHold p
    else s

/-! ### Figure of merit (R48, R49) -/

/-- `n^64 × 10^(2k−1) ≤ 2^1536`: the rounded −32 log10 of n / 2^24 is at least k, for k ≥ 1. -/
def fomAtLeast (n k : Nat) : Bool := decide (n ^ 64 * 10 ^ (2 * k - 1) ≤ 2 ^ 1536)

/-- FOM of a block of 2^24 symbols with `n` symbol errors (R48). -/
def fomOf (n : Nat) : Nat :=
  if n = 0 then 255
  else (List.range 255).foldl (fun m i => if fomAtLeast n (i + 1) then i + 1 else m) 0

/-- The lane's figure of merit of one block (R48, R49): below MIN_FOM, ADAPT_OK is lost; a link that is up stays up and the
degrade alarm fires, and one that is coming up starts over. -/
def State.fomTo (s : State) (lane symbolErrors : Nat) : State :=
  let p := s.portBase lane
  let f := fomOf symbolErrors
  let ok := decide (s.minFom lane ≤ f)
  let s1 := s.modLane lane (fun l => { l with
    fom := f, fomMin := min l.fomMin f
    fomOkAt := if ok then (match l.fomOkAt with | some t => some t | none => some s.elapsed) else none })
  if ok then s1
  else
    let s2 := s1.modLink p (fun l => { l with adapt := false, upHold := none })
    if (s.link p).up then s2.faultEvent (portSrc p) 2 p else s2

/-- FOM_BLOCK (R48, R49): the port's codewords of the block come with it (R51). DESIGN CHOICE, unsafe (log entry 118). -/
def execFomBlock (lane symbolErrors : Nat) (cws : List CwRun) (s : State) : Host.Outcome State Fault Refusal :=
  gated s fun s =>
    let p := s.portBase lane
    if s.portLive p then (s.fomTo lane symbolErrors).see p [.codewords cws] else s

/-- FOM_MIN_RST (R48). -/
def execFomMinRst (sq j : Nat) (value : Reg) (s : State) : Host.Outcome State Fault Refusal :=
  atPins s fun s =>
    if !s.boot.dpReady then s.accErr 3 (A.laneFom sq j)
    else if rbit value 16 then s.modLane (16 * sq + j) (fun l => { l with fomMin := l.fom })
    else s

/-! ### Reference clocks (R67) -/

/-- REFCLK_LOSS (R67): bring-up repeats from step 3, so training does too. -/
def execRefclkLoss (k : Nat) (s : State) : Host.Outcome State Fault Refusal :=
  gated s fun s =>
    let s1 := { s with nv := { s.nv with refclk := setBit s.nv.refclk k false } }
    let lanes := (List.range 64).map (64 * k + ·)
    let s2 := lanes.foldl (fun s l => s.modLane l (fun x => { x with
      sig := false, cdr := false, am := false, fomOkAt := none, train := 0, cand := none, misses := 0 })) s1
    let ports := lanes.filter s2.portLive
    let s3 := ports.foldl (fun s p => (s.downCondition p 8 255).modLink p (fun l => { l with
      adapt := false, fec := false, deskew := false })) s2
    s3.faultEvent (32 + k) 0 k

/-- REFCLK_RETURN (R67): bring-up starts again at step 3. -/
def execRefclkReturn (k : Nat) (s : State) : Host.Outcome State Fault Refusal :=
  atPins s fun s =>
    { s with nv := { s.nv with refclk := setBit s.nv.refclk k true } }

/-! ### Error seconds (R60 to R63) -/

/-- Class of a second (R60). -/
def secClass (down : Bool) (ucw ses : Nat) : SecClass :=
  if down || decide (ses ≤ ucw) then .ses else if ucw = 0 then .clean else .es

/-- Count the class of the second that leaves the delay line of 10 s (R60, R61). -/
def State.retireSecond (s : State) (p : Nat) (line : List SecClass) : State :=
  match line with
  | [] => s
  | c :: rest =>
    let ten := (line.take 10)
    let uas := if (s.link p).uas then !ten.all (fun x => x != .ses) else ten.all (fun x => x == .ses)
    let s1 := s.modLink p (fun l => { l with uas := uas, secs := rest })
    if uas then s1.countPort p 27 1
    else match c with
      | .clean => s1
      | .es => s1.countPort p 25 1
      | .ses => (s1.countPort p 25 1).countPort p 26 1

/-- The end of one second of one port. The first boundary after the port enters ON starts its first
whole second (R60); a step of device time before it is such a boundary too, so that the rest of that second is
classified, which the manual leaves open (R62). DESIGN CHOICE, unsafe (log entry 41). -/
def State.portSecond (s : State) (p : Nat) : State :=
  let l := s.link p
  if l.secOn then
    let line := l.secs ++ [secClass l.secDown l.secUcw (s.sesUcw p)]
    let s1 := s.modLink p (fun l => { l with secs := line, secDown := !l.up, secUcw := 0 })
    if line.length = 11 then s1.retireSecond p line else s1
  else s.modLink p (fun l => { l with secOn := true, secDown := !l.up, secUcw := 0 })

/-- A second boundary of device time, for every port in ON or DRAINING (R60). -/
def State.secondBoundary (s : State) : State :=
  ((List.range 1024).filter s.portLive).foldl (fun s p => s.portSecond p) s

/-- A step of device time to `ns` ends the current interval of every port whose first whole second has begun (R60, R62);
for the others no whole second has begun yet, and the step starts none. The second of `ns` runs from then on. -/
def State.secondStep (s : State) (ns : Nat) : State :=
  let s1 := ((List.range 1024).filter (fun p => s.portLive p && (s.link p).secOn)).foldl (fun s p => s.portSecond p) s
  { s1 with time := { s1.time with second := ns / 1000000000 } }

/-- ERROR_SECOND (R60): device time has reached the next second. -/
def execErrorSecond (s : State) : Host.Outcome State Fault Refusal :=
  gated s fun s =>
    if s.time.second = s.nowNs / 1000000000 then s
    else
      let s1 := s.secondBoundary
      { s1 with time := { s1.time with second := s.nowNs / 1000000000 } }

/-! ### Management port (R68 to R71) -/

def State.modMgmt (s : State) (f : MgmtLink → MgmtLink) : State :=
  { s with host := { s.host with mgmt := f s.host.mgmt } }

/-- Fill of the elastic buffer after it gains each of `ds`, and whether it ran over or under: past each of them an ordered
set of `n` code-groups is deleted above 20 and repeated below 12 (R70). After an error the fill is at the middle again.
DESIGN CHOICE, unsafe (log entry 120). -/
def elastic (n : Int) (ds : List Int) (f : Int) : Int × Bool :=
  ds.foldl (fun r d =>
    let g := r.1 + d
    if g < 0 ∨ 32 < g then (16, true)
    else (if 20 < g then g - n else if g < 12 then g + n else g, r.2)) (f, false)

/-- Ordered sets of `n` code-groups pass the elastic buffer (R70): /I2/ has 2, /C1/ and /C2/ have 4. -/
def State.elasticGap (s : State) (n : Int) (ds : List Int) : State :=
  let r := elastic n ds s.host.mgmt.fill
  let s1 := s.modMgmt (fun m => { m with fill := r.1 })
  if r.2 then s1.orReg A.hostMgmtStat 64 else s1

/-- A frame passes the elastic buffer, which gains `d` code-groups in it; answers whether it ran over or under (R70). -/
def State.elasticFrame (s : State) (d : Int) : State × Bool :=
  let g := s.host.mgmt.fill + d
  if g < 0 ∨ 32 < g then ((s.modMgmt (fun m => { m with fill := 16 })).orReg A.hostMgmtStat 64, true)
  else (s.modMgmt (fun m => { m with fill := g }), false)

/-- HOST_MGMT_CFG in force. -/
def State.mgmtCfg (s : State) : Reg := s.inForce A.hostMgmtCfg

/-- The conditions for port 1089 to be up (R68, R69). -/
def State.mgmtReady (s : State) : Bool :=
  let m := s.host.mgmt
  !s.isOff 0 1089 && m.sync && decide (fld s.mgmtCfg 1 0 ≤ 1) &&
    (!rbit s.mgmtCfg 2 || (m.anDone && !m.halfDuplex && !m.rxRf))

/-- Take port 1089 down (R69, R195). -/
def State.mgmtDown (s : State) : State :=
  if s.host.mgmt.up then
    let s1 := ((s.modMgmt (fun m => { m with up := false })).queuesDown 1089).modLink 1089
      (fun l => { l with holdFrom := some s.elapsed, holdExt := false, discarding := false })
    if s1.linkHold = 0 then s1.dropLossless 1089 else s1
  else s

/-- Bring port 1089 up or down as its conditions say. -/
def State.mgmtUpdate (s : State) : State :=
  if s.mgmtReady then
    (s.modMgmt (fun m => { m with up := true })).modLink 1089 (fun l => { l with
      holdFrom := none, holdExt := false, discarding := false })
  else s.mgmtDown

/-- The remote fault bits that port 1089 sends: its own link fault, a receiver without synchronisation or a reserved MODE
(R69, R71, R73). DEDUCED, unsafe (log entry 119). -/
def State.mgmtTxRf (s : State) : Bool := !s.isOff 0 1089 && (!s.host.mgmt.sync || decide (2 ≤ fld s.mgmtCfg 1 0))

/-- Times a code-group is sent at the port's SPEED (R68). -/
def State.mgmtReplication (s : State) : Nat := 10 ^ (2 - min 2 s.host.mgmt.speed)

/-- The configuration word that port 1089 sends: full duplex, no pause ability, and its remote fault bits (R68, R71). -/
structure MgmtWord where
  fullDuplex : Bool := true
  pause : Bool := false
  remoteFault : Bool := false
deriving DecidableEq, Repr

def State.mgmtWord (s : State) : MgmtWord := { remoteFault := s.mgmtTxRf }

/-- The Clause 37 link timer: 10 ms in 1000BASE-X mode and 1.6 ms in SGMII mode (R68). -/
def State.mgmtLinkTimer (s : State) : Tick := if fld s.mgmtCfg 1 0 = 1 then usT 1600 else msT 10

/-- MGMT_SYNC_LOSS (R69). -/
def execMgmtSyncLoss (s : State) : Host.Outcome State Fault Refusal :=
  gated s fun s => (s.modMgmt (fun m => { m with sync := false, anDone := false, anFrom := none })).mgmtUpdate

/-- MGMT_SYNC_ACQUIRE (R69): auto-negotiation begins, with the elastic buffer at its middle. -/
def execMgmtSyncAcquire (s : State) : Host.Outcome State Fault Refusal :=
  atPins s fun s =>
    (s.modMgmt (fun m => if m.sync then m else { m with sync := true, anFrom := some s.elapsed, fill := 16 })).mgmtUpdate

/-- The link timer has run since auto-negotiation began (R68). -/
def State.mgmtTimerDone (s : State) : Bool :=
  match s.host.mgmt.anFrom with
  | some t => decide (t + s.mgmtLinkTimer ≤ s.elapsed)
  | none => false

/-- MGMT_AUTONEG_COMPLETE (R68). In 1000BASE-X mode the speed is 1,000 Mb/s; half duplex or a link the
PHY reports down leaves the link down. `drift` is what the elastic buffer gained before each configuration ordered set. -/
def execMgmtAutonegComplete (speed : Nat) (fullDuplex linkOk remoteFault : Bool) (drift : List Int) (s : State) :
    Host.Outcome State Fault Refusal :=
  atPins s fun s =>
    if rbit s.mgmtCfg 2 && s.mgmtTimerDone then
      ((s.elasticGap 4 drift).modMgmt (fun m => { m with
        anDone := linkOk
        speed := if fld s.mgmtCfg 1 0 = 1 then speed else 2
        halfDuplex := !fullDuplex
        rxRf := remoteFault })).mgmtUpdate
    else s

end Sys2Proof.Machine
end

