-- ==== Sys2Proof/Machine/Rings.lean ====
section
/-!
DEFINITION. The endpoint, rings, doorbells and host-link events (R272 to R285, R298 to R303).
-/

namespace Sys2Proof.Machine

/-! ### Ring contexts (R277, R278) -/

/-- A VF exists (R274). -/
def State.vfExists (s : State) (v : Nat) : Bool :=
  s.host.vfEnable && decide (1 ≤ v ∧ v ≤ s.host.numVfs)

/-- Vendor, device and class codes of a function; the class of a VF is that of its PF (R274). -/
def fnIds (fn : Nat) : Nat × Nat × Nat := (0x1F9D, if fn = 0 then 0x4C10 else 0x4C11, 0x028000)

/-- TotalVFs and the VF stride of the PF's SR-IOV capability (R274). -/
def totalVfs : Nat := 8
def vfStride : Nat := 1

/-- MSI-X vectors of a function (R274). -/
def vectorsOf (fn : Nat) : Nat := if fn = 0 then 2048 else 16

/-- A 4-byte word of a VF's BAR0: the MSI-X table from 0x0000, the pending bits at 0x2000, zero elsewhere (R274). -/
def State.vfBar0Word (s : State) (v o : Nat) : Nat :=
  if o < 256 then
    let e := s.msixEntry v (o / 16)
    let k := o % 16 / 4
    if k = 0 then e.addr.toNat % 2 ^ 32 else if k = 1 then e.addr.toNat / 2 ^ 32
    else if k = 2 then e.data.toNat else b2n e.mask
  else if o = 0x2000 then ((List.range 16).map (fun n => b2n (s.vecPending v n) * 2 ^ n)).sum
  else 0

def allZero (bs : List Byte) : Bool := bs.all (fun b => b == 0)

/-- The checks of R278 on a 64-byte ring context. -/
def State.ctxValid (s : State) (x : List Byte) : Bool :=
  let type := leAt x 8 1
  let fn := leAt x 10 1
  let vec := leAt x 12 2
  let bsz := leAt x 18 2
  decide (x.length = 64 ∧ leAt x 0 8 % 4096 = 0 ∧ 1 ≤ type ∧ type ≤ 5 ∧ 6 ≤ leAt x 9 1 ∧ leAt x 9 1 ≤ 16 ∧
    fn ≤ 8 ∧ leAt x 11 1 = 0 ∧ (vec = 65535 ∨ vec < vectorsOf fn)) &&
  allZero (slice x 20 44) &&
  (type != 1 || decide (1 ≤ bsz ∧ bsz ≤ 64)) &&
  (fn == 0 || (s.isOn 6 fn && decide (type = 4 ∨ type = 5)))

/-- The device's copy of a context; the ring starts at index 0 (R277, R279). -/
def State.ringOf (s : State) (x : List Byte) : Ring :=
  { type := leAt x 8 1, base := leAt x 0 8, log2 := leAt x 9 1, fn := leAt x 10 1, vec := leAt x 12 2
    modCnt := leAt x 14 2, modTime := leAt x 16 2, bufSize := leAt x 18 2
    splitWb := rbit (s.reg A.hostCfg) 2 }

/-- Ask for entry `n` of the ring context table at `HOST_RCT` (R277). -/
def State.readContext (s : State) (n : Nat) : State :=
  let base := (s.reg A.hostRctHi).toNat * 2 ^ 32 + fld (s.reg A.hostRctLo) 31 12 * 4096
  if s.fnLive 0 then s.askRead 0 (base + 64 * n) 64 else s

/-- Load a ring's context and turn it ON. -/
def State.startRing (s : State) (n : Nat) (x : List Byte) : State :=
  (s.modRing n (fun _ => s.ringOf x)).setFn 5 n { st := .on }

/-- Release the boot event once the event ring is ON (R351). -/
def State.releaseBootEvent (s : State) : State :=
  match s.host.bootEvent with
  | some e =>
    if s.ringIs s.evtRing 4 then
      ({ s with host := { s.host with bootEvent := none } }).postAt s.evtRing e.type e.sub e.src e.payload e.time
    else s
  | none => s

/-- Registers latched when `HOST_CFG.BOOT` enables rings 0 and 1 (R303). -/
def bootLatches : List Nat :=
  [A.hostCfg, A.hostDbLo 0, A.hostDbHi 0] ++ (List.range 8).map A.hostRxMap

/-- HOST_CFG_BOOT (R299, R303): the write's RW fields, then the start of rings 0 and 1. -/
def execHostCfgBoot (value : Reg) (ctx0 ctx1 : HostRead) (s : State) : Host.Outcome State Fault Refusal :=
  atPins s fun s =>
    let s1 := s.setReg A.hostCfg (value &&& 0x0FFF0004#32)
    if rbit value 0 && s.isOff 5 0 && s.isOff 5 1 then
      let s1 := (s1.readContext 0).readContext 1
      match ctx0, ctx1 with
      | .ok x, .ok y =>
        if s1.fnLive 0 && s1.ctxValid x && s1.ctxValid y && leAt x 8 1 == 3 && leAt y 8 1 == 4 &&
            leAt x 10 1 == 0 && leAt y 10 1 == 0 then
          let s2 := ((s1.latch bootLatches).startRing 0 x).startRing 1 y
          ({ s2 with host := { s2.host with bootOn := true } }).releaseBootEvent
        else s1.orReg A.hostStat 4
      | _, _ => s1.orReg A.hostStat 4
    else s1

/-! ### Doorbells (R281, R282) -/

def State.dbEnabled (s : State) (f : Nat) : Bool :=
  rbit (s.inForce (A.hostDbLo f)) 0 && (f == 0 || s.isOn 6 f) && s.fnLive f

/-- Address of a function's doorbell area. -/
def State.dbArea (s : State) (f : Nat) : Nat :=
  (s.inForce (A.hostDbHi f)).toNat * 4294967296 + fld (s.inForce (A.hostDbLo f)) 31 12 * 4096

/-- HOST_DB_CFG.POLL as elapsed time (R303). -/
def State.pollTime (s : State) : Tick := max 5 (min 2000 (fld (s.reg A.hostDbCfg) 15 0)) * 50 * tickNs

/-- Descriptors between the fetch point and P. -/
def Ring.toFetch (r : Ring) : Nat := (r.prod + 4294967296 - r.fetch) % 4294967296

/-- The host addresses of `n` descriptors from the fetch point, wrapping at the ring's end (R279): address and length. -/
def Ring.span (r : Ring) (n : Nat) : List (Nat × Nat) :=
  let at_ := r.fetch % 2 ^ r.log2
  let k := min n (2 ^ r.log2 - at_)
  (r.base + 32 * at_, 32 * k) :: (if n = k then [] else [(r.base, 32 * (n - k))])

/-- Descriptors that may be asked for now: 64 at a time, and 256 in a round (R282, R283). -/
def State.fetchSize (s : State) (n : Nat) : Nat := min (min 64 (s.ring n).toFetch) (256 - s.host.roundCnt)

/-- Ask for descriptors from the fetch point (R282 step 4): one fetch of a ring at a time. -/
def State.askDescs (s : State) (n : Nat) : State :=
  let r := s.ring n
  let k := s.fetchSize n
  if k = 0 || decide (0 < r.asked) || !s.isOn 5 n || r.stopped || !s.fnLive r.fn then s
  else
    let s1 := (r.span k).foldl (fun s e => s.askRead r.fn e.1 e.2) s
    ({ s1 with host := { s1.host with roundCnt := s1.host.roundCnt + k } }).modRing n (fun r => { r with asked := k })

/-- The round before has finished (R282). -/
def State.roundOver (s : State) : Bool :=
  s.host.summaryOut.isEmpty && s.host.swapOut.isEmpty && s.host.prodOut.isEmpty && s.host.rings.all (fun e => e.2.asked == 0)

/-- A round starts: POLL has passed since the last one started, and that one has finished (R282). -/
def State.roundDue (s : State) : Bool :=
  s.roundOver && (match s.host.roundAt with | some t => decide (t + s.pollTime ≤ s.elapsed) | none => true)

/-- DOORBELL_POLL_ROUND (R282, R283): the summaries are read, and what the round before left over is fetched. -/
def execDoorbellPollRound (s : State) : Host.Outcome State Fault Refusal :=
  gated s fun s =>
    if s.roundDue then
      let fs := (List.range 9).filter s.dbEnabled
      let s1 := fs.foldl (fun s f => s.askRead f (s.dbArea f + 0x4000) 512) s
      let s2 := { s1 with host := { s1.host with summaryOut := fs, roundAt := some s.elapsed, roundCnt := 0 } }
      (s2.host.rings.map (fun e => e.1)).foldl State.askDescs s2
    else s

/-- Ask for the producer word of every ring of `fn` that is ON among `ns` (R282 step 3). While the function may issue
no requests they wait (R302). -/
def State.askProducers (s : State) (fn : Nat) (ns : List Nat) : State :=
  ns.foldl (fun s n =>
    if s.isOn 5 n && (s.ring n).fn == fn && !(s.ring n).stopped && !s.host.prodOut.contains n then
      if s.fnLive fn then
        let s1 := s.askRead fn (s.dbArea fn + 4 * n) 4
        { s1 with host := { s1.host with prodOut := s1.host.prodOut ++ [n] } }
      else { s with host := { s.host with prodWait := s.host.prodWait ++ [n] } }
    else s) s

/-- Mode 1 of the doorbell poll; 2 and 3 act as 0 (R303). -/
def State.scanMode (s : State) : Bool := fld (s.reg A.hostDbCfg) 17 16 == 1

/-- Address of word `w` of a function's summary (R281). -/
def State.summaryAddr (s : State) (fn w : Nat) : Nat := s.dbArea fn + 0x4000 + 8 * w

/-- Issue a Swap with zero on a word of a summary (R282). -/
def State.askSwap (s : State) (fn w : Nat) (bits : W64) : State :=
  { s with host := { s.host with swapOut := s.host.swapOut ++ [(fn, w, bits)] }
           io := { s.io with swaps := (fn, s.summaryAddr fn w) :: s.io.swaps } }

/-- SUMMARY_READ_COMPLETE (R282). A function that may issue no requests takes no bits: they stay in its summary. -/
def execSummaryReadComplete (fn : Nat) (words : List W64) (s : State) : Host.Outcome State Fault Refusal :=
  atPins s fun s =>
    if s.host.summaryOut.contains fn then
      let s1 := { s with host := { s.host with summaryOut := s.host.summaryOut.erase fn } }
      let ws := words.zipIdx.filter (fun e => e.1 != 0 && decide (e.2 < 64))
      if !s.fnLive fn then s1
      else if s.scanMode then
        ws.foldl (fun s e => s.askProducers fn ((bitList e.1.toNat 64).map (64 * e.2 + ·))) s1
      else ws.foldl (fun s e => s.askSwap fn e.2 e.1) s1
    else s

/-- A Swap on a word of a function's summary is out. -/
def State.swapIsOut (s : State) (fn word : Nat) : Bool := s.host.swapOut.any (fun e => e.1 == fn && e.2.1 == word)

/-- That Swap is no longer out. -/
def State.endSwap (s : State) (fn word : Nat) : State :=
  { s with host := { s.host with swapOut := s.host.swapOut.filter (fun e => !(e.1 == fn && e.2.1 == word)) } }

/-- SWAP_COMPLETE (R282). -/
def execSwapComplete (fn word : Nat) (bits : W64) (s : State) : Host.Outcome State Fault Refusal :=
  atPins s fun s =>
    if s.swapIsOut fn word then (s.endSwap fn word).askProducers fn ((bitList bits.toNat 64).map (64 * word + ·))
    else s

/-- Post a ring error event (R296, R301). -/
def State.ringError (s : State) (n cause addr : Nat) : State := s.post 7 cause n (leBytes 8 addr)

/-- A ring stops fetching, with a ring error event (R301). -/
def State.haltRing (s : State) (n cause addr : Nat) : State :=
  (s.modRing n (fun r => { r with stopped := true, asked := 0 })).ringError n cause addr

/-- A ring stops fetching on an error: event, log and source 19 (R301). -/
def State.stopRing (s : State) (n cause kind addr : Nat) : State :=
  ((s.haltRing n cause addr).hostErr kind n (s.ring n).fn).faultEvent 19

/-- PRODUCER_READ_COMPLETE (R279, R282). -/
def execProducerReadComplete (ring : Nat) (p : BitVec 32) (s : State) : Host.Outcome State Fault Refusal :=
  atPins s fun s =>
    if s.host.prodOut.contains ring then
      let s1 := { s with host := { s.host with prodOut := s.host.prodOut.erase ring } }
      let r := s.ring ring
      if !s.isOn 5 ring || r.stopped then s1
      else if (p.toNat + 4294967296 - r.c) % 4294967296 > 2 ^ r.log2 then
        s1.stopRing ring 3 6 (s.dbArea r.fn + 4 * ring)
      else (s1.modRing ring (fun r => { r with prod := p.toNat })).askDescs ring
    else s

/-- Post an edge with its own stamp (R264, R296). -/
def State.postEdge (s : State) (e : Edge) : State :=
  s.postAt (fld (s.reg A.timeEvtCfg) 27 16) 5 e.input (b2n e.falling) (leBytes 2 (e.stamp / 2 ^ 24 % 65536)) (toNs e.stamp)

/-- Edges that wait at an input (R264). -/
def State.edgesOf (s : State) (n : Nat) : List Edge := SMap.get (fun _ => []) s.time.edges n
def State.setEdges (s : State) (n : Nat) (es : List Edge) : State :=
  { s with time := { s.time with edges := SMap.set (fun _ => []) s.time.edges n es } }

/-- Post the edges of one input as far as the ring takes them. -/
def State.drainInput (s : State) (n : Nat) : State :=
  (s.edgesOf n).foldl (fun s e =>
    if s.evRoom (fld (s.reg A.timeEvtCfg) 27 16) then (s.setEdges n ((s.edgesOf n).drop 1)).postEdge e else s) s

/-- Post waiting edges, inputs in ascending order (R264). -/
def State.drainEdges (s : State) : State := (List.range 4).foldl State.drainInput s

/-- DESCRIPTOR_FETCH_COMPLETE (R282): the ring holds the descriptors until its type uses them; an
event ring fills them with waiting events. -/
def execDescriptorFetchComplete (ring : Nat) (descs : List (List Byte)) (s : State) :
    Host.Outcome State Fault Refusal :=
  atPins s fun s =>
    let r := s.ring ring
    if s.isOn 5 ring && !r.stopped && decide (0 < r.asked ∧ descs.length = r.asked) then
      let s1 := s.modRing ring (fun r => { r with
        asked := 0
        fetched := r.fetched ++ descs
        fetch := (r.fetch + descs.length) % 4294967296 })
      (if r.type = 4 then (s1.fillEvents ring).drainEdges else s1).askDescs ring
    else s

/-- MSIX_MOD_TIMEOUT (R284). -/
def execMsixModTimeout (ring : Nat) (s : State) : Host.Outcome State Fault Refusal :=
  gated s fun s =>
    let r := s.ring ring
    if !s.isOff 5 ring && decide (0 < r.unsignalled ∧ r.modTime ≠ 0 ∧ r.oldest + usT r.modTime ≤ s.elapsed) &&
        s.fnLive r.fn then s.signalRing ring
    else s

/-- Write an entry of a function's MSI-X table (R274, R276, R303). -/
def State.setMsix (s : State) (fn vec : Nat) (e : MsixEntry) : State :=
  if fn = 0 then
    (((s.setReg (A.msixAddrLo vec) (BitVec.ofNat 32 (e.addr.toNat % 2 ^ 32 / 4 * 4))).setReg (A.msixAddrHi vec)
      (BitVec.ofNat 32 (e.addr.toNat / 2 ^ 32))).setReg (A.msixData vec) e.data).setReg (A.msixCtl vec)
        (putFld (s.reg (A.msixCtl vec)) 0 0 (b2n e.mask))
  else
    let x : MsixEntry := { e with addr := BitVec.ofNat 64 (e.addr.toNat / 4 * 4) }
    { s with host := { s.host with vfMsix := SMap.set (fun _ => {}) s.host.vfMsix (16 * (fn - 1) + vec) x } }

/-- Clear the mask bit of an entry. -/
def State.clearMask (s : State) (fn vec : Nat) : State :=
  if fn = 0 then s.setReg (A.msixCtl vec) (putFld (s.reg (A.msixCtl vec)) 0 0 0)
  else s.setMsix fn vec { s.msixEntry fn vec with mask := false }

/-- MSIX_UNMASK (R276): the host clears the mask bit of an entry, or writes the whole entry `entry`, which is its one way
to a VF's table. A pending vector then sends its message (DEDUCED, unsafe, log entry 125). -/
def execMsixUnmask (fn vec : Nat) (entry : Option MsixEntry) (s : State) : Host.Outcome State Fault Refusal :=
  atPins s fun s =>
    (match entry with
    | none => s.clearMask fn vec
    | some e => s.setMsix fn vec e).sendPending fn vec

/-- BAR2_WRITE (R275): discarded, the first logged. -/
def execBar2Write (_offset fn : Nat) (s : State) : Host.Outcome State Fault Refusal :=
  atPins s fun s => s.hostErr 5 0 fn

/-! ### Rings and VFs that go OFF at once (R302) -/

def rings : List Nat := List.range 4096

/-- A ring goes OFF at once, with everything it holds, and without an event (R36, R298, R302). -/
def State.killRing (s : State) (n : Nat) : State := (s.modRing n (fun _ => {})).setFn 5 n {}

/-- Rings of a function that are not OFF. DEDUCED, unsafe (log entry 90). -/
def State.ringsOf (s : State) (fn : Nat) : List Nat :=
  (s.host.rings.map (fun e => e.1)).filter (fun n => decide (n < 4096) && !s.isOff 5 n && (s.ring n).fn == fn)

/-- The reads and Swaps of a function are abandoned. -/
def State.dropReads (s : State) (fn : Nat) : State :=
  { s with host := { s.host with
      summaryOut := s.host.summaryOut.filter (fun f => f != fn), swapOut := s.host.swapOut.filter (fun e => e.1 != fn)
      prodOut := s.host.prodOut.filter (fun n => (s.ring n).fn != fn)
      prodWait := s.host.prodWait.filter (fun n => (s.ring n).fn != fn) } }

/-- A VF's configuration goes to its reset state: bus mastering, control fields, MSI-X table and pending bits (R402). -/
def State.resetVf (s : State) (v : Nat) : State :=
  { s with host := { s.host with
      bme := SMap.set (fun _ => false) s.host.bme v false, ctl := SMap.set (fun _ => {}) s.host.ctl v {}
      vfMsix := s.host.vfMsix.filter (fun e => e.1 / 16 + 1 ≠ v)
      vfPending := s.host.vfPending.filter (fun e => e.1 / 16 + 1 ≠ v) } }

/-- A VF's rings go OFF at once, and its configuration is reset (R38, R302). -/
def State.flrVf (s : State) (v : Nat) : State := ((s.ringsOf v).foldl State.killRing (s.dropReads v)).resetVf v

/-- A VF that ceases to exist goes OFF at once, with its rings and without an event.
DESIGN CHOICE, unsafe (log entry 121): the manual does not say what becomes of a VF that is ON when VF Enable is cleared
or NumVFs lowered. -/
def State.killVf (s : State) (v : Nat) : State := (s.flrVf v).setFn 6 v {}

/-- The ring that a frame for port 1088 goes to (R285), with a policy record's ring first. -/
def State.rxRing (s : State) (h : FrameHdr) : Nat :=
  match h.host.bind (fun t => t.ring) with
  | some n => n
  | none =>
    let r := s.inForce (A.hostRxMap (h.cls / 2))
    if h.cls % 2 = 0 then fld r 11 0 else fld r 27 16

/-- Count a frame for the host that is discarded (R285). -/
def State.rxDrop (s : State) (h : FrameHdr) : State := s.count (ringCtr (s.rxRing h) 0) 1

/-- Every ring and VF goes OFF at once; outstanding reads are abandoned; frames for port 1088 that
wait for delivery are discarded and counted (R302). DEDUCED, unsafe (log entry 43). -/
def State.hostDown (s : State) : State :=
  let s1 := (s.host.inbox ++ s.host.outbox.filter (fun f => f.ctx.eport == 1088)).foldl (fun s f => s.rxDrop f.hdr) s
  let s2 := (s1.host.rings.map (fun e => e.1)).foldl State.killRing s1
  let s3 := (List.range 9).foldl (fun s v => s.setFn 6 v {}) s2
  { s3 with host := { s3.host with
      bootOn := false, inbox := [], outbox := [], summaryOut := [], swapOut := [], prodOut := [], prodWait := []
      roundAt := none, roundCnt := 0 } }

/-- PERST (R302, R402): PERST_N, a PF FLR or a link down. The functions' configuration goes to its
reset state with the reset that the PCI Express specification gives each. -/
def execPerst (kind : LinkReset) (s : State) : Host.Outcome State Fault Refusal :=
  atPins s fun s =>
    let s1 := s.hostDown
    let s2 := { s1 with host := { s1.host with
      bme := [], vfEnable := false, numVfs := 0, ctl := [], vfMsix := [], vfPending := [], vfZero := []
      linkUp := if kind = .pfFlr then s1.host.linkUp else false
      speed := if kind = .pfFlr then s1.host.speed else 0
      width := if kind = .pfFlr then s1.host.width else 0 } }
    if kind = .perstN then
      { s2 with boot := { s2.boot with perstCnt := min 255 (s2.boot.perstCnt + 1) } }
    else s2

/-- VF_FLR (R38, R302, R402): the VF's own lifecycle state stays; its BAR2 view reads zero until the VF is enabled anew.
DEDUCED, unsafe (log entry 43). -/
def execVfFlr (v : Nat) (s : State) : Host.Outcome State Fault Refusal :=
  atPins s fun s =>
    if s.vfExists v then
      let s1 := s.flrVf v
      ({ s1 with host := { s1.host with vfZero := SMap.set (fun _ => false) s1.host.vfZero v true } }).post 8 0 v []
    else s

/-- Pending vectors of a function. -/
def State.pendingVecs (s : State) (fn : Nat) : List Nat :=
  if fn = 0 then
    (s.regs.filter (fun e => decide (0x1C000 ≤ e.1 ∧ e.1 < 0x1C100))).flatMap (fun e =>
      (bitList e.2.toNat 32).map (8 * (e.1 - 0x1C000) + ·))
  else (List.range 16).filter (s.vecPending fn)

/-- A function may issue requests: returns, events, fetches and messages that wait go out (R302). -/
def State.resumeFn (s : State) (fn : Nat) : State :=
  let s1 := (s.ringsOf fn).foldl (fun s n => ((s.flushReturns n).fillEvents n).askDescs n) s
  let ws := s1.host.prodWait.filter (fun n => (s1.ring n).fn == fn)
  let s2 := ({ s1 with host := { s1.host with
    prodWait := s1.host.prodWait.filter (fun n => (s1.ring n).fn != fn) } }).askProducers fn ws
  (s2.pendingVecs fn).foldl (fun s v => s.sendPending fn v) s2

/-- BUS_MASTER_ENABLE_CHANGE (R272, R276, R302): the host writes a function's Bus Master Enable and, where `ctl` is
given, its other control fields. Work resumes when the bit is set (DEDUCED, unsafe, log entry 125). -/
def execBusMasterEnableChange (fn : Nat) (on : Bool) (ctl : Option FnCtl) (s : State) : Host.Outcome State Fault Refusal :=
  atPins s fun s =>
    if fn = 0 || s.vfExists fn then
      let s1 := { s with host := { s.host with
        bme := SMap.set (fun _ => false) s.host.bme fn on
        ctl := match ctl with | some x => SMap.set (fun _ => {}) s.host.ctl fn x | none => s.host.ctl } }
      if on then s1.resumeFn fn else s1
    else s

/-- HOST_LINK_UP (R273). -/
def execHostLinkUp (speed width : Nat) (s : State) : Host.Outcome State Fault Refusal :=
  atPins s fun s =>
    let s1 := { s with host := { s.host with linkUp := true, speed := speed, width := width } }
    if speed ≠ 3 ∨ width ≠ 8 then s1.faultEvent 18 else s1

/-- SRIOV_VF_ENABLE (R274): a VF that ceases to exist goes OFF with its rings, at once and without an event.
DESIGN CHOICE, unsafe (log entry 121). -/
def execSriovVfEnable (on : Bool) (numVfs : Nat) (s : State) : Host.Outcome State Fault Refusal :=
  atPins s fun s =>
    let s1 := { s with host := { s.host with vfEnable := on, numVfs := min totalVfs numVfs } }
    ((List.range 9).filter (fun v => s.vfExists v && !s1.vfExists v)).foldl State.killVf s1

/-! ### Failed reads (R301) -/

/-- The descriptors of the transmit frame at the head: up to the first without MORE, at most 8 (R288). -/
def txChain : Nat → List (List Byte) → List (List Byte)
  | 0, _ => []
  | _, [] => []
  | n + 1, d :: ds => if bit (leAt d 12 1) 7 then d :: txChain n ds else [d]

/-- The head chain of a transmit ring is whole: it ends without MORE, or 8 descriptors carry it. -/
def chainWhole (ch : List (List Byte)) : Bool :=
  match ch.getLast? with
  | some d => !bit (leAt d 12 1) 7 || ch.length == 8
  | none => false

/-- Take the head frame off a transmit ring and return it with a status once its turn comes. -/
def State.returnHeadTx (s : State) (n status : Nat) : State :=
  let ch := txChain 8 (s.ring n).fetched
  if ch = [] then s
  else (s.modRing n (fun r => { r with
      fetched := r.fetched.drop ch.length
      txWait := r.txWait ++ [(0, some (status, 0), ch.flatMap (fun d => (d ++ List.replicate 32 0).take 32))] })).flushTx n

/-- The rings that a failed Swap concerns: those ON whose bits its word showed (R301). -/
def State.swapRings (s : State) (fn word : Nat) : List Nat :=
  (s.host.swapOut.filter (fun e => e.1 == fn && e.2.1 == word)).flatMap (fun e =>
    ((bitList e.2.2.toNat 64).map (64 * word + ·)).filter (fun n => s.isOn 5 n && (s.ring n).fn == fn))

/-- HOST_READ_ERROR (R301). `ring` is the ring whose descriptor, producer word or buffer was read; a summary and a Swap
concern the rings of their bits. -/
def execHostReadError (kind : ReadFail) (fn ring : Nat) (addr : W64) (s : State) :
    Host.Outcome State Fault Refusal :=
  gated s fun s =>
    let own := !s.isOff 5 ring && (s.ring ring).fn == fn
    match kind with
    | .descriptor => if own && decide (0 < (s.ring ring).asked) then s.stopRing ring 1 1 addr.toNat else s
    | .doorbell =>
      if own && s.host.prodOut.contains ring then
        ({ s with host := { s.host with prodOut := s.host.prodOut.erase ring } }).stopRing ring 2 2 addr.toNat
      else s
    | .summary rs =>
      if s.host.summaryOut.contains fn then
        let ns := rs.filter (fun n => s.isOn 5 n && (s.ring n).fn == fn)
        let s1 := { s with host := { s.host with summaryOut := s.host.summaryOut.erase fn } }
        ((ns.foldl (fun s n => s.haltRing n 2 addr.toNat) s1).hostErr 2 (ns.headD 0) fn).faultEvent 19
      else s
    | .swap =>
      let word := (addr.toNat - s.summaryAddr fn 0) / 8
      if s.swapIsOut fn word then
        let ns := s.swapRings fn word
        ((ns.foldl (fun s n => s.ringError n 4 addr.toNat) (s.endSwap fn word)).hostErr 2 (ns.headD 0) fn).faultEvent 19
      else s
    | .buffer =>
      if !own then s
      else
        let s1 := s.bufferReadFailed ring fn
        if (s.ring ring).type = 2 then s1.returnHeadTx ring stHostErr
        else if (s.ring ring).type = 3 then
          match (s.ring ring).fetched with
          | d :: ds => (s1.modRing ring (fun r => { r with fetched := ds })).completeCmd ring d stHostErr 0
          | [] => s1
        else s1

end Sys2Proof.Machine
end

