-- ==== Sys2Proof/Machine/Services.lean ====
section
/-!
DEFINITION. Services memory, channel records and the enabling of reduction channels
(R178, R179, R235 to R240).
-/

namespace Sys2Proof.Machine

/-! ### Pools (R178, R179) -/

/-- Blocks of the 1 KiB and 4 KiB pools; a pair above 3,072 acts as the reset values (R201). -/
def State.poolBlocks (s : State) : Nat × Nat :=
  let r := s.inForce A.svcPoolCfg
  if fld r 11 0 + fld r 27 16 > 3072 then (1024, 1024) else (fld r 11 0, fld r 27 16)

/-- Bytes of a buffer of pool 0, 1 or 2. -/
def poolSize (k : Nat) : Nat := if k = 0 then 1024 else if k = 1 then 4096 else 16384

/-- Buffers of a pool; none before the mesh starts (R178). -/
def State.poolCount (s : State) (k : Nat) : Nat :=
  if !s.tour.running then 0
  else if k = 0 then 16 * s.poolBlocks.1
  else if k = 1 then 4 * s.poolBlocks.2
  else 3072 - s.poolBlocks.1 - s.poolBlocks.2

/-- First byte of a pool: the pools lie in ascending order of buffer size. DEDUCED, unsafe (log entry 85). -/
def State.poolBase (s : State) (k : Nat) : Nat :=
  if k = 0 then 0
  else if k = 1 then 16384 * s.poolBlocks.1
  else 16384 * (s.poolBlocks.1 + s.poolBlocks.2)

def svcKey (k b : Nat) : Nat := 65536 * k + b

/-- Lowest free buffer of a pool. -/
def State.svcLowest (s : State) (k : Nat) : Option Nat :=
  (List.range (s.poolCount k)).find? (fun b => !thas s.red.svc (svcKey k b))

/-- Bytes of services memory that a tag owns, counted at buffer size. -/
def State.svcOwned (s : State) (tag : Nat) : Nat :=
  ((s.red.svc.filter (fun e => e.2 == tag)).map (fun e => poolSize (e.1 / 65536))).sum

/-- Pool and buffer that a request for `n` bytes would take (R179). -/
def State.svcPick (s : State) (n : Nat) : Option (Nat × Nat) :=
  ((List.range 3).filter (fun k => decide (n ≤ poolSize k))).findSome? (fun k =>
    (s.svcLowest k).map (fun b => (k, b)))

/-- SVC_QUOTA_HOST.MAX in bytes. -/
def State.svcHostMax (s : State) : Nat := 65536 * min 768 (fld (s.inForce A.svcQuotaHost) 9 0)

/-- Allocate a services buffer of at least `n` bytes for a tag: its key, or none (R179). -/
def State.svcTake (s : State) (tag n : Nat) : State × Option Nat :=
  match s.svcPick n with
  | none => (s, none)
  | some (k, b) =>
    if tag = 5 ∧ s.svcOwned 5 + poolSize k > s.svcHostMax then (s, none)
    else
      let up := decide (0 < k ∧ n ≤ poolSize (k - 1))
      let s1 := { s with red := { s.red with svc := SMap.insert s.red.svc (svcKey k b) tag } }
      (if up then s1.count (devCtr 6) 1 else s1, some (svcKey k b))

/-- Free a services buffer that its owner presents (R179). -/
def State.svcGive (s : State) (key tag : Nat) : State :=
  if tget s.red.svc key = some tag then
    { s with red := { s.red with svc := SMap.erase s.red.svc key } }
  else s

/-- SVC_ALLOC (R179, R293). -/
def execSvcAlloc (c : Cmd) (s : State) : Host.Outcome State Fault Refusal :=
  gated s (runCmd 0x51 c (p0Below c 0 && p1Below c 0) fun s =>
    let n := c.p2.toNat
    if n = 0 ∨ 16384 < n then .ret s stInvalid 0
    else match s.svcTake 5 n with
      | (s1, some key) =>
        .ret s1 stOk (s1.poolBase (key / 65536) + poolSize (key / 65536) * (key % 65536))
      | (s1, none) => .ret s1 stNoSpace 0)

/-- Pool and buffer that start at an offset of services memory. -/
def State.svcAt (s : State) (o : Nat) : Option Nat :=
  (List.range 3).findSome? (fun k =>
    let d := o - s.poolBase k
    if s.poolBase k ≤ o ∧ d % poolSize k = 0 ∧ d / poolSize k < s.poolCount k then
      some (svcKey k (d / poolSize k))
    else none)

/-- SVC_FREE (R176, R179, R293). -/
def execSvcFree (c : Cmd) (s : State) : Host.Outcome State Fault Refusal :=
  gated s (runCmd 0x52 c (p1Below c 0 && p2Below c 0) fun s =>
    match s.svcAt c.p0.toNat with
    | none => .ret s stTarget 0
    | some key => if tget s.red.svc key = some 5 then .ret (s.svcGive key 5) stOk 0 else .ret s stInvalid 0)

/-! ### Channel records (R235, R236) -/

/-- Word `i` of the record of channel `c`, from the active side (R238). -/
def State.chanWord (s : State) (c i : Nat) : Nat := s.book.current 12 (0x40 + 64 * c + 8 * i)

/-- VALID, with OP 3 and NCONTRIB 0 acting as VALID 0 (R236). -/
def State.chanValid (s : State) (c : Nat) : Bool :=
  let w := s.chanWord c 0
  bit w 0 && bits w 2 1 != 3 && bits w 11 5 != 0

def chanWindow (w : Nat) : Nat := if bits w 39 34 = 0 then 64 else bits w 39 34

/-- Words of member `i` of channel `c` (R237). -/
def State.memberWord (s : State) (c i k : Nat) : Nat :=
  s.book.current 12 (0x8040 + 16 * (bits (s.chanWord c 0) 33 19 + i) + 8 * k)

/-- Bytes of an accumulator buffer (R240). -/
def accBytes (dtype blockBytes : Nat) : Nat :=
  if dtype = 1 ∨ dtype = 2 then 2 * blockBytes else blockBytes

/-- Engine of a channel (R239). -/
def engineOf (c : Nat) : Nat := c / 128

/-- Channels of an engine in ON or DRAINING. -/
def State.engineChans (s : State) (e : Nat) : List Nat :=
  ((List.range 128).map (128 * e + ·)).filter (fun c => !s.isOff 3 c)

/-- Slots that an engine's channels hold (R239). -/
def State.engineSlots (s : State) (e : Nat) : Nat :=
  ((s.engineChans e).map (fun c => (s.chan c).window)).sum

/-- Descriptors in an engine's table (R239). -/
def State.engineDescs (s : State) (e : Nat) : Nat :=
  (((List.range 128).map (128 * e + ·)).map (fun c => (s.chan c).inq.length)).sum

/-- One more accumulator buffer; where there is none, the buffers already taken are freed (R240). -/
def accStep (tag bytes : Nat) (a : State × Option (List Nat)) : State × Option (List Nat) :=
  match a.2 with
  | none => a
  | some ks =>
    let r := a.1.svcTake tag bytes
    match r.2 with
    | some k => (r.1, some (ks ++ [k]))
    | none => (ks.foldl (fun s k => s.svcGive k tag) r.1, none)

/-- Take `n` accumulator buffers, all or none (R240). A request that was served stays counted (R179). -/
def State.takeAccs (s : State) (tag bytes n : Nat) : State × Option (List Nat) :=
  (List.range n).foldl (fun a _ => accStep tag bytes a) (s, some [])

/-- Enable a reduction channel (R238 to R240): the state and the status. -/
def State.enableChan (s : State) (c : Nat) : State × Nat :=
  let w := s.chanWord c 0
  let bb := bits (s.chanWord c 1) 13 0
  let dt := bits w 4 3
  if s.red.ver = 0 then (s, stBusy)
  else if !s.chanValid c ∨ bits w 18 12 < bits w 11 5 ∨ 64 < bits w 11 5 ∨ bb % 256 ≠ 0 ∨ bb = 0 ∨ 8192 < bb then
    (s, stInvalid)
  else if s.engineSlots (engineOf c) + chanWindow w > 2048 then (s, stNoSpace)
  else
    let r := s.takeAccs (engineOf c) (accBytes dt bb) (2 * chanWindow w)
    match r.2 with
    | none => (r.1, stNoSpace)
    | some ks =>
      ((r.1.modChan c (fun _ =>
        { op := bits w 2 1, dtype := dt, ncontrib := bits w 11 5, window := chanWindow w, blockBytes := bb
          accBufs := ks })).setFn 3 c { st := .on }, stOk)

/-- Return every buffer of a channel (R252). -/
def State.freeChan (s : State) (c : Nat) : State :=
  let x := s.chan c
  (x.accBufs ++ x.inq.map (fun d => d.buf)).foldl (fun s k => s.svcGive k (engineOf c))
    (s.modChan c (fun _ => {}))

end Sys2Proof.Machine
end

