-- ==== Sys2Proof/Machine/Lifecycle.lean ====
section
/-!
DEFINITION. The lifecycle of functions: enable, disable, draining and OFF (R25 to R38).
-/

namespace Sys2Proof.Machine

/-! ### Instances (R30) -/

/-- The instance names a function of the class (R30). -/
def State.instExists (s : State) (cls inst : Nat) : Bool :=
  match cls with
  | 0 => (decide (inst < 1024) && s.portExists inst) || inst == 1089
  | 1 => decide (inst < 17456) && s.portExists (inst / 16)
  | 2 => decide (inst < 64)
  | 3 => decide (inst < 512)
  | 4 => decide (inst < 4)
  | 5 => decide (inst < 4096)
  | 6 => s.vfExists inst
  | 7 => inst == 0
  | 8 => decide (inst < 64)
  | 9 => inst == 0
  | 10 => decide (inst < 64)
  | _ => false

/-- Both attachment squares of the port that the instance names are excluded (R15). -/
def State.instUnreachable (s : State) (cls inst : Nat) : Bool :=
  match cls with
  | 0 => s.portUnreachable inst
  | 1 => s.portUnreachable (inst / 16)
  | _ => false

/-- Default drain timeout in µs (R30). -/
def defaultTimeout (cls : Nat) : Nat :=
  if cls ≤ 1 ∨ cls = 6 ∨ cls = 9 then 10000
  else if cls = 2 ∨ cls = 8 then 100
  else if cls = 10 then 1
  else 1000

/-- Functions that a function contains, as (class, instance) (R31). -/
def State.contained (s : State) (cls inst : Nat) : List (Nat × Nat) :=
  match cls with
  | 0 => (List.range 16).map (fun c => (1, 16 * inst + c))
  | 2 => (List.range 16).map (fun c => (1, 16 * (1024 + inst) + c))
  | 6 => (s.ringsOf inst).map (fun n => (5, n))
  | _ => []

/-- Contained functions that drain as part of this container (R31). -/
def State.insiders (s : State) (cls inst : Nat) : List (Nat × Nat) :=
  (s.contained cls inst).filter (fun f =>
    s.isDraining f.1 f.2 && (s.fn f.1 f.2).inside == some (fnKey cls inst))

/-! ### Latching at OFF (R21, R41, R103, R139, R170, R229, R254, R391) -/

/-- Registers of the port whose base is local lane `i` of square `k` (R41, R103, R201). -/
def portRegs (k i : Nat) : List Nat := [A.portCfg k i, A.portParse k i, A.pfcThr k i, A.pfcCfg k i]

/-- Registers that a square latches when all its front-panel ports are OFF (R103, R229). -/
def allOffRegs (k : Nat) : List Nat :=
  [A.parseCfg k, A.fragCfg k, A.egrCfg k, A.linkTmr k, A.linkThr k]

def learnRegs : List Nat := [A.bookLearnCfg, A.bookAgeCfg] ++ squares.map A.learnPort

def blitzRegs (k : Nat) : List Nat :=
  [A.blitzCfg k] ++ (List.range 16).flatMap (fun e => [A.blitzMacLo k e, A.blitzMacHi k e, A.blitzAct k e])

/-- Width of the port that holds local lane `i` under a map word. -/
def mapWidth (m i : Nat) : Nat := 2 ^ bits m (2 * i + 1) (2 * i)

/-- Local lanes of the port that holds local lane `i`, with their rate codes, under a map and a rate word. -/
def mapPort (m r i : Nat) : Nat × Nat × Nat :=
  let w := mapWidth m i
  (i / w * w, w, bits r (2 * i + 1) (2 * i))

/-- A map or rate change of square `k` waits (R41). -/
def State.mapPending (s : State) (k : Nat) : Bool :=
  s.reg (A.portMap k) != s.inForce (A.portMap k) || s.reg (A.laneRate k) != s.inForce (A.laneRate k)

/-- Base local lanes of the ports that the pending change alters and that are not OFF (R41). -/
def State.mapBlockers (s : State) (k : Nat) : List Nat :=
  (List.range 16).filter (fun i =>
    let now := mapPort (s.inForce (A.portMap k)).toNat (s.inForce (A.laneRate k)).toNat i
    let next := mapPort (s.reg (A.portMap k)).toNat (s.reg (A.laneRate k)).toNat i
    now != next && !s.isOff 0 (16 * k + now.1))

/-- Apply the pending map and rates of a square once no port they change is up (R41): new ports start
in OFF with the settings written for their base lanes. -/
def State.applyMap (s : State) (k : Nat) : State :=
  if s.mapPending k && (s.mapBlockers k).isEmpty then
    let s1 := s.latch [A.portMap k, A.laneRate k]
    (List.range 16).foldl (fun s i =>
      if s.portExists (16 * k + i) && s.isOff 0 (16 * k + i) then s.latch (portRegs k i) else s) s1
  else s

/-- Every front-panel port of a square is OFF. -/
def State.allPortsOff (s : State) (k : Nat) : Bool := (s.squarePorts k).all (fun p => s.isOff 0 p)

/-- What takes effect in a square at the instant a front-panel port is OFF. -/
def State.portOffLatch (s : State) (p : Nat) : State :=
  let k := p / 16
  let s1 := (s.latch (portRegs k (p % 16))).applyMap k
  if s1.allPortsOff k then s1.latch (allOffRegs k) else s1

/-- Latch the telemetry registers for one square (R391). -/
def State.latchTelem (s : State) (k : Nat) : State :=
  let s1 := [0, 1, 2].foldl (fun s j => s.setForce (telemKey k j) (s.reg (A.telemCfg + 4 * j))) s
  s1.latch [A.telemSq k]

/-- All four engines are OFF (R254). -/
def State.enginesOff (s : State) : Bool := (List.range 4).all (fun e => s.isOff 4 e)

/-- What a function's entry to OFF does beyond its state: latches, links, tags, buffers (R21, R42, R63,
R209, R252, R298, R334). -/
def State.offActions (s : State) (cls inst : Nat) : State :=
  match cls with
  | 0 =>
    if inst = 1089 then
      ({ s with host := { s.host with mgmt := {} } }).latch [A.hostMgmtCfg]
    else
      let s1 := if (s.link inst).up then s.linkDownEvent inst 9 255 else s
      let s2 := (s1.portLanes inst).foldl (fun s k => s.modLane k (fun l => { l with
        los := false, lol := false, sig := false, cdr := false, am := false, train := 0, fomOkAt := none
        cand := none, misses := 0 })) s1
      let s3 := s2.modLink inst (fun l => { cause := l.cause, lane := l.lane })
      let s4 := { s3 with power := { s3.power with
        serdes := SMap.set (fun _ => 0) s3.power.serdes inst s3.power.cur.serdes } }
      s4.portOffLatch inst
  | 1 => s.modQueue inst (fun q => { q with tag := none })
  | 3 => s.freeChan inst
  | 4 =>
    let s1 := s.modEngine inst (fun e => { e with running := none })
    let s2 := if !bit s1.power.cur.redPwr inst && (s1.engine inst).powered then
        (s1.modEngine inst (fun e => { e with powered := false })).post 0x43 0 inst []
      else s1
    if s2.enginesOff then s2.latch [A.svcRedCfg] else s2
  | 5 => s.modRing inst (fun _ => {})
  | 7 => s.latch learnRegs
  | 8 => s.latchTelem inst
  | 9 =>
    let s1 := (s.time.bcPorts.map (fun e => e.1)).foldl State.bcLeave s
    ({ s1 with time := { s1.time with bcStamps := [], bcSync := [] } }).latch [A.timeBcCfg]
  | 10 => s.latch (blitzRegs inst)
  | _ => s

/-! ### Work of a function (R27, R30) -/

/-- Frames of a queue that are in transmission. -/
def State.sending (s : State) (q : Nat) : List Nat :=
  ((s.queue q).frames.filter (fun f => f.started)).map (fun f => f.fid)

/-- Cells that the resequencer of a queue's square has parked: their squares and indices. -/
def State.parkedCells (s : State) (q : Nat) : List (Nat × Nat) :=
  (s.sq (s.queueSquare (q / 16))).ctxOut.flatMap (fun x =>
    if x.1 % 32768 = q then x.2.parked.map (fun p => (p.hsq, p.idx)) else [])

/-- Cells of the whole device on their way to a queue that does not link them yet: their squares and indices. -/
def State.unlinked (s : State) (q : Nat) : List (Nat × Nat) :=
  let parked := s.parkedCells q
  s.sqs.flatMap (fun e => (e.2.cells.filter (fun c => 16 * c.2.ctx.eport + c.2.ctx.cls == q &&
    (c.2.st == .deferred || c.2.st == .held || c.2.st == .waiting || c.2.st == .unannounced ||
      parked.contains (e.1, c.1)))).map (fun c => (e.1, c.1)))

/-- The cell carries bytes of a frame in transmission from queue `q`: it stays (R27). -/
def State.sendingCell (s : State) (q : Nat) (e : Nat × Nat) : Bool :=
  match tget (s.sq e.1).cells e.2 with
  | some c => c.segs.any (fun g => (s.sending q).contains g.fid)
  | none => false

/-- A frame is in transmission at the port. -/
def State.txBusy (s : State) (p : Nat) : Bool := (s.eport p).tx.isSome

/-- A queue has work: frames queued, or admitted cells on their way to it. -/
def State.queueWork (s : State) (q : Nat) : Bool :=
  !(s.queue q).frames.isEmpty || !(s.unlinked q).isEmpty

/-- Square `k`'s Blitz frames whose record or transmission is not finished. -/
def State.blitzWork (s : State) (k : Nat) : Bool :=
  !(s.sq k).blitz.isEmpty || (s.squarePorts k).any (fun p =>
    match (s.eport p).tx with | some t => t.blitz.isSome | none => false)

/-- A channel's slots that hold an unfinished block (R243). -/
def Chan.openSlots (x : Chan) : List (Nat × Slot) := x.slots.filter (fun e => e.2.state == 1 || e.2.state == 2)

/-- A ring's work while it drains (R298). -/
def State.ringWork (s : State) (n : Nat) : Bool :=
  let r := s.ring n
  match r.type with
  | 2 => !r.fetched.isEmpty || !r.txWait.isEmpty
  | 3 => r.accepted.isSome || !r.fetched.isEmpty
  | _ => false

/-- Admitted work of one function, without what it contains. -/
def State.ownWork (s : State) (cls inst : Nat) : Bool :=
  match cls with
  | 0 => s.txBusy inst
  | 1 => s.queueWork inst
  | 2 => s.txBusy (1024 + inst) || !(s.sq inst).recirc.isEmpty
  | 3 => !(s.chan inst).inq.isEmpty || !(s.chan inst).openSlots.isEmpty
  | 4 => (s.engine inst).running.isSome || decide (0 < s.engineDescs inst)
  | 5 => s.ringWork inst
  | 7 => !s.book.learnCmds.isEmpty || squares.any (fun k => !(s.sq k).learnQ.isEmpty)
  | 8 => !(s.sq inst).postcards.isEmpty
  | 9 => !s.time.bcTxDue.isEmpty
  | 10 => s.blitzWork inst
  | _ => false

/-- A draining function still has work (R27). -/
def State.hasWork (s : State) (cls inst : Nat) : Bool :=
  s.ownWork cls inst || (s.insiders cls inst).any (fun f => s.ownWork f.1 f.2)

/-! ### Discard at the timeout (R27) -/

/-- A cell that stays keeps the bytes of the frames in transmission only. -/
def State.trimCell (s : State) (keep : List Nat) (e : Nat × Nat) : State :=
  s.modSq e.1 (fun x => { x with
    cells := tmod x.cells e.2 (Cell.update (fun c => { c with segs := c.segs.filter (fun g => keep.contains g.fid) })) })

/-- Parked entries of a queue's cells are dropped, save those that `keep` names. -/
def Sq.unpark (x : Sq) (q : Nat) (keep : List (Nat × Nat)) : Sq :=
  { x with ctxOut := (x.ctxOut.map (fun y =>
      if y.1 % 32768 = q then (y.1, { y.2 with parked := y.2.parked.filter (fun p => keep.contains (p.hsq, p.idx)) })
      else y)).filter (fun y => decide (y.2 ≠ {})) }

/-- Discard a queue's frames that are not in transmission, wherever their cells are: the count (R27). The cells of a
frame in transmission stay, so that it completes whole. -/
def State.discardQueue (s : State) (q : Nat) : State × Nat :=
  let keep := s.sending q
  let out := ((s.queue q).frames.filter (fun f => !f.started)).length
  let all := s.unlinked q
  let stay := all.filter (s.sendingCell q)
  let loose := all.filter (fun e => !s.sendingCell q e)
  let hs := (cellFrames (all.filterMap (fun e => tget (s.sq e.1).cells e.2))).filter (fun h => !keep.contains h.fid)
  let s1 := s.discardFrames q 13 (fun f => !f.started)
  let s2 := stay.foldl (fun s e => s.trimCell keep e) (loose.foldl (fun s e => s.freeByHeader e.1 e.2) s1)
  let s3 := s2.modSq (s.queueSquare (q / 16)) (fun x => x.unpark q stay)
  let s4 := (s3.sqs.map (fun e => e.1)).foldl (fun s k =>
    s.modSq k (fun x => x.dropFrames q (fun f _ => !keep.contains f))) s3
  let s5 := hs.foldl (fun s h => s.reportTx h stDropped 0) (s4.count (queueCtr q 13) hs.length)
  (((loose.map (fun e => e.1)).eraseDups).foldl State.pfcSquare s5, out + hs.length)

/-- Discard the unfinished work of one function, without what it contains: the state and the units. A Blitz frame is in
transmission from the start, and an injected frame goes on to its return (R289), so neither is discarded. -/
def State.discardOwn (s : State) (cls inst : Nat) : State × Nat :=
  match cls with
  | 1 => s.discardQueue inst
  | 2 =>
    let fs := (s.sq inst).recirc
    (fs.foldl (fun s f => (s.count (queueCtr (16 * (1024 + inst) + f.hdr.cls) 13) 1).reportTx f.hdr stDropped 0)
      (s.modSq inst (fun q => { q with recirc := [] })), fs.length)
  | 3 =>
    let x := s.chan inst
    let n := x.inq.length + (x.openSlots.map (fun e => popcount e.2.bitmap 64)).sum
    let s1 := x.inq.foldl (fun s d => s.svcGive d.buf (engineOf inst)) s
    let s2 := s1.modChan inst (fun x => { x with
      inq := [], due := [], abandons := 0
      slots := x.slots.filter (fun e => !(e.2.state == 1 || e.2.state == 2)) })
    (s2.modEngine (engineOf inst) (fun e => { e with
      running := if e.running = some inst then none else e.running }), n)
  | 4 =>
    let cs := (List.range 128).map (128 * inst + ·)
    let n := s.engineDescs inst
    let s1 := cs.foldl (fun s c =>
      (s.chan c).inq.foldl (fun s d => s.svcGive d.buf inst) s |>.modChan c (fun x => { x with inq := [], due := [] })) s
    (s1.modEngine inst (fun e => { e with running := none }), n)
  | 5 =>
    let r := s.ring inst
    let n := r.fetched.length
    let s1 := s.modRing inst (fun r => { r with fetched := [] })
    (if r.type = 2 then s1.count (ringCtr inst 2) n else s1, n)
  | 7 =>
    let n := s.book.learnCmds.length + (squares.map (fun k => (s.sq k).learnQ.length)).sum
    let s1 := squares.foldl (fun s k =>
      (s.modSq k (fun q => { q with learnQ := [] })).count (sqWord k 6) (s.sq k).learnQ.length) s
    let cs := s1.book.learnCmds
    let s2 := { s1 with book := { s1.book with learnCmds := [] } }
    (cs.foldl (fun s c => s.finishCmd c.ring c.tag stBusy 0) s2, n)
  | 8 =>
    let n := (s.sq inst).postcards.length
    ((s.modSq inst (fun q => { q with postcards := [] })).count (sqWord inst 17) n, n)
  | 9 =>
    let n := s.time.bcTxDue.length
    ({ s with time := { s.time with bcTxDue := [] } }, n)
  | _ => (s, 0)

/-- Discard a container's unfinished work with that of the functions that drain in it: the units. -/
def State.discardWork (s : State) (cls inst : Nat) : State × Nat :=
  (s.insiders cls inst).foldl (fun a f =>
    let r := a.1.discardOwn f.1 f.2
    (r.1, a.2 + r.2)) (s.discardOwn cls inst)

/-! ### DRAINING and OFF -/

/-- Enter OFF with a lifecycle event (R27, R28, R31): insiders go OFF with their container; a function
contained in it that drains under a command of its own is timed out at the same instant. -/
def State.enterOff (s : State) (cls inst outcome : Nat) : State :=
  let f := s.fn cls inst
  let us := toUs (s.elapsed - f.since)
  let ins := s.insiders cls inst
  let others := (s.contained cls inst).filter (fun g => s.isDraining g.1 g.2 && (s.fn g.1 g.2).own)
  let s1 := ins.foldl (fun s g => (s.setFn g.1 g.2 {}).offActions g.1 g.2) s
  let s2 := others.foldl (fun s g =>
    let x := s.fn g.1 g.2
    let r := s.discardOwn g.1 g.2
    ((r.1.setFn g.1 g.2 {}).offActions g.1 g.2).postLife g.1 g.2 1 (x.discarded + r.2)
      (toUs (s.elapsed - x.since))) s1
  let s3 := (s2.setFn cls inst { byPhase := f.byPhase }).offActions cls inst
  s3.postLife cls inst outcome f.discarded us

/-- Add to a draining function's discard count. -/
def State.addDiscards (s : State) (cls inst n : Nat) : State :=
  s.modFn cls inst (fun f => { f with discarded := f.discarded + n })

/-- Discard what is unfinished at the end of a drain timeout (R27): a function without work has drained.
DEDUCED, unsafe (log entry 99). -/
def State.timeOut (s : State) (cls inst : Nat) : State :=
  if s.hasWork cls inst then
    let r := s.discardWork cls inst
    (r.1.addDiscards cls inst r.2).modFn cls inst (fun f => { f with timedOut := true })
  else s

/-- The drain timeout has ended (R27): OFF waits for frames in transmission and for an accepted command. -/
def State.drainEnds (s : State) (cls inst : Nat) : State :=
  let s1 := s.timeOut cls inst
  if s1.hasWork cls inst then s1 else s1.enterOff cls inst (b2n (s1.fn cls inst).timedOut)

/-- Begin DRAINING (R26, R31). Descriptors of receive, event and snapshot rings are released (R298). -/
def State.beginDrain (s : State) (cls inst timeout : Nat) (byPhase : Bool) : State :=
  let t := s.elapsed
  let s1 := s.setFn cls inst { st := .draining, own := true, since := t, deadline := t + usT timeout
                               byPhase := byPhase }
  let s2 := (s1.contained cls inst).foldl (fun s f =>
    if s.isOn f.1 f.2 then
      s.setFn f.1 f.2 { st := .draining, own := false, since := t, deadline := t + usT timeout
                        inside := some (fnKey cls inst) }
    else s) s1
  let ns := (if cls = 5 then [inst] else []) ++ (s2.insiders cls inst).filterMap (fun f =>
    if f.1 = 5 then some f.2 else none)
  let s3 := ns.foldl (fun s n => s.modRing n (fun r =>
    if r.type = 2 ∨ r.type = 3 then { r with asked := 0 } else { r with fetched := [], asked := 0 })) s2
  if timeout = 0 then s3.timeOut cls inst else s3

/-- Disable a function: the state and the status (R33). -/
def State.disableFn (s : State) (cls inst timeout : Nat) (byPhase : Bool) : State × Nat :=
  match (s.fn cls inst).st with
  | .on => (s.beginDrain cls inst timeout byPhase, stOk)
  | .draining =>
    if (s.fn cls inst).own then
      (s.modFn cls inst (fun f => { f with
        deadline := min f.deadline (s.elapsed + usT timeout), byPhase := f.byPhase && byPhase }), stAlreadyDraining)
    else (s, stAlreadyDraining)
  | .off => (s, stAlreadyOff)

/-- DISABLE (R25, R26, R30, R33). -/
def execDisable (c : Cmd) (s : State) : Host.Outcome State Fault Refusal :=
  gated s (runCmd 0x11 c (fnParamsOk c && p1Below c 0) fun s =>
    let t := c.p2.toNat
    if 10 < cmdCls c ∨ (10000000 < t ∧ t ≠ 4294967295) then .ret s stInvalid 0
    else if !s.instExists (cmdCls c) (cmdInst c) then .ret s stTarget 0
    else if s.instUnreachable (cmdCls c) (cmdInst c) then .ret s stUnreachable 0
    else
      let us := if t = 4294967295 then defaultTimeout (cmdCls c) else t
      let r := s.disableFn (cmdCls c) (cmdInst c) us false
      .ret r.1 r.2 0)

/-! ### ENABLE -/

/-- Cells that admission reserves for one frame of the port (R185). -/
def State.frameNeed (s : State) (p : Nat) : Nat :=
  if p < 1024 then cdiv (s.maxFrame p - 4 + 16) 256 else 38

/-- Cells of its square's own reserve that a port needs (R190). -/
def State.reserveNeed (s : State) (p : Nat) : Nat :=
  s.frameNeed p + ((List.range 8).filter (s.pfcTxEn p)).length * (s.pfcXoff p + s.pfcHeadroom p)

/-- The sum of R190 with port `p` ON stays within the square's OWN MIN. -/
def State.reserveOk (s : State) (p : Nat) : Bool :=
  decide ((((s.squarePorts (p / 16)).filter (fun x => x = p ∨ !s.isOff 0 x)).map s.reserveNeed).sum ≤
    s.quotaMin (p / 16) (p / 16))

/-- Turn a function ON with the functions it contains that are OFF, and post its event (R28, R33). -/
def State.turnOn (s : State) (cls inst : Nat) : State :=
  let s1 := s.setFn cls inst { st := .on }
  let s2 := if cls = 0 ∨ cls = 2 then
      (s1.contained cls inst).foldl (fun s f => if s.isOff f.1 f.2 then s.setFn f.1 f.2 { st := .on } else s) s1
    else s1
  let s3 := if cls = 0 ∧ inst < 1024 then
      (s2.modLink inst (fun l => { cause := l.cause, lane := l.lane })).modSq (inst / 16) (fun q => { q with
        alt := SMap.set (fun _ => false) q.alt (inst % 16) false
        altCore := SMap.set (fun _ => false) q.altCore (inst % 16) false })
    else if cls = 0 then s2.mgmtUpdate
    else s2
  s3.postLife cls inst 3 0 0

/-- Event messages that the service would send in 128 s: a Sync and a Delay_Req for each port that takes part, at their
intervals (R269). -/
def State.bcRate (s : State) (x : BcCfg) : Nat :=
  ((List.range 1024).filter (fun p => s.portExists p && rbit (s.reg (A.ptpCfg (p / 16) (p % 16))) 31)).length *
    (2 ^ (7 - x.logSync).toNat + 2 ^ (7 - x.logMinDelayReq).toNat)

/-- A configuration of the service lies within R269's ranges and its rate of event messages. -/
def State.bcCfgOk (s : State) (x : BcCfg) : Bool :=
  decide (x.domain ≤ 127 ∧ -7 ≤ x.logSync ∧ x.logSync ≤ 1 ∧ x.logAnnounce ≤ 4 ∧ 2 ≤ x.announceTimeout ∧
    x.announceTimeout ≤ 255 ∧ -7 ≤ x.logMinDelayReq ∧ x.logMinDelayReq ≤ 5 ∧ x.priority1 ≤ 255 ∧ x.priority2 ≤ 255 ∧
    x.clockClass ≤ 255 ∧ x.clockAccuracy ≤ 255) && decide (s.bcRate x ≤ 262144 * 128)

/-- Enable a function that is OFF: the state and the status. The service takes the configuration that the host has set up,
or keeps its own (DESIGN CHOICE, unsafe, log entry 123). -/
def State.enableOff (s : State) (cls inst : Nat) (ctx : HostRead) (bc : Option BcCfg) : State × Nat :=
  match cls with
  | 0 =>
    if inst = 1089 then (s.turnOn 0 inst, stOk)
    else if s.boot.parseVer = 0 then (s, stBusy)
    else if s.reserveOk inst then (s.turnOn 0 inst, stOk)
    else (s, stInvalid)
  | 3 =>
    let r := s.enableChan inst
    if r.2 = stOk then (r.1.postLife 3 inst 3 0 0, stOk) else r
  | 4 => if (s.engine inst).powered then (s.turnOn 4 inst, stOk) else (s, stBusy)
  | 5 =>
    let s := s.readContext inst
    match ctx with
    | .err => (s.bufferReadFailed inst 0, stHostErr)
    | .ok x =>
      if s.ctxValid x then
        (((s.startRing inst x).postLife 5 inst 3 0 0).releaseBootEvent, stOk)
      else (s, stInvalid)
  | 6 =>
    let s1 := s.latch ([A.hostDbLo inst, A.hostDbHi inst] ++
      (List.range 256).map (fun w => A.hostVfAllow (256 * (inst - 1) + w)))
    (({ s1 with host := { s1.host with vfZero := SMap.set (fun _ => false) s1.host.vfZero inst false } }).turnOn 6 inst,
      stOk)
  | 9 =>
    let x := bc.getD s.time.bcCfg
    if s.bcCfgOk x then
      (({ s with time := { s.time with bcCfg := x, bcClass := x.clockClass } }).turnOn 9 inst, stOk)
    else (s, stInvalid)
  | _ => (s.turnOn cls inst, stOk)

/-- ENABLE (R25, R30, R33). DEDUCED, unsafe (log entry 28). -/
def execEnable (c : Cmd) (ctx : HostRead) (bc : Option BcCfg) (s : State) : Host.Outcome State Fault Refusal :=
  gated s (runCmd 0x10 c (fnParamsOk c && p1Below c 0 && p2Below c 0) fun s =>
    if 10 < cmdCls c then .ret s stInvalid 0
    else if !s.instExists (cmdCls c) (cmdInst c) then .ret s stTarget 0
    else if s.instUnreachable (cmdCls c) (cmdInst c) then .ret s stUnreachable 0
    else match (s.fn (cmdCls c) (cmdInst c)).st with
      | .on => .ret s stAlreadyOn 0
      | .draining => .ret s stBusy 0
      | .off =>
        let r := s.enableOff (cmdCls c) (cmdInst c) ctx bc
        .ret r.1 r.2 0)

/-- DRAIN_COMPLETE (R27, R28): a function that drains under a command of its own, and has no work left,
enters OFF. -/
def execDrainComplete (cls inst : Nat) (s : State) : Host.Outcome State Fault Refusal :=
  gated s fun s =>
    let f := s.fn cls inst
    if f.st == .draining && f.own && !s.hasWork cls inst then
      s.enterOff cls inst (b2n f.timedOut)
    else s

/-- DRAIN_TIMEOUT (R27). -/
def execDrainTimeout (cls inst : Nat) (s : State) : Host.Outcome State Fault Refusal :=
  gated s fun s =>
    let f := s.fn cls inst
    if f.st == .draining && f.own && decide (f.deadline ≤ s.elapsed) then s.drainEnds cls inst else s

end Sys2Proof.Machine
end

