-- ==== Sys2Proof/Machine/Pull.lean ====
section
/-!
DEFINITION. The pull buffer and the egress crossing: positions, PULL records, cells that pass into the
crossing, and frames whose fault is known (R16, R153, R157, R158, R193, R208).
-/

namespace Sys2Proof.Machine

/-! ### Frames whose fault is known (R157, R158) -/

/-- Cause of the fault a frame has, if any: 2 gap or lost, 1 cell CRC, 0 its own FCS (R158). -/
def QFrame.fault (f : QFrame) : Option Nat :=
  if f.gap || f.refs.any (fun r => r.lost) then some 2
  else if f.crc || f.refs.any (fun r => r.bad) then some 1
  else if f.fcs then some 0
  else none

/-- The frame in transmission at a port is to be stomped with a cause; an earlier cause stays (R158). -/
def State.stompTx (s : State) (p fid c : Nat) : State :=
  s.modEport p (fun e => { e with tx := e.tx.map (fun t =>
    if t.fid = fid then { t with stomp := some (t.stomp.getD c) } else t) })

/-- A frame whose fault is known: discarded before it starts, else stomped (R157). DEDUCED, unsafe (log entry 53). -/
def State.judgeFrame (s : State) (q fid : Nat) : State :=
  match (s.queue q).frames.find? (fun f => f.fid == fid) with
  | none => s
  | some f =>
    match f.fault with
    | none => s
    | some c =>
      if f.started then s.stompTx (q / 16) fid c
      else (((s.removeFrames q (fun x => x.fid == fid)).countPort (q / 16) 61 1).chargeQueue q 1).reportTx f.hdr 11 0

/-- A started frame ends at its first lost cell: the egress discards its bytes that follow, up to the next START (R157). -/
def State.cutLost (s : State) (q fid : Nat) : State :=
  match (s.queue q).frames.find? (fun f => f.fid == fid && f.started && f.refs.any (fun r => r.lost)) with
  | none => s
  | some f =>
    let e := s.queueSquare (q / 16)
    let rest := (f.refs.dropWhile (fun r => !r.lost)).filter (fun r => !r.lost)
    let others := ((s.queue q).frames.filter (fun x => x.fid != fid)).flatMap (fun x => x.refs)
    let inPull := (s.sq e).pullBuf.map (fun p => p.ref)
    let cut (x : QFrame) : QFrame :=
      if x.fid = fid then { x with refs := x.refs.takeWhile (fun r => !r.lost), gap := true, complete := true } else x
    let skip (p : PullPos) : PullPos :=
      if rest.contains p.ref then
        { p with fids := p.fids.filter (fun i => i ≠ fid), skip := p.skip || p.fids.all (fun i => i == fid) }
      else p
    let s1 := (s.modQueue q (fun x => { x with frames := x.frames.map cut })).modSq e (fun x => { x with
      pullBuf := x.pullBuf.map skip })
    (rest.filter (fun r => !others.contains r && !inPull.contains r)).foldl (fun s r => s.dropRef e r) s1

/-! ### Frames selected at a port -/

/-- A frame of a port by its name, with its queue. -/
def State.frameAt (s : State) (p fid : Nat) : Option (Nat × QFrame) :=
  (List.range 16).findSome? (fun c =>
    ((s.queue (16 * p + c)).frames.find? (fun f => f.fid == fid)).map (fun f => (16 * p + c, f)))

/-- Ports whose queues square `e` holds and which have frames selected or in transmission. -/
def State.busyPorts (s : State) (e : Nat) : List Nat :=
  (s.eports.filter (fun x => (x.2.selected ≠ [] || x.2.tx.isSome) && s.queueSquare x.1 == e)).map (fun x => x.1)

/-- Frames that hold positions, in the order the port took them: the one in transmission first. -/
def EPort.fids (x : EPort) : List Nat := (x.tx.map (fun t => t.fid)).toList ++ x.selected

/-! ### Positions (R153, R193) -/

/-- Pull buffer positions of a square. -/
def pullSize : Nat := 256

/-- Port number of a position that serves no port: a discard pull. -/
def noPort : Nat := 2047

/-- Take one position for a cell; nothing where the buffer is full or the cell has one (R153). -/
def State.takePos (s : State) (e port : Nat) (fids : List Nat) (r : CellRef) (skip : Bool) : State :=
  let q := s.sq e
  if pullSize ≤ q.pullBuf.length ∨ q.pullBuf.any (fun p => p.ref.hsq == r.hsq && p.ref.idx == r.idx) then s
  else
    let here := r.hsq == e
    let pos : PullPos := { pos := q.pullNext, fids := fids, port := port, ref := r, skip := skip
                           data := if here then tget q.cells r.idx else none }
    let ask : List PullRec := if here then [] else [{ hsq := r.hsq, idx := r.idx, pos := q.pullNext }]
    s.modSq e (fun x => { x with pullBuf := x.pullBuf ++ [pos], pullNext := (q.pullNext + 1) % pullSize
                                 pulls := x.pulls ++ ask })

/-- Positions for the cells of one frame, in queue order. -/
def State.takeFrame' (s : State) (e p fid : Nat) : State :=
  match s.frameAt p fid with
  | none => s
  | some (q, f) => (f.refs.takeWhile (fun r => !r.lost)).foldl (fun s r =>
      let ids := ((s.queue q).frames.filter (fun x => x.refs.contains r)).map (fun x => x.fid)
      s.takePos e p ids r false) s

/-- Positions for every selected frame's cells that have none yet. -/
def State.takeAll (s : State) (e : Nat) : State :=
  (s.busyPorts e).foldl (fun s p => (s.eport p).fids.foldl (fun s f => s.takeFrame' e p f) s) s

/-- CAPT_PULLS (R201). -/
def State.captPulls (s : State) : Nat := clip 1 128 (fld (s.inForce A.bufCfg) 31 24)

/-- Start discard pulls for removed cells held elsewhere (R193 step 2). -/
def State.takeDiscards (s : State) (e : Nat) : State :=
  let used := ((s.sq e).pullBuf.filter (fun p => p.port == noPort)).length
  let n := min (s.captPulls - used) (pullSize - (s.sq e).pullBuf.length)
  let ds := (s.sq e).discards.take n
  ds.foldl (fun s r => s.takePos e noPort [] r true) (s.modSq e (fun q => { q with discards := q.discards.drop n }))

/-! ### The egress crossing (R16, R153) -/

/-- Cells of a port's crossing (R16). -/
def xingDepth (p : Nat) : Nat := if 1024 ≤ p ∧ p < 1088 then 32 else 16

/-- Cells of the frames that have left a recirculation port and wait for their second parse: they stand in the
port's crossing (R16, R76). -/
def State.recircCells (s : State) (p : Nat) : Nat :=
  if 1024 ≤ p ∧ p < 1088 then ((s.sq (p - 1024)).recirc.map (fun f => cellsOf f.bytes.length)).sum else 0

/-- Cells that have passed into a port's crossing and have not left it. -/
def State.xingUsed (s : State) (p : Nat) : Nat :=
  ((List.range 16).map (fun c => ((s.queue (16 * p + c)).frames.map (fun f => f.passed)).sum)).sum + s.recircCells p

/-- A position may pass: its cell is at the egress, and the crossing has room, or a frame of it is in
transmission, so that the crossing drains as it fills. -/
def State.mayPass (s : State) (p : PullPos) : Bool :=
  p.data.isSome &&
    (p.skip || p.fids == [] || decide (s.xingUsed p.port < xingDepth p.port) ||
      (match (s.eport p.port).tx with | some t => p.fids.contains t.fid | none => false))

/-- What a frame takes from a cell that passes. -/
def QFrame.take (f : QFrame) (p : PullPos) (c : Cell) : QFrame :=
  if f.refs.any (fun r => r.hsq == p.ref.hsq && r.idx == p.ref.idx) then
    { f with
      refs := f.refs.filter (fun r => !(r.hsq == p.ref.hsq && r.idx == p.ref.idx))
      bytes := f.bytes ++ (c.segs.filter (fun g => g.fid == f.fid)).flatMap (fun g => g.bytes)
      crc := f.crc || c.crcBad || p.ref.bad
      passed := f.passed + b2n (p.fids.getLast? == some f.fid) }
  else f

/-- Frames whose first cell a position carries into the crossing (R378). -/
def dequeued (c : Cell) (fs : List QFrame) : List QFrame :=
  fs.filter (fun f => c.segs.any (fun g => g.fid == f.fid && g.hdr.isSome))

/-- The first byte that frame `f` has in a cell that reaches the crossing now was due before now: it comes after the
bytes that have passed, at the port's carried rate from the frame's start (R159). DEDUCED, unsafe (log entry 64). -/
def State.lateByte (s : State) (p : Nat) (f : QFrame) : Bool :=
  match (s.eport p).tx with
  | some t => f.started && t.fid == f.fid && decide (t.startAt + s.byteTime p f.bytes.length < s.elapsed)
  | none => false

/-- Frames in transmission whose next byte comes too late are underruns (R159). -/
def State.markLate (s : State) (q : Nat) (fids : List Nat) : State :=
  ((s.queue q).frames.filter (fun f => fids.contains f.fid && s.lateByte (q / 16) f)).foldl
    (fun s f => s.stompTx (q / 16) f.fid 3) s

/-- The cell of a position: one of the square's own memory is read, and freed there (R142, R153). -/
def State.readPos (s : State) (e : Nat) (p : PullPos) (c : Cell) : State × Cell :=
  if p.ref.hsq = e then
    let r := s.readCell e ((tget (s.sq e).cells p.ref.idx).getD c)
    (r.1.freeByHeader e p.ref.idx, r.2)
  else (s, c)

/-- Pass the head position into its port's crossing; a cell of the square's own memory is freed. -/
def State.passHead (s : State) (e : Nat) : State :=
  match (s.sq e).pullBuf with
  | [] => s
  | p :: ps =>
    match p.data with
    | none => s
    | some c0 =>
      let r := (s.modSq e (fun q => { q with pullBuf := ps })).readPos e p c0
      let c := r.2
      let s2 := r.1.markLate (16 * c.ctx.eport + c.ctx.cls) p.fids
      if p.skip then s2
      else
        let q := 16 * c.ctx.eport + c.ctx.cls
        let out := dequeued c ((s2.queue q).frames.filter (fun f => p.fids.contains f.fid))
        let s3 := (s2.count (queueCtr q 2) out.length).count (queueCtr q 3) ((out.map (fun f => f.hdr.length + 4)).sum)
        let s4 := s3.modQueue q (fun x => { x with frames := x.frames.map (fun f => f.take p c) })
        if c.crcBad then p.fids.foldl (fun s f => s.judgeFrame q f) s4 else s4

/-- Pass cells in position order while the head may pass; `n` bounds the rounds. -/
def passCells (e : Nat) : Nat → State → State
  | 0, s => s
  | n + 1, s =>
    match (s.sq e).pullBuf with
    | [] => s
    | p :: _ => if s.mayPass p then passCells e n (s.passHead e) else s

/-- Everything that can move at the egress of a square moves: positions are taken, cells pass. -/
def State.moveCells (s : State) (e : Nat) : State :=
  (((passCells e pullSize (s.takeAll e)).takeAll e).takeDiscards e)

/-- A pulled cell reaches its position; a bad one makes its frames bad (R142, R153, R157). -/
def State.pullArrive (s : State) (e pos : Nat) (c : Cell) : State :=
  match (s.sq e).pullBuf.find? (fun p => p.pos == pos && p.data.isNone) with
  | none => s
  | some p =>
    let put (x : PullPos) : PullPos := if x.pos = pos then { x with data := some c } else x
    let s1 := s.modSq e (fun q => { q with pullBuf := q.pullBuf.map put })
    let q := 16 * c.ctx.eport + c.ctx.cls
    let worse (f : QFrame) : QFrame := if c.crcBad && p.fids.contains f.fid then { f with crc := true } else f
    let s2 := s1.modQueue q (fun x => { x with frames := x.frames.map worse })
    let s3 := if p.skip then s2 else p.fids.foldl (fun s f => s.judgeFrame q f) s2
    s3.moveCells e

end Sys2Proof.Machine
end

