-- ==== Sys2Proof/Machine/Reseq.lean ====
section
/-!
DEFINITION. The egress resequencer: entries, linking, parking, gaps, and frames whose fault is known
(R154 to R158, R194, R212, R387).
-/

namespace Sys2Proof.Machine

/-! ### Linking (R154, R194, R212, R227) -/

/-- `QSAMP_CFG.EN` in force: the square samples its queues (R227). -/
def State.qsampOn (s : State) (i : Nat) : Bool := rbit (s.inForce (A.qsampCfg i)) 16

/-- ECN_THR of a class, in cells (R194). -/
def State.ecnThr (s : State) (c : Nat) : Nat := 16 * bits (s.classCfg c) 31 16

/-- Credit both shapers when the last cell of a selected cut-through frame is linked (R212). -/
def State.creditShapers (s : State) (q n : Nat) : State :=
  let w := s.book.current
  let p := q / 16
  let t := s.elapsed
  let d := s.maxFrame p - 4 - n
  (s.modQueue q (fun x => { x with shaper := shaperCredit w (queueShaper w q) x.shaper t d })).modEport p
    (fun e => { e with shaper := shaperCredit w (portShaper w p) e.shaper t d })

/-- Link the bytes of one frame that a cell holds; those that follow a gap in their frame are not linked (R157). -/
def State.linkSeg (s : State) (q : Nat) (c : Cell) (r : CellRef) (g : Seg) : State :=
  match g.hdr with
  | some h =>
    let f : QFrame := { fid := g.fid, hdr := h, isq := c.isq, typ := c.typ, epoch := c.epoch, refs := [r]
                        complete := g.last, fcs := g.last && h.fcsBad, linkSlot := s.tour.slot
                        tourDelay := (s.tour.slot - c.sendSlot) % 65536 }
    let s1 := s.modQueue q (fun x => { x with frames := x.frames ++ [f] })
    let d := (s1.queue q).depth
    let mark := s.ecnThr (q % 16) ≠ 0 && decide (s.ecnThr (q % 16) ≤ d)
    let set (x : QFrame) : QFrame := if x.fid = g.fid then { x with qdepth := d, ecn := mark } else x
    (s1.modQueue q (fun x => { x with frames := x.frames.map set })).count (queueCtr q 10) (b2n mark)
  | none =>
    let late := (s.queue q).frames.any (fun f => f.fid == g.fid && f.selected && g.last && !f.complete && !f.gap)
    let len := ((s.queue q).frames.find? (fun f => f.fid == g.fid)).elim 0 (fun f => f.hdr.length)
    let add (x : QFrame) : QFrame :=
      if x.fid = g.fid ∧ !x.gap then { x with refs := x.refs ++ [r], complete := x.complete || g.last, fcs := x.fcs || g.badEnd }
      else x
    let s1 := s.modQueue q (fun x => { x with frames := x.frames.map add })
    if late then s1.creditShapers q len else s1

/-- The highest depth a queue has reached (R227). -/
def State.noteDepth (s : State) (e q : Nat) : State :=
  if s.qsampOn e then s.modQueue q (fun x => { x with depthHwm := max x.depthHwm x.depth }) else s

/-- Place a cell's pointer at the tail of its egress queue (R154). A cell none of whose frames is queued is
discarded. The frame whose bytes still run at its end is the answer. DEDUCED, unsafe (log entry 52). -/
def State.linkCell (s : State) (e : Nat) (c : Ctx) (r : CellRef) : State × Option Nat :=
  let q := 16 * c.eport + c.cls
  match tget (s.sq r.hsq).cells r.idx with
  | none => (s, none)
  | some x =>
    let s1 := x.segs.foldl (fun s g => s.linkSeg q x r g) s
    let s2 := (s1.noteDepth e q).tagQueue q
    let used := (s2.queue q).frames.any (fun f => f.refs.contains r)
    let s3 := if used then s2 else s2.dropRef e r
    let s4 := (x.segs.map (fun g => g.fid)).foldl (fun s f => s.judgeFrame q f) s3
    (s4.moveCells e, match x.segs.getLast? with
      | some g => if g.last then none else some g.fid
      | none => none)

/-! ### Entries, parking and gaps (R154 to R157) -/

/-- Key of a context at its egress square. -/
def reseqKey (isq : Nat) (c : Ctx) : Nat := 32768 * isq + 16 * c.eport + c.cls

def State.ctxOut (s : State) (e k : Nat) : CtxOut := SMap.get (fun _ => {}) (s.sq e).ctxOut k
def State.setCtxOut (s : State) (e k : Nat) (x : CtxOut) : State :=
  s.modSq e (fun q => { q with ctxOut := SMap.set (fun _ => {}) q.ctxOut k x })

/-- Distance from `b` to `a` modulo 2^22. -/
def seqDist (a b : Nat) : Nat := (a + 4194304 - b % 4194304) % 4194304

/-- Parked entries of a square, INUSE of RESEQ_STAT (R170). -/
def Sq.parkedCount (q : Sq) : Nat := (q.ctxOut.map (fun x => x.2.parked.length)).sum

/-- End the frame whose bytes run at a gap (R157). -/
def State.gapFrame (s : State) (q : Nat) (run : Option Nat) : State :=
  match run with
  | none => s
  | some fid =>
    let cut (f : QFrame) : QFrame := if f.fid = fid then { f with gap := true, complete := true } else f
    (s.modQueue q (fun x => { x with frames := x.frames.map cut })).judgeFrame q fid

/-- Link the expected cell of a context; one whose memory is gone with its square is a gap (R157, R168). -/
def State.linkNext (s : State) (e k : Nat) (c : Ctx) (r : CellRef) : State :=
  let run := (s.ctxOut e k).running
  let lost := !thas (s.sq r.hsq).cells r.idx
  let a := if lost then (s.gapFrame (16 * c.eport + c.cls) run, none) else s.linkCell e c r
  let x := a.1.ctxOut e k
  a.1.setCtxOut e k { x with exp := (x.exp + 1) % 4194304, running := a.2 }

/-- Link parked entries while the expected one is parked; `n` bounds the number of rounds. -/
def State.drainParked (e k : Nat) (c : Ctx) : Nat → State → State
  | 0, s => s
  | n + 1, s =>
    let x := s.ctxOut e k
    match x.parked.find? (fun p => p.seq == x.exp) with
    | none => s
    | some p =>
      let s1 := s.setCtxOut e k { x with parked := x.parked.filter (fun y => y.seq ≠ p.seq), gapFor := 0, gapCount := 0 }
      State.drainParked e k c n (s1.linkNext e k c { hsq := p.hsq, idx := p.idx, seq := p.seq, bad := p.bad })

def State.drainAll (s : State) (e k : Nat) (c : Ctx) : State :=
  State.drainParked e k c ((s.ctxOut e k).parked.length + 1) s

/-- Lowest parked entry of a context. -/
def CtxOut.lowest (x : CtxOut) : Option Parked := (sortBy (fun p => seqDist p.seq x.exp) x.parked).head?

/-- Declare every number from EXP to the lowest parked one a gap, counted in word `w` of the square set,
and resume linking (R155, R156). -/
def State.declareGap (s : State) (e k : Nat) (c : Ctx) (w : Nat) : State :=
  let x := s.ctxOut e k
  match x.lowest with
  | none => s
  | some m =>
    let s1 := (s.count (sqWord e w) (seqDist m.seq x.exp)).gapFrame (16 * c.eport + c.cls) x.running
    (s1.setCtxOut e k { x with exp := m.seq, running := none, gapFor := 0, gapCount := 0 }).drainAll e k c

/-- Context of a key (reseqKey). -/
def ctxOfKey (k : Nat) : Ctx := { eport := k % 32768 / 16, cls := k % 16 }

/-- The context that holds the oldest parked entry of a square. -/
def Sq.oldestParked (q : Sq) : Option Nat :=
  ((sortBy (fun x => x.2) (q.ctxOut.flatMap (fun x => x.2.parked.map (fun p => (x.1, p.order))))).head?).map
    (fun x => x.1)

/-- Park an entry (R154), with the high-water mark of R170. -/
def State.park (s : State) (e k : Nat) (seq slot : Nat) (r : CellRef) : State :=
  let x := s.ctxOut e k
  let n := (s.sq e).parkOrder
  let s1 := s.setCtxOut e k { x with parked := x.parked ++
    [{ seq := seq, hsq := r.hsq, idx := r.idx, sendSlot := slot, bad := r.bad, order := n }] }
  s1.modSq e (fun q => { q with parkOrder := n + 1, reseqHwm := max q.reseqHwm q.parkedCount })

/-- One entry of the resequencer of square `e` (R154, R156). -/
def State.entry (s : State) (e isq : Nat) (c : Ctx) (seq slot : Nat) (r : CellRef) : State :=
  let k := reseqKey isq c
  let act := fun (s : State) =>
    let d := seqDist seq (s.ctxOut e k).exp
    if 2097152 ≤ d then (s.dropRef e r).count (sqWord e 10) 1
    else if 0 < d then s.park e k seq slot r
    else (s.linkNext e k c r).drainAll e k c
  let d0 := seqDist seq (s.ctxOut e k).exp
  if 0 < d0 ∧ d0 < 2097152 ∧ 2048 ≤ (s.sq e).parkedCount then
    match (s.sq e).oldestParked with
    | some k2 => act (s.declareGap e k2 (ctxOfKey k2) 9)
    | none => act s
  else act s

/-- Egress square of a cell. -/
def State.egressOf (s : State) (c : Cell) : Nat := s.queueSquare c.ctx.eport

/-- A cell reaches the square that holds it from now on: at its egress square it enters the resequencer. -/
def State.settleCell (s : State) (i k : Nat) : State :=
  match tget (s.sq i).cells k with
  | none => s
  | some c =>
    if s.egressOf c = i then
      let st (y : Cell) : Cell := { y with st := .announced }
      (s.modSq i (fun q => { q with cells := tmod q.cells k st })).entry i c.isq c.ctx c.seq c.sendSlot
        { hsq := i, idx := k, seq := c.seq, bad := c.crcBad }
    else s

/-- GAP_DECLARE (R155): the fourth boundary after every watermark passed the lowest parked cell. -/
def execGapDeclare (e isq eport cls : Nat) (s : State) : Host.Outcome State Fault Refusal :=
  gated s fun s =>
    let c : Ctx := { eport := eport, cls := cls }
    let k := reseqKey isq c
    if 4 ≤ (s.ctxOut e k).gapCount then s.declareGap e k c 8 else s

/-- HWM_RST (R170): before DP_READY the write is an error (R397). -/
def execHwmRst (sq : Nat) (value : Reg) (s : State) : Host.Outcome State Fault Refusal :=
  atPins s fun s =>
    if !s.boot.dpReady then s.accErr 3 (A.reseqStat sq)
    else if rbit value 31 then s.modSq sq (fun q => { q with reseqHwm := q.parkedCount })
    else s

end Sys2Proof.Machine
end

