-- ==== Sys2Proof/Machine/Ingress.lean ====
section
/-!
DEFINITION. The ingress: frames at the MACs, packing into cells, the crossings, the core's decision at a
frame's first cell, admission, numbering, holding, PFC, injection by the host interface and delivery to
receive rings (R16 to R18, R44, R45, R66, R74 to R78, R98 to R101, R146 to R150, R161 to R163,
R185 to R192, R266, R285 to R289).
-/

namespace Sys2Proof.Machine

/-! ### Cells as they fill (R147) -/

/-- Bytes a list of segments takes in a cell: frame words and frame bytes. -/
def segBytes (gs : List Seg) : Nat := (gs.map (fun g => g.bytes.length + (if g.hdr.isSome then 16 else 0))).sum

/-- Cut a frame's bytes over cells: `room` bytes in the first one, its frame word included, then 256 each. -/
def cutFrame : Nat → Nat → List Byte → List (List Byte)
  | 0, _, _ => []
  | n + 1, room, bs => if bs.length ≤ room then [bs] else bs.take room :: cutFrame n 256 (bs.drop room)

/-- Segments of a frame, one for each cell it touches, with `room` bytes for frame word and bytes in the
first. The FCS verdict of a frame within one cell stands in its frame word, else in its last segment. -/
def frameSegs (h : FrameHdr) (bs : List Byte) (room : Nat) : List Seg :=
  let cut := cutFrame (bs.length + 1) (room - 16) bs
  let one := cut.length == 1
  cut.zipIdx.map (fun c =>
    let fin := c.2 + 1 == cut.length
    { fid := h.fid, hdr := if c.2 = 0 then some { h with fcsBad := h.fcsBad && one } else none
      bytes := c.1, last := fin, badEnd := fin && !one && h.fcsBad })

def State.openCell (s : State) (i lane : Nat) : OpenCell := SMap.get (fun _ => {}) (s.sq i).opened lane
def State.xing (s : State) (i lane : Nat) : List RawCell := SMap.get (fun _ => []) (s.sq i).xing lane
/-- Depth of a crossing towards the core in cells (R16). -/
def coreDepth (lane : Nat) : Nat := if lane < 4 then 64 else 32

/-- Cells on their way into a crossing take the room it has (R16, R18). -/
def Sq.refill (q : Sq) (lane : Nat) : Sq :=
  let xs := SMap.get (fun _ => []) q.xing lane
  let bs := SMap.get (fun _ => []) q.backlog lane
  let n := coreDepth lane - xs.length
  { q with xing := SMap.set (fun _ => []) q.xing lane (xs ++ bs.take n)
           backlog := SMap.set (fun _ => []) q.backlog lane (bs.drop n) }

/-- Cells enter a crossing towards the core, those beyond its depth as it empties (R16, R18).
DESIGN CHOICE, unsafe (log entry 101). -/
def State.pushXing (s : State) (i lane : Nat) (cs : List RawCell) : State :=
  s.modSq i (fun q => ({ q with backlog := SMap.upd (fun _ => []) q.backlog lane (· ++ cs) }).refill lane)

/-- Close the open cell of a parse lane: it joins the ingress crossing. -/
def State.closeCell (s : State) (i lane : Nat) : State :=
  let c := (s.openCell i lane).cell
  if c.segs = [] then s
  else (s.pushXing i lane [c]).modSq i (fun q => { q with opened := SMap.set (fun _ => {}) q.opened lane {} })

/-- PACK_HOLD (R147, R170). -/
def State.packHold (s : State) : Nat := fld (s.inForce A.tourCfg) 31 24

/-- A frame of a context starts in the open cell of its parse lane: 17 bytes of it remain (R147). -/
def State.joins (s : State) (i lane : Nat) (ctx : Option Ctx) : Bool :=
  let oc := (s.openCell i lane).cell
  oc.segs ≠ [] && decide (oc.ctx = ctx) && decide (segBytes oc.segs + 17 ≤ 256)

/-- Fill a frame into a parse lane's cells (R147). `solo`: no other frame follows it in its last cell. -/
def State.packFrame (s : State) (i lane : Nat) (ctx : Option Ctx) (h : FrameHdr) (p : Parse) (bs : List Byte)
    (solo : Bool) : State :=
  let fits := s.joins i lane ctx
  let s1 := if fits then s else s.closeCell i lane
  let base : RawCell := if fits then (s.openCell i lane).cell else { ctx := ctx }
  let gs := frameSegs h bs (256 - segBytes base.segs)
  let cells := gs.zipIdx.map (fun g =>
    let b := if g.2 = 0 then base else { ctx := ctx }
    { b with segs := b.segs ++ [g.1], parses := if g.2 = 0 then b.parses ++ [(h.fid, p)] else b.parses : RawCell })
  let s2 := (s1.modSq i (fun q => { q with opened := SMap.set (fun _ => {}) q.opened lane {} })).pushXing i lane
    cells.dropLast
  match cells.getLast? with
  | none => s2
  | some c =>
    let s3 := s2.modSq i (fun q => { q with
      opened := SMap.set (fun _ => {}) q.opened lane { cell := c, endSlot := some s.tour.slot } })
    if solo || s.packHold == 0 || decide (256 < segBytes c.segs + 17) then s3.closeCell i lane else s3

/-- PACK_HOLD_EXPIRE (R147). -/
def execPackHoldExpire (sq lane : Nat) (s : State) : Host.Outcome State Fault Refusal :=
  gated s fun s =>
    match (s.openCell sq lane).endSlot with
    | some e => if e + s.packHold ≤ s.tour.slot then s.closeCell sq lane else s
    | none => s

/-! ### Cut-through and idle ports (R66, R150) -/

def State.ctEn (s : State) (p : Nat) : Bool := decide (p < 1024) && rbit (s.portCfg p) 27

/-- A frame between the two ports may take a cut-through path (R66). -/
def State.ctOk (s : State) (ip ep : Nat) : Bool :=
  s.ctEn ip && s.ctEn ep && decide (s.carriedRate ep ≤ s.carriedRate ip)

/-- Port idle (R150): no queue holds a frame, none is in transmission, and no pull is outstanding. -/
def State.portIdle (s : State) (p : Nat) : Bool :=
  (List.range 16).all (fun c => (s.queue (16 * p + c)).frames.isEmpty) && (s.eport p).tx.isNone &&
    (s.sq (s.queueSquare p)).pullBuf.all (fun x => x.port != p)

/-! ### Received PFC, and its refresh (R189, R191) -/

/-- The MAC consumes a PFC frame (R191, R377). -/
def State.pfcReceived (s : State) (p : Nat) (vec : Nat) (times : List Nat) : State :=
  let en := bitList vec 8
  let rxEn := fld (s.inForce (A.pfcCfg (p / 16) (p % 16))) 31 24
  let s1 := en.foldl (fun s k => s.countPort p (8 + k) 1) s
  let s2 := (en.filter (fun k => bit rxEn k)).foldl (fun s k =>
    let t := times.getD k 0
    let fin := s.elapsed + t * 512 * tickNs / s.carriedRate p
    s.modSq (p / 16) (fun q => { q with
      pause := SMap.set (fun _ => 0) q.pause (8 * (p % 16) + k) (if t = 0 then 0 else fin) })) s1
  let s3 := s2.tagPort p
  if en.any (fun k => !bit rxEn k) then s3.countPort p 55 1 else s3

/-- PFC_RECEIVE (R191). -/
def execPfcReceive (port : Nat) (vec : BitVec 8) (times : List Nat) (s : State) :
    Host.Outcome State Fault Refusal :=
  atPins s fun s =>
    if s.portLive port && (s.link port).up then s.pfcReceived port vec.toNat times else s

/-- PFC_PAUSE_EXPIRE (R191). -/
def execPfcPauseExpire (port pri : Nat) (s : State) : Host.Outcome State Fault Refusal :=
  gated s fun s =>
    let k := 8 * (port % 16) + pri
    let t := SMap.get (fun _ => 0) (s.sq (port / 16)).pause k
    if t ≤ s.elapsed then
      (s.modSq (port / 16) (fun q => { q with pause := SMap.set (fun _ => 0) q.pause k 0 })).tagPort port
    else s

/-- PFC_REFRESH (R189): half of the XOFF time has passed and XOFF holds. -/
def execPfcRefresh (port pri : Nat) (s : State) : Host.Outcome State Fault Refusal :=
  gated s fun s =>
    let t := SMap.get (fun _ => 0) (s.sq (port / 16)).xoffAt (8 * (port % 16) + pri)
    if s.inXoff port pri && decide (t + s.quanta * 256 * tickNs / s.carriedRate port ≤ s.elapsed) then
      s.sendPfc port [(pri, s.quanta)]
    else s

/-! ### Admission (R185 to R187, R190, R192) -/

/-- committed(s): cells that frames already admitted may still take (R185). -/
def State.committed (s : State) (i : Nat) : Nat := ((s.sq i).staging.map (fun x => x.need - x.written)).sum

/-- Frames of the context are held at the square (R187). -/
def State.ctxHeld (s : State) (i : Nat) (c : Ctx) : Bool :=
  (s.sq i).heldCells.any (fun k => match tget (s.sq i).cells k with | some x => x.ctx == c | none => false) ||
    (s.sq i).verdicts.any (fun v => match v.2.main with | some m => m.1 == c && v.2.held | none => false) ||
    ((SMap.get (fun _ => {}) (s.sq i).ctxIn (16 * c.eport + c.cls)).deferred.any (fun d => d.held))

/-- LEVEL of a queue as square `i` last received it (R180). -/
def State.seenLevel (s : State) (i q : Nat) : Nat := SMap.get (fun _ => 0) (s.sq i).viewLevel q

/-- The victim class that a claim of class `c` would name (R192). -/
def State.victimClass (s : State) (i port c : Nat) : Option Nat :=
  (List.range c).find? (fun v => !s.lossless v && bit (s.classCfg v) 6 &&
    SMap.get (fun _ => false) (s.sq i).viewVictim (16 * port + v))

/-- Count an admitted frame and reserve its staging (R185, R378). -/
def State.accept (s : State) (i : Nat) (h : FrameHdr) (q need : Nat) : State :=
  ((s.modSq i (fun x => { x with staging := x.staging ++ [{ fid := h.fid, need := need }] })).count
    (queueCtr q 0) 1).count (queueCtr q 1) (h.length + 4)

/-- Hold a lossless frame, or drop it for want of headroom (R187, R190). -/
def State.holdFrame (s : State) (i typ : Nat) (h : FrameHdr) (q need : Nat) : State × Option Bool :=
  let p := h.iport
  let k := s.priority (q % 16)
  if typ = 0 ∧ p < 1024 ∧ p / 16 = i ∧ s.pfcXoff p + s.pfcHeadroom p ≤ s.pfcH p k then
    ((s.countPort p 54 1).sqFault i 4, none)
  else (s.accept i h q need, some true)

/-- Admission of a frame at its first cell (R185): none where it is dropped, else whether it is held.
`lane` is its ingress crossing, 4 for the recirculation crossing, 5 for an injected frame. -/
def State.takeIn (s : State) (i lane typ owner : Nat) (h : FrameHdr) (c : Ctx) : State × Option Bool :=
  let q := 16 * c.eport + c.cls
  let cl := portClass c.eport
  let need := if lane < 4 then s.frameNeed h.iport else 38
  let port := c.eport
  if !s.isOn 1 q || (port != 1088 && port != 1090 && !s.isOn cl.1 cl.2) then (s.count (queueCtr q 13) 1, none)
  else if (port = 1088 ∨ port = 1089) ∧ s.hostLost ∨ port = 1090 ∧ s.svcLost then (s.count (queueCtr q 5) 1, none)
  else if s.mayTake i owner < s.committed i + need then
    let s1 := s.count (queueCtr q 4) 1
    (if s.lossless c.cls then s1.sqFault i 3 else s1, none)
  else if (s.link port).discarding then (s.count (queueCtr q 5) 1, none)
  else if s.lossless c.cls then
    if s.seenLevel i q = 3 ∨ s.ctxHeld i c then s.holdFrame i typ h q need else (s.accept i h q need, some false)
  else
    let g := if lane < 4 ∧ 48 < (s.xing i lane).length then 0 else (s.sq i).viewGf
    if 3 - h.colour ≤ s.seenLevel i q then (s.count (queueCtr q 6) 1, none)
    else if fld (s.inForce A.bufFloor) 20 0 ≤ g then (s.accept i h q need, some false)
    else if s.buf.state = 1 ∧ bit (s.classCfg c.cls) 5 then
      match s.victimClass i port c.cls with
      | some v =>
        let s1 := (s.count (queueCtr q 14) 1).modSq (s.queueSquare port) (fun x => { x with
          claims := x.claims ++ [{ from_ := i, queue := 16 * port + v, cells := need }] })
        (s1.accept i h q need, some false)
      | none => (s.count (queueCtr q 7) 1, none)
    else (s.count (queueCtr q 7) 1, none)

/-! ### Numbering (R148, R150) -/

def State.ctxIn (s : State) (i : Nat) (c : Ctx) : CtxIn :=
  SMap.get (fun _ => {}) (s.sq i).ctxIn (16 * c.eport + c.cls)
def State.setCtxIn (s : State) (i : Nat) (c : Ctx) (x : CtxIn) : State :=
  s.modSq i (fun q => { q with ctxIn := SMap.set (fun _ => {}) q.ctxIn (16 * c.eport + c.cls) x })

/-- A cell for a port may make a direct move (R150): the most recent IDLE report of its egress square
shows the port idle. DEDUCED, unsafe (log entry 47). -/
def State.directOk (s : State) (i typ : Nat) (c : Ctx) : Bool :=
  rbit (s.inForce A.tourCfg) 0 && typ == 0 && decide (c.eport < 1024 ∧ c.eport / 16 ≠ i) &&
    bit (SMap.get (fun _ => 0) (s.sq i).idleView (c.eport / 16)) (c.eport % 16)

/-- TYPE a cell is sent with: 1 where it carries later bytes of a frame sent eagerly (R151). -/
def Sq.sendType (q : Sq) (c : Cell) : Nat :=
  if c.typ = 0 ∧ c.segs.any (fun g => g.hdr.isNone && q.eager.contains g.fid) then 1 else c.typ

/-- The life of a cell that is being numbered (R148, R187). -/
def numberedSt (held kept : Bool) : CellSt := if held then .held else if kept then .unannounced else .waiting

/-- Number the cell at index `k` in its context (R148). A held cell waits for its release (R187); a cell of a deferred
frame, `kept`, has the ingress square as its holding square; any other waits for its first move.
DEDUCED, unsafe (log entry 102). -/
def State.numberCell (s : State) (i k : Nat) (c : Ctx) (held kept : Bool) : State :=
  let x := s.ctxIn i c
  let typ := ((tget (s.sq i).cells k).map (s.sq i).sendType).getD 0
  let res := !held && !kept && s.directOk i typ c
  let num (y : Cell) : Cell := { y with
    seq := x.next, num := (s.sq i).numNext, numSlot := s.tour.slot, sendSlot := s.tour.slot
    st := numberedSt held kept, reserved := res }
  let s1 := (s.setCtxIn i c { x with next := (x.next + 1) % 4194304 }).modSq i (fun q => { q with
    numNext := q.numNext + 1
    cells := tmod q.cells k (Cell.update num)
    waiting := if held || kept then q.waiting else q.waiting ++ [k]
    heldCells := if held then q.heldCells ++ [k] else q.heldCells })
  if kept && !held then s1.settleCell i k else s1

/-- A cell's segments on their way into memory: numbered at once, or deferred with the frame named; `kept` where a
frame that was deferred goes on in it. -/
structure Piece where
  segs : List Seg := []
  deferred : Option Nat := none
  kept : Bool := false
deriving DecidableEq, Repr

/-- Walk one segment (R148): the context after it, the pieces so far, and the frames newly deferred. -/
def walkSeg (held : Bool) (a : CtxIn × List Piece × Nat) (g : Seg) : CtxIn × List Piece × Nat :=
  let x := a.1
  let last? : Option Piece := a.2.1.getLast?
  let starts := g.hdr.isSome
  let kept := !starts && x.kept
  let one : Piece := { segs := [g] }
  let more (p : Piece) : List Piece := a.2.1.dropLast ++ [{ p with segs := p.segs ++ [g] }]
  let add (p : Piece) : List Piece := a.2.1.dropLast ++ [{ p with segs := p.segs ++ [g], kept := p.kept || kept }]
  let direct := if starts then x.owner.isNone && x.deferred.isEmpty else x.owner == some g.fid
  if direct then
    let ps := match last? with
      | some p => if p.deferred.isNone then add p else a.2.1 ++ [{ one with kept := kept }]
      | none => [{ one with kept := kept }]
    ({ x with owner := if g.last then none else some g.fid, kept := kept && !g.last }, ps, a.2.2)
  else
    let joined := match last?, x.deferred.getLast? with
      | some p, some d => p.deferred.isSome && (p.segs.getLast?.map Seg.fid) == some d.fid
      | _, _ => false
    let ds : List Deferred := if starts then x.deferred ++ [{ fid := g.fid, held := held }] else x.deferred
    let ds := if g.last then ds.map (fun d => if d.fid = g.fid then { d with done := true } else d) else ds
    let ps := match last? with
      | some p => if joined then more p else a.2.1 ++ [{ one with deferred := some g.fid }]
      | none => [{ one with deferred := some g.fid }]
    ({ x with deferred := ds }, ps, a.2.2 + b2n starts)

/-- Store one piece as a cell and number it or attach it to its deferred frame. -/
def State.storePiece (s : State) (i typ owner : Nat) (c : Ctx) (held : Bool) (epoch : Nat) (p : Piece) : State :=
  let cell : Cell := { typ := typ, isq := i, ctx := c, epoch := epoch, segs := p.segs
                       bad := p.segs.any (fun g => g.badEnd), st := .deferred }
  match s.alloc i owner cell.sealed with
  | (s1, none) => s1
  | (s1, some k) =>
    let s2 := match p.deferred with
      | none => s1.numberCell i k c held p.kept
      | some f =>
        let x := s1.ctxIn i c
        let ds := x.deferred.map (fun (d : Deferred) =>
          if d.fid = f then { d with cells := d.cells ++ [k] } else d)
        s1.setCtxIn i c { x with deferred := ds }
    let wrote (t : Staging) : Staging :=
      if p.segs.any (fun g => g.fid == t.fid) then { t with written := t.written + 1 } else t
    let open_ (t : Staging) : Bool := !p.segs.any (fun g => g.fid == t.fid && g.last)
    s2.modSq i (fun q => { q with staging := (q.staging.map wrote).filter open_ })

/-- Segments that go to one destination: context, held, epoch. -/
structure Group where
  ctx : Ctx := {}
  held : Bool := false
  epoch : Nat := 0
  segs : List Seg := []
deriving DecidableEq, Repr

/-- Add a segment to the group of its destination, keeping the groups' order. -/
def addGroup (gs : List Group) (c : Ctx) (held : Bool) (e : Nat) (g : Seg) : List Group :=
  if gs.any (fun x => x.ctx == c && x.held == held && x.epoch == e) then
    gs.map (fun x => if x.ctx = c ∧ x.held = held ∧ x.epoch = e then { x with segs := x.segs ++ [g] } else x)
  else gs ++ [{ ctx := c, held := held, epoch := e, segs := [g] }]

/-- The pieces of a group, the context after them, and the frames newly deferred (R148). -/
def State.piecesOf (s : State) (i : Nat) (g : Group) : CtxIn × List Piece × Nat :=
  g.segs.foldl (walkSeg g.held) (s.ctxIn i g.ctx, [], 0)

/-- Store a group's cells. -/
def State.storeGroup (s : State) (i typ owner : Nat) (g : Group) : State :=
  let w := s.piecesOf i g
  let s1 := (s.setCtxIn i g.ctx w.1).count (sqWord i 7) w.2.2
  w.2.1.foldl (fun s p => s.storePiece i typ owner g.ctx g.held g.epoch p) s1

/-- Store groups whole, or none of them where the requester may not take the cells (R173, R175). -/
def State.storeGroups (s : State) (i typ owner : Nat) (gs : List Group) : State × Bool :=
  let n := (gs.map (fun g => (s.piecesOf i g).2.1.length)).sum
  if n ≤ s.mayTake i owner then (gs.foldl (fun s g => s.storeGroup i typ owner g) s, true)
  else (s.count (sqCtr i (8 * owner)) 1, false)

/-! ### The core's decision at a frame's first cell (R17, R93 to R101) -/

/-- The frame word a decision completes (R147). -/
def State.finishHdr (s : State) (e : Nat) (h : FrameHdr) (p : Parse) (d : Decision) : FrameHdr :=
  { h with
    colour := d.colour, telem := d.telem, flow := flowWords p
    nh := (d.main.bind (fun m => if d.second.isSome then none else m.2))
    cls := (d.main.map (fun m => m.1.cls)).getD 0
    second := d.second.map (fun x => { epoch := e, origPort := h.iport, winOff := x.1, vrf2 := x.2
                                       cls := (d.main.map (fun m => m.1.cls)).getD 0, ingressNs := h.ingressNs })
    host := d.trap
    ct := match d.main with
      | some m => !h.inj && !h.built && d.second.isNone && h.second.isNone && s.ctOk h.iport m.1.eport
      | none => false
    red := if s.isReduction p && ((d.main.map (fun m => m.1.eport)) == some 1090) then p.redSteer else none
    bc := s.ptpSteered p && ((d.main.map (fun m => m.1.eport)) == some 1090) }

/-- Look a frame up, raise its exception, apply its meter and its admission: its verdict (R93, R124, R185, R217). -/
def State.judge (s : State) (i lane typ owner e : Nat) (h : FrameHdr) (p : Parse) (inj : Bool) : State × Verdict :=
  let r := s.decideFrame i e p inj
  let h1 := r.1.finishHdr e h p r.2
  let a : State × Verdict := match r.2.main with
    | none => (r.1, { epoch := e })
    | some m =>
      let x := r.1.takeIn i lane typ owner h1 m.1
      match x.2 with
      | none => (x.1, { epoch := e })
      | some held => (x.1, { main := some (m.1, h1), held := held, epoch := e })
  match r.2.copy with
  | none => a
  | some (c, tag) =>
    let f := a.1.freshFid
    let hc : FrameHdr := { h1 with fid := f.2, nh := none, second := none, host := some tag, cls := c, ct := false
                                   red := none, bc := false, txRet := none }
    let x := f.1.takeIn i lane typ owner hc { eport := 1088, cls := c }
    match x.2 with
    | none => (x.1, a.2)
    | some held => (x.1, { a.2 with copy := some ({ eport := 1088, cls := c }, hc), copyHeld := held })

/-- Decide a frame that starts in a cell taken from crossing `lane`. `ecc`: the word error its lookup meets (R138). A second pass that drops an injected frame ends its wait for return (R289); neither pass of one is
metered (R218, R288). -/
def State.startFrame (s : State) (i lane : Nat) (h : FrameHdr) (p : Parse) (ecc : Option EccErr) : State :=
  let put := fun (s : State) (v : Verdict) =>
    (if v.main = none then s.reportTx h stDropped 0 else s).modSq i (fun q => { q with
      verdicts := SMap.insert q.verdicts h.fid v })
  let m := s.meetEcc ecc
  let s := m.1
  if m.2 then put s {}
  else
    match h.second with
    | some m =>
      if s.book.live m.epoch then
        let r := s.judge i lane 0 i m.epoch h p (h.inj || h.built)
        put r.1 r.2
      else put (s.count (sqWord i 1) 1) {}
    | none =>
      let r := s.judge i lane 0 i s.book.epoch h p false
      put r.1 r.2

/-- Where a segment goes, by its frame's verdict. -/
def routeSeg (vs : SMap Verdict) (gs : List Group) (g : Seg) : List Group :=
  match tget vs g.fid with
  | none => gs
  | some v =>
    let gs := match v.main with
      | some m => addGroup gs m.1 v.held v.epoch { g with
          hdr := g.hdr.map (fun h => { m.2 with fcsBad := h.fcsBad }) }
      | none => gs
    match v.copy with
    | some m => addGroup gs m.1 v.copyHeld v.epoch { g with
        fid := m.2.fid, hdr := g.hdr.map (fun h => { m.2 with fcsBad := h.fcsBad }) }
    | none => gs

/-- The frames that start in a raw cell and are not decided yet. -/
def State.undecided (s : State) (i : Nat) (c : RawCell) : List (FrameHdr × Parse) :=
  c.segs.filterMap (fun g =>
    match g.hdr, c.parses.find? (fun x => x.1 == g.fid) with
    | some h, some p => if thas (s.sq i).verdicts g.fid then none else some (h, p.2)
    | _, _ => none)

/-- The core takes the head cell of a crossing (R17): whether it did. It stays there where no cell is to be had (R175). -/
def State.enterCore (s : State) (i lane : Nat) (ecc : Option EccErr) : State × Bool :=
  match s.xing i lane with
  | [] => (s, false)
  | c :: rest =>
    let s1 := ((s.undecided i c).zipIdx).foldl (fun s f =>
      s.startFrame i lane f.1.1 f.1.2 (if f.2 = 0 then ecc else none)) s
    let gs := c.segs.foldl (routeSeg (s1.sq i).verdicts) []
    let r := s1.storeGroups i 0 i gs
    if r.2 then
      let done := (c.segs.filter (fun g => g.last)).map (fun g => g.fid)
      ((r.1.modSq i (fun q => ({ q with
        xing := SMap.set (fun _ => []) q.xing lane rest
        verdicts := q.verdicts.filter (fun v => !done.contains v.1) }).refill lane)).pfcSquare i, true)
    else (r.1, false)

/-- Local base of the 8-lane port that parse lane `l` serves, if any (R74). -/
def State.wideBase (s : State) (i l : Nat) : Option Nat :=
  if l < 4 ∧ s.portWidth (16 * i + 8 * (l / 2)) = 8 then some (8 * (l / 2)) else none

/-- It is the turn of parse lane `l` in the alternation of its 8-lane port (R74). -/
def State.coreTurn (s : State) (i l : Nat) : Bool :=
  match s.wideBase i l with
  | some b => SMap.get (fun _ => false) (s.sq i).altCore b == (l % 2 == 1)
  | none => true

/-- The core's side of the alternation advances after a frame's last cell (R74). -/
def State.coreTurned (s : State) (i l : Nat) (c : RawCell) : State :=
  match s.wideBase i l with
  | some b =>
    if c.segs.any (fun g => g.last) then
      s.modSq i (fun q => { q with altCore := SMap.upd (fun _ => false) q.altCore b (fun x => !x) })
    else s
  | none => s

/-- CELL_ENTER_CORE (R17, R74, R88 to R101, R124, R126, R148, R185, R217). DESIGN CHOICE, unsafe (log entry 45). -/
def execCellEnterCore (sq lane : Nat) (ecc : Option EccErr) (s : State) : Host.Outcome State Fault Refusal :=
  gated s fun s =>
    match s.xing sq lane with
    | [] => s
    | c :: _ =>
      if !s.coreTurn sq lane then s
      else
        let r := s.enterCore sq lane ecc
        if r.2 then r.1.coreTurned sq lane c else r.1

/-- DEFERRED_FRAME_NUMBER (R148): the frame before it has its last cell numbered. Its cells have the ingress square as
their holding square, unless they are held. -/
def execDeferredFrameNumber (sq eport cls : Nat) (s : State) : Host.Outcome State Fault Refusal :=
  gated s fun s =>
    let c : Ctx := { eport := eport, cls := cls }
    let x := s.ctxIn sq c
    match x.owner, x.deferred with
    | none, d :: ds =>
      let s1 := s.setCtxIn sq c { x with
        deferred := ds, owner := if d.done then none else some d.fid, kept := !d.done && !d.held }
      (d.cells.foldl (fun s k => s.numberCell sq k c d.held true) s1).pfcSquare sq
    | _, _ => s

/-- HELD_FRAME_RELEASE (R187): the LEVEL last received is below 3; the cells join the waiting ones in
their numbering order. -/
def execHeldFrameRelease (sq q : Nat) (s : State) : Host.Outcome State Fault Refusal :=
  gated s fun s =>
    let x := s.sq sq
    let mine := fun k => match tget x.cells k with | some c => 16 * c.ctx.eport + c.ctx.cls == q | none => false
    let ks := x.heldCells.filter mine
    if s.seenLevel sq q < 3 ∧ ks ≠ [] then
      let c : Ctx := { eport := q / 16, cls := q % 16 }
      (s.modSq sq (fun y => { y with
        heldCells := y.heldCells.filter (fun k => !mine k)
        waiting := sortBy (fun k => ((tget y.cells k).map (fun z => z.num)).getD 0) (y.waiting ++ ks)
        cells := ks.foldl (fun m k => tmod m k (fun z => { z with
          st := .waiting, reserved := s.directOk sq (x.sendType z) c })) y.cells
        verdicts := y.verdicts.map (fun v => match v.2.main with
          | some m => if m.1 = c then (v.1, { v.2 with held := false }) else v
          | none => v)
        ctxIn := SMap.upd (fun _ => {}) y.ctxIn q (fun z => { z with
          deferred := z.deferred.map (fun d => { d with held := false }) }) })).pfcSquare sq
    else s

/-! ### Stamps (R262, R266) -/

/-- Device time referred to the balls at reception (R266). -/
def State.rxStamp (s : State) (p fid : Nat) : Tick :=
  s.now - Config.rxLatency fid * 2 ^ 24 - fld (s.reg (A.ptpCfg (p / 16) (p % 16))) 14 0 * 2 ^ 36

/-- Device time referred to the balls at transmission (R266). -/
def State.txStamp (s : State) (p fid : Nat) : Tick :=
  s.now + Config.txLatency fid * 2 ^ 24 + fld (s.reg (A.ptpCfg (p / 16) (p % 16))) 29 15 * 2 ^ 36

/-- Low 32 bits of the device time in ns (R262). -/
def State.stamp32 (s : State) : Nat := s.nowNs % 2 ^ 32

/-! ### The Blitz path (R161, R163) -/

/-- A cell that fills, or that the core has not taken, previews the context. -/
def Sq.previewed (q : Sq) (c : Ctx) : Bool :=
  q.opened.any (fun x => x.2.cell.segs ≠ [] && x.2.cell.ctx == some c) ||
    (q.xing ++ q.backlog).any (fun x => decide (x.1 < 4) && x.2.any (fun y => y.ctx == some c))

/-- A cell of the context has not been transmitted: one that is numbered (R161), or one of a frame that came before and
waits for its number, so that no Blitz frame overtakes it (R22). DEDUCED, unsafe (log entry 87). -/
def State.ctxBusy (s : State) (i : Nat) (c : Ctx) : Bool :=
  s.sqs.any (fun q => q.2.cells.any (fun x => x.2.isq == i && x.2.ctx == c && x.2.st != .released)) ||
    (s.sq i).previewed c

/-- The Blitz entry a frame takes, with its egress port and class (R161). -/
def State.blitzEntry (s : State) (port : Nat) (p : Parse) : Option (Nat × Nat × Nat) :=
  let i := port / 16
  if !s.isOn 10 i || !s.tour.running || decide (64 ≤ (s.sq i).blitz.length) then none
  else (List.range 16).findSome? (fun e =>
    let act := s.inForce (A.blitzAct i e)
    let hi := s.inForce (A.blitzMacHi i e)
    let mac := fld hi 15 0 * 2 ^ 32 + (s.inForce (A.blitzMacLo i e)).toNat
    let out := 16 * i + fld act 3 0
    let cls := fld act 7 4
    if rbit act 31 && mac == p.dmac && fld hi 27 16 == p.vid && rbit (s.inForce (A.blitzCfg i)) cls &&
        s.portExists out && s.ctOk port out && s.portIdle out && !s.ctxBusy i { eport := out, cls := cls } &&
        s.isOn 0 out && (s.link out).up && s.gateOpen out cls then some (e, out, cls)
    else none)

/-- Count a frame's bytes in a port's bandwidth window (R382). -/
def State.bwCount (s : State) (p : Nat) (rx : Bool) (len : Nat) : State :=
  if p < 1024 then s.modEport p (fun e =>
    if rx then { e with bwRx := e.bwRx + len + 24 } else { e with bwTx := e.bwTx + len + 24 })
  else s

/-- A frame goes from the ingress MAC to the egress MAC (R161). DEDUCED, unsafe (log entry 87). -/
def State.blitzForward (s : State) (port e out cls : Nat) (h : FrameHdr) (p : Parse) (data : List Byte) : State :=
  let h := { h with cls := cls, flow := flowWords p }
  ((s.countPort port 62 1).modEport out (fun x => { x with
    tx := some { fid := h.fid, cls := cls, startNs := s.nowNs, gateFrom := s.nowNs, stomp := if h.fcsBad then some 0 else none
                 blitz := some data, hdr := h, epoch := s.book.epoch } })).modSq (port / 16) (fun q => { q with
    blitz := q.blitz ++ [{ entry := e, eport := out, parse := p, hdr := h }] })

/-! ### Frames at the MACs (R44, R45, R74, R78) -/

/-- A MAC control frame with the opcode (R44, R189). -/
def macControl (d : List Byte) (op : Nat) : Bool :=
  beAt d 0 6 == 0x0180C2000001 && beAt d 12 2 == 0x8808 && beAt d 14 2 == op

/-- Parse lane of a port's next frame (R74). -/
def State.rxLane (s : State) (p : Nat) : Nat :=
  let b := p % 16
  if s.portWidth p = 8 then b / 4 + b2n (SMap.get (fun _ => false) (s.sq (p / 16)).alt b) else b / 4

/-- delayAsymmetry of a port, signed, in 1/256 ns (R269, R271). -/
def State.ptpAsym (s : State) (p : Nat) : Int := (s.reg (A.ptpAsym (p / 16) (p % 16))).toInt

/-- Record the receive stamp of a PTP event message, with the port's asymmetry, for the boundary clock service (R266). -/
def State.noteRxStamp (s : State) (port fid : Nat) (p : Parse) : State :=
  if p.ptp && decide (p.ptpMsg ≤ 3) && s.ptpSteered p then
    let xs := s.time.bcStamps ++ [{ fid := fid, stamp := s.rxStamp port fid, asym := s.ptpAsym port }]
    { s with time := { s.time with bcStamps := xs } }
  else s

/-- A frame that the MAC takes: stamped, parsed, and filled into cells, or forwarded by Blitz; a Blitz frame of an
8-lane port does not advance the port's alternation. A frame whose first cell finds its crossing full is dropped (R18).
DEDUCED, unsafe (log entry 44). DESIGN CHOICE, unsafe (log entry 103). -/
def State.takeFrame (s : State) (port : Nat) (data : List Byte) (fcsBad : Bool) : State :=
  let i := port / 16
  let f := s.freshFid
  let p := parse (s.parseCfgOf i port none) data
  let h : FrameHdr := { fid := f.2, length := data.length, iport := port, fcsBad := fcsBad, otag := p.otag
                        ingressNs := s.stamp32 }
  let s1 := f.1.noteRxStamp port f.2 p
  match s1.blitzEntry port p with
  | some (e, out, cls) => s1.blitzForward port e out cls h p data
  | none =>
    let lane := s1.rxLane port
    let ctx := s1.preview i s1.book.epoch p
    let s1 := if s1.joins i lane ctx then s1 else s1.closeCell i lane
    if coreDepth lane ≤ (s1.xing i lane).length then s1.count (sqWord i 0) 1
    else
      let wide := s1.portWidth port == 8
      let s2 := s1.packFrame i lane ctx h p data wide
      if wide then s2.modSq i (fun q => { q with alt := SMap.upd (fun _ => false) q.alt (port % 16) (fun x => !x) })
      else s2

/-- The head of a frame received at `port` takes a cut-through path: Blitz, or a forwarding result of R66. -/
def State.cutsThrough (s : State) (port : Nat) (data : List Byte) : Bool :=
  let p := parse (s.parseCfgOf (port / 16) port none) data
  (s.blitzEntry port p).isSome || (s.preview (port / 16) s.book.epoch p).any (fun c => s.ctOk port c.eport)

/-- An oversize frame is dropped and counted; where its head takes a cut-through path, it goes as far as MAX_FRAME and is
stomped (R45, R158). DEDUCED, unsafe (log entry 115). -/
def State.oversize (s : State) (port : Nat) (data : List Byte) : State :=
  let s1 := s.countPort port 6 1
  let head := data.take (s.maxFrame port - 4)
  if !s.isDraining 0 port && s.cutsThrough port head then s1.takeFrame port head true else s1

/-- FRAME_RECEIVE (R43 to R45, R74 to R80, R147, R161, R266): `data` is the frame without its FCS; `errored` says that the
MAC saw an errored block in it, as an uncorrectable codeword leaves it, and the frame then fails like its FCS (R43). -/
def execFrameReceive (port : Nat) (data : List Byte) (fcsBad errored : Bool) (s : State) :
    Host.Outcome State Fault Refusal :=
  atPins s fun s =>
    if !s.portLive port || !(s.link port).up then s
    else if data.length + 4 < 64 then s.countPort port 5 1
    else if s.maxFrame port < data.length + 4 then s.oversize port data
    else
      let fcsBad := fcsBad || errored
      let s1 := (s.portIn port data.length).bwCount port true data.length
      let s2 := if fcsBad then s1.countPort port 4 1 else s1
      if macControl data 1 then if fcsBad then s2 else s2.countPort port 7 1
      else if macControl data 0x0101 then
        if fcsBad then s2 else s2.pfcReceived port (beAt data 16 2 % 256) ((List.range 8).map (fun k => beAt data (18 + 2 * k) 2))
      else if s.isDraining 0 port then s2.countPort port 31 1
      else s2.takeFrame port data fcsBad

/-- RECIRC_PARSE (R76, R77, R100): the oldest recirculated frame starts its second pass. -/
def execRecircParse (sq : Nat) (s : State) : Host.Outcome State Fault Refusal :=
  gated s fun s =>
    match (s.sq sq).recirc with
    | [] => s
    | f :: fs =>
      if coreDepth 4 ≤ (s.xing sq 4).length then s
      else
        let p := parse (s.parseCfgOf (f.sm.origPort / 16) f.sm.origPort (some f.sm)) f.bytes
        let h := { f.hdr with second := some f.sm }
        let cells := (frameSegs h f.bytes 256).zipIdx.map (fun g =>
          { segs := [g.1], parses := if g.2 = 0 then [(h.fid, p)] else [] : RawCell })
        ((s.modSq sq (fun q => { q with recirc := fs })).pushXing sq 4 cells).portIn (1024 + sq) f.bytes.length

/-! ### Injection at the attachment squares (R14, R175, R288) -/

/-- Store a whole frame at an attachment square by its verdict. -/
def State.storeWhole (s : State) (i typ owner : Nat) (v : Verdict) (bs : List Byte) : State :=
  let put := fun (s : State) (m : Option (Ctx × FrameHdr)) (held : Bool) => match m with
    | some (c, h) => s.storeGroup i typ owner
        { ctx := c, held := held, epoch := v.epoch, segs := frameSegs h bs 256 }
    | none => s
  put (put s v.main v.held) v.copy v.copyHeld

/-- Admit and store a frame whose destination is already known; nothing is stored where cells are
lacking, and the answer is then `none`. -/
def State.injectTo (s : State) (i typ owner : Nat) (c : Ctx) (h : FrameHdr) (bs : List Byte) : State × Option Bool :=
  if s.mayTake i owner < cellsOf bs.length then (s.count (sqCtr i (8 * owner)) 1, none)
  else
    let a := s.takeIn i 5 typ owner h c
    match a.2 with
    | none => (a.1, some false)
    | some held => (a.1.storeWhole i typ owner { main := some (c, h), held := held, epoch := s.book.epoch } bs, some true)

/-! ### Transmit rings (R287 to R289) -/

/-- Put the head frame of a transmit ring among those that wait for return, with an outcome if known. -/
def State.takeTx (s : State) (n key : Nat) (ch : List (List Byte)) (out : Option (Nat × Nat)) : State :=
  (s.modRing n (fun r => { r with
    fetched := r.fetched.drop ch.length
    txWait := r.txWait ++ [(key, out, ch.flatMap (fun d => (d ++ List.replicate 32 0).take 32))] })).flushTx n

/-- A transmit descriptor's reserved fields are zero and its segment is not empty (R287). -/
def txDescOk (d : List Byte) : Bool :=
  decide (1 ≤ leAt d 8 2 ∧ leAt d 8 2 < 2 ^ 14 ∧ leAt d 10 2 < 2 ^ 11 ∧ leAt d 12 1 / 16 % 4 ≤ 1) &&
    allZero (slice d 13 11)

/-- Bytes of a frame from its buffers; none where a read failed (R301). -/
def txBytes (ch : List (List Byte)) (bufs : List HostRead) : Option (List Byte) :=
  (ch.zip bufs).foldl (fun acc x =>
    match acc, x.2 with
    | some bs, .ok b => some (bs ++ b.take (leAt x.1 8 2))
    | _, _ => none) (some [])

/-- Cells that a verdict's frame and copy of `n` bytes take. -/
def Verdict.need (v : Verdict) (n : Nat) : Nat := (b2n v.main.isSome + b2n v.copy.isSome) * cellsOf n

/-- Inject a checked frame (R288): MODE 0 to its queue, MODE 1 through a lookup, which meets the word error `ecc` (R138).
Where the pool answers none to one of its cells, the injection waits (R175). -/
def State.injectTx (s : State) (n : Nat) (ch : List (List Byte)) (d : List Byte) (bs : List Byte) (ecc : Option EccErr) :
    State :=
  let i := s.tour.attHost
  let port := leAt d 10 2
  let cls := leAt d 12 1 % 16
  let look := leAt d 12 1 / 16 % 4 == 1
  let ts := bit (leAt d 12 1) 6
  let wait := s.count (sqCtr i (8 * 65)) 1
  if !look && decide (s.mayTake i 65 < cellsOf bs.length) then wait
  else
    let f := (s.portIn 1088 bs.length).freshFid
    let p := if look then parse (f.1.parseCfgOf (port / 16) port none) bs else {}
    let h : FrameHdr := { fid := f.2, length := bs.length, iport := if look then port else 1088
                          ingressNs := s.stamp32, otag := p.otag, cls := cls, inj := true
                          txRet := if ts then some (n, f.2) else none }
    let r : State × Verdict :=
      if look then
        let m := f.1.meetEcc ecc
        if m.2 then (m.1, { epoch := m.1.book.epoch }) else m.1.judge i 5 2 65 m.1.book.epoch h p true
      else
        let a := f.1.takeIn i 5 2 65 h { eport := port, cls := cls }
        match a.2 with
        | none => (a.1, { epoch := f.1.book.epoch })
        | some held => (a.1, { main := some ({ eport := port, cls := cls }, h), held := held, epoch := f.1.book.epoch })
    if s.mayTake i 65 < r.2.need bs.length then wait
    else if r.2.main = none then (r.1.storeWhole i 2 65 r.2 bs).takeTx n f.2 ch (some (stDropped, 0))
    else
      let s2 := r.1.takeTx n f.2 ch (if ts then none else some (stOk, 0))
      s2.storeWhole i 2 65 r.2 bs

/-- TX_FRAME_INJECT (R287 to R289, R301). DEDUCED, unsafe (log entry 86). -/
def execTxFrameInject (ring : Nat) (bufs : List HostRead) (ecc : Option EccErr) (s : State) :
    Host.Outcome State Fault Refusal :=
  atPins s fun s =>
    let r := s.ring ring
    let ch := txChain 8 r.fetched
    match ch with
    | [] => s
    | d :: _ =>
      if s.isOff 5 ring || r.type != 2 || !s.fnLive r.fn || !chainWhole ch || bufs.length != ch.length then s
      else
        let look := leAt d 12 1 / 16 % 4 == 1
        let port := leAt d 10 2
        let more := match ch.getLast? with | some x => bit (leAt x 12 1) 7 | none => true
        if more || !ch.all txDescOk then s.takeTx ring 0 ch (some (stInvalid, 0))
        else if !s.portExists port || (look && decide (1024 ≤ port)) then s.takeTx ring 0 ch (some (stTarget, 0))
        else if s.hostLost || s.portUnreachable port then s.takeTx ring 0 ch (some (stUnreachable, 0))
        else match txBytes ch bufs with
          | none => (s.bufferReadFailed ring r.fn).takeTx ring 0 ch (some (stHostErr, 0))
          | some bs =>
            if bs.length < 60 ∨ s.maxFrame port - 4 < bs.length then s.takeTx ring 0 ch (some (stInvalid, 0))
            else s.injectTx ring ch d bs ecc

/-! ### The management port (R70) -/

/-- Frames of the host interface that wait for cells are tried again, oldest first (R175). -/
def State.flushHostOut (s : State) : State :=
  match s.host.outbox with
  | [] => s
  | f :: fs =>
    let r := s.injectTo s.tour.attHost 2 65 f.ctx f.hdr f.bytes
    match r.2 with
    | none => r.1
    | some _ => { r.1 with host := { r.1.host with outbox := fs } }

/-- Frames of the services complex that wait for cells are tried again, oldest first (R175). -/
def State.flushRedOut (s : State) : State :=
  match s.red.outbox with
  | [] => s
  | f :: fs =>
    let r := s.injectTo s.tour.attSvc 3 64 f.ctx f.hdr f.bytes
    match r.2 with
    | none => r.1
    | some _ => ({ r.1 with red := { r.1.red with outbox := fs } } : State).portIn 1090 f.bytes.length

/-- MGMT_FRAME_RECEIVE (R45, R70, R71, R175): the elastic buffer gains `gap` before each /I2/ of the gap in front of the
frame, and `drift` in the frame. DEDUCED, unsafe (log entry 84). -/
def execMgmtFrameReceive (data : List Byte) (errored : Bool) (gap : List Int) (drift : Int) (s : State) :
    Host.Outcome State Fault Refusal :=
  atPins s fun s =>
    if s.isOff 0 1089 || !s.host.mgmt.up then s
    else
    let e := (s.elasticGap 2 gap).elasticFrame drift
    let s := e.1
    if e.2 then s
    else if data.length + 4 < 64 ∨ s.maxFrame 1089 < data.length + 4 ∨ s.isDraining 0 1089 then s
    else
      let f := (s.portIn 1089 data.length).freshFid
      let c : Ctx := { eport := 1088, cls := Config.mgmtClass.toNat }
      let h : FrameHdr := { fid := f.2, length := data.length, iport := 1089, fcsBad := errored
                            ingressNs := s.stamp32, cls := c.cls }
      let w : WholeFrame := { hdr := h, bytes := data, ctx := c }
      ({ f.1 with host := { f.1.host with outbox := f.1.host.outbox ++ [w] } }).flushHostOut

/-! ### Receive rings (R285, R286) -/

/-- Byte 15 of a receive descriptor: class, colour and SECOND. -/
def rxByte15 (h : FrameHdr) (cls : Nat) : Nat :=
  cls + 16 * h.colour + 64 * b2n ((h.host.map (fun t => t.second)).getD false)

/-- Fill the next descriptor of a receive ring with `seg` bytes of a frame: bytes 10–20 in `meta_`. -/
def State.fillRx (s : State) (n : Nat) (seg : List Byte) (meta_ : List Byte) (first last : Bool) : State :=
  match (s.ring n).fetched with
  | [] => s
  | d :: ds =>
    let s1 := (s.modRing n (fun r => { r with fetched := ds })).hostWrite (s.ring n).fn (leAt d 0 8) true seg
    s1.ringReturn n (slice d 0 8 ++ leBytes 2 seg.length ++ meta_ ++ List.replicate 7 0)
      (b2n first * 2 ^ 30 + b2n last * 2 ^ 29)

/-- Segments of `n` bytes each. -/
def chunks : Nat → Nat → List Byte → List (List Byte)
  | 0, _, _ => []
  | k + 1, n, bs => bs.take n :: chunks k n (bs.drop n)

/-- Deliver bytes to a receive ring, or discard and count them (R285, R302). -/
def State.deliverRx (s : State) (n : Nat) (bs : List Byte) (meta_ : List Byte) : State :=
  let size := 256 * (s.ring n).bufSize
  let k := atLeast1 (cdiv bs.length size)
  if s.ringIs n 1 && s.fnLive (s.ring n).fn && decide (k ≤ (s.ring n).fetched.length) then
    ((chunks k size bs).zipIdx).foldl (fun s c => s.fillRx n c.1 meta_ (c.2 == 0) (c.2 + 1 == k)) s
  else s.count (ringCtr n 0) 1

/-- Bytes 10–20 of the receive descriptors of a frame (R286). -/
def rxMeta (f : WholeFrame) : List Byte :=
  let h := f.hdr
  let t := h.host.getD {}
  leBytes 2 h.length ++ leBytes 2 h.iport ++ leBytes 1 (t.reason + 64 * t.action) ++
    leBytes 1 (rxByte15 h f.ctx.cls) ++ leBytes 4 h.ingressNs ++ leBytes 1 f.epoch

/-- RX_FRAME_DELIVER (R285, R286). -/
def execRxFrameDeliver (s : State) : Host.Outcome State Fault Refusal :=
  gated s fun s =>
    match s.host.inbox with
    | [] => s
    | f :: fs =>
      let s1 := { s with host := { s.host with inbox := fs } }
      s1.deliverRx (s.rxRing f.hdr) f.bytes (rxMeta f)

end Sys2Proof.Machine
end

