-- ==== Sys2Proof/Machine/Egress.lean ====
section
/-!
DEFINITION. The egress: selection by strict priority and WFQ under shapers and gates, transmission with its
rewrite and stamps, postcards and trailers, gate lists, depth sampling and bandwidth windows (R158 to R160,
R202 to R228, R268, R382, R387 to R390, R425).
-/

namespace Sys2Proof.Machine

/-! ### Eligibility (R207, R222, R223) -/

/-- Look-ahead of a port in cells (R208). -/
def State.lookAhead (s : State) (p : Nat) : Nat :=
  if p < 1024 then 4 * s.portWidth p else if p = 1089 then 1 else 8

/-- Cells selected at a port and not yet passed into its egress crossing. -/
def State.aheadCells (s : State) (p : Nat) : Nat :=
  ((List.range 16).map (fun c => distinctRefs
    (((s.queue (16 * p + c)).frames.filter (fun f => f.selected)).flatMap (fun f => f.refs)))).sum

/-- The port exists, is reachable, and its link, if it has one, is up (R15, R207). -/
def State.reachable (s : State) (p : Nat) : Bool :=
  s.portExists p && !s.portDown p &&
    (if p < 1024 then true
     else if p < 1088 then s.sqActive (p - 1024)
     else if p < 1090 then !s.hostLost
     else !s.svcLost)

/-- The port may select (R207). -/
def State.maySelect (s : State) (p : Nat) : Bool :=
  let w := s.book.current
  s.reachable p && shaperOk w (portShaper w p) (s.eport p).shaper s.elapsed && decide (s.aheadCells p < s.lookAhead p)

/-! ### Tags and selection (R208 to R213) -/

/-- The better of two eligible WFQ queues: the least tag in serial order, a tie to the higher class. -/
def State.lessTag (s : State) (a b : Nat) : Nat :=
  let v := (s.eport (a / 16)).v
  let d := fun q => (((s.queue q).tag.getD 0) + tagMod - v) % tagMod
  if d b ≤ d a then b else a

/-- The queue that a port selects (R209). -/
def State.pickQueue (s : State) (p : Nat) : Option Nat :=
  let e := ((List.range 16).map (16 * p + ·)).filter s.eligible
  match (e.filter (fun q => queueStrict s.book.current q)).getLast? with
  | some q => some q
  | none => match e with
    | [] => none
    | q :: qs => some (qs.foldl (fun a b => s.lessTag a b) q)

/-- Charge both shapers for a batch, each with its own OVH (R213). -/
def State.chargeShapers (s : State) (q : Nat) : State :=
  let w := s.book.current
  let p := q / 16
  let n := ((s.queue q).batch).length
  let b := s.batchLen q
  let t := s.elapsed
  let jq := queueShaper w q
  let jp := portShaper w p
  (s.modQueue q (fun x => { x with shaper := shaperCharge w jq x.shaper t (b + n * shaperOvh w jq) })).modEport p
    (fun e => { e with shaper := shaperCharge w jp e.shaper t (b + n * shaperOvh w jp) })

/-- Select the batch of queue `q`: V advances, shapers are charged, the new head is tagged, cells are pulled. -/
def State.select (s : State) (q : Nat) : State :=
  let w := s.book.current
  let p := q / 16
  let ids := ((s.queue q).batch).map (fun f => f.fid)
  let wfq := !queueStrict w q
  let f := (s.queue q).tag.getD 0
  let s1 := (s.chargeShapers q).modEport p (fun e => { e with
    v := if wfq then f else e.v
    selected := e.selected ++ ids })
  let mark (x : QFrame) : QFrame := if ids.contains x.fid then { x with selected := true } else x
  let s2 := s1.modQueue q (fun x => { x with frames := x.frames.map mark, tag := none })
  let s3 := if wfq && (s2.queue q).head.isSome then s2.modQueue q (fun x => { x with tag := some (s2.newTag q) }) else s2
  s3.moveCells (s.queueSquare p)

/-- EGRESS_SELECT (R207 to R213). -/
def execEgressSelect (port : Nat) (s : State) : Host.Outcome State Fault Refusal :=
  gated s fun s =>
    let s1 := s.tagPort port
    if s1.maySelect port then
      match s1.pickQueue port with
      | some q => s1.select q
      | none => s1
    else s1

/-! ### The egress rewrite (R160, R194, R268, R390, R425) -/

/-- One's complement addition of 16-bit words. -/
def ones16 (a b : Nat) : Nat := (a + b) % 65536 + (a + b) / 65536

/-- An IPv4 header checksum after one 16-bit word changes from `m` to `n` (R194, R425). -/
def csumUpdate (c m n : Nat) : Nat :=
  65535 - ones16 (ones16 (65535 - c) (65535 - m)) n % 65536

/-- Offset of the outermost layer-3 header, behind the tags the parser recognises (R79), and its EtherType. -/
def l3At (otag : Bool) (bs : List Byte) : Nat × Nat :=
  let o := if otag then 16 else 12
  if otag ∧ beAt bs o 2 = 0x8100 then (o + 6, beAt bs (o + 4) 2) else (o + 2, beAt bs o 2)

/-- Replace the 16-bit word at even offset `k` of the IPv4 header at `o`, with its checksum. -/
def ip4Word (bs : List Byte) (o k v : Nat) : List Byte :=
  patch (patch bs (o + k) (beBytes 2 v)) (o + 10) (beBytes 2 (csumUpdate (beAt bs (o + 10) 2) (beAt bs (o + k) 2) v))

/-- Decrement the TTL or hop limit of the outermost IP header (R425). -/
def decTtl (otag : Bool) (bs : List Byte) : List Byte :=
  let h := l3At otag bs
  if h.2 = 0x0800 then
    let w := beAt bs (h.1 + 8) 2
    ip4Word bs h.1 8 ((w / 256 + 255) % 256 * 256 + w % 256)
  else if h.2 = 0x86DD then patch bs (h.1 + 7) (beBytes 1 ((beAt bs (h.1 + 7) 1 + 255) % 256))
  else bs

/-- Write CE where the outermost IP header carries ECT(0) or ECT(1) (R194). -/
def markCe (otag : Bool) (bs : List Byte) : List Byte :=
  let h := l3At otag bs
  if h.2 = 0x0800 then
    let w := beAt bs h.1 2
    if w % 4 = 1 ∨ w % 4 = 2 then ip4Word bs h.1 0 (w / 4 * 4 + 3) else bs
  else if h.2 = 0x86DD then
    let w := beAt bs h.1 2
    let e := w / 16 % 4
    if e = 1 ∨ e = 2 then patch bs h.1 (beBytes 2 (w - 16 * e + 48)) else bs
  else bs

/-- The outer tag of a rewritten frame (R425). -/
def retag (r : Rewrite) (pcp : Nat) (otag : Bool) (bs : List Byte) : List Byte :=
  let tag := beBytes 2 0x8100 ++ beBytes 2 (pcp * 8192 + r.vid)
  bs.take 12 ++ (if r.tag then tag else []) ++ bs.drop (if otag then 16 else 12)

/-- The rewrite of a frame's next hop (R425). -/
def rewriteNh (r : Rewrite) (pcp : Nat) (otag : Bool) (bs : List Byte) : List Byte :=
  let b1 := if r.route then patch (decTtl otag bs) 0 (beBytes 6 r.dmac ++ beBytes 6 r.smac) else bs
  retag r pcp otag b1

/-- Offset of the PTP header of a frame the service built without a tag of its own, or behind one. -/
def ptpAt (bs : List Byte) : Nat × Option Nat :=
  let o := if beAt bs 12 2 = 0x8100 then 16 else 12
  if beAt bs o 2 = 0x0800 then
    let ihl := 4 * (beAt bs (o + 2) 1 % 16)
    (o + 2 + ihl + 8, some (o + 2 + ihl))
  else (o + 2, none)

/-- A one-step Sync takes its transmit stamp (R268): seconds and nanoseconds into originTimestamp, the fraction
into correctionField, and the UDP checksum of UDP over IPv4 becomes 0. -/
def oneStepSync (stamp : Tick) (bs : List Byte) : List Byte :=
  let a := ptpAt bs
  let ns := toNs stamp
  let frac := stamp / 2 ^ 24 % 65536
  let b1 := patch bs (a.1 + 34) (beBytes 6 (ns / 1000000000) ++ beBytes 4 (ns % 1000000000))
  let b2 := patch b1 (a.1 + 8) (beBytes 8 ((beAt bs (a.1 + 8) 8 + frac) % 2 ^ 64))
  match a.2 with
  | some u => patch b2 (u + 6) [0, 0]
  | none => b2

/-! ### The state of a frame at its egress port -/

/-- The data of a cell that stands in a position of the pull buffer. -/
def Sq.posData (q : Sq) (r : CellRef) : Option Cell :=
  (q.pullBuf.find? (fun p => p.ref.hsq == r.hsq && p.ref.idx == r.idx)).bind (fun p => p.data)

/-- The bytes of a frame that are at the egress, and whether all of them are. -/
def State.egressBytes (s : State) (e : Nat) (f : QFrame) : List Byte × Bool :=
  let rest := f.refs.map (fun r => (s.sq e).posData r)
  let have_ := rest.takeWhile (fun c => c.isSome)
  (f.bytes ++ (have_.filterMap id).flatMap (fun c => (c.segs.filter (fun g => g.fid == f.fid)).flatMap (fun g => g.bytes)),
    f.complete && !f.gap && decide (have_.length = rest.length))

/-- TOUR_CFG.CT_DELAY in slots (R170). -/
def State.ctDelay (s : State) : Nat := fld (s.inForce A.tourCfg) 13 8

/-- Room for a frame in the crossing of a recirculation port: beside the frames that wait there it fits in 32 cells; one
longer than the crossing passes it alone (R16). DESIGN CHOICE, unsafe (log entry 101). -/
def State.recircRoom (s : State) (p : Nat) (f : QFrame) : Bool :=
  let n := s.recircCells p
  n == 0 || decide (n + cellsOf f.hdr.length ≤ xingDepth p)

/-- The frame may start at its port (R66, R159): its first cell is in the crossing. A frame stored and forwarded
has all its cells at the egress, or as many as the crossing holds; a cut-through frame of several cells waits
CT_DELAY slots. DEDUCED, unsafe (log entry 64). -/
def State.ready (s : State) (e p : Nat) (f : QFrame) : Bool :=
  let one := f.complete && decide (f.refs.length + f.passed ≤ 1)
  f.bytes ≠ [] &&
    (if f.hdr.ct then one || decide (f.linkSlot + s.ctDelay ≤ s.tour.slot)
     else f.complete && ((s.egressBytes e f).2 || f.gap || decide (xingDepth p ≤ s.xingUsed p)))

/-- What the frame's next hop writes (R160): from the side its epoch selects while that epoch is live, else from
the current side, which is counted. -/
def State.readRewrite (s : State) (e : Nat) (f : QFrame) : State × Option Rewrite :=
  match f.hdr.nh with
  | none => (s, none)
  | some n =>
    let live := s.book.live f.epoch
    let h := s.book.nextHop f.epoch n
    let rw : Rewrite := { route := h.route, tag := h.tag, vid := h.vid, dmac := h.dmac
                          smac := bits (s.book.view f.epoch 5 (8 * h.smacIdx)) 47 0 }
    ((if live then s else s.count (sqWord e 12) 1), some rw)

/-- Record the delay of a frame at its start (R227). -/
def State.noteDelay (s : State) (e q : Nat) (h : FrameHdr) : State :=
  if s.qsampOn e then
    let d := (s.stamp32 + 2 ^ 32 - h.ingressNs % 2 ^ 32) % 2 ^ 32
    s.modQueue q (fun x => { x with delayLast := d, delayMax := max x.delayMax d })
  else s

/-- Start a frame at its port: stamped, its rewrite read. -/
def State.startTx (s : State) (e p q : Nat) (f : QFrame) : State :=
  let r := s.readRewrite e f
  let begun (x : QFrame) : QFrame := if x.fid = f.fid then { x with started := true } else x
  let t : Tx := { fid := f.fid, cls := q % 16, startNs := s.nowNs, startAt := s.elapsed, gateFrom := s.nowNs
                  stamp := if p < 1024 then s.txStamp p f.fid else s.now
                  rw := r.2, hdr := f.hdr, qdepth := f.qdepth, tourDelay := f.tourDelay, ecn := f.ecn, epoch := f.epoch }
  let s1 := (r.1.modQueue q (fun x => { x with frames := x.frames.map begun })).modEport p (fun x => { x with
    selected := x.selected.filter (fun i => i ≠ f.fid), tx := some t })
  (s1.noteDelay e q f.hdr).moveCells e

/-- FRAME_TRANSMIT_START (R66, R159, R191, R222, R227, R262): the next selected frame starts when its port is free,
its gate open and its priority not paused. -/
def execFrameTransmitStart (port : Nat) (s : State) : Host.Outcome State Fault Refusal :=
  gated s fun s =>
    let e := s.queueSquare port
    match (s.eport port).tx, (s.eport port).selected with
    | none, fid :: _ =>
      match s.frameAt port fid with
      | some (q, f) =>
        if s.reachable port && s.ready e port f && s.gateOpen port (q % 16) && !s.paused port (q % 16) && s.recircRoom port f
        then s.startTx e port q f else s
      | none => s
    | _, _ => s

/-! ### Postcards (R387 to R389) -/

/-- A frame's postcard record (R388), little-endian. -/
def postcardBytes (h : FrameHdr) (t : Tx) (port len egressNs seq : Nat) (stomped : Bool) : List Byte :=
  leBytes 2 h.iport ++ leBytes 2 port ++
    leBytes 1 (t.cls + 16 * h.colour + 64 * b2n stomped + 128 * b2n t.blitz.isSome) ++ leBytes 1 t.epoch ++
    leBytes 2 t.tourDelay ++ leBytes 4 h.ingressNs ++ leBytes 4 egressNs ++ leBytes 4 (t.qdepth % 2 ^ 21) ++
    leBytes 2 len ++ leBytes 2 0 ++ leBytes 4 (mix64 h.flow 0).toNat ++ leBytes 4 seq

/-- A record in network byte order: each field of R388 reversed. -/
def postcardNet (bs : List Byte) : List Byte :=
  ([2, 2, 1, 1, 2, 4, 4, 4, 2, 2, 4, 4].foldl (fun (a : List Byte × List Byte) n =>
    (a.1 ++ (a.2.take n).reverse, a.2.drop n)) ([], bs)).1

/-- Telemetry register `k` in force in a square (R391). -/
def State.telemReg (s : State) (i k : Nat) : Reg := s.inForce (telemKey i k)

/-- Inject a frame the services complex built (R247, R389): it waits where cells are lacking. -/
def State.injectBuilt (s : State) (c : Ctx) (h : FrameHdr) (bs : List Byte) : State :=
  let f := s.freshFid
  let h := { h with fid := f.2, length := bs.length, iport := 1090, ingressNs := s.stamp32, cls := c.cls, built := true }
  let w : WholeFrame := { hdr := h, bytes := bs, ctx := c, epoch := s.book.epoch }
  ({ f.1 with red := { f.1.red with outbox := f.1.red.outbox ++ [w] } }).flushRedOut

/-- Ethernet header of a frame the device builds: MAC addresses and tag from its next hop (R113, R425).
PRESUMED, unsafe (log entry 68). -/
def State.builtL2 (s : State) (h : NextHop) (pri etype : Nat) : List Byte :=
  beBytes 6 h.dmac ++ beBytes 6 (bits (s.book.current 5 (8 * h.smacIdx)) 47 0) ++
    (if h.tag then beBytes 2 0x8100 ++ beBytes 2 (pri * 8192 + h.vid) else []) ++ beBytes 2 etype

/-- A port that a built frame cannot be sent to: no port, or its link is down. -/
def State.noPortFor (s : State) (p : Nat) : Bool := !s.portExists p || s.portDown p

/-- Close a collector frame of the first 8 postcards of a square at most (R389). -/
def State.closePostcards (s : State) (i : Nat) : State :=
  let pcs := (s.sq i).postcards.take 8
  if pcs = [] then s
  else
    let s1 := s.modSq i (fun q => { q with postcards := q.postcards.drop 8 })
    let h := s.book.nextHop s.book.epoch (fld (s.telemReg i 1) 17 0)
    if h.unres || s.noPortFor h.port then s1.count (sqWord i 17) pcs.length
    else
      let body := s.builtL2 h (s.priority 0) (fld (s.telemReg i 2) 15 0) ++ pcs.flatMap (fun p => postcardNet p.bytes)
      s1.injectBuilt { eport := h.port, cls := 0 } {} (body ++ List.replicate (60 - body.length) 0)

/-- Bytes 10–20 of the descriptor of a postcard: the frame's own, with LENGTH 32 and ACTION 3 (R286, R389). -/
def postcardMeta (h : FrameHdr) (t : Tx) : List Byte :=
  leBytes 2 32 ++ leBytes 2 h.iport ++ leBytes 1 192 ++ leBytes 1 (t.cls + 16 * h.colour) ++
    leBytes 4 h.ingressNs ++ leBytes 1 t.epoch

/-- Queue or deliver one postcard (R388, R389). -/
def State.makePostcard (s : State) (i port : Nat) (t : Tx) (len : Nat) (stomped : Bool) : State :=
  if !s.isOn 8 i || decide (256 ≤ (s.sq i).postcards.length) then s.count (sqWord i 17) 1
  else
    let bs := postcardBytes t.hdr t port len (t.startNs % 2 ^ 32) (s.sq i).pcSeq stomped
    let s1 := (s.modSq i (fun q => { q with pcSeq := (q.pcSeq + 1) % 2 ^ 32 })).count (sqWord i 16) 1
    let cfg := s.telemReg i 0
    if rbit cfg 28 then
      let s2 := s1.modSq i (fun q => { q with postcards := q.postcards ++ [{ bytes := bs, at_ := s.elapsed }] })
      if 8 ≤ (s2.sq i).postcards.length then s2.closePostcards i else s2
    else s1.deliverRx (fld cfg 27 16) bs (postcardMeta t.hdr t)

/-- The sample flag of a frame takes this one: one in SAMPLE_N per egress port (R387). -/
def State.sampleHit (s : State) (i port : Nat) : State × Bool :=
  let k := if port = 1089 then 16 else port % 16
  let n := SMap.get (fun _ => 0) (s.sq i).sampleCnt k + 1
  let hit := decide (atLeast1 (fld (s.inForce (A.telemSq i)) 31 16) ≤ n)
  (s.modSq i (fun q => { q with sampleCnt := SMap.set (fun _ => 0) q.sampleCnt k (if hit then 0 else n) }), hit)

/-- The postcard a frame's TELEM flags ask for at its last byte (R387, R388). DEDUCED, unsafe (log entry 67). -/
def State.telemAt (s : State) (port : Nat) (t : Tx) (len : Nat) (stomped : Bool) : State :=
  let i := s.queueSquare port
  let r := if bit t.hdr.telem 2 then s.sampleHit i port else (s, false)
  if bit t.hdr.telem 0 || r.2 then r.1.makePostcard i port t len stomped else r.1

/-- POSTCARD_FRAME_CLOSE (R389): 10 µs after the first record of the frame. -/
def execPostcardFrameClose (sq : Nat) (s : State) : Host.Outcome State Fault Refusal :=
  gated s fun s =>
    match (s.sq sq).postcards with
    | [] => s
    | p :: _ => if p.at_ + usT 10 ≤ s.elapsed then s.closePostcards sq else s

/-! ### The record of a Blitz frame (R163) -/

/-- The lookup of a Blitz frame's record, which meets the word error `ecc` (R138), and whether it bridges the frame unchanged to the entry's port in the entry's
class (R163). -/
def State.blitzLook (s : State) (i : Nat) (b : BlitzRec) (ecc : Option EccErr) : State × Decision × Bool :=
  let m := s.meetEcc ecc
  let r : State × Decision := if m.2 then (m.1, {}) else m.1.decideFrame i m.1.book.epoch b.parse false
  let d := r.2
  let routes := match d.main with
    | some m => (match m.2 with
        | some n =>
          let nh := s.book.nextHop s.book.epoch n
          nh.route || nh.tag != b.parse.otag || (nh.tag && nh.vid != b.parse.vid)
        | none => false)
    | none => true
  (r.1, d, !m.2 && !routes && !d.metered && d.second.isNone && d.raised.isNone &&
    (d.main.map (fun m => m.1)) == some { eport := b.eport, cls := b.hdr.cls })

/-- Count a Blitz frame in its queue as the mesh path counts an admitted and dequeued frame (R163, R378). -/
def State.countBlitz (s : State) (b : BlitzRec) : State :=
  let q := 16 * b.eport + b.hdr.cls
  let n := b.hdr.length + 4
  (((s.count (queueCtr q 0) 1).count (queueCtr q 1) n).count (queueCtr q 2) 1).count (queueCtr q 3) n

/-- The telemetry of a Blitz frame: its flags join the frame in transmission, which a mismatch stomps; one whose
transmission has ended makes its postcard now (R163, R387). -/
def State.blitzTelem (s : State) (b : BlitzRec) (telem : Nat) (good : Bool) : State :=
  match b.done with
  | none => s.modEport b.eport (fun x => { x with tx := x.tx.map (fun t =>
      if t.fid = b.hdr.fid then { t with hdr := { t.hdr with telem := telem }
                                         stomp := if good then t.stomp else some (t.stomp.getD 4) } else t) })
  | some (ns, len, stomped) =>
    s.telemAt b.eport { fid := b.hdr.fid, cls := b.hdr.cls, startNs := ns, blitz := some []
                        hdr := { b.hdr with telem := telem }, epoch := s.book.epoch } len stomped

/-- BLITZ_RECORD_LOOKUP (R163): the frame is looked up, counted, learned and sampled; anything but bridging
it unchanged to the entry's port in the entry's class is a mismatch. -/
def execBlitzRecordLookup (sq : Nat) (ecc : Option EccErr) (s : State) : Host.Outcome State Fault Refusal :=
  gated s fun s =>
    match (s.sq sq).blitz with
    | [] => s
    | b :: bs =>
      let r := (s.modSq sq (fun q => { q with blitz := bs })).blitzLook sq b ecc
      let s2 := (r.1.countBlitz b).blitzTelem b r.2.1.telem r.2.2
      if r.2.2 then s2
      else
        let a := A.blitzAct sq b.entry
        ((s2.count (sqWord sq 11) 1).setReg a (putFld (s2.reg a) 31 31 0)).setForce a (putFld (s2.inForce a) 31 31 0)

/-- The record of a Blitz frame that still waits for its lookup keeps what the frame's transmission ended with. -/
def State.blitzEnded (s : State) (p : Nat) (t : Tx) (len : Nat) (stomped : Bool) : State :=
  let note (b : BlitzRec) : BlitzRec :=
    if b.hdr.fid = t.fid then { b with done := some (t.startNs, len, stomped) } else b
  if t.blitz.isSome then s.modSq (p / 16) (fun q => { q with blitz := q.blitz.map note }) else s

/-! ### Trailers (R390) -/

/-- HOP of a trailer appended to a frame. -/
def trailerHop (bs : List Byte) : Nat :=
  let t := bs.drop (bs.length - 16)
  if t.length = 16 ∧ beAt t 0 2 = 0xA7C1 ∧ beAt t 2 1 / 16 = 1 then min 15 (beAt t 2 1 % 16 + 1) else 0

/-- The 16 bytes of a trace trailer. -/
def trailerBytes (dev : Nat) (port : Nat) (t : Tx) (bs : List Byte) : List Byte :=
  beBytes 2 0xA7C1 ++ beBytes 1 (16 + trailerHop bs) ++ beBytes 1 (t.cls + 16 * t.hdr.colour + 64 * b2n t.ecn) ++
    beBytes 2 dev ++ beBytes 2 t.hdr.iport ++ beBytes 2 port ++ beBytes 2 (min 65535 (t.qdepth / 16)) ++
    beBytes 4 ((t.startNs % 2 ^ 32 + 2 ^ 32 - t.hdr.ingressNs % 2 ^ 32) % 2 ^ 32)

/-- Append the trailer a frame asks for, or count that it gets none (R390). -/
def State.addTrailer (s : State) (port : Nat) (t : Tx) (bs : List Byte) : State × List Byte :=
  let i := s.queueSquare port
  if !bit t.hdr.telem 1 || decide (1024 ≤ port ∧ port ≠ 1089) then (s, bs)
  else if t.blitz.isSome || port == 1089 || t.hdr.iport == 1089 || decide (s.maxFrame port - 4 < bs.length + 16) then
    (s.count (sqWord i 19) 1, bs)
  else (s.count (sqWord i 18) 1, bs ++ trailerBytes (fld (s.telemReg i 0) 15 0) port t bs)

/-! ### The end of a transmission (R158, R160, R223, R289, R377, R382) -/

/-- The bytes a frame leaves with: rewritten, marked, stamped (R160, R194, R268, R425). A frame that leaves a recirculation
port is marked there too, before its second pass (DESIGN CHOICE, unsafe, log entry 110). -/
def State.leaveBytes (s : State) (t : Tx) (bs : List Byte) : List Byte :=
  let b1 := if t.ecn then markCe t.hdr.otag bs else bs
  let b2 := match t.rw with
    | some r => rewriteNh r (s.priority t.cls) t.hdr.otag b1
    | none => b1
  if t.hdr.oneStep then oneStepSync t.stamp b2 else b2

/-- What a transmission ends with: its bytes and the cause of its stomp, if any. -/
def State.finalBytes (s : State) (e p : Nat) (t : Tx) : List Byte × Option Nat :=
  match t.blitz with
  | some bs => (bs, t.stomp)
  | none =>
    match s.frameAt p t.fid with
    | none => ([], some (t.stomp.getD 2))
    | some (_, f) =>
      let b := s.egressBytes e f
      let known := match t.stomp with | some c => some c | none => f.fault
      (s.leaveBytes t b.1, match known with | some c => some c | none => if b.2 then none else some 3)

/-- A gate has closed on a frame on the wire: each instant is judged by the lists in force at it (R223). -/
def State.overran (s : State) (p : Nat) (t : Tx) : Bool :=
  t.overrun || (!s.ungated p &&
    !(List.range (s.nowNs - t.gateFrom)).all (fun k => s.gateAt p t.cls (t.gateFrom + k)))

/-- Judge the frame in transmission up to now, before the port's lists, or device time, change; device time then is `ns`. -/
def State.judgeGates (s : State) (p ns : Nat) : State :=
  match (s.eport p).tx with
  | some t => s.modEport p (fun e => { e with tx := some { t with overrun := s.overran p t, gateFrom := ns } })
  | none => s

/-- Count a gate that closed while a frame was on the wire (R223). DEDUCED, unsafe (log entry 69). -/
def State.countOverrun (s : State) (p : Nat) (t : Tx) : State :=
  if s.overran p t then (s.countPort p 53 1).orReg (A.gateStat (p / 16) (p % 16)) (2 ^ 30) else s

/-- Where the bytes of a frame go when they have left the core. -/
def State.leavePort (s : State) (p : Nat) (t : Tx) (bs : List Byte) (stomped : Bool) : State :=
  let w : WholeFrame := { hdr := { t.hdr with length := bs.length }, bytes := bs, ctx := { eport := p, cls := t.cls }
                          epoch := t.epoch }
  if p < 1024 then
    { s with io := { s.io with wire := { port := p, bytes := bs, fcs := b2n stomped, startNs := t.startNs } :: s.io.wire } }
  else if stomped then s
  else if p < 1088 then
    let m : SecondMeta := t.hdr.second.getD { epoch := t.epoch, origPort := t.hdr.iport, cls := t.cls
                                              ingressNs := t.hdr.ingressNs }
    s.modSq (p - 1024) (fun q => { q with recirc := q.recirc ++ [{ hdr := w.hdr, bytes := bs, sm := m }] })
  else if p = 1088 then { s with host := { s.host with inbox := s.host.inbox ++ [w] } }
  else if p = 1089 then
    { s with io := { s.io with wire := { port := p, bytes := bs, fcs := 0, startNs := t.startNs } :: s.io.wire } }
  else { s with red := { s.red with inbox := s.red.inbox ++ [w] } }

/-- Report a frame's transmission to the ring or the service that waits for it (R268, R289): one that goes on to its
second pass is still under way. -/
def State.reportEnd (s : State) (p : Nat) (t : Tx) (stomped : Bool) : State :=
  let again := decide (1024 ≤ p ∧ p < 1088)
  let s1 := if again && !stomped then s
    else s.reportTx t.hdr (if stomped then 11 else 0) (if again then 0 else t.startNs % 2 ^ 32)
  if t.hdr.bc && t.hdr.built && !stomped then
    let xs := s1.time.bcStamps ++ [{ fid := t.fid, stamp := t.stamp, asym := s.ptpAsym p }]
    { s1 with time := { s1.time with
      bcStamps := xs
      bcSync := s1.time.bcSync.map (fun e => if e.2.fid = t.fid then (e.1, { e.2 with stamp := some t.stamp }) else e) } }
  else s1

/-- End the transmission at a port. DEDUCED, unsafe (log entry 65). -/
def State.endTx (s : State) (p : Nat) (t : Tx) : State :=
  let e := s.queueSquare p
  let b := s.finalBytes e p t
  let stomped := b.2.isSome
  let r := s.addTrailer p t b.1
  let s1 := r.1.modEport p (fun x => { x with tx := none })
  let s2 := s1.removeFrames (16 * p + t.cls) (fun f => f.fid == t.fid)
  let s3 := ((s2.countPort p 2 1).countPort p 3 (r.2.length + 4)).bwCount p false r.2.length
  let s4 := match b.2 with
    | some c => if c < 4 then s3.countPort p (48 + c) 1 else s3
    | none => s3
  let s5 := (s4.countOverrun p t).leavePort p t r.2 stomped
  let s6 := if p < 1024 ∨ p = 1089 then s5.telemAt p t b.1.length stomped else s5
  ((s6.blitzEnded p t b.1.length stomped).reportEnd p t stomped).moveCells e

/-- FRAME_TRANSMIT_END (R158 to R160, R223, R268, R377, R382, R387 to R390, R425). -/
def execFrameTransmitEnd (port : Nat) (s : State) : Host.Outcome State Fault Refusal :=
  gated s fun s =>
    match (s.eport port).tx with
    | some t => s.endTx port t
    | none => s

/-! ### Gate lists (R221 to R226) -/

/-- Why a gate list is not loaded (R225): 1 COUNT, 2 CYCLE, 3 ENTRY_OFF, 4 entries beyond SIZE; 0 loads. -/
def gclCode (w : BookView) (size n : Nat) : Nat :=
  let h := gclHeader w n
  if h.2.2.1 = 0 ∨ 256 < h.2.2.1 then 1
  else if h.2.1 < 1000 then 2
  else if h.2.2.2 % 8 ≠ 0 then 3
  else if size < h.2.2.2 + 8 * h.2.2.1 then 4
  else 0

/-- Start instant of a loaded list (R224). -/
def gateStart (g : GateList) (now : Nat) : Nat :=
  if now < g.base then g.base else g.base + ((now - g.base) / g.cycle + 1) * g.cycle

/-- The two lists agree in header and entries (R224). -/
def sameGates (a b : GateList) : Bool :=
  a.base == b.base && a.cycle == b.cycle && a.off == b.off && a.entries == b.entries

/-- GCL_LOAD_COMPLETE (R224, R225). -/
def execGclLoadComplete (port : Nat) (s : State) : Host.Outcome State Fault Refusal :=
  gated s fun s =>
    match (s.eport port).loadGate with
    | none => s
    | some n =>
      let w := s.book.current
      let s1 := s.modEport port (fun e => { e with loadGate := none })
      if n = 0 then ((s1.judgeGates port s.nowNs).modEport port (fun e => { e with
        gate := none, pendGate := none, gateEntry := 0 })).tagPort port
      else
        let code := gclCode w (4096 * mapSize s.book.map 9) n
        if code ≠ 0 then s1.logReg (A.egrStat (port / 16)) (port % 16 * 2 ^ 24 + code * 2 ^ 16 + n)
        else
          let g := gclRead w n
          let same := match (s.eport port).gate with | some o => sameGates o g | none => false
          ((s1.judgeGates port s.nowNs).modEport port (fun e => { e with
            pendGate := if same then none else some (g, gateStart g s.nowNs) })).tagPort port

/-- GCL_START (R224, R226): device time has reached the pending list's start. -/
def execGclStart (port : Nat) (s : State) : Host.Outcome State Fault Refusal :=
  gated s fun s =>
    match (s.eport port).pendGate with
    | some (g, st) =>
      if st ≤ s.nowNs then
        ((s.judgeGates port s.nowNs).modEport port (fun e => { e with
          gate := some g, pendGate := none, gateEntry := g.entryAt s.nowNs })).tagPort port
      else s
    | none => s

/-- GATE_ENTRY_CHANGE (R222, R226). -/
def execGateEntryChange (port : Nat) (s : State) : Host.Outcome State Fault Refusal :=
  gated s fun s =>
    match (s.eport port).gate with
    | some g => (s.modEport port (fun e => { e with gateEntry := g.entryAt s.nowNs })).tagPort port
    | none => s

/-! ### Sampling and bandwidth windows (R227, R382) -/

/-- Queues with contents or samples that a square holds. -/
def State.heldQueues (s : State) (i : Nat) : List Nat :=
  (s.queues.map (fun e => e.1)).filter (fun q => s.queueSquare (q / 16) == i)

/-- PERIOD of a square's sampling: 0 acts as 1 µs, a value above 10,000 as 10,000 (R229). -/
def State.qsampPeriod (s : State) (i : Nat) : Tick := usT (clip 1 10000 (fld (s.inForce (A.qsampCfg i)) 15 0))

/-- QSAMP_PERIOD (R227 to R229): a period has ended, the register takes effect, and the square visits its queues, unless
it is removed. -/
def execQsampPeriod (sq : Nat) (s : State) : Host.Outcome State Fault Refusal :=
  gated s fun s =>
    if s.elapsed < (s.sq sq).qsampAt + s.qsampPeriod sq then s
    else
      let s1 := (s.modSq sq (fun q => { q with qsampAt := s.elapsed })).latch [A.qsampCfg sq]
      if s1.qsampOn sq && s1.sqActive sq then
        (s1.heldQueues sq).foldl (fun s q => s.modQueue q (fun x => { x with depthNow := x.depth })) s1
      else s1

/-- End the bandwidth window of one port (R382). -/
def State.bwPort (s : State) (p fin : Nat) : State :=
  let e := s.eport p
  let s1 := (s.setCounter (portCtr p 56) e.bwRx).setCounter (portCtr p 57) e.bwTx
  let s2 := (s1.setCounter (portCtr p 58) (max (s.counter (portCtr p 58)) e.bwRx)).setCounter (portCtr p 59)
    (max (s.counter (portCtr p 59)) e.bwTx)
  (s2.setCounter (portCtr p 60) fin).modEport p (fun x => { x with bwRx := 0, bwTx := 0 })

/-- CNT_BW_CFG.WINDOW in ns: 0 acts as 1 µs, a value above 1,000,000 as 1,000,000 (R391). -/
def State.bwLen (s : State) : Nat := 1000 * clip 1 1000000 (fld (s.inForce A.cntBwCfg) 19 0)

/-- End the bandwidth window of every front-panel port at device time `fin`. The next one, under the register as it stands
then, is the window of device time `now` (R382, R391). -/
def State.bwWindow (s : State) (fin now : Nat) : State :=
  let s1 := (((List.range 1024).filter s.portExists).foldl (fun s p => s.bwPort p fin) s).latch [A.cntBwCfg]
  { s1 with time := { s1.time with bwWin := now / s1.bwLen } }

/-- BW_WINDOW_END (R382): device time has reached a multiple of the window. DEDUCED, unsafe (log entry 70). -/
def execBwWindowEnd (s : State) : Host.Outcome State Fault Refusal :=
  gated s fun s =>
    if s.time.bwWin = s.nowNs / s.bwLen then s else s.bwWindow (s.nowNs / s.bwLen * s.bwLen) s.nowNs

end Sys2Proof.Machine
end

