-- ==== Sys2Proof/Machine/Tempo.lean ====
section
/-!
DEFINITION. Phases, the paced tempo, the phase schedule, the governor, the power cap, the thermal limiter
and the regulator alert (R328 to R349).
-/

namespace Sys2Proof.Machine

/-! ### Settings in force (R349) -/

def State.guard (s : State) : Nat := clip 5 30 (fld (s.inForce A.powerCfg) 7 0)
def State.capHyst (s : State) : Nat := clip 1 20 (fld (s.inForce A.powerCfg) 15 8)
/-- THR and THYST in 0.125 °C. -/
def State.thermThr (s : State) : Int := 8 * clip 70 110 (fld (s.inForce A.powerCfg) 23 16)
def State.thermHyst (s : State) : Int := 8 * atLeast1 (fld (s.inForce A.powerCfg) 27 24)

/-! ### The target and the paced tempo (R331) -/

/-- The tempo the phase asks for, in MHz: F, or the natural tempo in free-run (R331). -/
def State.phaseTempo (s : State) : Nat :=
  if s.power.cur.mode = 0 then 10 * s.power.cur.tempo else Config.naturalTempo s.time.cycles s.tour.slot

/-- The lowest of a limit in force and `t`; 0 is no limit. -/
def limitTo (l t : Nat) : Nat := if l = 0 then t else min l t

/-- The target tempo (R331). -/
def State.targetTempo (s : State) : Nat :=
  max 600 (limitTo s.power.ttherm (limitTo s.power.tcap s.phaseTempo))

/-- One period's step towards the target: at most 2 % (R331). DEDUCED, unsafe (log entry 58). -/
def rampStep (now target : Nat) : Nat :=
  if target ≤ now then max target (cdiv (98 * now) 100) else min target (102 * now / 100)

/-- Free-run with no limiter in force: nothing is paced (R328). -/
def State.freeRun (s : State) : Bool := s.power.cur.mode == 1 && s.power.tcap == 0 && s.power.ttherm == 0

/-- Every active square's margin meets GUARD. -/
def State.marginsMet (s : State) : Bool :=
  squares.all (fun i => !s.sqActive i || decide ((s.guard : Int) ≤ (s.vsq i).margin))

/-! ### Setpoints (R334, R337) -/

def State.raiseSetpoints (s : State) : State :=
  squares.foldl (fun s i => s.modVsq i (fun v => { v with setpoint := max s.power.cur.vmin v.setpoint })) s
def State.lowerSetpoints (s : State) : State :=
  squares.foldl (fun s i => s.modVsq i (fun v => { v with setpoint := min s.power.cur.vmax v.setpoint })) s

/-- The rise that a phase asks for waits: margins are missing and 100 µs have not passed (R334). -/
def State.rampWaits (s : State) : Bool :=
  match s.power.rampFrom with
  | some x => !s.marginsMet && decide (s.elapsed < x + usT 100)
  | none => false

/-- The tempo of the next period (R328, R331, R334). -/
def State.nextTempo (s : State) : Nat :=
  if s.freeRun then max 600 s.phaseTempo
  else if s.power.tempo < s.targetTempo ∧ s.rampWaits then s.power.tempo
  else rampStep s.power.tempo s.targetTempo

/-- The tempo at a Tour-period boundary (R331, R334): setpoints are lowered only once a fall has ended. -/
def State.tempoBoundary (s : State) : State :=
  let now := s.nextTempo
  let s2 := { s with power := { s.power with
    tempo := now, lastTarget := s.targetTempo
    rampFrom := if now < s.targetTempo then s.power.rampFrom else none } }
  if s2.power.lowerLater ∧ now ≤ s.targetTempo then
    ({ s2 with power := { s2.power with lowerLater := false } }).lowerSetpoints
  else s2

/-! ### Selecting a phase (R333, R334) -/

/-- Phase `k` is defined. -/
def State.phaseDefined (s : State) (k : Nat) : Bool := thas s.power.phases k

def State.phaseRec (s : State) (k : Nat) : PhaseRec := (tget s.power.phases k).getD {}

/-- An engine whose RED_PWR bit falls is disabled with the default timeout, which shortens a drain that ends later, or
powered off at once where it is OFF already (R25, R33, R334). -/
def State.phaseEngine (s : State) (e : Nat) : State :=
  if bit s.power.cur.redPwr e then s
  else if s.isOff 4 e then
    if (s.engine e).powered then (s.modEngine e (fun x => { x with powered := false })).post 0x43 0 e [] else s
  else (s.disableFn 4 e (defaultTimeout 4) true).1

/-- Put a selection into force at a boundary: record, event, setpoints, engines, and the command's return. -/
def State.applyPhase (s : State) (x : Nat × Nat × Option (Nat × BitVec 32)) : State :=
  let old := s.power.phase
  let s0 := { s with power := { s.power with phase := x.1, cur := s.phaseRec x.1, lowerLater := true } }
  let s1 := if s.power.lastTarget < s0.targetTempo then
      { s0 with power := { s0.power with rampFrom := some s.elapsed } }
    else s0
  let s2 := s1.raiseSetpoints.post 0x40 x.1 old (leBytes 1 x.2.1 ++ leBytes 1 0 ++ leBytes 2 s1.targetTempo)
  let s3 := [0, 1, 2, 3].foldl State.phaseEngine s2
  match x.2.2 with
  | some (ring, tag) => s3.finishCmd ring tag stOk 0
  | none => s3

/-- Every selection accepted before a boundary is latched at it (R334). -/
def State.phaseBoundary (s : State) : State :=
  let xs := s.power.pending
  xs.foldl State.applyPhase { s with power := { s.power with pending := [] } }

/-- Ask for a phase at the next boundary. -/
def State.askPhase (s : State) (k origin : Nat) (cmd : Option (Nat × BitVec 32)) : State :=
  { s with power := { s.power with pending := s.power.pending ++ [(k, origin, cmd)] } }

/-- PHASE (R334). -/
def execPhase (c : Cmd) (s : State) : Host.Outcome State Fault Refusal :=
  gated s (runCmd 0x40 c (p0Below c 3 && p1Below c 0 && p2Below c 0) fun s =>
    if s.phaseDefined c.p0.toNat then .later (s.askPhase c.p0.toNat 0 (some (c.ring, c.tag)))
    else .ret s stInvalid 0)

/-- A phase record as its 16 bytes give it (R333). -/
def phaseOf (bs : List Byte) : PhaseRec :=
  { mode := leAt bs 0 1, serdes := leAt bs 1 1, redPwr := leAt bs 2 1 % 16, tempo := leAt bs 4 2
    vmin := leAt bs 6 2, vmax := leAt bs 8 2 }

/-- The checks of R333. -/
def phaseBytesOk (bs : List Byte) : Bool :=
  let x := phaseOf bs
  decide (16 ≤ bs.length ∧ x.mode ≤ 1 ∧ x.serdes ≤ 1 ∧ leAt bs 2 1 < 16 ∧ leAt bs 3 1 = 0 ∧ 60 ≤ x.tempo ∧
    x.tempo ≤ (if x.mode = 0 then 150 else 170) ∧ 650 ≤ x.vmin ∧ x.vmin ≤ 850 ∧ x.vmin ≤ x.vmax ∧ x.vmax ≤ 850 ∧
    leAt bs 10 6 = 0)

/-- PHASE_DEF (R333). -/
def execPhaseDef (c : Cmd) (record : HostRead) (s : State) : Host.Outcome State Fault Refusal :=
  gated s (runCmd 0x41 c (p0Below c 3 && p2Below c 0)
    (withBlock c record fun bs s =>
      if phaseBytesOk bs then
        let k := c.p0.toNat
        let s1 := { s with power := { s.power with phases := SMap.insert s.power.phases k (phaseOf bs) } }
        .ret (if s.power.phase = k then s1.askPhase k 0 none else s1) stOk 0
      else .ret s stInvalid 0))

/-- ENGINE_POWER_UP (R334): the engine is powered, and enabled again if a phase had disabled it. -/
def execEnginePowerUp (e : Nat) (s : State) : Host.Outcome State Fault Refusal :=
  gated s fun s =>
    let back := (s.fn 4 e).byPhase
    if bit s.power.cur.redPwr e && s.isOff 4 e && (!(s.engine e).powered || back) then
      let s1 := if (s.engine e).powered then s
        else (s.modEngine e (fun x => { x with powered := true })).post 0x43 1 e []
      if back then s1.turnOn 4 e else s1
    else s

/-! ### The phase schedule (R335) -/

/-- Apply the last schedule entry that has fallen due since the one before. -/
def State.schedApply (s : State) : State :=
  let w := s.book.current
  let n := schedDue w s.nowNs
  if s.power.schedOn && s.schedEn && decide (s.power.schedLast < n) then
    let i := (n - 1) % schedCount w
    let k := schedPhase w i
    let s1 := { s with power := { s.power with schedLast := n } }
    if s.phaseDefined k then s1.askPhase k 1 none else s1.post 0x42 1 i []
  else s

/-- PHASE_SCHEDULE_ENTRY (R335). -/
def execPhaseScheduleEntry (s : State) : Host.Outcome State Fault Refusal := gated s State.schedApply

/-- `POWER_CFG` is latched at a boundary (R349); a schedule that starts to run applies nothing retroactively. -/
def State.latchPower (s : State) : State :=
  let was := s.schedEn
  let s1 := s.latch [A.powerCfg]
  if !was && s1.schedEn then
    { s1 with power := { s1.power with schedLast := schedDue s1.book.current s1.nowNs } }
  else s1

/-! ### Periodic actions -/

/-- Elapsed time `d` has passed since `t`. -/
def State.since (s : State) (t : Option Tick) (d : Tick) : Bool :=
  match t with | some x => decide (x + d ≤ s.elapsed) | none => true

/-- Action `job`, which runs every `d`, is due. -/
def State.jobDue (s : State) (job : Nat) (d : Tick) : Bool := s.since (SMap.get (fun _ => none) s.power.jobs job) d

/-- Action `job` runs now. -/
def State.jobRuns (s : State) (job : Nat) : State :=
  { s with power := { s.power with jobs := SMap.set (fun _ => none) s.power.jobs job (some s.elapsed) } }

/-- Run an action that is due, and no other. -/
def every (job : Nat) (d : Tick) (f : State → State) (s : State) : State :=
  if s.jobDue job d then f (s.jobRuns job) else s

/-! ### The governor (R336 to R339) -/

/-- CANARY_REPORT (R336): every 10 µs; the margin is a signed byte of VSQ_STAT (R349). -/
def execCanaryReport (sq : Nat) (margin : Int) (s : State) : Host.Outcome State Fault Refusal :=
  gated s (every (6 + sq) (usT 10) fun s => s.modVsq sq (fun v => { v with margin := max (-128) (min 127 margin) }))

/-- Raise a setpoint by `n` mV, up to VSQ_MAX. -/
def State.raiseBy (s : State) (i n : Nat) : State :=
  s.modVsq i (fun v => { v with setpoint := max v.setpoint (min s.power.cur.vmax (v.setpoint + n))
                                lastRaise := some s.elapsed })

/-- The square is recorded as completing last in this period or the one before (R338).
DEDUCED, unsafe (log entry 60). -/
def Sq.trailing (q : Sq) : Bool := q.lastRecorded || q.lastSince.isSome

/-- GOVERNOR_TRIM (R337, R338). -/
def execGovernorTrim (sq : Nat) (s : State) : Host.Outcome State Fault Refusal :=
  gated s fun s =>
    let v := s.vsq sq
    if (s.sq sq).trailing then if s.since v.lastRaise (usT 100) then s.raiseBy sq 10 else s
    else if !s.since v.recorded (msT 10) then s
    else if v.margin < s.guard then if s.since v.lastRaise (usT 100) then s.raiseBy sq 5 else s
    else if (s.guard : Int) + 5 < v.margin && s.since v.lastRaise (msT 10) && s.since v.lastLower (msT 10) then
      s.modVsq sq (fun v => { v with setpoint := min v.setpoint (max s.power.cur.vmin (v.setpoint - 5))
                                     lastLower := some s.elapsed })
    else s

/-- SETPOINT_SAVE (R339): once per hour. -/
def execSetpointSave (s : State) : Host.Outcome State Fault Refusal :=
  gated s (every 5 (secT 3600) fun s =>
    { s with nv := { s.nv with
      setpoints := squares.foldl (fun m i => SMap.insert m i (s.vsq i).setpoint) s.nv.setpoints
      setTempo := squares.foldl (fun m i => SMap.insert m i s.power.tempo) s.nv.setTempo } })

/-- Setpoints at boot (R339): the stored one plus 20 mV where it was stored for the tempo in force. -/
def State.bootSetpoints (s : State) : State :=
  squares.foldl (fun s i =>
    let v := match tget s.nv.setpoints i, tget s.nv.setTempo i with
      | some v, some t => if t = s.phaseTempo then min s.power.cur.vmax (v + 20) else 750
      | _, _ => 750
    s.modVsq i (fun x => { x with setpoint := v })) s

/-! ### The power cap (R340 to R343) -/

/-- Payload of a limiter event (R348). -/
def State.limPayload (s : State) (l : Nat) : List Byte :=
  leBytes 2 l ++ leBytes 2 s.power.est ++
    leBytes 2 ((SMap.get (fun _ => 0) s.power.temps s.power.hot) % 65536).toNat

/-- EST lets the cap rise: EST ≤ cap × (1 − HYST ÷ 100) (R342). -/
def State.capRoom (s : State) : Bool := decide (100 * s.power.est ≤ s.power.cap * (100 - s.capHyst))

/-- Since when conditions on EST have held (R342, R343). -/
def State.watchEst (s : State) : State :=
  { s with power := { s.power with
    capOkAt := if s.capRoom then some (s.power.capOkAt.getD s.elapsed) else none
    overAt := if s.power.tempo = 600 ∧ s.power.cap < s.power.est then some (s.power.overAt.getD s.elapsed) else none } }

/-- POWER_CAP (R340, R343). -/
def execPowerCap (c : Cmd) (s : State) : Host.Outcome State Fault Refusal :=
  gated s (runCmd 0x42 c (p0Below c 0 && p1Below c 0) fun s =>
    if 400 ≤ c.p2.toNat ∧ c.p2.toNat ≤ 2000 then
      .ret ({ s with power := { s.power with cap := c.p2.toNat, unatt := false } }).watchEst stOk 0
    else .ret s stInvalid 0)

/-- POWER_ESTIMATE (R341): every 10 µs; the field of POWER_EST is 12 bits. -/
def execPowerEstimate (est : Nat) (s : State) : Host.Outcome State Fault Refusal :=
  gated s (every 0 (usT 10) fun s => ({ s with power := { s.power with est := min 4095 est } }).watchEst)

/-- PMBUS_CORRECTION (R341): every 1 ms. -/
def execPmbusCorrection (pmb est : Nat) (s : State) : Host.Outcome State Fault Refusal :=
  gated s (every 1 (msT 1) fun s =>
    ({ s with power := { s.power with pmb := min 4095 pmb, est := min 4095 est } }).watchEst)

/-- 0.95 × the paced tempo, rounded down, not below 0.60 G (R342). -/
def State.cutTempo (s : State) : Nat := max 600 (95 * s.power.tempo / 100)

/-- POWER_LIMITER_ACT (R342): every 40 µs. -/
def execPowerLimiterAct (s : State) : Host.Outcome State Fault Refusal :=
  gated s (every 2 (usT 40) fun s =>
    let p := s.power
    if p.cap < p.est then
      let s1 := { s with power := { p with tcap := s.cutTempo } }
      if p.tcap = 0 then s1.post 0x41 0 0 (s1.limPayload s.cutTempo) else s1
    else if p.tcap ≠ 0 ∧ s.capRoom ∧ s.since p.capOkAt (msT 1) then
      let up := 101 * p.tcap / 100
      if s.phaseTempo ≤ up then
        ({ s with power := { p with tcap := 0 } }).post 0x41 1 0 (s.limPayload up)
      else { s with power := { p with tcap := up, capOkAt := some s.elapsed } }
    else s)

/-- CAP_UNATTAINABLE (R343). -/
def execCapUnattainable (s : State) : Host.Outcome State Fault Refusal :=
  gated s fun s =>
    let p := s.power
    if p.tempo = 600 ∧ p.cap < p.est ∧ p.overAt ≠ none ∧ s.since p.overAt (usT 200) ∧ p.unatt = false then
      (({ s with power := { p with unatt := true } }).faultEvent 21).post 0x41 4 0 (s.limPayload p.tcap)
    else s

/-! ### Temperature (R344 to R346) -/

/-- The lowest-numbered of the hottest sensors. -/
def hottest (ts : List Int) : Nat :=
  (ts.zipIdx.foldl (fun (b : Int × Nat) x => if b.1 < x.1 then x else b) ((ts.headD 0), 0)).2

/-- Reading of the hottest sensor. -/
def State.hotTemp (s : State) : Int := SMap.get (fun _ => 0) s.power.temps s.power.hot

def State.thermRoom (s : State) : Bool := decide (s.hotTemp ≤ s.thermThr - s.thermHyst)

/-- THERMAL_SENSOR_UPDATE (R344): every 10 µs. -/
def execThermalSensorUpdate (temps : List Int) (s : State) : Host.Outcome State Fault Refusal :=
  gated s (every 3 (usT 10) fun s =>
    let m := temps.zipIdx.foldl (fun m x => SMap.insert m x.2 x.1) s.power.temps
    let s1 := { s with power := { s.power with temps := m, hot := hottest temps } }
    { s1 with power := { s1.power with
      thermOkAt := if s1.thermRoom then some (s1.power.thermOkAt.getD s1.elapsed) else none } })

/-- THERMAL_LIMITER_ACT (R345): every 40 µs. -/
def execThermalLimiterAct (s : State) : Host.Outcome State Fault Refusal :=
  gated s (every 4 (usT 40) fun s =>
    let p := s.power
    if p.temps ≠ [] ∧ s.thermThr ≤ s.hotTemp then
      let s1 := { s with power := { p with ttherm := s.cutTempo } }
      if p.ttherm = 0 then (s1.faultEvent 20).post 0x41 2 p.hot (s1.limPayload s.cutTempo) else s1
    else if p.ttherm ≠ 0 ∧ s.thermRoom ∧ s.since p.thermOkAt (msT 1) then
      let up := 101 * p.ttherm / 100
      if s.phaseTempo ≤ up then
        ({ s with power := { p with ttherm := 0 } }).post 0x41 3 p.hot (s.limPayload up)
      else { s with power := { p with ttherm := up, thermOkAt := some s.elapsed } }
    else s)

/-- THERMTRIP (R346): the comparator drives THERMTRIP_N low, whether or not the device runs; `reading` is the
hottest sensor in 0.125 °C. DEDUCED, unsafe (log entry 26). -/
def execThermtrip (reading : Int) (s : State) : Host.Outcome State Fault Refusal :=
  always s fun s =>
    if 1000 ≤ reading then { s with pins := { s.pins with thermtrip := true } } else s

/-- REGULATOR_ALERT (R316). -/
def execRegulatorAlert (s : State) : Host.Outcome State Fault Refusal := gated s fun s => s.faultEvent 22

end Sys2Proof.Machine
end

