-- ==== Sys2Proof/Machine/Tick.lean ====
section
/-!
DEFINITION. One port-clock cycle: what the clock does whatever is commanded (R256, R258, R259).
-/

namespace Sys2Proof.Machine

/-- The frequency adjustment over one cycle of length `d`: units of 2^-8 ppb (R259). -/
def freqPart (adj : Int) (d : Nat) : Int := adj * d / 256000000000

/-- The share of a slew that one cycle of length `d` makes: 10,000 ppb of it, no more than what is
left (R259). -/
def slewPart (left : Int) (d : Nat) : Int :=
  let m : Int := d * 10000 / 1000000000
  if left < 0 then max left (-m) else min left m

/-- A counter advanced by `d`, modulo 2^64 ns (R259). -/
def advance (c : Tick) (d : Int) : Tick := ((c + d) % timeModulus).toNat

/-- One port-clock cycle of the three counters and of elapsed time. Elapsed time takes the same
increments but for the slew (R258). -/
def tick (s : State) : State :=
  if s.running then
    let d := Config.cycleTime s.time.cycles
    let base : Int := d + freqPart s.time.freq d
    let sl := slewPart s.time.slew d
    { s with time := { s.time with
        c0 := advance s.time.c0 (base + sl)
        c1 := advance s.time.c1 (base + sl)
        c2 := advance s.time.c2 (base + sl)
        elapsed := (s.time.elapsed + base).toNat
        slew := s.time.slew - sl
        cycles := s.time.cycles + 1 } }
  else if s.boot.stage = 4 then
    -- the reset's own 101 µs (R404)
    { s with time := { s.time with
        elapsed := s.time.elapsed + Config.cycleTime s.time.cycles, cycles := s.time.cycles + 1 } }
  else s

end Sys2Proof.Machine
end

