-- ==== Sys2Proof/Machine/TimeCmds.lean ====
section
/-!
DEFINITION. Device time: the time commands, the vote of the three counters, references, edge inputs, pulse
outputs and the boundary clock service (R255 to R271).
-/

namespace Sys2Proof.Machine

/-! ### Setting and steering (R259, R260) -/

/-- The boundary clock service owns device time: a port is UNCALIBRATED (8) or SLAVE (9) (R260). -/
def State.bcOwns (s : State) : Bool := s.time.bcPorts.any (fun e => e.2 == 8 || e.2 == 9)

/-- A SET (`sub` 0) or STEP (1) of device time (R259): the second and the bandwidth window end (R62, R382), a slew
is cancelled, a pulse in progress keeps its width (R265), the event is posted, and the phase schedule follows a forward
change (R335). -/
def State.jump (s : State) (new : Tick) (sub : Nat) : State :=
  let old := s.now
  let s0 := (s.eports.map (fun e => e.1)).foldl (fun s p => s.judgeGates p (toNs new)) s
  let s1 := ((s0.secondStep (toNs new)).bwWindow (toNs old) (toNs new)).loadTime new
  let s2 := { s1 with time := { s1.time with
    slew := 0, slewing := false, isSet := true
    pps := s1.time.pps.map (fun (e : Nat × Pps) => (e.1, { e.2 with widthEnd := e.2.widthEnd + new - old })) } }
  let s3 := s2.post 4 sub 0 (leBytes 8 (toNs old) ++ leBytes 8 (toNs new))
  if new < old then
    { s3 with power := { s3.power with schedLast := schedDue s3.book.current s3.nowNs } }
  else s3.schedApply

/-- Device time moved by `d`; none where it would leave 0 to 2^64 − 1 ns (R259). -/
def State.moved (s : State) (d : Int) : Option Tick :=
  let t : Int := s.now + d
  if t < 0 ∨ (timeModulus : Int) ≤ t then none else some t.toNat

/-- Largest magnitude of FREQ: 500,000 ppb in 2^-8 ppb (R259). -/
def freqMax : Int := 128000000

def State.setFreq (s : State) (v : Int) : State := { s with time := { s.time with freq := v } }

/-- Start a slew, in place of what is left of another (R259). -/
def State.startSlew (s : State) (d : Int) : State :=
  { s with time := { s.time with slew := d, slewing := decide (d ≠ 0) } }

/-- TIME_SET (R259, R260). -/
def execTimeSet (c : Cmd) (s : State) : Host.Outcome State Fault Refusal :=
  gated s (runCmd 0x30 c (c.p1 == 0 && p2Below c 16) fun s =>
    if s.bcOwns then .ret s stBusy 0
    else .ret (s.jump (nsT c.p0.toNat + c.p2.toNat * 2 ^ 24) 0) stOk 0)

/-- TIME_STEP (R259, R260). -/
def execTimeStep (c : Cmd) (s : State) : Host.Outcome State Fault Refusal :=
  gated s (runCmd 0x31 c (c.p1 == 0 && p2Below c 16) fun s =>
    if s.bcOwns then .ret s stBusy 0
    else match s.moved (c.p0.toInt * tickNs + c.p2.toNat * 2 ^ 24) with
      | some t => .ret (s.jump t 1) stOk 0
      | none => .ret s stInvalid 0)

/-- TIME_FREQ (R259, R260). -/
def execTimeFreq (c : Cmd) (s : State) : Host.Outcome State Fault Refusal :=
  gated s (runCmd 0x32 c (c.p0 == 0 && c.p1 == 0) fun s =>
    if s.bcOwns then .ret s stBusy 0
    else if c.p2.toInt < -freqMax ∨ freqMax < c.p2.toInt then .ret s stInvalid 0
    else .ret (s.setFreq c.p2.toInt) stOk 0)

/-- TIME_SLEW (R259, R260). -/
def execTimeSlew (c : Cmd) (s : State) : Host.Outcome State Fault Refusal :=
  gated s (runCmd 0x33 c (c.p1 == 0 && c.p2 == 0) fun s =>
    if s.bcOwns then .ret s stBusy 0
    else match s.moved (c.p0.toInt * tickNs) with
      | some _ => .ret (s.startSlew (c.p0.toInt * tickNs)) stOk 0
      | none => .ret s stInvalid 0)

/-- SLEW_COMPLETE (R259): the offset is used up. DEDUCED, unsafe (log entry 71). -/
def execSlewComplete (s : State) : Host.Outcome State Fault Refusal :=
  gated s fun s =>
    if s.time.slew = 0 then { s with time := { s.time with slewing := false } } else s

/-! ### The vote (R257) -/

/-- A counter that an upset has moved by `o` units of 2^-16 ns. -/
def upset (c : Tick) (o : Int) : Tick := ((c + o * 16777216) % timeModulus).toNat

/-- Integer and fractional fields of a counter, which the comparison sees (R255, R257). -/
def counterField (c : Tick) : Nat := c / 16777216

/-- TIME_VOTE (R257): `o0`, `o1`, `o2` are the differences the counters have picked up since the last comparison. -/
def execTimeVote (o0 o1 o2 : Int) (s : State) : Host.Outcome State Fault Refusal :=
  gated s fun s =>
    let a := upset s.time.c0 o0
    let b := upset s.time.c1 o1
    let c := upset s.time.c2 o2
    let fa := counterField a
    let fb := counterField b
    let fc := counterField c
    if fa = fb ∧ fb = fc then { s with time := { s.time with c0 := a, c1 := b, c2 := c } }
    else if fa = fb then (s.loadTime a).faultEvent 12 0 2
    else if fa = fc then (s.loadTime a).faultEvent 12 0 1
    else if fb = fc then (s.loadTime b).faultEvent 12 0 0
    else (s.loadTime (votedTick a b c)).faultEvent 12 0 0 0 true

/-! ### References (R256) -/

/-- Lowest-numbered REFCLKk present. -/
def State.lowRef (s : State) : Option Nat := (List.range 16).find? (fun k => bit s.nv.refclk k)

/-- `TIME_CFG.SRC` selects TIMECLK_IN. -/
def State.srcTclk (s : State) : Bool := rbit (s.reg A.timeCfg) 0

/-- Take the reference R256 chooses from those present. -/
def State.chooseRef (s : State) : State :=
  let low := s.lowRef
  let lost := if s.srcTclk then !(s.nv.timeclk && s.time.tclkOk) else low.isNone
  { s with time := { s.time with
    holdover := lost
    noRef := lost && low.isNone
    refUsed := low.getD s.time.refUsed } }

/-- The reference in use has been lost or changed over between two states. -/
def refChanged (s0 s1 : State) : Bool :=
  s0.time.holdover != s1.time.holdover || s0.time.noRef != s1.time.noRef ||
    ((!s1.srcTclk || s1.time.holdover) && s0.time.refUsed != s1.time.refUsed)

/-- Choose the reference anew; one in use that is lost or changed over raises source 13 (R256). -/
def State.useRef (s : State) : State :=
  let s1 := s.chooseRef
  if refChanged s s1 then s1.faultEvent 13 else s1

def State.setPresent (s : State) (isTimeclk : Bool) (k : Nat) (b : Bool) : State :=
  if isTimeclk then { s with nv := { s.nv with timeclk := b } }
  else { s with nv := { s.nv with refclk := setBit s.nv.refclk k b } }

/-- TIME_REF_LOSS (R256). DEDUCED, unsafe (log entry 72). -/
def execTimeRefLoss (isTimeclk : Bool) (k : Nat) (s : State) : Host.Outcome State Fault Refusal :=
  gated s fun s =>
    let s0 := s.setPresent isTimeclk k false
    (if isTimeclk then { s0 with time := { s0.time with tclkOk := false } } else s0).useRef

/-- TIME_REF_RETURN (R256): a change-over back to a lower reference is one as well. Edges have been good for `ns`, and
TIMECLK_IN is used again from 10 ms on. -/
def execTimeRefReturn (isTimeclk : Bool) (k ns : Nat) (s : State) : Host.Outcome State Fault Refusal :=
  atPins s fun s =>
    let s0 := s.setPresent isTimeclk k true
    let good := s0.time.tclkOk || (isTimeclk && decide (10000000 ≤ ns))
    let s1 := ({ s0 with time := { s0.time with tclkOk := good } }).chooseRef
    if !s.time.holdover && refChanged s s1 then s1.faultEvent 13 else s1

/-! ### Latched reads (R261) -/

/-- TIME_NOW_LO_READ (R261). -/
def execTimeNowLoRead (s : State) : Host.Outcome State Fault Refusal :=
  atPins s fun s =>
    { s with
      time := { s.time with latchHi := BitVec.ofNat 32 (s.nowNs / 2 ^ 32)
                            latchFrac := BitVec.ofNat 32 (s.now / 2 ^ 24 % 65536) }
      io := { s.io with latched := BitVec.ofNat 32 s.nowNs } }

/-! ### Edge inputs (R264) -/

/-- An edge of the polarity is selected on input `n`. -/
def State.edgeOn (s : State) (n : Nat) (falling : Bool) : Bool :=
  rbit (s.reg A.timeEvtCfg) (2 * n + b2n falling)

/-- An edge on an input is stamped and waits for posting, or is counted as dropped (R264). -/
def State.takeEdge (s : State) (n : Nat) (falling : Bool) : State :=
  let ring := fld (s.reg A.timeEvtCfg) 27 16
  if !s.edgeOn n falling then s
  else if !s.isOn 5 ring then
    (s.setEdges n []).count (devCtr (7 + n)) ((s.edgesOf n).length + 1)
  else if 64 ≤ (s.edgesOf n).length then s.count (devCtr (7 + n)) 1
  else
    let e : Edge := { input := n, falling := falling, stamp := s.now }
    s.setEdges n (s.edgesOf n ++ [e])

/-- The rising edge of PPS_IN gives the boundary clock service its 1 PPS (R269). -/
def State.takePps (s : State) (n : Nat) (falling : Bool) : State :=
  let c := s.inForce A.timeBcCfg
  if rbit c 7 && fld c 5 4 == n && !falling && !s.isOff 9 0 then { s with time := { s.time with bcPps := some s.now } }
  else s

/-- EVT_IN_EDGE (R264, R269): the edges of all inputs that fall in one nanosecond, posted in ascending input order.
DEDUCED, unsafe (log entry 73). -/
def execEvtInEdge (edges : List (Nat × Bool)) (s : State) : Host.Outcome State Fault Refusal :=
  atPins s fun s =>
    (edges.foldl (fun s e => (s.takeEdge e.1 e.2).takePps e.1 e.2) s).drainEdges

/-! ### Pulse outputs (R265) -/

def State.pps (s : State) (k : Nat) : Pps := SMap.get (fun _ => {}) s.time.pps k
def State.setPps (s : State) (k : Nat) (x : Pps) : State :=
  { s with time := { s.time with pps := SMap.set (fun _ => {}) s.time.pps k x } }

/-- PERIOD of output `k` in force (R271). -/
def State.ppsPeriod (s : State) (k : Nat) : Nat := clip 100 1000000000 (s.inForce (A.timePpsPeriod k)).toNat

/-- WIDTH of output `k` in force: 0 acts as 1, and one of at least PERIOD as half of it (R265). -/
def State.ppsWidth (s : State) (k : Nat) : Nat :=
  let w := atLeast1 (fld (s.inForce (A.timePpsCfg k)) 28 0)
  if s.ppsPeriod k ≤ w then s.ppsPeriod k / 2 else w

def State.ppsOn (s : State) (k : Nat) : Bool := rbit (s.inForce (A.timePpsCfg k)) 31

def State.latchPps (s : State) (k : Nat) : State := s.latch [A.timePpsCfg k, A.timePpsPeriod k]

/-- Level that PPS_OUT[k] is driven to: active high, or active low with POL, and inactive while the output is disabled or
device time was never set (R265, R271). -/
def State.ppsLevel (s : State) (k : Nat) : Bool :=
  ((s.pps k).active && s.ppsOn k && s.time.isSet) != rbit (s.inForce (A.timePpsCfg k)) 30

/-- PPS_LEADING_EDGE (R265): new settings take effect at a leading edge of the old ones, and at once while the
output is disabled. -/
def execPpsLeadingEdge (k : Nat) (s : State) : Host.Outcome State Fault Refusal :=
  gated s fun s =>
    let s1 := if s.ppsOn k then s else s.latchPps k
    if s1.ppsOn k && s1.time.isSet && s1.nowNs % s1.ppsPeriod k == 0 then
      let s2 := s1.latchPps k
      s2.setPps k (if s2.ppsOn k then { active := true, widthEnd := s2.now + nsT (s2.ppsWidth k) } else {})
    else s1

/-- PPS_WIDTH_END (R265): the output follows device time (R258). -/
def execPpsWidthEnd (k : Nat) (s : State) : Host.Outcome State Fault Refusal :=
  gated s fun s =>
    if (s.pps k).active && decide ((s.pps k).widthEnd ≤ s.now) then s.setPps k {} else s

/-! ### The boundary clock service (R266 to R270) -/

/-- Apply a correction of the service; one beyond the range of device time is not applied (R259, R270).
DEDUCED, unsafe (log entry 74). -/
def State.steer (s : State) (x : Steer) : State :=
  match x with
  | .none => s
  | .set ns frac => s.jump ((nsT ns + frac % 65536 * 2 ^ 24) % timeModulus) 0
  | .step ns => match s.moved (ns * tickNs) with
    | some t => s.jump t 1
    | none => s
  | .freq adj => if adj < -freqMax ∨ freqMax < adj then s else s.setFreq adj
  | .slew ns => match s.moved (ns * tickNs) with
    | some _ => s.startSlew (ns * tickNs)
    | none => s

/-- messageType of a PTP frame. -/
def ptpType (bs : List Byte) : Nat := beAt bs (ptpAt bs).1 1 % 16

/-- Message types the service counts and discards: Pdelay, Signaling and Management (R269). -/
def bcIgnored (t : Nat) : Bool := t == 2 || t == 3 || t == 10 || t == 12 || t == 13

/-- The service is done with the stamp of a frame. -/
def State.dropStamp (s : State) (fid : Nat) : State :=
  { s with time := { s.time with bcStamps := s.time.bcStamps.filter (fun e => e.fid ≠ fid) } }

/-- The service takes the oldest PTP frame steered to it: its port's state, the clockClass it advertises and the
correction are what the service decides (R269, R270). It steers only while it owns device time (R260). -/
def State.takePtp (s : State) (f : WholeFrame) (newState clockClass : Nat) (x : Steer) : State :=
  let s1 := (s.dropStamp f.hdr.fid).bcPortState f.hdr.iport newState clockClass
  if s1.bcOwns then s1.steer x else s1

/-- BC_MESSAGE_RECEIVE (R267, R269, R270). While firmware services pause, messages wait.
DESIGN CHOICE, unsafe (log entry 75). -/
def execBcMessageReceive (newState clockClass : Nat) (steer : Steer) (s : State) :
    Host.Outcome State Fault Refusal :=
  gated s fun s =>
    match takeFirst (fun (f : WholeFrame) => f.hdr.bc) s.red.inbox with
    | none => s
    | some (f, rest) =>
      if s.triad.paused || s.triad.lost then s
      else
        let s1 := { s with red := { s.red with inbox := rest } }
        if s.isOff 9 0 then s1.dropStamp f.hdr.fid
        else if bcIgnored (ptpType f.bytes) then
          let s2 := s1.dropStamp f.hdr.fid
          { s2 with time := { s2.time with bcIgnored := s2.time.bcIgnored + 1 } }
        else s1.takePtp f newState clockClass steer

/-- ONE_STEP of a port (R268). -/
def State.oneStep (s : State) (port : Nat) : Bool := rbit (s.reg (A.ptpCfg (port / 16) (port % 16))) 30

/-- The Sync that a port sent last has its transmit stamp (R268). -/
def State.syncStamped (s : State) (port : Nat) : Bool :=
  match tget s.time.bcSync port with
  | some x => x.stamp.isSome && !x.lost
  | none => false

/-- Send one message of the service: a Sync one-step where its port asks for it, every other event message with
its transmit stamp. A Follow_Up is sent for a Sync whose stamp was taken, once, and for no other (R268). -/
def State.sendBc (s : State) (m : BcDue) : State :=
  let one := m.msgType == 0 && s.oneStep m.port
  let s1 := if m.msgType = 0 then
      { s with time := { s.time with bcSync := SMap.insert s.time.bcSync m.port { fid := s.freshFid.2 } } }
    else if m.msgType = 8 then { s with time := { s.time with bcSync := SMap.erase s.time.bcSync m.port } }
    else s
  if m.msgType = 8 ∧ !s.syncStamped m.port then s
  else s1.injectBuilt { eport := m.port, cls := Config.bcTxClass.toNat }
    { oneStep := one, bc := decide (m.msgType ≤ 1) && !one } m.frame

/-- A Follow_Up or a Delay_Resp completes an exchange; every other message begins one (R26, R30). -/
def bcCompletes (t : Nat) : Bool := t == 8 || t == 9

/-- A message falls due: its port takes the state it is in, and the message is sent. A service that drains starts no new
exchange (R26, R30, R269). -/
def State.bcDue (s : State) (m : BcDue) : State :=
  let s1 := s.bcPortState m.port m.state s.time.bcClass
  if s.isOn 9 0 || bcCompletes m.msgType then s1.sendBc m else s1

/-- Messages that fell due in a pause are sent when the services resume (R270). -/
def State.flushBc (s : State) : State :=
  s.time.bcTxDue.foldl State.bcDue { s with time := { s.time with bcTxDue := [] } }

/-- The port takes part in the service, which is not OFF (R267, R269). -/
def State.bcActive (s : State) (port : Nat) : Bool :=
  !s.isOff 9 0 && rbit (s.reg (A.ptpCfg (port / 16) (port % 16))) 31

/-- BC_MESSAGE_DUE (R268 to R270). DESIGN CHOICE, unsafe (log entry 123). -/
def execBcMessageDue (m : BcDue) (s : State) : Host.Outcome State Fault Refusal :=
  gated s fun s =>
    if !s.bcActive m.port || s.triad.lost then s
    else if s.triad.paused then { s with time := { s.time with bcTxDue := s.time.bcTxDue ++ [m] } }
    else s.bcDue m

end Sys2Proof.Machine
end

