-- ==== Sys2Proof/Machine/Castling.lean ====
section
/-!
DEFINITION. Flash, images and their checks, staging, the anti-rollback counter and Castling (R353 to R371).
-/

namespace Sys2Proof.Machine

/-! ### Flash and images (R353 to R355) -/

/-- An erased flash byte. -/
def flashErased : Nat → Byte := fun _ => 255

/-- Byte at offset `o` of slot `k`. -/
def Nv.flashAt (n : Nv) (k o : Nat) : Byte := SMap.get flashErased n.flash (16777216 * k + o)

/-- `n` bytes of slot `k`'s image region from image offset `o`. -/
def Nv.image (v : Nv) (k o n : Nat) : List Byte := (List.range n).map (fun i => v.flashAt k (4096 + o + i))

/-- Little-endian field of an image. -/
def Nv.imgField (v : Nv) (k o n : Nat) : Nat := leNat (v.image k o n)

/-- The valid commit record of a slot, if it has one (R354). -/
def Nv.commit (v : Nv) (k : Nat) : Option Commit :=
  let bs := (List.range 64).map (v.flashAt k)
  if leAt bs 0 4 = 0x4D43564D ∧ leAt bs 60 4 = crc32c (bs.take 60) then
    some { seq := leAt bs 4 4, imgLen := leAt bs 8 4, imgCrc := BitVec.ofNat 32 (leAt bs 12 4) }
  else none

/-- Erase a slot's commit sector (R353, R360). -/
def Nv.eraseCommit (v : Nv) (k : Nat) : Nv :=
  { v with flash := v.flash.filter (fun e => !decide (16777216 * k ≤ e.1 ∧ e.1 < 16777216 * k + 4096)) }

/-- Program bytes from flash address `a`. -/
def Nv.put (v : Nv) (a : Nat) (bs : List Byte) : Nv :=
  { v with flash := (bs.zipIdx).foldl (fun m b => SMap.set flashErased m (a + b.2) b.1) v.flash }

/-- The bytes of a commit record (R354). -/
def Commit.bytes (c : Commit) : List Byte :=
  let bs := leBytes 4 0x4D43564D ++ leBytes 4 c.seq ++ leBytes 4 c.imgLen ++ leBytes 4 c.imgCrc.toNat ++
    List.replicate 44 0
  bs ++ leBytes 4 (crc32c bs)

/-- Erase the commit sector and write a record (R354, R367). -/
def Nv.setCommit (v : Nv) (k : Nat) (c : Commit) : Nv := (v.eraseCommit k).put (16777216 * k) c.bytes

/-- LENGTH, SVN and FW_VERSION of the image in a slot (R355). -/
def Nv.imgLen (v : Nv) (k : Nat) : Nat := v.imgField k 8 4
def Nv.imgSvn (v : Nv) (k : Nat) : Nat := v.imgField k 12 1
def Nv.imgFw (v : Nv) (k : Nat) : Nat := v.imgField k 16 4

/-- A section entry: type, offset, length, version (R355). -/
def Nv.imgSection (v : Nv) (k i : Nat) : Nat × Nat × Nat × Nat :=
  let o := 0x80 + 16 * i
  (v.imgField k o 4, v.imgField k (o + 4) 4, v.imgField k (o + 8) 4, v.imgField k (o + 12) 4)

/-- VERSION of the section of a type. -/
def Nv.sectionVersion (v : Nv) (k t : Nat) : Nat :=
  (((List.range 3).map (v.imgSection k)).find? (fun x => x.1 == t)).elim 0 (fun x => x.2.2.2)

/-- The section table is as R355 requires: types 1, 2 and 3 once each, aligned, inside the image, apart from each
other, and the rest of the table zero. -/
def Nv.sectionsOk (v : Nv) (k : Nat) : Bool :=
  let xs := (List.range 3).map (v.imgSection k)
  let apart := (List.range 3).all (fun i => (List.range 3).all (fun j =>
    match xs[i]?, xs[j]? with
    | some a, some b => i == j || decide (a.2.1 + a.2.2.1 ≤ b.2.1 ∨ b.2.1 + b.2.2.1 ≤ a.2.1)
    | _, _ => true))
  [1, 2, 3].all (fun t => (xs.filter (fun x => x.1 == t)).length == 1) &&
    xs.all (fun x => x.2.1 % 16 == 0 && decide (0x200 ≤ x.2.1 ∧ x.2.1 + x.2.2.1 ≤ v.imgLen k)) && apart &&
    (v.image k 0xB0 80).all (fun b => b == 0)

/-- Failure code of an image check; 0 passes (R356, R357). `boot`: against the commit record as well.
DEDUCED, unsafe (log entry 18). -/
def Nv.imageCode (v : Nv) (k : Nat) (c : Crypto) (boot : Bool) : Nat :=
  let len := v.imgLen k
  if boot ∧ v.commit k = none then 1
  else if c.readErr then 9
  else if v.imgField k 0 4 ≠ 0x5746564D ∨ v.imgField k 4 2 ≠ 1 ∨ v.imgField k 13 1 ≠ 3 then 2
  else if v.imgField k 6 2 ≠ 0x4C10 then 3
  else if len < 4096 ∨ 6291456 < len then 4
  else if !v.sectionsOk k then 2
  else if boot && (match v.commit k with
      | some r => r.imgLen != len || r.imgCrc.toNat != crc32c (v.image k 0 len)
      | none => false) then 4
  else if !c.keyOk then 5
  else if !c.sigOk then 6
  else if v.imgSvn k < v.rbc ∨ 128 < v.imgSvn k then 7
  else if !c.tagOk then 8
  else 0

def Boot.slotSt (b : Boot) (k : Nat) : SlotSt := if k = 0 then b.slotA else b.slotB
def State.modSlot (s : State) (k : Nat) (f : SlotSt → SlotSt) : State :=
  if k = 0 then { s with boot := { s.boot with slotA := f s.boot.slotA } }
  else { s with boot := { s.boot with slotB := f s.boot.slotB } }

/-- Castling is in progress. -/
def State.castling (s : State) : Bool := s.boot.castle != 0

/-! ### Staging (R360, R361) -/

/-- Slot that a FLASH_WRITE targets: the one that is not running (R360). -/
def State.stageSlot (s : State) (c : Cmd) : Nat :=
  if s.boot.recovery then b2n (Config.recoverySlot c.p0.toNat c.p1.toNat) else 1 - s.boot.slot

/-- Erase the commit sector at the first write of a staging, and forget the verification (R360, R361). -/
def State.openStage (s : State) (k : Nat) : State :=
  if (s.boot.slotSt k).erased then s.modSlot k (fun x => { x with verified := false })
  else
    { s.modSlot k (fun x => { x with verified := false, erased := true, commitOk := false, seq := 0 }) with
      nv := s.nv.eraseCommit k }

/-- Program bytes at image offset `o` of a slot. -/
def State.program (s : State) (k o : Nat) (bs : List Byte) : State :=
  { s with nv := s.nv.put (16777216 * k + 4096 + o) bs }

/-- FLASH_WRITE (R360): `readBackOk` is what the read-back finds. DEDUCED, unsafe (log entry 23). -/
def execFlashWrite (c : Cmd) (data : HostRead) (readBackOk : Bool) (s : State) : Host.Outcome State Fault Refusal :=
  gated s (runCmd 0x70 c true fun s =>
    let o := c.p1.toNat
    let n := c.p2.toNat
    if s.castling then .ret s stBusy 0
    else if o % 4096 ≠ 0 ∨ n % 4096 ≠ 0 ∨ n < 4096 ∨ 1048576 < n then .ret s stInvalid 0
    else if 6291456 < o + n then .ret s stTarget 0
    else withBlock c data (fun bs s =>
      let k := s.stageSlot c
      let s1 := s.openStage k
      if readBackOk then .ret (s1.program k o ((bs ++ List.replicate n 0).take n)) stOk 0
      else
        let bad := (List.range n).map (fun i => Config.badFlash (16777216 * k + 4096 + o + i))
        .ret ((s1.program k o bad).modSlot k (fun x => { x with fail := 9 })) stInvalid 9) s)

/-- IMAGE_VERIFY (R361). -/
def execImageVerify (c : Cmd) (k : Crypto) (s : State) : Host.Outcome State Fault Refusal :=
  gated s (runCmd 0x71 c (p0Below c 1 && p1Below c 0 && p2Below c 0) fun s =>
    if s.castling then .ret s stBusy 0
    else
      let i := c.p0.toNat
      let code := s.nv.imageCode i k false
      let res := code + 256 * s.nv.imgSvn i + 2 ^ 32 * s.nv.imgFw i
      let s1 := s.modSlot i (fun x => { x with svn := s.nv.imgSvn i, fail := code })
      if code = 0 then .ret (s1.modSlot i (fun x => { x with verified := true, erased := false })) stOk res
      else .ret s1 stInvalid res)

/-! ### The anti-rollback counter (R362) -/

/-- ROLLBACK_CONFIRM (R362): VFUSE is present, and what the verification of the fuses finds.
DESIGN CHOICE, unsafe (log entry 25). -/
def execRollbackConfirm (c : Cmd) (vfuse fusesOk : Bool) (s : State) : Host.Outcome State Fault Refusal :=
  gated s (runCmd 0x73 c (p0Below c 0 && p1Below c 0 && p2Below c 0) fun s =>
    let old := s.nv.rbc
    let new := max old (s.boot.slotSt s.boot.slot).svn
    if s.castling || !vfuse then .ret s stBusy 0
    else if new = old then .ret s stOk old
    else if !fusesOk then .ret s stBusy 0
    else .ret (({ s with nv := { s.nv with rbc := new } }).post 0x32 0 0 (leBytes 1 old ++ leBytes 1 new)) stOk new)

/-! ### Castling (R367 to R371) -/

/-- CASTLE (R367): it returns when Castling ends. DESIGN CHOICE, unsafe (log entry 24). -/
def execCastle (c : Cmd) (s : State) : Host.Outcome State Fault Refusal :=
  gated s (runCmd 0x72 c (p0Below c 0 && p1Below c 0 && p2Below c 0) fun s =>
    if s.castling then .ret s stBusy 0
    else if !(s.boot.slotSt (1 - s.boot.slot)).verified then .ret s stInvalid 0
    else .later { s with boot := { s.boot with
      castle := 1, castleCmd := some (c.ring, c.tag), castleRetry := false, castleReady := false } })

/-- End Castling: the outcome is kept, the event posted and the command returned (R367, R370). -/
def State.endCastle (s : State) (k reason tlv : Nat) : State :=
  let cmd := s.boot.castleCmd
  let s1 := { s with boot := { s.boot with
    castle := 0, castleCmd := none, castleReady := false, castleRetry := false
    lastValid := true, lastReason := reason, lastTlv := tlv } }
  let s2 := s1.post 0x31 (if reason = 0 then 0 else 1) k
    (leBytes 4 (s.nv.imgFw k) ++ leBytes 1 reason ++ leBytes 1 0 ++ leBytes 2 tlv)
  match cmd with
  | some (r, t) => if reason = 0 then s2.finishCmd r t stOk 0 else s2.finishCmd r t stDeclined (reason + tlv * 65536)
  | none => s2

/-- Castling declines: the old firmware resumes from its checkpoint, and nothing is committed (R370). -/
def State.declineCastle (s : State) (reason tlv : Nat) : State := s.endCastle (1 - s.boot.slot) reason tlv

/-- CASTLE_LOAD_COMPLETE (R367): the signature is checked over the bytes loaded. -/
def execCastleLoadComplete (sigOk : Bool) (s : State) : Host.Outcome State Fault Refusal :=
  gated s fun s =>
    if s.boot.castle = 1 ∧ !s.boot.castleReady then
      if sigOk then { s with boot := { s.boot with castleReady := true } } else s.declineCastle 1 0
    else s

/-! ### The handover record (R368, R369) -/

/-- A TLV: TYPE, LENGTH of the value, and the value padded with zeros to a multiple of 8 bytes (R368). -/
def tlvBytes (t : Nat × List Byte) : List Byte :=
  leBytes 2 t.1 ++ leBytes 2 t.2.length ++ t.2 ++ List.replicate ((8 - t.2.length % 8) % 8) 0

/-- A signed value as `n` bytes. -/
def leInt (n : Nat) (v : Int) : List Byte := leBytes n (v % 256 ^ n).toNat

/-- A time that may be absent: a byte that says so, and the time. -/
def leTime (t : Option Tick) : List Byte := leBytes 1 (b2n t.isSome) ++ leBytes 15 (t.getD 0)

/-- A phase record as its 16 bytes (R333). -/
def phaseBytes (x : PhaseRec) : List Byte :=
  leBytes 1 x.mode ++ leBytes 1 x.serdes ++ leBytes 1 x.redPwr ++ leBytes 1 0 ++ leBytes 2 x.tempo ++ leBytes 2 x.vmin ++
    leBytes 2 x.vmax ++ List.replicate 6 0

/-- Phase records 0 to 7, the defined mask and the selected phase. -/
def State.tlvPhases (s : State) : List Byte :=
  (List.range 8).flatMap (fun k => phaseBytes (SMap.get (fun _ => {}) s.power.phases k)) ++
    leBytes 1 ((List.range 8).map (fun k => b2n (thas s.power.phases k) * 2 ^ k)).sum ++ leBytes 1 s.power.phase

/-- Power cap and limiter state (R340 to R343). -/
def State.tlvCap (s : State) : List Byte :=
  let p := s.power
  leBytes 2 p.cap ++ leBytes 2 p.tcap ++ leBytes 2 p.ttherm ++ leBytes 4 p.est ++ leBytes 2 p.pmb ++ leBytes 1 (b2n p.unatt) ++
    leTime p.capOkAt ++ leTime p.thermOkAt ++ leTime p.overAt

/-- Configuration of the boundary clock service (R269). -/
def bcCfgBytes (x : BcCfg) : List Byte :=
  leBytes 1 x.domain ++ leInt 1 x.logSync ++ leBytes 1 x.logAnnounce ++ leBytes 1 x.announceTimeout ++
    leInt 1 x.logMinDelayReq ++ leBytes 1 x.priority1 ++ leBytes 1 x.priority2 ++ leBytes 1 x.clockClass ++
    leBytes 1 x.clockAccuracy

/-- Port states and servo state of the service (R270). -/
def State.tlvBc (s : State) : List Byte :=
  leInt 4 s.time.freq ++ leInt 8 s.time.slew ++ leBytes 1 s.time.bcClass ++ leBytes 2 s.time.bcPorts.length ++
    s.time.bcPorts.flatMap (fun e => leBytes 2 e.1 ++ leBytes 1 e.2)

/-- Ring and TAG of CASTLE, and of the commands that have not returned. -/
def State.tlvCmds (s : State) : List Byte :=
  (match s.boot.castleCmd with
    | some (r, t) => leBytes 2 r ++ leBytes 4 t.toNat
    | none => []) ++
    s.host.rings.flatMap (fun e => match e.2.accepted with
      | some d => leBytes 2 e.1 ++ slice d 4 4
      | none => [])

/-- Governor records and slow-square history (R337 to R339). -/
def State.tlvGovernor (s : State) : List Byte :=
  s.power.vsq.flatMap (fun e => leBytes 1 e.1 ++ leBytes 2 e.2.setpoint ++ leInt 1 e.2.margin ++ leTime e.2.lastRaise ++
    leTime e.2.lastLower ++ leTime e.2.recorded) ++ leBytes 1 (b2n s.tour.slow) ++ leBytes 1 s.tour.slowSq

/-- The TLVs of major version 1 (R368). Records of the fault log are written as their events are recorded, so that only
recovery counters wait for the scoresheet. DESIGN CHOICE, unsafe (log entry 122). -/
def State.handoverTlvs (s : State) : List (Nat × List Byte) :=
  [(0x8001, s.tlvPhases), (0x8002, s.tlvCap), (0x8003, bcCfgBytes s.time.bcCfg), (0x0004, s.tlvBc), (0x8005, s.tlvCmds),
    (0x8006, leBytes 4 s.boot.parseVer.toNat ++ leBytes 4 s.red.ver.toNat), (0x0007, s.tlvGovernor),
    (0x0008, s.boot.recovDirty.flatMap (fun n => leBytes 2 n ++ leBytes 2 (s.src n).recov))]

/-- The handover record: its header of 32 bytes, with its CRC-32C, and the TLVs (R368). -/
def State.handoverRecord (s : State) (extra : List (Nat × List Byte)) : List Byte :=
  let ts := s.handoverTlvs ++ extra
  let body := ts.flatMap tlvBytes
  let head (crc : Nat) : List Byte :=
    leBytes 4 0x4F48564D ++ leBytes 2 (s.nv.imgField s.boot.slot 14 2) ++ leBytes 2 ts.length ++
      leBytes 4 (32 + body.length) ++ leBytes 4 crc ++ leBytes 4 s.boot.fwver.toNat ++ leBytes 4 s.triad.ckptNo ++
      leBytes 8 s.nowNs
  head (crc32c (head 0 ++ body)) ++ body

/-- The TLVs of a record from offset 32 on, `n` of them; none where one does not lie within the record (R369). -/
def tlvsOf : Nat → List Byte → Option (List (Nat × List Byte))
  | 0, _ => some []
  | n + 1, bs =>
    let len := leAt bs 2 2
    let size := 4 + (len + 7) / 8 * 8
    if bs.length < 4 ∨ bs.length < size then none
    else (tlvsOf n (bs.drop size)).map (fun ts => (leAt bs 0 2, slice bs 4 len) :: ts)

/-- The reason for which the new firmware in slot `k` declines a record, with the TLV type concerned; 0 accepts
(R369, R370). -/
def Nv.handoverCode (v : Nv) (k : Nat) (h : Handover) (r : List Byte) : Nat × Nat :=
  let major := leAt r 5 1
  if leAt r 0 4 ≠ 0x4F48564D ∨ leAt r 8 4 ≠ r.length ∨ leAt r 12 4 ≠ crc32c (patch r 12 [0, 0, 0, 0]) then (4, 0)
  else if major < v.imgField k 20 1 ∨ v.imgField k 21 1 < major then (2, 0)
  else match tlvsOf (leAt r 6 2) (r.drop 32) with
    | none => (4, 0)
    | some ts =>
      match ts.find? (fun t => bit t.1 15 && !h.known.contains t.1) with
      | some t => (3, t.1)
      | none => if !h.ucodeOk then (5, 0x8006) else if !h.stateOk then (9, 0) else (0, 0)

/-- A service whose non-critical TLV the new firmware does not know starts from its initial state (R369). -/
def State.freshServices (s : State) (known : List Nat) : State :=
  let s1 := if known.contains 0x0004 then s else (s.time.bcPorts.map (fun e => e.1)).foldl State.bcLeave s
  let s2 := if known.contains 0x0007 then s1
    else { s1 with power := { s1.power with vsq := [] }, tour := { s1.tour with slow := false } }
  if known.contains 0x0008 then s2 else { s2 with boot := { s2.boot with recovDirty := [] } }

/-- The record as the new firmware reads it. -/
def handoverRead (h : Handover) (r : List Byte) : List Byte := h.upset.foldl (fun r e => patch r e.1 [e.2]) r

/-- The new firmware's services run from here on: the instant S of R367. -/
def State.castleOn (s : State) : State := { s with boot := { s.boot with castle := 3, castleS := s.elapsed } }

/-- CASTLE_HANDOVER (R367 to R370): the record is written at a checkpoint and checked, and firmware services resume. A hold
of R310 in the step returns the cores to the old checkpoint, and the handover is retried once. Messages of the boundary
clock that fall due in the pause are sent as soon as the services resume (R270). DESIGN CHOICE, unsafe (log entry 24). -/
def execCastleHandover (h : Handover) (s : State) : Host.Outcome State Fault Refusal :=
  gated s fun s =>
    if s.boot.castle ≠ 1 ∨ !s.boot.castleReady ∨ s.triad.lost ∨ s.triad.paused then s
    else
      let resume (s : State) : State := (h.due.filter (fun m => s.bcActive m.port)).foldl State.bcDue s
      let r := s.handoverRecord h.extra
      let s1 := { s with boot := { s.boot with handover := r } }
      if h.hold ∨ s.triad.hold = some .slot then
        resume (if s.boot.castleRetry then s1.declineCastle 7 0
          else { s1 with boot := { s1.boot with castleRetry := true } })
      else
        let c := s.nv.handoverCode (1 - s.boot.slot) h (handoverRead h r)
        resume (if c.1 ≠ 0 then s1.declineCastle c.1 c.2
          else (s1.freshServices h.known).castleOn)

/-- CASTLE_COMMIT (R367, R370): 50 ms after S the commit record is written and read back. -/
def execCastleCommit (writeOk : Bool) (s : State) : Host.Outcome State Fault Refusal :=
  gated s fun s =>
    if s.boot.castle = 3 ∧ s.boot.castleS + msT 50 ≤ s.elapsed ∧ !s.triad.lost then
      let k := 1 - s.boot.slot
      if writeOk then
        let seq := ((s.boot.slotSt s.boot.slot).seq + 1) % 4294967296
        let len := s.nv.imgLen k
        let rec_ : Commit := { seq := seq, imgLen := len, imgCrc := BitVec.ofNat 32 (crc32c (s.nv.image k 0 len)) }
        let s1 := s.modSlot k (fun x => { x with commitOk := true, seq := seq })
        let log := circ 8192 [1, k, s.nv.imgFw k, s.nowNs] s.nv.bootRecs
        let s2 := { s1 with
          nv := { s1.nv.setCommit k rec_ with bootRecs := log }
          boot := { s1.boot with slot := k, fwver := BitVec.ofNat 32 (s.nv.imgFw k) } }
        s2.endCastle k 0 0
      else s.declineCastle 8 0
    else s

end Sys2Proof.Machine
end

