-- ==== Sys2Proof/Machine/Reset.lean ====
section
/-!
DEFINITION. The whole-device resets: POR_N and the device reset (R402, R404, R418, R419).
-/

namespace Sys2Proof.Machine

/-- What every whole-device reset leaves: the non-volatile stores and the outside levels (R418), and the model's own
queue, output record and names. -/
def State.resetAll (s : State) : State :=
  { pending := s.pending, nv := s.nv, io := s.io, nextFid := s.nextFid
    time := { cycles := s.time.cycles }
    pins := { thermtrip := s.pins.thermtrip } }

/-- POR_ASSERT (R418, R419): the whole device is reset. THERMTRIP_N is released, if at all, after release. -/
def execPorAssert (s : State) : Host.Outcome State Fault Refusal := .next s.resetAll

/-- A register of the MSI-X table or of the pending bit array (R303). -/
def inMsix (a : Nat) : Bool := decide (0x14000 ≤ a ∧ a < 0x1C100)

/-- Assert the device reset (R402, R404): everything but the PCI Express link, the configuration space, the MSI-X
table and the PBA. DEDUCED, unsafe (log entry 15). -/
def State.devReset (s : State) : State :=
  let h := s.host
  { s.resetAll with
    regs := s.regs.filter (fun e => inMsix e.1)
    host := { linkUp := h.linkUp, speed := h.speed, width := h.width, bme := h.bme, vfEnable := h.vfEnable
              ctl := h.ctl, vfMsix := h.vfMsix, vfPending := h.vfPending, numVfs := h.numVfs }
    boot := { stage := 4, devCnt := min 65535 (s.boot.devCnt + 1), perstCnt := s.boot.perstCnt, cause := true }
    pins := s.pins }

/-- A write of GLOBAL_RST (R404): only key 0xC5 with DEV_RST resets. -/
def State.globalRst (s : State) (v : Reg) : State :=
  if rbit v 0 ∧ fld v 31 24 = 0xC5 then s.devReset else s

/-- GLOBAL_RST_WRITE (R404). -/
def execGlobalRstWrite (value : Reg) (s : State) : Host.Outcome State Fault Refusal :=
  atPins s fun s => s.globalRst value

end Sys2Proof.Machine
end

