-- ==== Sys2Proof/Machine/RegWrite.lean ====
section
/-!
DEFINITION. Writes to the setup registers: access rules, field masks and the registers whose write acts at once
(R10, R21, R40, R41, R392 to R401).
-/

namespace Sys2Proof.Machine

/-! ### Factory test mode (R326) -/

def State.factory (s : State) : Bool := s.boot.testmode && s.nv.factoryBit

/-! ### Maps and rates (R40) -/

/-- A map and rate word are valid (R40): every port is aligned, its lanes agree, and no rate code is 3. -/
def laneMapOk (m r : Nat) : Bool :=
  (List.range 16).all (fun i =>
    let w := mapWidth m i
    let b := i / w * w
    bits r (2 * i + 1) (2 * i) != 3 &&
      (List.range w).all (fun j => bits m (2 * (b + j) + 1) (2 * (b + j)) == bits m (2 * i + 1) (2 * i) &&
        bits r (2 * (b + j) + 1) (2 * (b + j)) == bits r (2 * i + 1) (2 * i)))

/-- A write of PORT_MAP or LANE_RATE: rejected with MAP_ERR, or pending until its ports are OFF (R40, R41). -/
def State.writeMap (s : State) (k : Nat) (isRate : Bool) (v : Reg) : State :=
  let m := if isRate then s.reg (A.portMap k) else v
  let r := if isRate then v else s.reg (A.laneRate k)
  if laneMapOk m.toNat r.toNat then (s.setReg (if isRate then A.laneRate k else A.portMap k) v).applyMap k
  else s.orReg (A.mapStat k) 1

/-! ### What a write does beside changing the register (R21) -/

/-- Local lane of a per-port register at offset `o` of a square block (R41). -/
def perPort (o : Nat) : Option Nat :=
  if 0x100 ≤ o ∧ o < 0x140 then some ((o - 0x100) / 4)
  else if 0x1100 ≤ o ∧ o < 0x1140 then some ((o - 0x1100) / 4)
  else if 0x3100 ≤ o ∧ o < 0x3180 then some ((o - 0x3100) / 8)
  else none

/-- A square register has been written: settings of functions that are OFF come into force at once. -/
def State.afterSquare (s : State) (k o : Nat) : State :=
  match perPort o with
  | some i => if s.portExists (16 * k + i) && s.isOff 0 (16 * k + i) then s.latch [A.sq k + o] else s
  | none =>
    if (allOffRegs k).contains (A.sq k + o) then (if s.allPortsOff k then s.latch [A.sq k + o] else s)
    else if o = 0x1200 then (if s.isOff 7 0 then s.latch [A.sq k + o] else s)
    else if 0x2000 ≤ o ∧ o < 0x2200 then (if s.isOff 10 k then s.latch [A.sq k + o] else s)
    else if 0x5000 ≤ o ∧ o < 0x5080 ∧ o % 8 = 0 then
      (if rbit (s.reg (A.sq k + o)) 31 then s else s.bcLeave (16 * k + (o - 0x5000) / 8))
    else if o = 0x7000 then (if s.isOff 8 k then s.latchTelem k else s)
    else s

/-- A register outside the square blocks has been written. -/
def State.afterGlobal (s : State) (a : Nat) : State :=
  if a = A.bookLearnCfg ∨ a = A.bookAgeCfg then (if s.isOff 7 0 then s.latch [a] else s)
  else if a = A.timeBcCfg then (if s.isOff 9 0 then s.latch [a] else s)
  else if a = A.svcRedCfg then (if s.enginesOff then s.latch [a] else s)
  else if a = A.hostMgmtCfg then (if s.isOff 0 1089 then s.latch [a] else s)
  else if a = A.telemCfg ∨ a = A.telemCfg + 4 ∨ a = A.telemCfg + 8 then
    squares.foldl (fun s k => if s.isOff 8 k then s.latchTelem k else s) s
  else if a = A.timeCfg then s.useRef
  else if 0x14000 ≤ a ∧ a < 0x1C000 ∧ a % 16 = 12 then
    s.sendPending 0 ((a - 0x14000) / 16)
  else s

/-! ### One register (R10, R326, R327) -/

/-- The value a register takes from a write: RW fields as written, W1C fields cleared where written 1. -/
def writtenWord (r : RegRow) (old v : Nat) : Nat :=
  Nat.land v r.rw + (old - Nat.land old r.rw - Nat.land (Nat.land old r.w1c) v)

/-- Write the register at `a`, one that row `r` describes. -/
def State.writeRow (s : State) (r : RegRow) (a : Nat) (v : Reg) : State :=
  let s1 := s.setReg a (BitVec.ofNat 32 (writtenWord r (s.reg a).toNat v.toNat))
  if inSquare a then s1.afterSquare (squareOf a) (offsetOf a) else s1.afterGlobal a

/-- Apply a write to a register with functions of its own, or to an ordinary one. DEDUCED, unsafe (log entry 13). -/
def State.writeReg (s : State) (a : Nat) (v : Reg) : State :=
  match regRow a with
  | none => s.accErr 2 a
  | some r =>
    if a = 0x20 then s.globalRst v
    else if a = A.faultCtl then
      (if rbit v 0 then { s with fault := { s.fault with first := none } } else s)
    else if a = A.faultInj then (if s.factory then s.setReg a v else s)
    else if a = A.faultCfg 4 then s
    else if a = A.faultCfg 15 then s.writeRow r a (putFld v 7 0 1)
    else if inSquare a then
      let k := squareOf a
      let o := offsetOf a
      if o = 0 then s.writeMap k false v
      else if o = 4 then s.writeMap k true v
      else if 0x300 ≤ o ∧ o < 0x340 then
        (if rbit v 16 then s.modLane (16 * k + (o - 0x300) / 4) (fun l => { l with fomMin := l.fom }) else s)
      else if o = 0x2004 then (if rbit v 31 then s.modSq k (fun q => { q with reseqHwm := q.parkedCount }) else s)
      else s.writeRow r a v
    else s.writeRow r a v

/-! ### The access rules (R393, R394, R399) -/

/-- Blocks that accept writes before DP_READY (R399). -/
def alwaysWritable (a : Nat) : Bool := decide (a < 0x20000)

/-- A write of one register with its byte enables. DEDUCED, unsafe (log entry 11). -/
def State.hostWriteReg (s : State) (a : Nat) (v : Reg) (be : BitVec 4) : State :=
  if be = 0 then s
  else if !s.boot.dpReady && !alwaysWritable a then s.accErr 3 a
  else if regRow a = none then s.accErr 2 a
  else if be ≠ 15 then s.accErr 1 a
  else s.writeReg a v

/-- A broadcast write: one write in each square block, in ascending order (R401). -/
def State.broadcast (s : State) (o : Nat) (v : Reg) (be : BitVec 4) : State :=
  if findRow squareRows o = none then (if be = 0 then s else s.accErr 2 (0x2000000 + o))
  else squares.foldl (fun s k => s.hostWriteReg (A.sq k + o) v be) s

/-- REGISTER_WRITE (R392 to R401). A poisoned write is discarded (R301). -/
def execRegisterWrite (addr : Nat) (value : Reg) (be : BitVec 4) (poisoned : Bool) (s : State) :
    Host.Outcome State Fault Refusal :=
  atPins s fun s =>
    if poisoned then s.hostErr 4 0 0
    else if 0x2000000 ≤ addr ∧ addr < 0x2040000 then s.broadcast (addr - 0x2000000) value be
    else s.hostWriteReg addr value be

/-- SQUARE_BROADCAST_WRITE (R401). -/
def execSquareBroadcastWrite (offset : Nat) (value : Reg) (be : BitVec 4) (s : State) :
    Host.Outcome State Fault Refusal :=
  atPins s fun s => s.broadcast offset value be

/-- PORT_MAP_WRITE (R40, R41, R399). -/
def execPortMapWrite (sq : Nat) (isRate : Bool) (value : Reg) (s : State) : Host.Outcome State Fault Refusal :=
  atPins s fun s => s.hostWriteReg (if isRate then A.laneRate sq else A.portMap sq) value 15

end Sys2Proof.Machine
end

