-- ==== Sys2Proof/Machine/Boot.lean ====
section
/-!
DEFINITION. Boot: release of the resets, choice and check of an image, settings snapshots, recovery mode, rails and
boundary scan (R350 to R366, R404, R415 to R420).
-/

namespace Sys2Proof.Machine

/-! ### Release (R350, R352, R356, R359) -/

/-- Committed slots, the later SEQ first; slot A where they are equal (R354, R356).
DEDUCED, unsafe (log entry 17). -/
def Nv.slotOrder (v : Nv) : List Nat :=
  match v.commit 0, v.commit 1 with
  | some a, some b => if a.seq ≠ b.seq ∧ after32 b.seq a.seq then [1, 0] else [0, 1]
  | some _, none => [0]
  | none, some _ => [1]
  | none, none => []

/-- BOOT_SLOT and BOOT_SEQ of a slot as the ROM finds it (R357, R373). -/
def Nv.slotAtBoot (v : Nv) (k : Nat) : SlotSt :=
  match v.commit k with
  | some c => { commitOk := true, seq := c.seq }
  | none => { fail := 1 }

/-- Enter recovery mode (R359). -/
def State.recover (s : State) : State :=
  { s with boot := { s.boot with stage := 3, recovery := true, order := [] }
           pins := { s.pins with spiFree := s.boot.bootsel == 3 } }

/-- Recovery counters as the scoresheet holds them (R325). -/
def State.loadRecov (s : State) : State :=
  s.nv.recov.foldl (fun s e => s.modSrc e.1 (fun x => { x with recov := e.2 })) s

/-- The reference of device time is chosen from those present at the start (R256). -/
def State.startRef (s : State) : State :=
  ({ s with time := { s.time with tclkOk := s.nv.timeclk } }).useRef

/-- The ROM starts: straps and commit records are read, and a slot is chosen (R350 to R356). -/
def State.startRom (s : State) (b : BoardIn) : State :=
  let s1 := s.loadRecov.startRef
  let order := s1.nv.slotOrder
  let s2 := { s1 with boot := { s1.boot with
    stage := 1, bootsel := b.bootsel.toNat, testmode := b.testmode, order := order
    slotA := s1.nv.slotAtBoot 0, slotB := s1.nv.slotAtBoot 1 } }
  if 2 ≤ b.bootsel.toNat ∨ order = [] then s2.recover else s2

/-- What an external programmer has written to the flash (R353, R359). -/
def State.programmed (s : State) (b : BoardIn) : State :=
  let f := b.flash.foldl (fun m e => SMap.set flashErased m e.1 e.2) s.nv.flash
  { s with nv := { s.nv with flash := f } }

/-- POR_RELEASE (R350, R418, R419). DESIGN CHOICE, unsafe (log entry 16). -/
def execPorRelease (b : BoardIn) (s : State) : Host.Outcome State Fault Refusal :=
  always s fun s =>
    if s.boot.stage = 0 then
      let s1 := { s with pins := { s.pins with thermtrip := s.pins.thermtrip && b.hot } }
      (s1.programmed b).startRom b
    else s

/-- DEVICE_RESET_RELEASE (R404): the reset is held until 101 µs after the write. Flash that an external programmer
drove in recovery mode is read as it left it. -/
def execDeviceResetRelease (b : BoardIn) (s : State) : Host.Outcome State Fault Refusal :=
  always s fun s =>
    if s.boot.stage = 4 ∧ usT 101 ≤ s.elapsed then
      let s1 := if s.pins.spiFree then s.programmed b else s
      let s2 := { s1 with time := { cycles := s1.time.cycles }, pins := { s1.pins with spiFree := false } }
      s2.startRom b
    else s

/-! ### Settings (R365, R366) -/

/-- A register that a settings snapshot holds: an RW register of a block from TRIAD on (R365). -/
def savedReg (a : Nat) : Bool :=
  decide (0x20000 ≤ a ∧ a < 0x2000000) && (match regRow a with | some r => r.rw != 0 | none => false)

/-- The settings as a snapshot of sequence number `n`. Registers not listed hold their reset values. -/
def State.snapshotOf (s : State) (n : Nat) : Snap :=
  let rs : List (Nat × Reg) := (s.regs.filter (fun e => savedReg e.1)).map (fun e =>
    (e.1, match regRow e.1 with | some r => e.2 &&& BitVec.ofNat 32 r.rw | none => e.2))
  { seq := n, regs := rs, phases := s.power.phases, phase := s.power.phase, cap := s.power.cap, bc := s.time.bcCfg }

/-- Sequence number of a copy; 0 for none. -/
def snapSeq (x : Option Snap) : Nat := x.elim 0 (fun y => y.seq)

/-- The copy with the later sequence number: its number and the snapshot. -/
def Nv.laterCopy (v : Nv) : Nat × Option Snap :=
  match v.settings0, v.settings1 with
  | some a, some b => if b.seq ≠ a.seq ∧ after32 b.seq a.seq then (1, some b) else (0, some a)
  | some a, none => (0, some a)
  | none, some b => (1, some b)
  | none, none => (1, none)

def Nv.setCopy (v : Nv) (k : Nat) (x : Option Snap) : Nv :=
  if k = 0 then { v with settings0 := x } else { v with settings1 := x }

/-- SETTINGS_SAVE (R364, R365): a snapshot to the older copy; `readBackOk` is what its read-back finds.
DEDUCED, unsafe (log entry 19). -/
def execSettingsSave (c : Cmd) (readBackOk : Bool) (s : State) : Host.Outcome State Fault Refusal :=
  gated s (runCmd 0x74 c (p0Below c 0 && p1Below c 0 && p2Below c 0) fun s =>
    let soon := match s.boot.lastSave with | some t => decide (s.elapsed < t + secT 1) | none => false
    if s.castling || soon then .ret s stBusy 0
    else
      let later := s.nv.laterCopy
      let k := 1 - later.1
      let seq := (snapSeq later.2 + 1) % 2 ^ 32
      let s1 := { s with boot := { s.boot with lastSave := some s.elapsed } }
      if readBackOk then .ret { s1 with nv := s1.nv.setCopy k (some (s.snapshotOf seq)) } stOk seq
      else
        let s2 := { s1 with nv := s1.nv.setCopy k none }
        .ret (((s2.orReg A.bootSsStat (2 ^ 31)).post 0x33 0 (1 + 16 * k) (leBytes 4 1)).faultEvent 23)
          Config.saveFailStatus.toNat 0)

/-- Restore a snapshot: registers as the host would write them, then the firmware settings (R366). A snapshot holds
saved registers alone (R365). -/
def State.restore (s : State) (x : Snap) : State :=
  let s1 := x.regs.foldl (fun s e => if savedReg e.1 then s.writeReg e.1 e.2 else s) s
  let cur := SMap.get (fun _ => ({} : PhaseRec)) x.phases x.phase
  { s1 with power := { s1.power with phases := x.phases, phase := x.phase, cur := cur, cap := x.cap }
            time := { s1.time with bcCfg := x.bc, bcClass := x.bc.clockClass }
            boot := { s1.boot with restored := true } }

/-- The settings restore of a normal boot (R352, R366). -/
def State.restoreStep (s : State) : State :=
  if s.boot.bootsel = 0 then
    match s.nv.laterCopy.2 with
    | some x => if x.unknownCritical then { s with boot := { s.boot with restoreRef := true } } else s.restore x
    | none => { s with boot := { s.boot with restoreRef := true } }
  else s

/-! ### Checking an image and starting it (R350, R356 to R358) -/

/-- The control stores are loaded from the reduction patch of the image (R239). -/
def State.loadPatch (s : State) (ver : Nat) : State :=
  let ws := (List.range 2048).map (Config.redPatch ver)
  (List.range 4).foldl (fun s e => s.modEngine e (fun x => { x with cstore := ws }))
    { s with red := { s.red with ver := BitVec.ofNat 32 ver, patch := ws } }

/-- Boot slot `k`: the firmware starts, the patches are loaded, settings restored and DP_READY set. -/
def State.bootSlot (s : State) (k : Nat) : State :=
  let fw := s.nv.imgFw k
  let s1 := { s with
    boot := { s.boot with stage := 2, slot := k, order := [], fwver := BitVec.ofNat 32 fw
                          parseVer := BitVec.ofNat 32 (s.nv.sectionVersion k 2) }
    triad := { s.triad with ckptAt := s.elapsed, aliveAt := s.elapsed }
    nv := { s.nv with bootRecs := circ 8192 [0, k, fw, s.nowNs] s.nv.bootRecs } }
  let s2 := (s1.loadPatch (s.nv.sectionVersion k 3)).restoreStep.bootSetpoints
  let src := b2n s2.boot.fellBack + 2 * b2n s2.boot.restored + 4 * b2n s2.boot.restoreRef
  let ev : Event := { type := 0x30, sub := k, src := src, time := s2.nowNs
                      payload := leBytes 4 fw ++ leBytes 1 s2.boot.failCode ++ leBytes 1 s2.nv.rbc }
  ({ s2 with boot := { s2.boot with dpReady := true }, host := { s2.host with bootEvent := some ev } }).releaseBootEvent

/-- BOOT_IMAGE_CHECKED (R356 to R359): the slot chosen is booted, or the next is tried, or recovery mode entered. -/
def execBootImageChecked (c : Crypto) (s : State) : Host.Outcome State Fault Refusal :=
  gated s fun s =>
    if s.boot.stage ≠ 1 then s
    else match s.boot.order with
      | [] => s.recover
      | k :: rest =>
        let code := s.nv.imageCode k c true
        let s1 := s.modSlot k (fun x => { x with svn := s.nv.imgSvn k, fail := code })
        if code = 0 then s1.bootSlot k
        else
          let first := !s1.boot.fellBack
          let s2 := { s1 with boot := { s1.boot with
            fellBack := true, failCode := if first then code else s1.boot.failCode, order := rest } }
          if rest = [] then s2.recover else s2

/-! ### Rails and boundary scan (R415, R420) -/

/-- RAIL_OUT_OF_RANGE (R415): with POR_N high, every guarantee is void until the next POR_N.
DESIGN CHOICE, unsafe (log entry 97). -/
def execRailOutOfRange (_rail : Nat) (s : State) : Host.Outcome State Fault Refusal :=
  always s fun s =>
    if s.boot.stage = 0 then s else { s with pins := { s.pins with railBad := true } }

/-- BOUNDARY_SCAN_INSTRUCTION (R420): the instruction in force decides who has the pins. -/
def execBoundaryScanInstruction (i : TapInstr) (s : State) : Host.Outcome State Fault Refusal :=
  always s fun s =>
    if s.boot.stage = 0 then s
    else { s with pins := { s.pins with scan := match i with | .other _ => true | _ => false } }

end Sys2Proof.Machine
end

