-- ==== Sys2Proof/Machine/BufState.lean ====
section
/-!
DEFINITION. Buffer service states, the account network, capture and the leaked-buffer audit
(R180 to R183, R192, R193, R199, R200, R426).
-/

namespace Sys2Proof.Machine

/-! ### Settings (R183) -/

/-- Registers that a change of state latches. -/
def bufRegs : List Nat :=
  [A.bufCfg, A.bufFloor, A.bufPfc, A.bufPriMapLo, A.bufPriMapHi] ++
    (List.range 16).flatMap (fun c => [A.bufClassLim c, A.bufClassYel c, A.bufClassRed c, A.bufClassCfg c])

/-- The registers as written now. -/
def State.bufCapture (s : State) : SMap Reg := bufRegs.map (fun a => (a, s.reg a))

/-- A setting is valid (R183). -/
def bufSettingOk (m : SMap Reg) : Bool :=
  let v := fun a => SMap.get regReset m a
  let loss := fun c => rbit (v (A.bufClassCfg c)) 4
  let pri := fun c => if c < 8 then fld (v A.bufPriMapLo) (3 * c + 2) (3 * c)
    else fld (v A.bufPriMapHi) (3 * (c - 8) + 2) (3 * (c - 8))
  let cs := List.range 16
  decide ((cs.filter loss).length ≤ 8) &&
    cs.all (fun a => cs.all (fun b => pri a != pri b || loss a == loss b)) &&
    cs.all (fun c => decide (fld (v (A.bufClassRed c)) 20 0 ≤ fld (v (A.bufClassYel c)) 20 0 ∧
      fld (v (A.bufClassYel c)) 20 0 ≤ fld (v (A.bufClassLim c)) 20 0))

/-- Bring captured values into force. -/
def State.bufLatch (s : State) (m : SMap Reg) : State := m.foldl (fun s e => s.setForce e.1 e.2) s

/-- A change of state with its event (R183). -/
def State.toBufState (s : State) (t : Nat) : State :=
  ({ s with buf := { s.buf with state := t, recovDue := false } }).post 3 t s.buf.state []

/-- A change made by a command, with the settings captured when it was accepted. -/
def State.bufCommand (s : State) (c : BufChange) : State := (s.bufLatch c.regs).toBufState c.target

/-- A change made without a command: an invalid setting leaves the one before in force (R183). -/
def State.bufAuto (s : State) (t : Nat) : State :=
  let m := s.bufCapture
  (if bufSettingOk m then s.bufLatch m else s.orReg A.bufStateReg 4).toBufState t

/-- RECOV_TIME (R182). -/
def State.recovTime (s : State) : Tick := msT (atLeast1 (fld (s.inForce A.bufCfg) 23 16))

/-- A recovery trigger (R182). -/
def State.recoveryTrigger (s : State) : State :=
  if s.buf.state = 1 then
    let s1 := s.bufAuto 3
    { s1 with buf := { s1.buf with recovEnd := s1.elapsed + s1.recovTime } }
  else if s.buf.state = 3 then
    { s with buf := { s.buf with recovEnd := s.elapsed + s.recovTime, recovDue := false } }
  else s

/-- The state in force once every change accepted or triggered has taken effect (R426). -/
def State.bufNext (s : State) : Nat :=
  match s.buf.pending.getLast? with
  | some c => c.target
  | none => if s.buf.state = 3 ∧ s.buf.recovDue then 1 else s.buf.state

/-- Capture, check and accept a change to state `t`. Before the mesh has started no boundary occurs: a change from
STARTUP takes effect at once, a later one waits for the first boundary (R183, R426). DEDUCED, unsafe (log entry 106). -/
def State.bufAccept (s : State) (t : Nat) : CmdOut :=
  let m := s.bufCapture
  if !bufSettingOk m then .ret s stInvalid 0
  else if s.tour.running ∨ s.buf.state ≠ 0 ∨ s.buf.pending ≠ [] then
    .ret { s with buf := { s.buf with pending := s.buf.pending ++ [{ target := t, regs := m }] } } stOk 0
  else .ret (s.bufCommand { target := t, regs := m }) stOk 0

/-- BUF_STATE with value `v` (R182, R183, R426). -/
def bufStateCmd (v : Nat) (c : Cmd) (s : State) : State :=
  runCmd 0x50 c (p0Below c 2 && p1Below c 0 && p2Below c 0) (fun s =>
    if c.p0.toNat ≠ v then .ret s stInvalid 0
    else if s.bufNext = v then .ret s stOk 0
    else if v = 1 ∧ (s.bufNext = 3 ∨ s.bufNext = 0 ∧ !s.tour.running) then .ret s stBusy 0
    else s.bufAccept v) s

/-- BUF_STATE_NORMAL (R182, R183). -/
def execBufStateNormal (c : Cmd) (s : State) : Host.Outcome State Fault Refusal := gated s (bufStateCmd 1 c)
/-- BUF_STATE_TEST (R182, R183). -/
def execBufStateTest (c : Cmd) (s : State) : Host.Outcome State Fault Refusal := gated s (bufStateCmd 2 c)

/-- BUF_RECOVERY_END (R182, R183): the change itself waits for the boundary. -/
def execBufRecoveryEnd (s : State) : Host.Outcome State Fault Refusal :=
  gated s fun s =>
    if s.buf.state = 3 ∧ s.buf.recovEnd ≤ s.elapsed ∧ s.buf.pending = [] then
      { s with buf := { s.buf with recovDue := true } }
    else s

/-- The return to NORMAL at the end of RECOVERY, with its own latch and event (R183). A trigger at the same boundary
restarts the timer instead, but where a command accepted against NORMAL follows. -/
def State.bufEndRecovery (s : State) (trigger : Bool) : State :=
  if s.buf.state = 3 ∧ s.buf.recovDue ∧ (!trigger ∨ s.buf.pending ≠ []) then s.bufAuto 1 else s

/-- The oldest command change that waits (R426). -/
def State.bufNextCommand (s : State) : State :=
  match s.buf.pending with
  | c :: cs => ({ s with buf := { s.buf with pending := cs } }).bufCommand c
  | [] => s

/-- Buffer state at a boundary: the end of RECOVERY, the oldest command change, then the trigger of a removal or
rejoin at this boundary, each with its own event (R183, R426). DEDUCED, unsafe (log entry 106). -/
def State.bufBoundary (s : State) (trigger : Bool) : State :=
  let s1 := (s.bufEndRecovery trigger).bufNextCommand
  if trigger then s1.recoveryTrigger else s1

/-! ### The account network (R180) -/

/-- Sum of the active squares' free-cell counts. -/
def State.gfNow (s : State) : Nat := ((squares.filter s.sqActive).map (fun i => (s.sq i).free)).sum

/-- ACCOUNT_UPDATE (R180): the global free count, or one queue's LEVEL and VICTIM bit, reaches a square. -/
def execAccountUpdate (dst : Nat) (queue : Option Nat) (s : State) : Host.Outcome State Fault Refusal :=
  gated s fun s =>
    match queue with
    | none =>
      let gf := s.gfNow
      ({ s with buf := { s.buf with gf := gf } }).modSq dst (fun q => { q with viewGf := gf })
    | some n =>
      let l := s.level n
      let v := (s.queue n).victim
      s.modSq dst (fun q => { q with viewLevel := SMap.set (fun _ => 0) q.viewLevel n l
                                     viewVictim := SMap.set (fun _ => false) q.viewVictim n v })

/-! ### Capture (R193) -/

/-- Cells that belong wholly to the frames of `out`, where `stay` are the others. -/
def wholeCells (out stay : List QFrame) : Nat :=
  let kept := stay.flatMap (fun f => f.refs.map (fun r => (r.hsq, r.idx)))
  (((out.flatMap (fun f => f.refs.map (fun r => (r.hsq, r.idx)))).eraseDups).filter (fun r => !kept.contains r)).length

/-- Frames captured from the tail, newest first, until their cells reach `n`; `front` in queue order. -/
def captureTail (n : Nat) : Nat → List QFrame → List QFrame → List QFrame × List QFrame
  | 0, front, out => (front, out)
  | k + 1, front, out =>
    match front.getLast? with
    | none => (front, out)
    | some f =>
      if !f.eligible || decide (n ≤ wholeCells out front) then (front, out)
      else captureTail n k front.dropLast (f :: out)

/-- Carry out one claim (R193). -/
def State.capture (s : State) (e : Nat) (c : Claim) : State :=
  let fs := (s.queue c.queue).frames
  let out := (captureTail c.cells fs.length fs []).2
  if out = [] then s.count (queueCtr c.queue 15) 1
  else
    let ids := out.map (fun f => f.fid)
    (s.discardFrames c.queue 8 (fun f => ids.contains f.fid)).moveCells e

/-- CAPTURE_CLAIM (R193): claims are served in ascending order of (ingress square − P) mod 64. -/
def execCaptureClaim (e : Nat) (s : State) : Host.Outcome State Fault Refusal :=
  gated s fun s =>
    match sortBy (fun c => (c.from_ + 128 - (s.sq e).rotP) % 64) (s.sq e).claims with
    | [] => s
    | c :: _ => (s.modSq e (fun q => { q with claims := q.claims.erase c })).capture e c

/-! ### The audit (R199, R200) -/

/-- A reference to a cell in its own square's waiting, held and deferred lists. DEDUCED, unsafe (log entry 61). -/
def Sq.ownRef (q : Sq) (k : Nat) : Bool :=
  q.waiting.contains k || q.heldCells.contains k || q.ctxIn.any (fun x => x.2.deferred.any (fun d => d.cells.contains k))

/-- A reference to a cell at the square that holds its egress queue: queue pointers, parked entries and
outstanding pulls. -/
def State.egressRef (s : State) (i k : Nat) (c : Cell) : Bool :=
  let e := s.queueSquare c.ctx.eport
  (s.queue (16 * c.ctx.eport + c.ctx.cls)).frames.any (fun f => f.refs.any (fun r => r.hsq == i && r.idx == k)) ||
    (s.sq e).ctxOut.any (fun x => x.2.parked.any (fun p => p.hsq == i && p.idx == k)) ||
    (s.sq e).pullBuf.any (fun p => p.ref.hsq == i && p.ref.idx == k) ||
    (s.sq e).discards.any (fun r => r.hsq == i && r.idx == k)

/-- LEAK_AGE of an audit setting (R201). -/
def leakAge (r : Reg) : Nat := atLeast1 (fld r 19 16)

/-- Square `i`'s audit period has ended, by the AUDIT_PERIOD latched when it began (R199, R201). -/
def State.auditDue (s : State) (i : Nat) : Bool :=
  decide ((s.sq i).auditAt + msT (atLeast1 (fld (s.sq i).audit 15 0)) ≤ s.elapsed)

/-- Free a leaked cell with the requester in its OWNER tag, counted and reported (R199). For a square in X the free
would be discarded (R176), so nothing is freed. -/
def State.freeLeaked (s : State) (i : Nat) (x : Nat × Cell) : State :=
  if bit s.tour.x i then s else ((s.freeCell i x.1 x.2.owner).count (sqWord i 13) 1).sqFault i 5

/-- One run of a square's audit with cells of `age` periods as suspects (R199, R200). -/
def State.audit (s : State) (sq age : Nat) : State :=
  let older (c : Cell) : Cell := { c with age := min 15 (c.age + 1) }
  let s1 := s.modSq sq (fun q => { q with cells := q.cells.map (fun x => (x.1, older x.2)) })
  let sus := ((s1.sq sq).cells.filter (fun x => decide (age ≤ x.2.age))).take 4096
  (sus.filter (fun x => !(s1.sq sq).ownRef x.1 && !s1.egressRef sq x.1 x.2)).foldl (fun s x => s.freeLeaked sq x) s1

/-- BUF_AUDIT_PERIOD (R199 to R201): once every AUDIT_PERIOD, at whose end `BUF_AUDIT` is read for the next. -/
def execBufAuditPeriod (sq : Nat) (s : State) : Host.Outcome State Fault Refusal :=
  gated s fun s =>
    if !s.auditDue sq then s
    else
      let r := s.reg A.bufAudit
      let s1 := s.modSq sq (fun q => { q with auditAt := s.elapsed, audit := r })
      if rbit r 31 then s1.audit sq (leakAge r) else s1

end Sys2Proof.Machine
end

