-- ==== Sys2Proof/Machine/Mesh.lean ====
section
/-!
DEFINITION. The mesh: the Tour in force, the slot vote, sends, transfers, notices, slot completion and
stalls (R140 to R153, R166, R167, R305 to R311).
-/

namespace Sys2Proof.Machine

/-! ### The Tour in force (R143, R145) -/

/-- A row as the table gives it: the partner of every square, none where it is idle. -/
def tourRow (w : BookView) (x t k : Nat) : List (Option Nat) :=
  (List.range 64).map (fun i =>
    let e := tourEntry w x t k i
    if bit e 7 then none else some (e % 64))

/-- Remove square `y` from a row by splicing (R145). -/
def spliceRow (row : List (Option Nat)) (y : Nat) : List (Option Nat) :=
  let next := (row[y]?).getD none
  row.zipIdx.map (fun e => if e.2 = y then none else if e.1 = some y then next else e.1)

/-- A row of the Tour derived from the excluded set `x` (R145). -/
def rowFor (w : BookView) (x t k : Nat) : List (Option Nat) :=
  match bitList x 64 with
  | [] => tourRow w 0 t k
  | y :: ys => ys.foldl spliceRow (tourRow w (1 + y) t k)

/-- CUR_TOUR (R170): the Tour in force. -/
def State.curTour (s : State) : Nat :=
  match bitList s.tour.xInForce 64 with
  | [] => 0
  | y :: _ => 1 + y

/-- The three rows of the slot being released. -/
def State.slotRows (s : State) : List (List (Option Nat)) :=
  (List.range 3).map (rowFor s.book.current s.tour.xInForce (s.tour.slot % 64))

/-- Partner of square `i` on channel `k`. -/
def partnerOf (rows : List (List (Option Nat))) (k i : Nat) : Option Nat :=
  ((rows[k]?).bind (fun r => r[i]?)).getD none

/-! ### The slot vote (R305 to R312) -/

/-- Channels whose words the voter compares: live, with their act lines high (R307).
DEDUCED, unsafe (log entry 50). -/
def State.voters (s : State) : List Nat := (List.range 3).filter (fun c => !(s.chn c).failed && (s.chn c).act)

/-- The value at least two of the voters present; in simplex the one live channel's (R313). -/
def State.majority {α : Type} [DecidableEq α] (s : State) (d : Nat → α) : Option α :=
  let vs := s.voters
  if s.triad.simplex then vs.head?.map d
  else (vs.map d).find? (fun x => decide (2 ≤ (vs.filter (fun c => d c = x)).length))

/-- A channel that presents another value than the voted one: a live one is fenced until the re-seed (R307), a
failed one disagrees in shadow (R312); either is an event of its source. -/
def State.outvote (s : State) (c detail : Nat) (boundary : Bool) : State :=
  let s1 := if (s.chn c).failed then s else s.modChn c (fun x => { x with act := false, outvoted := x.outvoted || boundary })
  s1.faultEvent c detail c

/-- No majority (R310, R311): a hold, or the loss of the Triad once RETRY_MAX holds in a row have failed. -/
def State.noMajority (s : State) (k : HoldKind) : State :=
  let n := if k = .store then s.triad.failedStores else s.triad.failedHolds
  if s.triad.hold.isSome || s.triad.lost then s
  else if atLeast1 (fld (s.inForce A.triadCfg) 11 8) ≤ n then s.loseTriad
  else
    let s1 := s.beginHold k
    ({ s1 with triad := { s1.triad with
        failedHolds := if k = HoldKind.store then s1.triad.failedHolds else n + 1
        failedStores := if k = HoldKind.store then n + 1 else s1.triad.failedStores } }).faultEvent 3

/-! ### Sends (R149 to R151) -/

/-- Kinds of send. -/
inductive SendKind where
  | keep | eager | pull (pos : Nat) | direct | spread
deriving DecidableEq, Repr

structure Send where
  src : Nat
  chan : Nat
  dst : Nat
  idx : Nat
  kind : SendKind
deriving DecidableEq, Repr

/-- Cells of a list of indices, in its order. -/
def Sq.cellsOf (q : Sq) (ks : List Nat) : List (Nat × Cell) :=
  ks.filterMap (fun k => (tget q.cells k).map (fun c => (k, c)))

/-- Oldest cell that waits and is not held back by a reservation, its own or that of an earlier cell of its
context (R149, R150). -/
def oldestFree : List (Nat × Cell) → List Ctx → Option (Nat × Cell)
  | [], _ => none
  | x :: xs, held =>
    if x.2.reserved ∨ held.contains x.2.ctx then oldestFree xs (x.2.ctx :: held) else some x

/-- TYPE 1 cells that a square holds for `p`, oldest first (R149, R151). -/
def State.eagerFor (s : State) (i p : Nat) (wait : List (Nat × Cell)) (taken : List Nat) : List (Nat × Cell) :=
  let q := s.sq i
  let held := sortBy (fun x => x.2.sendSlot) (q.cells.filter (fun x =>
    x.2.typ == 1 && x.2.st == .unannounced && s.egressOf x.2 == p && !taken.contains x.1))
  held ++ wait.filter (fun x => q.sendType x.2 == 1 && s.egressOf x.2 == p)

/-- The send of square `i` to partner `p` (R149): `taken` are the cells its earlier channels send. -/
def State.pickSend (s : State) (i k p : Nat) (taken : List Nat) : Option Send :=
  let q := s.sq i
  let wait := (q.cellsOf q.waiting).filter (fun x => !taken.contains x.1)
  let spread := (oldestFree wait []).map (fun x => (⟨i, k, p, x.1, if p = i then .keep else .spread⟩ : Send))
  if p = i then spread
  else match s.eagerFor i p wait taken with
    | x :: _ => some ⟨i, k, p, x.1, .eager⟩
    | [] =>
      match q.pullReqs.find? (fun r => r.1 == p && !taken.contains r.2.idx) with
      | some r => some ⟨i, k, p, r.2.idx, .pull r.2.pos⟩
      | none =>
        match wait.find? (fun x => s.egressOf x.2 == p) with
        | some x => if s.directOk i (q.sendType x.2) x.2.ctx then some ⟨i, k, p, x.1, .direct⟩ else spread
        | none => spread

/-- The sends of one square in a slot, in the order M0, M1, M2. -/
def State.sqSends (s : State) (rows : List (List (Option Nat))) (i : Nat) : List Send :=
  (List.range 3).foldl (fun acc k =>
    match partnerOf rows k i with
    | none => acc
    | some p => match s.pickSend i k p (acc.map (fun x => x.idx)) with
      | some x => acc ++ [x]
      | none => acc) []

/-- Squares that take part in a slot: active, not fenced. -/
def State.inSlot (s : State) : List Nat := squares.filter (fun i => s.sqActive i && !(s.sq i).fenced)

/-- The core takes the cells of a parse lane's crossing, as far as it can; `n` bounds their number. -/
def drainLane (i lane : Nat) : Nat → State → State
  | 0, s => s
  | n + 1, s =>
    let r := s.enterCore i lane none
    if r.2 then drainLane i lane n r.1 else r.1

/-- A square with a send that would carry nothing closes its open cells whose last frame has ended: they are offered
from this slot on, so the core takes them and what stands before them in their crossings (R147).
DEDUCED, unsafe (log entry 105). -/
def State.closeIdle (s : State) (rows : List (List (Option Nat))) (i : Nat) : State :=
  let chans := ((List.range 3).filter (fun k => (partnerOf rows k i).isSome)).length
  if (s.sqSends rows i).length < chans then
    ([0, 1, 2, 3].filter (fun l => (s.openCell i l).endSlot.isSome)).foldl (fun s l =>
      let s1 := s.closeCell i l
      drainLane i l (s1.xing i l).length s1) s
  else s

/-! ### Transfers (R142, R171, R174) -/

/-- Requester a cell is charged to where it arrives (R171). -/
def arriveOwner (c : Cell) : Nat := if c.typ = 2 then 65 else if c.typ = 3 then 64 else c.isq

/-- A request to a square's pool manager in one slot: a transfer, or an injection at an attachment square. -/
inductive Request where
  | send (x : Send)
  | host
  | services
deriving DecidableEq, Repr

/-- Place of requester `r` in the order in which square `i` serves (R174). -/
def State.servePlace (s : State) (i r : Nat) : Nat := (r + 66 - (s.sq i).rotP % 66) % 66

/-- Place of a request in the order of service: by square, then (r − P) mod 66, then the requester's own injection
and its mesh channels (R174). -/
def State.serveKey (s : State) (q : Request) : Nat :=
  match q with
  | .send x =>
    let o := match tget (s.sq x.src).cells x.idx with | some c => arriveOwner c | none => 0
    1000 * x.dst + 4 * s.servePlace x.dst o + x.chan + 1
  | .host => 1000 * s.tour.attHost + 4 * s.servePlace s.tour.attHost 65
  | .services => 1000 * s.tour.attSvc + 4 * s.servePlace s.tour.attSvc 64

/-- The slot in which a cell makes its first move. -/
def State.firstMove (s : State) (k : SendKind) (c : Cell) : Nat :=
  if k = .eager ∧ c.st = .unannounced then c.sendSlot else s.tour.slot

/-- An accepted send: the index its cell has where it arrives, and whether it changed on its way. -/
structure Accepted where
  send : Send
  idx : Nat
  bad : Bool
deriving DecidableEq, Repr

/-- Offer a cell to its receiver: the index it gets there, none where it is refused (R142). A pulled cell needs
no cell of memory (R171). -/
def State.offer (s : State) (x : Send) (bad : Bool) : State × Option Nat :=
  match tget (s.sq x.src).cells x.idx with
  | none => (s, none)
  | some c =>
    match x.kind with
    | .keep => (s, some x.idx)
    | .pull _ => (s, some x.idx)
    | _ =>
      let a := c.arrived bad
      let y : Cell := { a.1 with st := .unannounced, reserved := false, sendSlot := s.firstMove x.kind c }
      let r := s.alloc x.dst (arriveOwner y) y
      (r.1.noteCrc x.dst (r.2.isSome && a.2), r.2)

/-- Serve one request (R174): a transfer is offered, an injection tried. -/
def State.serve (crcBad : List (Nat × Nat)) (a : State × List Accepted) (q : Request) : State × List Accepted :=
  match q with
  | .send x =>
    let bad := decide (x.src ≠ x.dst) && crcBad.contains (x.dst, x.chan)
    let r := a.1.offer x bad
    (r.1, match r.2 with
      | some k => a.2 ++ [⟨x, k, bad⟩]
      | none => a.2)
  | .host => (a.1.flushHostOut, a.2)
  | .services => (a.1.flushRedOut, a.2)

/-- Serve the requests of a slot in their order (R174): the accepted sends. -/
def State.serveAll (s : State) (qs : List Request) (crcBad : List (Nat × Nat)) : State × List Accepted :=
  (sortBy s.serveKey qs).foldl (State.serve crcBad) (s, [])

/-- Frames whose head cell, of a cut-through frame, makes a direct move: their later cells are eager (R151). -/
def State.markEager (s : State) (a : Accepted) : State :=
  match tget (s.sq a.send.src).cells a.send.idx with
  | none => s
  | some c =>
    if rbit (s.inForce A.tourCfg) 1 ∧ a.send.kind = .direct then
      let new := (c.segs.filter (fun g => !g.last && (g.hdr.map (fun h => h.ct)).getD false)).map (fun g => g.fid)
      s.modSq a.send.src (fun q => { q with eager := q.eager ++ new })
    else s

/-- A later cell of an eager frame is TYPE 1 wherever it is from now on (R151). -/
def State.retype (s : State) (a : Accepted) : State :=
  match a.send.kind with
  | .pull _ => s
  | _ =>
    let src := s.sq a.send.src
    s.modSq a.send.dst (fun q => { q with
      cells := tmod q.cells a.idx (Cell.update (fun c => { c with typ := src.sendType c })) })

/-- Frames whose last byte has left are eager no more (R151). -/
def State.noteEager (s : State) (i : Nat) (c : Cell) : State :=
  let gone := (c.segs.filter (fun g => g.last)).map (fun g => g.fid)
  s.modSq i (fun q => { q with eager := q.eager.filter (fun f => !gone.contains f) })

/-- Complete an acknowledged send: the sender frees its cell (R153), the receiver takes it. -/
def State.acked (s : State) (a : Accepted) : State :=
  let x := a.send
  match tget (s.sq x.src).cells x.idx with
  | none => s
  | some c =>
    match x.kind with
    | .keep =>
      let kept (y : Cell) : Cell := { y with st := .unannounced, reserved := false, sendSlot := s.tour.slot }
      ((s.modSq x.src (fun q => { q with
        waiting := q.waiting.erase x.idx, cells := tmod q.cells x.idx kept })).noteEager x.src c).settleCell x.src x.idx
    | .pull pos =>
      let s1 := s.modSq x.src (fun q => { q with
        pullReqs := q.pullReqs.filter (fun r => !(r.1 == x.dst && r.2.pos == pos)) })
      let y := c.arrived a.bad
      ((s1.freeByHeader x.src x.idx).noteCrc x.dst y.2).pullArrive x.dst pos y.1
    | _ => ((s.noteEager x.src c).freeByHeader x.src x.idx).settleCell x.dst a.idx

/-! ### Notices (R152) -/

/-- IDLE vector of a square: its idle front-panel ports (R150, R152). -/
def State.idleVec (s : State) (i : Nat) : Nat :=
  ((s.squarePorts i).map (fun p => if s.portIdle p then 2 ^ (p % 16) else 0)).sum

/-- Cells square `i` holds for `e` and has neither announced nor delivered, by send slot. -/
def State.toAnnounce (s : State) (i e : Nat) : List (Nat × Cell) :=
  sortBy (fun x => x.2.sendSlot) ((s.sq i).cells.filter (fun x =>
    x.2.st == .unannounced && s.egressOf x.2 == e && decide (x.2.sendSlot < s.tour.slot)))

/-- An IDLE report reaches square `p` from `i`: cells reserved for a port that is busy are reserved no longer. -/
def State.idleReport (s : State) (i p v : Nat) : State :=
  let unres (c : Cell) : Cell :=
    if c.reserved && decide (c.ctx.eport < 1024 ∧ c.ctx.eport / 16 = i) && !bit v (c.ctx.eport % 16)
    then { c with reserved := false } else c
  s.modSq p (fun q => { q with
    idleView := SMap.set (fun _ => 0) q.idleView i v
    cells := q.cells.map (fun x => (x.1, unres x.2)) })

/-- PULL records reach the holding square. -/
def State.pullReport (s : State) (i p : Nat) (rs : List PullRec) : State :=
  let sent := fun (r : PullRec) => rs.contains r
  let s1 := s.modSq i (fun q => { q with pulls := q.pulls.filter (fun r => !sent r) })
  let mark (c : Cell) : Cell := { c with st := .pulled }
  s1.modSq p (fun q => { q with
    pullReqs := q.pullReqs ++ rs.map (fun r => (i, r))
    cells := rs.foldl (fun m r => tmod m r.idx mark) q.cells })

/-- An ARRIVE record reaches the egress square. -/
def State.arriveReport (s : State) (i p : Nat) (x : Nat × Cell) : State :=
  let st (y : Cell) : Cell := { y with st := .announced }
  (s.modSq i (fun q => { q with cells := tmod q.cells x.1 st })).entry p x.2.isq x.2.ctx x.2.seq x.2.sendSlot
    { hsq := i, idx := x.1, seq := x.2.seq, bad := x.2.crcBad }

/-- What a notice block from `i` to `p` carries: at most 8 records, IDLE first, then PULL, then ARRIVE, and the
watermark. The IDLE vector is that at the release. DEDUCED, unsafe (log entry 48). -/
def State.notice (s : State) (idle : List Nat) (i p : Nat) : State :=
  let s1 := s.idleReport i p ((idle[i]?).getD 0)
  let rs := ((s1.sq i).pulls.filter (fun r => r.hsq == p)).take 7
  let s2 := s1.pullReport i p rs
  let all := s2.toAnnounce i p
  let as := (all.filter (fun x => x.2.typ ≠ 1)).take (7 - rs.length)
  let rest := all.filter (fun x => !as.contains x)
  let mark := match rest with | [] => s.tour.slot | x :: _ => x.2.sendSlot
  let s3 := as.foldl (fun s x => s.arriveReport i p x) s2
  s3.modSq p (fun q => { q with marks := SMap.set (fun _ => 0) q.marks i mark })

/-! ### The release of a slot (R140, R141) -/

/-- The device is in fixed-tempo mode: its phase says so, or a limiter is in force (R328). -/
def State.fixedTempo (s : State) : Bool :=
  s.power.cur.mode == 0 || s.power.tcap != 0 || s.power.ttherm != 0

/-- Time since the last release, in units of which one interval 1/F at the paced tempo has `slotUnits`. -/
def State.sinceRelease (s : State) : Nat := (s.elapsed - s.tour.releasedAt) * s.power.tempo

/-- 1/F in the units of `sinceRelease`: F is in MHz. -/
def slotUnits : Nat := 1000 * tickNs

/-- The paced time of the next slot has come (R141). -/
def State.pacedDue (s : State) : Bool := s.power.tempo == 0 || decide (slotUnits ≤ s.sinceRelease)

/-- The next slot may be released: the mesh runs, no slot is open, no boundary is due, no hold runs, and its
paced time has come (R141, R310, R311). -/
def State.mayRelease (s : State) : Bool :=
  s.tour.running && !s.tour.released && !s.tour.boundary && s.triad.hold.isNone && !s.triad.lost &&
    (!s.fixedTempo || s.tour.slot == 0 || s.pacedDue)

/-- Cells whose stored copies have changed are so from the release on (R142, R146). Every square asks for cells whose
frames were removed (R193) and closes the cells an idle send has room for, then offers its sends; transfers complete,
but for those of stalled squares. DEDUCED, unsafe (log entry 49). -/
def State.runSlot (s : State) (stalled : List Nat) (crcBad memBad : List (Nat × Nat)) : State :=
  let act := s.inSlot
  let s := act.foldl State.takeDiscards (memBad.foldl State.upsetCell s)
  let rows := s.slotRows
  let go := act.filter (fun i => !stalled.contains i)
  let idle := squares.map s.idleVec
  let s1 := act.foldl (fun s i => s.closeIdle rows i) s
  let live := (act.flatMap (fun i => s1.sqSends rows i)).filter (fun x => go.contains x.src && go.contains x.dst)
  let r0 := s1.serveAll (live.map Request.send ++ [.host, .services]) crcBad
  let r := (r0.2.foldl State.retype (r0.2.foldl State.markEager r0.1), r0.2)
  let pairs := (List.range 3).flatMap (fun k => go.filterMap (fun i =>
    match partnerOf rows k i with
    | some p => if p ≠ i ∧ go.contains p then some (i, p) else none
    | none => none))
  let s2 := pairs.foldl (fun s e => s.notice idle e.1 e.2) r.1
  r.2.foldl State.acked s2

/-- SLOT_RELEASE (R140 to R153, R305 to R311): the channels present their slot words.
DEDUCED, unsafe (log entry 51). -/
def execSlotRelease (d0 d1 d2 : Nat) (stalled : List Nat) (crcBad memBad : List (Nat × Nat)) (s : State) :
    Host.Outcome State Fault Refusal :=
  gated s fun s =>
    let d := fun c => if c = 0 then d0 else if c = 1 then d1 else d2
    if !s.mayRelease then s
    else match s.majority d with
      | none => s.noMajority .slot
      | some w =>
        let others := (List.range 3).filter (fun c => ((s.chn c).failed || (s.chn c).act) && d c != w)
        let s1 := (s.faultOrder id others).foldl (fun s c => s.outvote c 1 (s.tour.slot % 64 == 63)) s
        let bad := stalled.filter (fun i => s1.inSlot.contains i)
        let s2 := s1.runSlot bad crcBad memBad
        { s2 with
          tour := { s2.tour with released := true, lastReleased := s2.tour.slot, releasedAt := s2.elapsed
                                 unfinished := bad.foldl (fun m i => setBit m i true) 0 }
          triad := { s2.triad with failedHolds := 0 } }

/-- Every rotation pointer advances by one tempo cycle (R174, R179). -/
def State.rotate (s : State) : State :=
  let s1 := squares.foldl (fun s i => s.modSq i (fun q => { q with rotP := (q.rotP + 1) % 66 })) s
  { s1 with red := { s1.red with svcRotP := (s1.red.svcRotP + 1) % 6 } }

/-- Record the square that completed last in a slot that was late (R166, R338). -/
def State.recordLast (s : State) (i : Nat) : State :=
  (s.modSq i (fun q => { q with lastRecorded := true })).modVsq i (fun v => { v with recorded := some s.elapsed })

/-- The slot completes after the paced release time of the next one, in fixed-tempo mode (R166). -/
def State.slotLate (s : State) : Bool := s.fixedTempo && decide (slotUnits < s.sinceRelease)

/-- SLOT_COMPLETE (R140, R166): `last` is the square that completed last. The slot number does not advance during a
hold. -/
def execSlotComplete (last : Nat) (s : State) : Host.Outcome State Fault Refusal :=
  gated s fun s =>
    if s.tour.released && s.tour.unfinished == 0 && s.triad.hold.isNone then
      let s1 := if s.slotLate && s.inSlot.contains last then s.recordLast last else s
      let s2 := s1.rotate
      { s2 with tour := { s2.tour with
        released := false, slot := (s2.tour.slot + 1) % 2 ^ 64
        boundary := decide ((s2.tour.slot + 1) % 64 = 0) } }
    else s

/-- STALL_TMO (R167, R170). -/
def State.stallTime (s : State) : Tick := nsT (100 * clip 1 100 (fld (s.inForce A.tourCfg) 23 16))

/-- SLOT_STALL_TIMEOUT (R167): unfinished squares are fenced and the slot completes without them. -/
def execSlotStallTimeout (s : State) : Host.Outcome State Fault Refusal :=
  gated s fun s =>
    if s.tour.released && s.tour.unfinished != 0 && decide (s.tour.releasedAt + s.stallTime ≤ s.elapsed) then
      let is := s.faultOrder (fun i => sqSrc i 0) (bitList s.tour.unfinished 64)
      let s1 := is.foldl (fun s i => (s.modSq i (fun q => { q with fenced := true })).sqFault i 0) s
      { s1 with tour := { s1.tour with unfinished := 0 } }
    else s

/-- MAX_GAP of the active Tour table (R143). -/
def State.maxGap (s : State) : Nat := bookField s.book.current 10 2 1

/-- DIRECT_RESERVE_EXPIRE (R150). -/
def execDirectReserveExpire (sq cell : Nat) (s : State) : Host.Outcome State Fault Refusal :=
  gated s fun s =>
    let due (c : Cell) : Bool := c.reserved && c.st == .waiting && decide (c.numSlot + s.maxGap ≤ s.tour.slot)
    let free (c : Cell) : Cell := if due c then { c with reserved := false } else c
    s.modSq sq (fun q => { q with cells := tmod q.cells cell free })

/-- SLOW_SQUARE_REPORT (R166): recorded in every period for 1 ms without a break. -/
def execSlowSquareReport (sq : Nat) (s : State) : Host.Outcome State Fault Refusal :=
  gated s fun s =>
    match (s.sq sq).lastSince with
    | some t =>
      if t + msT 1 ≤ s.elapsed then
        ({ s with tour := { s.tour with slow := true, slowSq := sq } }).sqFault sq 1
      else s
    | none => s

end Sys2Proof.Machine
end

