-- ==== Sys2Proof/Machine/Boundary.lean ====
section
/-!
DEFINITION. The Tour-period boundary, the removal and rejoin of squares, the square reset and the start of
the mesh (R14, R15, R34, R38, R145, R155, R167 to R169, R177, R308, R314, R418).
-/

namespace Sys2Proof.Machine

/-! ### Attachment squares (R14, R15) -/

/-- The square a block attaches to, from where it attaches now: it moves when its square is excluded and the
other is not. DEDUCED, unsafe (log entry 91). -/
def State.attach (s : State) (now a b : Nat) : Nat :=
  if s.sqActive now then now else if s.sqActive a then a else if s.sqActive b then b else now

def State.moveAttachments (s : State) : State :=
  { s with tour := { s.tour with attHost := s.attach s.tour.attHost 27 36, attSvc := s.attach s.tour.attSvc 28 35 } }

/-! ### What a removal loses (R168) -/

/-- Ports whose queues a square holds (R168): front-panel ports, recirculation port, attached ports. -/
def State.heldPorts (s : State) (i : Nat) : List Nat :=
  s.squarePorts i ++ [1024 + i] ++ ([1088, 1089, 1090].filter (fun p => s.queueSquare p == i))

/-- Cells elsewhere whose egress queue square `i` holds: their squares and indices. -/
def State.boundFor (s : State) (i : Nat) : List (Nat × Nat) :=
  s.sqs.flatMap (fun e => if e.1 = i then [] else
    (e.2.cells.filter (fun c => s.egressOf c.2 == i && c.2.st != .released)).map (fun c => (e.1, c.1)))

/-- Cells of a list that were queued for, or on their way to, ports 1088 to 1090. -/
def innerCells (cs : List Cell) : Nat := (cs.filter (fun c => decide (1088 ≤ c.ctx.eport))).length

/-- Another square forgets what led to the ports of a removed square: contexts, deferred frames and frames
that still arrive. Its contexts towards them start again at 0. -/
def Sq.forget (q : Sq) (gone : Nat → Bool) : Sq :=
  let far := fun (x : Ctx) => gone x.eport
  let fids := (q.verdicts.filter (fun v => (v.2.main.map (fun m => far m.1)).getD false)).map (fun v => v.1)
  let drop (v : Verdict) : Verdict :=
    { v with main := v.main.filter (fun m => !far m.1), copy := v.copy.filter (fun m => !far m.1) }
  { q with
    ctxIn := q.ctxIn.filter (fun x => !gone (x.1 / 16))
    verdicts := q.verdicts.map (fun v => (v.1, drop v.2))
    staging := q.staging.filter (fun t => !fids.contains t.fid)
    eager := q.eager.filter (fun f => !fids.contains f) }

/-- Pointers into a removed square are marked lost; what the square was to deliver is asked for no more. -/
def Sq.loseRefs (q : Sq) (i : Nat) : Sq :=
  { q with
    pullBuf := q.pullBuf.filter (fun p => p.ref.hsq ≠ i ∨ p.data.isSome)
    pulls := q.pulls.filter (fun r => r.hsq ≠ i)
    pullReqs := q.pullReqs.filter (fun r => r.1 ≠ i)
    discards := q.discards.filter (fun r => r.hsq ≠ i)
    claims := q.claims.filter (fun c => c.from_ ≠ i)
    marks := SMap.erase q.marks i
    idleView := SMap.erase q.idleView i }

/-- The cell of a pointer has reached the pull buffer of the queue's square. -/
def Sq.hasCell (x : Sq) (r : CellRef) : Bool :=
  x.pullBuf.any (fun p => p.data.isSome && p.ref.hsq == r.hsq && p.ref.idx == r.idx)

/-- Mark a queue's pointers into square `i` lost, save those whose cells have come over, and judge its frames
(R157, R168). -/
def State.loseQueue (s : State) (i q : Nat) : State :=
  let gone (r : CellRef) : Bool := r.hsq == i && !(s.sq (s.queueSquare (q / 16))).hasCell r
  let hit := fun (f : QFrame) => f.refs.any gone
  let ids := ((s.queue q).frames.filter hit).map (fun f => f.fid)
  let mark (f : QFrame) : QFrame := { f with refs := f.refs.map (fun r => if gone r then { r with lost := true } else r) }
  ids.foldl (fun s f => (s.judgeFrame q f).cutLost q f) (s.modQueue q (fun x => { x with frames := x.frames.map mark }))

/-- What a removed square keeps until its reset: its pointers, buckets, tables and views. -/
def Sq.emptied (q : Sq) : Sq :=
  { policy := q.policy, meters := q.meters, frag := q.frag, learnQ := q.learnQ, sampleCnt := q.sampleCnt
    pcSeq := q.pcSeq, rotP := q.rotP, viewGf := q.viewGf, viewLevel := q.viewLevel, viewVictim := q.viewVictim
    resetSt := q.resetSt, resetCmd := q.resetCmd, reseqHwm := q.reseqHwm, auditAt := q.auditAt, audit := q.audit
    qsampAt := q.qsampAt }

/-! ### Functions of a removed square (R34, R38) -/

/-- A front-panel port of a removed square goes down with cause 10 (R56, R59). -/
def State.removedPort (s : State) (p : Nat) : State :=
  if (s.link p).up then
    let down (l : Link) : Link := { l with up := false, upHold := none, cause := 10, lane := 255 }
    ((((((s.modLink p down).setLsv p false).bcLeave p).orReg (A.linkStat (p / 16) (p % 16)) (2 ^ 24)).countPort p 24 1).faultEvent
      (portSrc p) 1 p 10)
  else s

/-- Headers of the recirculated frames that the core of a square has not decided yet. -/
def Sq.secondPass (q : Sq) : List FrameHdr :=
  q.recirc.map (fun f => f.hdr) ++ (SMap.get (fun _ => []) q.xing 4 ++ SMap.get (fun _ => []) q.backlog 4).flatMap (fun c =>
    c.segs.filterMap (fun g => g.hdr))

/-- Frames that start in the cells of a list of squares and indices. -/
def State.framesIn (s : State) (es : List (Nat × Nat)) : List FrameHdr :=
  cellFrames (es.filterMap (fun e => tget (s.sq e.1).cells e.2))

/-- Frames of a queue: those it holds and those on their way to it. -/
def State.queueUnits (s : State) (q : Nat) : Nat := (s.queue q).frames.length + (s.framesIn (s.unlinked q)).length

/-- Frames of a port's queues that are lost with their square, without those of a queue that drains under a command of
its own (R31, R34). -/
def State.portUnits (s : State) (p : Nat) : Nat :=
  ((List.range 16).map (fun c =>
    let f := s.fn 1 (16 * p + c)
    if f.st == .draining && f.own then 0 else s.queueUnits (16 * p + c))).sum

/-- Units that a draining function of a removed square adds to its discard count (R34). -/
def State.lostUnits (s : State) (cls inst : Nat) : Nat :=
  match cls with
  | 0 => s.portUnits inst
  | 1 => s.queueUnits inst
  | 2 => s.portUnits (1024 + inst) + (s.sq inst).secondPass.length
  | 8 => (s.sq inst).postcards.length
  | 10 => (s.sq inst).blitz.length
  | _ => 0

/-- Work of queues outside a removed square that is discarded with it joins their discard counts (R34): for the attached
ports, whose queues it held, every frame; for every other port the frames not linked yet that start in its cells. -/
def State.chargeRemoval (s : State) (i : Nat) (ports : List Nat) : State :=
  let moved := (ports.filter (fun p => decide (1088 ≤ p))).flatMap (fun p => (List.range 16).map (16 * p + ·))
  let qs := ((s.sq i).cells.map (fun c => 16 * c.2.ctx.eport + c.2.ctx.cls)).eraseDups.filter (fun q => !ports.contains (q / 16))
  qs.foldl (fun a q => a.chargeQueue q (s.framesIn ((s.unlinked q).filter (fun e => e.1 == i))).length)
    (moved.foldl (fun a q => a.chargeQueue q (s.queueUnits q)) s)

/-- A function that lies wholly in a removed square enters OFF: with an event only where it was draining under
a command of its own (R34, R38). `units` were lost with the square. -/
def State.removedFn (s : State) (f : Nat × Nat) (units : Nat) : State :=
  let x := s.fn f.1 f.2
  let s1 := if s.isOff f.1 f.2 then s else (s.setFn f.1 f.2 {}).offActions f.1 f.2
  if x.st == .draining && x.own then
    s1.postLife f.1 f.2 2 (x.discarded + units) (toUs (s.elapsed - x.since))
  else s1

/-- Functions of a removed square, containers after what they contain. -/
def State.removedFns (s : State) (i : Nat) : List (Nat × Nat) :=
  (s.squarePorts i).flatMap (fun p => s.contained 0 p ++ [(0, p)]) ++ s.contained 2 i ++ [(2, i), (10, i), (8, i)]

/-- A port of a removed square holds nothing more. -/
def State.clearPort (s : State) (p : Nat) : State :=
  ((List.range 16).foldl (fun s c => s.modQueue (16 * p + c) (fun q => { q with
    frames := [], tag := none, shaper := none })) s).modEport p (fun e => { e with
      tx := none, selected := [], shaper := none, v := 0, gate := none, pendGate := none, loadGate := none, gateEntry := 0 })

/-! ### The removal (R168, R320) -/

/-- Post and store the isolation record of a square. -/
def State.isoRecord (s : State) (i lost inner : Nat) : State :=
  let src := SMap.get (fun _ => 0) s.tour.xSource i
  let sub := b2n (src == 65536)
  let s1 := s.post 0x13 sub i (leBytes 4 lost ++ leBytes 4 inner ++ leBytes 2 (src - 1))
  { s1 with nv := { s1.nv with isoRecs := circ 1024 [sub, i, lost, inner, (src - 1) % 65536, s1.nowNs] s1.nv.isoRecs } }

/-- Remove square `i` at a boundary. The attachment moves afterwards. DEDUCED, unsafe (log entry 56). -/
def State.removeSquare (s : State) (i : Nat) : State :=
  let ports := s.heldPorts i
  let own := ((s.sq i).cells.map (fun c => c.2)).filter (fun c => c.st != .released)
  let far := s.boundFor i
  let farCells := far.filterMap (fun e => tget (s.sq e.1).cells e.2)
  let fns := (s.removedFns i).map (fun f => (f, s.lostUnits f.1 f.2))
  let hs := cellFrames (own ++ farCells) ++ ports.flatMap (fun p => (List.range 16).flatMap (fun c =>
    (s.queue (16 * p + c)).frames.map (fun f => f.hdr))) ++ (s.sq i).secondPass
  let s1 := far.foldl (fun s e => s.freeByHeader e.1 e.2) (s.chargeRemoval i ports)
  let s2 := squares.foldl (fun s j => if j = i then s else
    s.modSq j (fun q => (q.forget ports.contains).loseRefs i)) s1
  let s3 := s2.modSq i Sq.emptied
  let s4 := ports.foldl State.clearPort s3
  let s5 := (s4.queues.map (fun e => e.1)).foldl (fun s q => s.loseQueue i q) s4
  let s6 := (s5.squarePorts i).foldl State.removedPort s5
  let s7 := fns.foldl (fun s f => s.removedFn f.1 f.2) s6
  let s8 := hs.foldl (fun s h => s.reportTx h 11 0) s7
  let s9 := ((far.map (fun e => e.1)).eraseDups).foldl State.pfcSquare s8
  s9.isoRecord i (own.length + far.length) (innerCells (own ++ farCells))

/-! ### Rejoin (R169, R177, R198) -/

/-- A function of a square that rejoins starts in OFF (R169). -/
def State.startOff (s : State) (f : Nat × Nat) : State :=
  if s.isOff f.1 f.2 then s else (s.setFn f.1 f.2 {}).offActions f.1 f.2

/-- A square rejoins: an empty buffer, its functions in OFF, quotas latched, full buckets (R96, R216), and contexts from
it that start at 0. -/
def State.rejoinSquare (s : State) (i : Nat) : State :=
  let s := (s.removedFns i).foldl State.startOff
    ((s.squarePorts i ++ [1024 + i]).foldl State.clearPort (s.modSq i Sq.emptied))
  let s1 := { s with tour := { s.tour with x := setBit s.tour.x i false
                                           xSource := SMap.set (fun _ => 0) s.tour.xSource i 0 } }
  let s2 := squares.foldl (fun s j => s.modSq j (fun q => { q with
    ctxOut := q.ctxOut.filter (fun x => x.1 / 32768 ≠ i) })) s1
  let s3 := s2.modSq i (fun q => { q with meters := [], resetSt := 0 })
  let s4 := (s3.heldPorts i).foldl (fun s p => (List.range 16).foldl (fun s c => s.modQueue (16 * p + c) (fun q =>
    { q with depthHwm := 0, depthNow := 0, delayLast := 0, delayMax := 0 })) s) s3
  (s4.repolicy s4 true [i]).latchQuotas i

/-- Squares whose rejoin is due. -/
def State.rejoinDue (s : State) : State :=
  let is := bitList s.tour.rejoin 64
  { is.foldl State.rejoinSquare s with tour := { (is.foldl State.rejoinSquare s).tour with rejoin := 0 } }

/-- Put the excluded set X into force: squares that leave are removed, and the attachment follows (R15, R145,
R168). A square whose base Tour already excludes it is unchanged. -/
def State.applyX (s : State) : State :=
  let new := (bitList s.tour.x 64).filter (fun i => !bit s.tour.xInForce i && !bit s.baseExcl i)
  let s1 := new.foldl State.removeSquare s
  ({ s1 with tour := { s1.tour with xInForce := s.tour.x } }).moveAttachments

/-- X changes at this boundary. -/
def State.xChanges (s : State) : Bool :=
  s.tour.rejoin != 0 || (bitList s.tour.x 64).any (fun i => !bit s.tour.xInForce i && !bit s.baseExcl i)

/-- A swap that installs a volume 10 takes the squares of its BASE_EXCL out of X (R169). -/
def State.dropBase (s : State) : State :=
  { s with tour := { s.tour with x := (bitList s.tour.x 64).foldl (fun m i =>
      if bit s.baseExcl i then setBit m i false else m) s.tour.x } }

/-! ### Channels at a boundary (R308, R312, R314) -/

/-- Re-seed channel `c`: a fenced live channel acts again, and one that waits rejoins. -/
def State.reseed (s : State) (bad : List Nat) (c : Nat) : State :=
  let x := s.chn c
  if bad.contains c then (s.modChn c (fun y => { y with outvoted := false })).faultEvent (8 + c) 0 c
  else if x.failed then
    if x.rejoin = 3 then
      (s.modChn c (fun y => { y with failed := false, act := true, outvoted := false, rejoin := 0 })).post 0x12 1 c []
    else s
  else s.modChn c (fun y => { y with act := y.act || !y.outvoted, outvoted := false })

/-- Two live channels end simplex (R313, R314). -/
def State.endSimplex (s : State) : State :=
  if s.triad.simplex && decide (2 ≤ s.liveChns.length) then { s with triad := { s.triad with simplex := false } } else s

/-! ### Gaps and slow squares at a boundary (R155, R166) -/

/-- Every active square's watermark towards `e` has passed slot `t` (R155). -/
def State.marksPassed (s : State) (e t : Nat) : Bool :=
  squares.all (fun i => i == e || !s.sqActive i || decide (t < SMap.get (fun _ => 0) (s.sq e).marks i))

/-- Count a boundary for one context. -/
def State.gapStep (s : State) (e : Nat) (x : CtxOut) : CtxOut :=
  match x.lowest with
  | none => { x with gapFor := 0, gapCount := 0 }
  | some m =>
    if s.marksPassed e m.sendSlot then
      { x with gapFor := m.seq + 1, gapCount := if x.gapFor = m.seq + 1 then x.gapCount + 1 else 1 }
    else x

/-- Count the boundary for every context that misses a cell. -/
def State.gapBoundary (s : State) : State :=
  squares.foldl (fun s e => s.modSq e (fun q => { q with
    ctxOut := q.ctxOut.map (fun x => (x.1, s.gapStep e x.2)) })) s

/-- End of the period for one square: the fence ends, and a square not recorded breaks its run (R166, R167). -/
def Sq.endPeriod (q : Sq) (now : Tick) : Sq :=
  { q with fenced := false, lastRecorded := false
           lastSince := if q.lastRecorded then some (q.lastSince.getD now) else none }

/-- TOUR_PERIOD_BOUNDARY (R133, R145, R155, R167 to R169, R180, R183, R308, R314, R331, R334, R349).
DEDUCED, unsafe (log entry 54). DEDUCED, unsafe (log entry 55). -/
def execTourPeriodBoundary (reseedBad : List Nat) (s : State) : Host.Outcome State Fault Refusal :=
  gated s fun s =>
    if !s.tour.boundary || s.triad.hold.isSome || s.triad.lost then s
    else
      let s0 := { s with tour := { s.tour with boundary := false } }
      let s1 := (s0.faultOrder (8 + ·) [0, 1, 2]).foldl (fun s c => s.reseed reseedBad c) s0
      let s2 := s1.endSimplex.latchPower
      let turn10 := s2.turnDue && (s2.book.turn.map (fun t => bit t.mask 10)).getD false
      let s3 := if s2.turnDue then (if turn10 then s2.swapTurn.dropBase else s2.swapTurn) else s2
      let trigger := s3.xChanges || s3.tour.x != s2.tour.x
      let s4 := s3.gapBoundary
      let s5 := s4.rejoinDue.applyX
      let s6 := squares.foldl (fun s i => s.modSq i (fun q => q.endPeriod s.elapsed)) s5
      let s7 := (s6.bufBoundary trigger).phaseBoundary.tempoBoundary
      { s7 with buf := { s7.buf with gf := s7.gfNow } }

/-! ### Commands on squares (R167, R169, R418) -/

/-- ISOLATE (R167). It is BUSY where no active square would be left (R168). DEDUCED, unsafe (log entry 66). -/
def execIsolate (c : Cmd) (s : State) : Host.Outcome State Fault Refusal :=
  gated s (runCmd 0x60 c (p0Below c 6 && p1Below c 0 && p2Below c 0) fun s =>
    let i := c.p0.toNat
    if !bit s.tour.x i ∧ s.leaves (setBit s.tour.x i true) = 0 then .ret s stBusy 0
    else .ret (s.addToX i 65535) stOk 0)

/-- REJOIN (R169): accepted only after the square's reset has completed and its self-test has passed.
DEDUCED, unsafe (log entry 57). -/
def execRejoin (c : Cmd) (s : State) : Host.Outcome State Fault Refusal :=
  gated s (runCmd 0x61 c (p0Below c 6 && p1Below c 0 && p2Below c 0) fun s =>
    let i := c.p0.toNat
    if bit s.tour.xInForce i && (s.sq i).resetSt == 2 then
      .ret { s with tour := { s.tour with rejoin := setBit s.tour.rejoin i true } } stOk 0
    else .ret s stBusy 0)

/-- A reset of square `i` ends the drains of its functions with no event (R36). -/
def State.endDrains (s : State) (i : Nat) : State :=
  ((s.removedFns i).filter (fun f => s.isDraining f.1 f.2)).foldl State.startOff s

/-- SQ_RESET (R36, R418). -/
def execSqReset (c : Cmd) (s : State) : Host.Outcome State Fault Refusal :=
  gated s (runCmd 0x62 c (p0Below c 6 && p1Below c 0 && p2Below c 0) fun s =>
    let i := c.p0.toNat
    if bit s.tour.x i && (s.sq i).resetSt != 1 then
      .later ((s.modSq i (fun q => { q with resetSt := 1, resetCmd := some (c.ring, c.tag) })).endDrains i)
    else .ret s stBusy 0)

/-- RO and W1C fields of a square's block take their reset values (R402). -/
def State.roReset (s : State) (i : Nat) : State :=
  let fix (e : Nat × Reg) : Nat × Reg :=
    if inSquare e.1 && squareOf e.1 == i then
      match regRow e.1 with
      | some r => (e.1, BitVec.ofNat 32 ((e.2.toNat &&& r.rw) + (r.reset - (r.reset &&& r.rw))))
      | none => e
    else e
  { s with regs := (s.regs.map fix).filter (fun e => decide (e.2 ≠ regReset e.1)) }

/-- Counter offset `o` is in a set that the reset of square `i` zeroes (R375). -/
def squareCounter (i o : Nat) : Bool :=
  let within (b n : Nat) : Bool := decide (b ≤ o ∧ o < b + n)
  within (0x400000 + 0x8000 * i) 0x8000 || within (0x800000 + 0x60000 * i) 0x60000 || within (8192 * i) 8192 ||
    within (0x100000 + 32768 * i) 32768 || within (512 * (1024 + i)) 512 ||
    within (0x100000 + 2048 * (1024 + i)) 2048

/-- Zero the counter sets of a square (R375). -/
def State.zeroCounters (s : State) (i : Nat) : State :=
  { s with cnt := s.cnt.filter (fun e => !squareCounter i e.1) }

/-- Frames that a reset of square `i` discards: those in its queues, in its cells and before their second pass. -/
def State.resetFrames (s : State) (i : Nat) : List FrameHdr :=
  (s.squarePorts i ++ [1024 + i]).flatMap (fun p => (List.range 16).flatMap (fun c =>
    (s.queue (16 * p + c)).frames.map (fun f => f.hdr))) ++ cellFrames ((s.sq i).cells.map (fun c => c.2)) ++ (s.sq i).secondPass

/-- SQ_RESET_DONE (R169, R172, R402, R418): what the reset clears, and the command's return. The fragment table, whose
FRAG_STAT is RO, is empty again (R402, R103). DEDUCED, unsafe (log entry 107). -/
def execSqResetDone (sq : Nat) (passed : Bool) (s : State) : Host.Outcome State Fault Refusal :=
  gated s fun s =>
    let q := s.sq sq
    if q.resetSt = 1 then
      let new : Sq := { q.emptied with
        resetSt := if passed then 2 else 3, resetCmd := none, rotP := q.rotP, reseqHwm := 0, frag := [] }
      let s0 := (s.resetFrames sq).foldl (fun s h => s.reportTx h stDropped 0) s
      let s1 := (((s0.squarePorts sq ++ [1024 + sq]).foldl State.clearPort s0).setSq sq new).roReset sq
      let s2 := (List.range 16).foldl (fun s l =>
        (s.modLane (16 * sq + l) (fun _ => {})).modLink (16 * sq + l) (fun _ => {})) (s1.zeroCounters sq)
      let s3 := if passed then s2 else s2.sqFault sq 7
      match q.resetCmd with
      | some (ring, tag) => s3.finishCmd ring tag stOk (b2n passed)
      | none => s3
    else s

/-! ### The start of the mesh (R145, R170, R177, R178, R201, R327) -/

/-- The mesh starts after the swap that brings volume 10. -/
def State.startMesh (s : State) : State :=
  let s1 := squares.foldl State.latchQuotas
    (s.latch [A.tourCfg, A.triadCfg, A.svcPoolCfg, A.svcQuotaHost])
  let s2 := { s1 with tour := { s1.tour with running := true, slot := 0, released := false, boundary := false } }
  let s3 := s2.dropBase.applyX
  let s4 := { s3 with power := { s3.power with tempo := s3.targetTempo, lastTarget := s3.targetTempo } }
  { s4 with buf := { s4.buf with gf := s4.gfNow } }

/-- MESH_START (R133, R145): before the mesh runs, a committed turn swaps when it is due; the first one that
names volume 10 starts the mesh. -/
def execMeshStart (s : State) : Host.Outcome State Fault Refusal :=
  gated s fun s =>
    if s.tour.running || !s.turnDue then s
    else
      let starts := (s.book.turn.map (fun t => bit t.mask 10)).getD false
      if starts then s.swapTurn.startMesh else s.swapTurn

end Sys2Proof.Machine
end

