-- ==== Sys2Proof/Machine/Counters.lean ====
section
/-!
DEFINITION. The counter window as it is read, snapshots, and the commands that change nothing (R275, R292, R293,
R297, R374 to R386).
-/

namespace Sys2Proof.Machine

/-! ### The window (R374, R377, R378) -/

/-- A port set that is kept: of a port that exists (R374). -/
def State.hasPortSet (s : State) (p : Nat) : Bool :=
  decide (p ≤ 1090) && (decide (1024 ≤ p) || s.portExists p)

/-- Sampled words of a queue set (R227, R378). -/
def queueSample (x : Queue) (w : Nat) : Nat :=
  if w = 11 then x.depthNow % 2 ^ 21 + 2 ^ 32 * (x.depthHwm % 2 ^ 21)
  else x.delayLast % 2 ^ 32 + 2 ^ 32 * (x.delayMax % 2 ^ 32)

/-- The 8-byte word at offset `o` of BAR2 of the PF. -/
def State.windowWord (s : State) (o : Nat) : Nat :=
  if o < 0x100000 then (if s.hasPortSet (o / 512) then s.counter o else 0)
  else if o < 0x400000 then
    let q := (o - 0x100000) / 128
    let w := (o - 0x100000) % 128 / 8
    if s.hasPortSet (q / 16) then (if w = 11 ∨ w = 12 then queueSample (s.queue q) w else s.counter o) else 0
  else s.counter o

/-- Page `n` of BAR2 is open to a function (R275, R302). -/
def State.pageOpen (s : State) (fn n : Nat) : Bool :=
  fn == 0 || (s.isOn 6 fn && !SMap.get (fun _ => false) s.host.vfZero fn && rbit (s.inForce (A.hostVfAllow (256 * (fn - 1) + n / 32))) (n % 32))

/-- The word at offset `o` of a function's BAR2 (R275). -/
def State.bar2Word (s : State) (fn o : Nat) : Nat := if s.pageOpen fn (o / 4096) then s.windowWord o else 0

/-- A read of a function's BAR2: `none` is Unsupported Request, for any but a naturally aligned read of 4 or 8 bytes
(R275). -/
def State.bar2Read (s : State) (fn o len : Nat) : Option Nat :=
  if len = 8 ∧ o % 8 = 0 then some (s.bar2Word fn o)
  else if len = 4 ∧ o % 4 = 0 then some (s.bar2Word fn (o - o % 8) / 2 ^ (8 * (o % 8)) % 2 ^ 32)
  else none

/-! ### Snapshots (R297, R383 to R386) -/

/-- Ranges of a counter set: offset and length; none where no such set exists. -/
def State.setRanges (s : State) (n : Nat) : Option (List (Nat × Nat)) :=
  if n = 0x2000 then some [(0x600000, 4096), (0x610000, 131072), (0x640000, 65536)]
  else if n = 0x2001 then some [(0, 512 * 1091), (0x100000, 128 * 17456)]
  else if 0x1000 ≤ n ∧ n < 0x1040 then
    let i := n - 0x1000
    some [(0x400000 + 0x8000 * i, 0x8000), (0x800000 + 0x60000 * i, 0x60000), (8192 * i, 8192),
      (0x100000 + 32768 * i, 32768), (512 * (1024 + i), 512), (0x100000 + 2048 * (1024 + i), 2048)]
  else if s.hasPortSet n then some [(512 * n, 512), (0x100000 + 2048 * n, 2048)]
  else none

/-- Ranges cut to the first `n` bytes. -/
def cutRanges : Nat → List (Nat × Nat) → List (Nat × Nat)
  | _, [] => []
  | n, (o, l) :: rs => (o, min n l) :: cutRanges (n - l) rs

/-- Offset `o` is copied by a list of ranges. -/
def inRanges (rs : List (Nat × Nat)) (o : Nat) : Bool := rs.any (fun (r : Nat × Nat) => decide (r.1 ≤ o ∧ o < r.1 + r.2))

/-- Header of a snapshot (R384). -/
def snapHeader (set now : Nat) (rs : List (Nat × Nat)) : List Byte :=
  (leBytes 2 set ++ leBytes 2 rs.length ++ leBytes 4 0 ++ leBytes 8 now ++
    rs.flatMap (fun (r : Nat × Nat) => leBytes 4 r.1 ++ leBytes 4 r.2) ++ List.replicate 64 0).take 64

/-- Bytes of the ranges, as the window reads. -/
def State.rangeBytes (s : State) (rs : List (Nat × Nat)) : List Byte :=
  rs.flatMap (fun (r : Nat × Nat) => (List.range (r.2 / 8)).flatMap (fun i => leBytes 8 (s.windowWord (r.1 + 8 * i))))

/-- A counter word after a snapshot has copied it: WRAP cleared, a bandwidth peak restarted (R382, R385). -/
def wordCopied (o v : Nat) : Nat :=
  let w := o % 512 / 8
  if o < 0x100000 ∧ 56 ≤ w ∧ w ≤ 60 then (if w = 58 ∨ w = 59 then 0 else v) else v % count48

/-- What a snapshot of the ranges restarts (R375, R385). -/
def State.restartCopied (s : State) (rs : List (Nat × Nat)) : State :=
  let c := (s.cnt.map (fun e => (e.1, if inRanges rs e.1 then wordCopied e.1 e.2 else e.2))).filter (fun e => e.2 ≠ 0)
  let qs := s.queues.map (fun e =>
    let a := inRanges rs (queueCtr e.1 11)
    let b := inRanges rs (queueCtr e.1 12)
    (e.1, { e.2 with depthHwm := if a then e.2.depth else e.2.depthHwm
                     delayMax := if b then 0 else e.2.delayMax }))
  { s with cnt := c, queues := qs.filter (fun e => e.2 ≠ {}) }

/-- Every page of the ranges is open to a function (R386). -/
def State.rangesOpen (s : State) (fn : Nat) (rs : List (Nat × Nat)) : Bool :=
  fn == 0 || rs.all (fun r => (List.range (cdiv (r.1 + r.2) 4096 - r.1 / 4096)).all (fun k =>
    s.pageOpen fn (r.1 / 4096 + k)))

/-- Take a snapshot into the oldest posted buffer of a ring: the state and the bytes written. -/
def State.takeSnapshot (s : State) (n set : Nat) (rs : List (Nat × Nat)) (d : List Byte) : State × Nat :=
  let total := 64 + (rs.map (fun r => r.2)).sum
  let len := min (leAt d 8 4) total
  let cut := cutRanges (len - 64) rs
  let bytes := (snapHeader set s.nowNs rs ++ s.rangeBytes cut).take len
  let s1 := (s.hostWrite (s.ring n).fn (leAt d 0 8) true bytes).restartCopied cut
  let s2 := s1.modRing n (fun r => { r with fetched := r.fetched.drop 1 })
  let body := d.take 12 ++ leBytes 4 len ++ leBytes 8 s.nowNs ++ leBytes 2 set ++
    leBytes 2 (if len < total then 32768 else 0)
  (s2.ringReturn n body (65536 * stOk), len)

/-- SNAPSHOT (R297, R383 to R386). DEDUCED, unsafe (log entry 89). -/
def execSnapshot (c : Cmd) (s : State) : Host.Outcome State Fault Refusal :=
  gated s (runCmd 0x80 c (decide (bits c.p0.toNat 15 12 = 0) && p0Below c 32 && p1Below c 0 && p2Below c 0) fun s =>
    let n := bits c.p0.toNat 11 0
    let set := bits c.p0.toNat 31 16
    match s.setRanges set with
    | none => .ret s stTarget 0
    | some rs =>
      if decide (set < 1091) && s.portUnreachable set then .ret s stUnreachable 0 else
      let r := s.ring n
      if s.ringIs n 5 ∧ s.rangesOpen r.fn rs = false then .ret s stInvalid 0
      else match r.fetched with
        | d :: _ =>
          if s.ringIs n 5 && s.fnLive r.fn then
            let t := s.takeSnapshot n set rs d
            .ret t.1 stOk t.2
          else .ret (s.count (devCtr 11) 1) stNoSpace 0
        | [] => .ret (s.count (devCtr 11) 1) stNoSpace 0)

/-! ### Commands that change nothing (R292, R293) -/

/-- NOP (R293): it returns at acceptance. -/
def execNop (c : Cmd) (s : State) : Host.Outcome State Fault Refusal :=
  gated s (runCmd 0x01 c (p0Below c 0 && p1Below c 0 && p2Below c 0) fun s => .ret s stOk 0)

/-- A command with an opcode that R293 does not list (R292). -/
def execUnsupportedOpcode (opcode : BitVec 16) (c : Cmd) (s : State) : Host.Outcome State Fault Refusal :=
  gated s (runCmd opcode.toNat c true fun s => .ret s stUnsupported 0)

end Sys2Proof.Machine
end

