-- ==== Sys2Proof/Machine/Float.lean ====
section
/-!
DEFINITION. Reduction arithmetic (R246): binary32 sums rounded to nearest even, exact minima and maxima, the
16-bit wire types and wrapping INT32.

A finite value is an exact integer count of 2^-149, the smallest subnormal of binary32.
-/

namespace Sys2Proof.Machine

/-! ### Binary32 -/

def f32Exp (x : BitVec 32) : Nat := bits x.toNat 30 23
def f32Frac (x : BitVec 32) : Nat := bits x.toNat 22 0
def f32Sign (x : BitVec 32) : Bool := bit x.toNat 31
def f32NaN (x : BitVec 32) : Bool := f32Exp x == 255 && f32Frac x != 0
def f32Inf (x : BitVec 32) : Bool := f32Exp x == 255 && f32Frac x == 0

/-- The canonical quiet NaN. -/
def canonNaN : BitVec 32 := 0x7FC00000

/-- Magnitude of a finite value, in units of 2^-149. -/
def f32Mag (x : BitVec 32) : Nat :=
  if f32Exp x = 0 then f32Frac x else (8388608 + f32Frac x) * 2 ^ (f32Exp x - 1)

/-- A finite value in units of 2^-149. -/
def f32Val (x : BitVec 32) : Int := if f32Sign x then - Int.ofNat (f32Mag x) else Int.ofNat (f32Mag x)

/-- `n / 2^k` rounded to nearest, ties to even. -/
def roundEven (n k : Nat) : Nat :=
  let q := n / 2 ^ k
  let r := n % 2 ^ k
  if 2 * r > 2 ^ k ∨ (2 * r = 2 ^ k ∧ q % 2 = 1) then q + 1 else q

/-- Magnitude `n` (units of 2^-149) in a format of `p` significand bits whose smallest subnormal is 2^`d` units;
`top` is its infinity. -/
def roundMag (p d top n : Nat) : Nat :=
  let k := max (Nat.log2 n + 1 - p) d
  min top ((k - d) * 2 ^ (p - 1) + roundEven n k)

/-- Binary32 of a magnitude and sign. -/
def f32Round (neg : Bool) (n : Nat) : BitVec 32 :=
  BitVec.ofNat 32 (roundMag 24 0 (255 * 8388608) n + b2n neg * 2147483648)

/-- The binary32 sum. An exact zero is +0 unless both operands are −0. -/
def f32Add (a b : BitVec 32) : BitVec 32 :=
  if f32NaN a || f32NaN b then canonNaN
  else if f32Inf a then (if f32Inf b && (f32Sign a != f32Sign b) then canonNaN else a)
  else if f32Inf b then b
  else
    let v := f32Val a + f32Val b
    if v = 0 then BitVec.ofNat 32 (b2n (f32Sign a && f32Sign b) * 2147483648)
    else f32Round (decide (v < 0)) v.natAbs

/-- Place in the order of min and max: −0 lies below +0. -/
def f32Key (x : BitVec 32) : Int :=
  if f32Sign x then - Int.ofNat (bits x.toNat 30 0) - 1 else Int.ofNat (bits x.toNat 30 0)

/-- The smaller or the larger of two values. -/
def f32Pick (larger : Bool) (a b : BitVec 32) : BitVec 32 :=
  if f32NaN a || f32NaN b then canonNaN
  else if larger then (if f32Key a < f32Key b then b else a)
  else (if f32Key b < f32Key a then b else a)

/-! ### The wire types -/

/-- Bytes of an element. -/
def elemBytes (dtype : Nat) : Nat := if dtype = 1 ∨ dtype = 2 then 2 else 4

/-- Exact binary32 of a binary16 value. -/
def f16To32 (h : Nat) : BitVec 32 :=
  if bits h 14 10 = 31 then
    (if bits h 9 0 = 0 then BitVec.ofNat 32 (b2n (bit h 15) * 2147483648 + 0x7F800000) else canonNaN)
  else
    let m := if bits h 14 10 = 0 then bits h 9 0 else (1024 + bits h 9 0) * 2 ^ (bits h 14 10 - 1)
    f32Round (bit h 15) (m * 2 ^ 125)

/-- An element of the wire as its accumulator value; a NaN becomes the canonical one. -/
def widen (dtype w : Nat) : BitVec 32 :=
  if dtype = 3 then BitVec.ofNat 32 w
  else
    let x := if dtype = 0 then BitVec.ofNat 32 w else if dtype = 1 then BitVec.ofNat 32 (65536 * w) else f16To32 w
    if f32NaN x then canonNaN else x

/-- A value of magnitude bits `p`, `d` and infinity `top` with its sign at bit 15. -/
def narrow16 (p d top : Nat) (x : BitVec 32) : Nat :=
  (if f32Inf x then top else roundMag p d top (f32Mag x)) + b2n (f32Sign x) * 32768

/-- An accumulator value rounded once to the wire type. -/
def narrow (dtype : Nat) (x : BitVec 32) : Nat :=
  if dtype = 0 ∨ dtype = 3 then x.toNat
  else if f32NaN x then (if dtype = 1 then 0x7FC0 else 0x7E00)
  else if dtype = 1 then narrow16 8 16 (255 * 128) x
  else narrow16 11 125 (31 * 1024) x

/-- The elements of a payload. -/
def widenAll (dtype : Nat) (bs : List Byte) : List (BitVec 32) :=
  (List.range (bs.length / elemBytes dtype)).map (fun i =>
    widen dtype (beAt bs (elemBytes dtype * i) (elemBytes dtype)))

/-- The payload of an accumulator. -/
def narrowAll (dtype : Nat) (xs : List (BitVec 32)) : List Byte :=
  xs.flatMap (fun x => beBytes (elemBytes dtype) (narrow dtype x))

/-- Combine two accumulator values (OP 0 = sum, 1 = min, 2 = max). -/
def combine (op dtype : Nat) (a b : BitVec 32) : BitVec 32 :=
  if dtype = 3 then
    (if op = 0 then a + b
     else if op = 1 then (if b.toInt < a.toInt then b else a)
     else (if a.toInt < b.toInt then b else a))
  else if op = 0 then f32Add a b
  else f32Pick (op == 2) a b

end Sys2Proof.Machine
end

