-- ==== Sys2Proof/Machine/Reduction.lean ====
section
/-!
DEFINITION. The reduction engines: delivery, dispatch, the slot table, results, aborts and timeouts
(R233, R234, R241 to R251).
-/

namespace Sys2Proof.Machine

/-! ### Settings -/

def State.inqMax (s : State) : Nat := atLeast1 (fld (s.inForce A.svcRedCfg) 29 24)
def State.redSlice (s : State) : Nat := atLeast1 (fld (s.inForce A.svcRedCfg) 19 16)
def State.preemptMax (s : State) : Nat := fld (s.inForce A.svcRedCfg) 23 20
def State.urgent (s : State) (c : Nat) : Bool := bit (s.chanWord c 0) 50
def State.chanClass (s : State) (c : Nat) : Nat := bits (s.chanWord c 0) 43 40
def State.chanTimeout (s : State) (c : Nat) : Nat := min 1000000 (atLeast1 (bits (s.chanWord c 1) 33 14))

/-- Indices of the channel's members with RECV set, in member order (R237, R247). -/
def State.receivers (s : State) (c : Nat) : List Nat :=
  (List.range (min 64 (bits (s.chanWord c 0) 18 12))).filter (fun i => bit (s.memberWord c i 0) 18)

/-! ### Delivery (R233, R241) -/

/-- Offsets of the IPv4 header and of the reduction header in a frame. -/
def redAt (f : WholeFrame) : Nat × Nat :=
  let o := (l3At f.hdr.otag f.bytes).1
  (o, o + 4 * (beAt f.bytes o 1 % 16) + 8)

/-- A delivered frame as an input descriptor, its payload in buffer `key`. -/
def redDesc (f : WholeFrame) (key : Nat) : InDesc :=
  let a := redAt f
  let n := beAt f.bytes (a.2 + 12) 2
  let have_ := slice f.bytes (a.2 + 32) n
  { hdr := slice f.bytes a.2 32, sa := beAt f.bytes (a.1 + 12) 4, udpLen := beAt f.bytes (a.2 - 4) 2, buf := key
    payload := have_ ++ (List.range (n - have_.length)).map (fun k => Config.redByte f.hdr.fid (have_.length + k)) }

/-! ### The dispatcher (R242, R251) -/

/-- An engine runs routines: it is ON or DRAINING, and powered. -/
def State.engineRuns (s : State) (e : Nat) : Bool := !s.isOff 4 e && (s.engine e).powered

/-- A channel has input: a descriptor, or a timeout that is due, which is dispatched as if it were input (R242). -/
def Chan.ready (x : Chan) : Bool := !x.inq.isEmpty || !x.due.isEmpty

/-- Channels of an engine in rotating order after number `last` of the engine. -/
def rotated (e last : Nat) : List Nat := (List.range 128).map (fun k => 128 * e + (last + 1 + k) % 128)

/-- The urgent channel served next. -/
def State.nextUrgent (s : State) (e : Nat) : Option Nat :=
  (rotated e (s.engine e).urgentLast).find? (fun c => s.urgent c && (s.chan c).ready)

/-- The channel the dispatcher chooses (R242). -/
def State.dispatch (s : State) (e : Nat) : Option Nat :=
  let x := s.engine e
  match s.nextUrgent e with
  | some c => some c
  | none =>
    if x.sliceCnt < s.redSlice ∧ (s.chan (128 * e + x.sliceCh)).ready then some (128 * e + x.sliceCh)
    else (rotated e x.sliceCh).find? (fun c => (s.chan c).ready)

/-- The channel whose routine runs: the one that runs already, or the dispatcher's choice. -/
def State.nextRoutine (s : State) (e : Nat) : Option Nat :=
  match (s.engine e).running with
  | none => s.dispatch e
  | some c => some c

/-- An engine without a routine starts the one its dispatcher chooses (R242). -/
def State.startRoutine (s : State) (e : Nat) : State :=
  match s.nextRoutine e with
  | some c => if s.engineRuns e then s.modEngine e (fun x => { x with running := some c }) else s
  | none => s

/-- Note which channel the dispatcher served. -/
def State.served (s : State) (c : Nat) : State :=
  let l := c % 128
  let u := s.urgent c
  s.modEngine (engineOf c) (fun x =>
    if u then { x with urgentLast := l }
    else { x with sliceCh := l, sliceCnt := if x.sliceCh = l ∧ x.sliceCnt < s.redSlice then x.sliceCnt + 1 else 1 })

/-- A routine is abandoned: its descriptor stays, its unfinished work and its output go; it restarts next (R251). -/
def State.abandon (s : State) (e c : Nat) : State :=
  (s.modChan c (fun x => { x with abandons := x.abandons + 1 })).modEngine e
    (fun x => { x with running := some c, out := [] })

/-- Input of an urgent channel abandons a routine of a channel without URGENT, unless that was abandoned PREEMPT_MAX
times in a row; the urgent routine runs next (R251). -/
def State.preempt (s : State) (e : Nat) : State :=
  match (s.engine e).running, s.nextUrgent e with
  | some c, some u =>
    if s.urgent c ∨ s.preemptMax ≤ (s.chan c).abandons then s
    else (s.abandon e c).modEngine e (fun x => { x with running := some u })
  | _, _ => s

/-- Input has arrived for a channel. -/
def State.arrived (s : State) (c : Nat) : State :=
  (if s.engineRuns (engineOf c) && s.urgent c then s.preempt (engineOf c) else s).startRoutine (engineOf c)

/-- The routine of channel `c` is over, and the dispatcher chooses the next (R242). -/
def State.ended (s : State) (e c : Nat) : State :=
  (((s.modChan c (fun x => { x with abandons := 0 })).served c).modEngine e
    (fun x => { x with running := none })).startRoutine e

/-- The routine of channel `c` has committed: its descriptor and payload buffer go back (R245). -/
def State.retire (s : State) (e c : Nat) (d : InDesc) : State :=
  ((s.modChan c (fun x => { x with inq := x.inq.drop 1 })).svcGive d.buf e).ended e c

/-- Store a delivered frame and queue it, or drop it (R241). -/
def State.redDeliver (s : State) (f : WholeFrame) : State :=
  let a := redAt f
  let c := beAt f.bytes (a.2 + 2) 2 % 512
  let e := engineOf c
  let s1 := s.count (chanCtr c 0) 1
  if !s1.isOn 3 c || !s1.isOn 4 e || decide (s1.inqMax ≤ (s1.chan c).inq.length) || decide (1024 ≤ s1.engineDescs e) then
    s1.count (chanCtr c 1) 1
  else match s1.svcTake e (beAt f.bytes (a.2 + 12) 2) with
    | (_, none) => s1.count (chanCtr c 1) 1
    | (s2, some key) => (s2.modChan c (fun x => { x with inq := x.inq ++ [redDesc f key] })).arrived c

/-- RED_FRAME_DELIVER (R241, R251). A frame of no service that reached port 1090 is discarded. -/
def execRedFrameDeliver (s : State) : Host.Outcome State Fault Refusal :=
  gated s fun s =>
    match takeFirst (fun (f : WholeFrame) => !f.hdr.bc) s.red.inbox with
    | none => s
    | some (f, rest) =>
      let s1 := { s with red := { s.red with inbox := rest } }
      if f.hdr.red.isSome then s1.redDeliver f else s1

/-! ### Keys and slots (R243, R244) -/

/-- Order of two keys (GEN, BLOCK). -/
def keyAfter (k s : Nat × Nat) : Bool := if k.1 = s.1 then after32 k.2 s.2 else after32 k.1 s.1

def Slot.key (x : Slot) : Nat × Nat := (x.gen, x.block)

/-- The committed accumulator: the buffer that SEL names. -/
def Slot.value (x : Slot) : List (BitVec 32) := if x.sel then x.acc1 else x.acc0

/-- Write the buffer that SEL does not name, and name it (R244). -/
def Slot.put (x : Slot) (v : List (BitVec 32)) : Slot :=
  if x.sel then { x with acc0 := v, sel := false } else { x with acc1 := v, sel := true }

def State.redSlot (s : State) (c i : Nat) : Slot := SMap.get (fun _ => {}) (s.chan c).slots i

/-- The commit: one store of the slot word. -/
def State.commitSlot (s : State) (c i : Nat) (x : Slot) : State :=
  s.modChan c (fun y => { y with slots := SMap.set (fun _ => {}) y.slots i x })

/-- The lowest NCONTRIB bits. -/
def allBits (n : Nat) : Nat := 2 ^ n - 1

/-! ### Frames the engines send (R234, R247 to R249) -/

/-- Checksum of an IPv4 header whose checksum field is zero. -/
def ip4Checksum (h : List Byte) : Nat :=
  65535 - (List.range 10).foldl (fun a i => ones16 a (beAt h (2 * i) 2)) 0

/-- An IPv4 header of a built frame carrying `n` bytes behind it (R247). -/
def builtIp4 (sa da dscp n : Nat) : List Byte :=
  let h := beBytes 2 (0x4500 + 4 * dscp) ++ beBytes 2 (20 + n) ++ beBytes 2 0 ++ beBytes 2 0x4000 ++
    beBytes 2 (64 * 256 + 17) ++ beBytes 2 0 ++ beBytes 4 sa ++ beBytes 4 da
  patch h 10 (beBytes 2 (ip4Checksum h))

/-- A reduction header (R234). -/
def redHeader (kind : Nat) (x : Chan) (sl : Slot) (chan sender bitmap job : Nat) : List Byte :=
  beBytes 1 (16 + kind) ++ beBytes 1 (16 * x.op + x.dtype) ++ beBytes 2 chan ++ beBytes 4 sl.gen ++
    beBytes 4 sl.block ++ beBytes 2 sl.len ++ beBytes 1 sender ++ beBytes 1 (b2n sl.partial_) ++
    beBytes 8 bitmap ++ beBytes 4 job ++ beBytes 4 0

/-- Put one frame of channel `c` through next hop `nh` to an address and UDP port into the output stage, or count an
emission drop. The stage's 64 cells empty at one a tempo cycle, which is timing (DEDUCED, unsafe, log entry 80). -/
def State.redSend (s : State) (c nh da dport : Nat) (hdr body : List Byte) : State :=
  let h := s.book.nextHop s.book.epoch nh
  if h.unres || s.noPortFor h.port then s.count (chanCtr c 8) 1
  else
    let cls := s.chanClass c
    let udp := beBytes 2 (fld (s.inForce A.svcRedCfg) 15 0) ++ beBytes 2 dport ++
      beBytes 2 (8 + hdr.length + body.length) ++ beBytes 2 0 ++ hdr ++ body
    let bs := s.builtL2 h (s.priority cls) 0x0800 ++
      builtIp4 (s.book.current 12 0 % 2 ^ 32) da (bits (s.chanWord c 0) 49 44) udp.length ++ udp
    s.modEngine (engineOf c) (fun x => { x with out := x.out ++ [({ eport := h.port, cls := cls }, bs)] })

/-- A commit releases the output stage to injection (R244). -/
def State.releaseOut (s : State) (e : Nat) : State :=
  (s.engine e).out.foldl (fun s f => s.injectBuilt f.1 {} f.2) (s.modEngine e (fun x => { x with out := [] }))

/-- JOB of the channel record. -/
def State.chanJob (s : State) (c : Nat) : Nat := bits (s.chanWord c 2) 31 0

/-- The retained or completed result to member `i`. -/
def State.sendResult (s : State) (c : Nat) (sl : Slot) (i : Nat) : State :=
  let x := s.chan c
  let w := s.memberWord c i 0
  s.redSend c (bits w 17 0) (bits w 63 32) (bits (s.memberWord c i 1) 15 0)
    (redHeader 1 x sl (Config.memberChannel c i).toNat 0 sl.bitmap (s.chanJob c)) (narrowAll x.dtype sl.value)

/-- Payload of an abort frame: LEN bytes that the manual does not state. -/
def State.abortBody (s : State) (n : Nat) : List Byte := (List.range n).map (Config.redByte s.nextFid)

/-- An abort of a block to every receiving member (R249, R250). -/
def State.sendAborts (s : State) (c : Nat) (sl : Slot) : State :=
  (s.receivers c).foldl (fun s i =>
    let w := s.memberWord c i 0
    s.redSend c (bits w 17 0) (bits w 63 32) (bits (s.memberWord c i 1) 15 0)
      (redHeader 2 (s.chan c) sl (Config.memberChannel c i).toNat 0 sl.bitmap (s.chanJob c)) (s.abortBody sl.len))
    (s.count (chanCtr c 11) 1)

/-- A frame to the parent: next hop PNH, PADDR, PPORT, channel PCHAN, sender PIDX (R236, R248). -/
def State.sendParent (s : State) (c kind : Nat) (sl : Slot) (body : List Byte) : State :=
  let w3 := s.chanWord c 3
  let w4 := s.chanWord c 4
  s.redSend c (bits w3 17 0) (bits w4 31 0) (bits w4 47 32)
    (redHeader kind (s.chan c) sl (bits w3 33 18) (bits w3 39 34) sl.bitmap (s.chanJob c)) body

/-- Complete a block: to the parent, or to the receiving members (R247, R248). -/
def State.finishBlock (s : State) (c i : Nat) (sl : Slot) : State :=
  if bit (s.chanWord c 0) 53 then
    let up := { sl with state := 2, t0 := s.nowUs32 }
    (s.commitSlot c i up).sendParent c 0 up (narrowAll (s.chan c).dtype up.value)
  else
    let done := { sl with state := 3 }
    (s.receivers c).foldl (fun s m => s.sendResult c done m) (s.commitSlot c i done)

/-- Commit a slot; a full BITMAP completes the block in the same commit (R245). -/
def State.commitOpen (s : State) (c i : Nat) (sl : Slot) : State :=
  if sl.bitmap = allBits (s.chan c).ncontrib then (s.count (chanCtr c 9) 1).finishBlock c i sl
  else s.commitSlot c i sl

/-! ### Routines (R245, R248, R249, R251) -/

/-- The sender check (R245). -/
def State.senderOk (s : State) (c : Nat) (d : InDesc) : Bool :=
  let x := s.chan c
  let snd := beAt d.hdr 14 1
  let len := beAt d.hdr 12 2
  decide (snd < x.ncontrib) && d.sa == bits (s.memberWord c snd 0) 63 32 && beAt d.hdr 24 4 == s.chanJob c &&
    decide (len % elemBytes x.dtype = 0) && decide (len ≤ x.blockBytes)

/-- An uncorrectable error in an accumulator read frees the slot with aborts and raises SVC_ECC (R251).
DEDUCED, unsafe (log entry 81). -/
def State.accLost (s : State) (c i : Nat) (sl : Slot) : State :=
  let s1 := (s.commitSlot c i {}).sendAborts c sl
  (if bit (s1.chanWord c 0) 53 then s1.sendParent c 2 sl (s1.abortBody sl.len) else s1).faultEvent 16 0 c

/-- What a contribution does (R245): the state, and whether the routine was abandoned.
DEDUCED, unsafe (log entry 82). -/
def State.contribute (s : State) (c : Nat) (d : InDesc) (accError : Bool) : State × Bool :=
  let x := s.chan c
  let k : Nat × Nat := (beAt d.hdr 4 4, beAt d.hdr 8 4)
  let i := k.2 % x.window
  let sl := s.redSlot c i
  let b := beAt d.hdr 14 1
  let len := beAt d.hdr 12 2
  let miss (w : Nat) : State × Bool := (s.count (chanCtr c w) 1, false)
  if !s.senderOk c d then miss 3
  else if sl.state = 0 ∨ (sl.state = 3 ∧ keyAfter k sl.key) then
    let new := { sl.put (widenAll x.dtype d.payload) with
      state := 1, partial_ := false, len := len, gen := k.1, block := k.2, bitmap := 2 ^ b, t0 := s.nowUs32 }
    (s.commitOpen c i new, false)
  else if k = sl.key then
    if sl.state = 1 then
      if bit sl.bitmap b then miss 4
      else if len ≠ sl.len then miss 2
      else if accError then (s.accLost c i sl, true)
      else
        let sum := (sl.value.zip (widenAll x.dtype d.payload)).map (fun p => combine x.op x.dtype p.1 p.2)
        (s.commitOpen c i { sl.put sum with bitmap := setBit sl.bitmap b true }, false)
    else if sl.state = 2 then miss 6
    else if bit sl.bitmap b then
      if !bit (s.chanWord c 0) 51 then miss 4
      else if accError then (s.accLost c i sl, true)
      else (s.sendResult c sl b, false)
    else miss 6
  else if keyAfter k sl.key then miss 5
  else miss 7

/-- A result of the parent (R248). -/
def State.parentResult (s : State) (c : Nat) (d : InDesc) : State :=
  let x := s.chan c
  let k : Nat × Nat := (beAt d.hdr 4 4, beAt d.hdr 8 4)
  let i := k.2 % x.window
  let sl := s.redSlot c i
  if d.sa = bits (s.chanWord c 4) 31 0 ∧ beAt d.hdr 24 4 = s.chanJob c ∧ sl.state = 2 ∧ k = sl.key ∧
      beAt d.hdr 12 2 = sl.len then
    let done := { sl.put (widenAll x.dtype d.payload) with
      state := 3, partial_ := sl.partial_ || bit (beAt d.hdr 15 1) 0 }
    (s.receivers c).foldl (fun s m => s.sendResult c done m) (s.commitSlot c i done)
  else if sl.state ≠ 0 ∧ k ≠ sl.key ∧ !keyAfter k sl.key then s.count (chanCtr c 7) 1
  else s.count (chanCtr c 6) 1

/-- An abort of the parent (R249). -/
def State.parentAbort (s : State) (c : Nat) (d : InDesc) : State :=
  let k : Nat × Nat := (beAt d.hdr 4 4, beAt d.hdr 8 4)
  let i := k.2 % (s.chan c).window
  let sl := s.redSlot c i
  if d.sa = bits (s.chanWord c 4) 31 0 ∧ beAt d.hdr 24 4 = s.chanJob c ∧ (sl.state = 1 ∨ sl.state = 2) ∧
      k = sl.key ∧ beAt d.hdr 12 2 = sl.len then
    (s.commitSlot c i {}).sendAborts c sl
  else s.count (chanCtr c 3) 1

/-- The routine of the descriptor at the head of a channel's queue: the state, and whether it was abandoned. -/
def State.routine (s : State) (c : Nat) (d : InDesc) (accError : Bool) : State × Bool :=
  let kind := beAt d.hdr 0 1 % 16
  if d.udpLen ≠ 40 + beAt d.hdr 12 2 then (s.count (chanCtr c 2) 1, false)
  else if kind = 0 then s.contribute c d accError
  else if kind = 1 then (s.parentResult c d, false)
  else (s.parentAbort c d, false)

/-! ### Timeouts (R250) -/

/-- A slot in OPEN or UP whose T0 lies TIMEOUT µs in the past (R250). -/
def State.timedOut (s : State) (c i : Nat) : Bool :=
  let sl := s.redSlot c i
  (sl.state == 1 || sl.state == 2) && decide (s.chanTimeout c ≤ s.sinceUs sl.t0)

/-- Post a reduction event (R250, R296). -/
def State.postTimeout (s : State) (c : Nat) (sl : Slot) (sub missing : Nat) : State :=
  s.post 6 sub c (leBytes 4 sl.gen ++ leBytes 4 sl.block ++ leBytes 8 missing)

/-- The timeout routine of a slot. A partial result reads the accumulator, where an uncorrectable error frees the slot
with aborts (R251). -/
def State.slotTimeout (s : State) (c i : Nat) (accError : Bool) : State :=
  let sl := s.redSlot c i
  let w := s.chanWord c 0
  let full := allBits (s.chan c).ncontrib
  let missing := if sl.state = 2 then 2 ^ 64 - 1 else full - sl.bitmap
  if sl.state = 1 ∧ bit w 52 ∧ accError then (s.accLost c i sl).postTimeout c sl 1 missing
  else if sl.state = 1 ∧ bit w 52 then
    ((s.count (chanCtr c 10) 1).finishBlock c i { sl with partial_ := true }).postTimeout c sl 0 missing
  else
    let s1 := (s.commitSlot c i {}).sendAborts c sl
    let s2 := if sl.state = 1 ∧ bit w 53 then s1.sendParent c 2 sl (s1.abortBody sl.len) else s1
    s2.postTimeout c sl 1 missing

/-! ### Running a routine (R242, R245, R250, R251) -/

/-- The routine of channel `c`: a timeout that is due comes before the channel's frames (DEDUCED, unsafe, log entry 80).
A slot that is no longer timed out has nothing to do. -/
def State.runRoutine (s : State) (e c : Nat) (accError : Bool) : State :=
  let x := s.chan c
  match x.due, x.inq with
  | i :: is, _ =>
    let s1 := s.modChan c (fun x => { x with due := is })
    ((if s1.timedOut c i then s1.slotTimeout c i accError else s1).releaseOut e).ended e c
  | [], d :: _ =>
    let r := s.routine c d accError
    if r.2 then (r.1.releaseOut e).abandon e c else (r.1.releaseOut e).retire e c d
  | [], [] => s.modEngine e (fun x => { x with running := none })

/-- RED_ROUTINE_RUN (R242, R245, R251). `accError`: its accumulator read meets an uncorrectable error.
DEDUCED, unsafe (log entry 80). -/
def execRedRoutineRun (e : Nat) (accError : Bool) (s : State) : Host.Outcome State Fault Refusal :=
  gated s fun s =>
    if !s.engineRuns e then s
    else match s.nextRoutine e with
      | none => s
      | some c => s.runRoutine e c accError

/-- A control store word is reloaded from the Triad's copy. -/
def State.reloadWord (s : State) (e w : Nat) : State :=
  s.modEngine e (fun x => { x with cstore := x.cstore.set w (s.red.patch.getD w 0) })

/-- RED_CSTORE_ERROR (R251): the word is reloaded, and the routine in progress restarts. -/
def execRedCstoreError (e word : Nat) (s : State) : Host.Outcome State Fault Refusal :=
  gated s fun s =>
    if s.red.ver = 0 ∨ !(s.engine e).powered then s
    else
      let s1 := (s.reloadWord e word).faultEvent 17 0 word
      if s1.engineRuns e then
        match s1.nextRoutine e with
        | some c => s1.abandon e c
        | none => s1
      else s1

/-- RED_SLOT_TIMEOUT (R242, R250, R251): the timeout routine is input of its channel from now on, and runs at once where
the dispatcher serves it. -/
def execRedSlotTimeout (c slot : Nat) (accError : Bool) (s : State) : Host.Outcome State Fault Refusal :=
  gated s fun s =>
    let e := engineOf c
    if s.engineRuns e && !s.isOff 3 c && s.timedOut c slot && !(s.chan c).due.contains slot then
      let s1 := (s.modChan c (fun x => { x with due := x.due ++ [slot] })).arrived c
      if s1.nextRoutine e = some c ∧ (s1.chan c).due = [slot] then s1.runRoutine e c accError else s1
    else s

end Sys2Proof.Machine
end

