-- ==== Sys2Proof/Machine/TriadCmds.lean ====
section
/-!
DEFINITION. The Triad: the store vote, holds, checkpoints, self-test and rejoin; clearing of fault sources,
recovery counters, ALIVE and the latched reads (R304 to R324, R364, R395).
-/

namespace Sys2Proof.Machine

/-! ### The store vote (R305, R306, R310) -/

/-- STORE_WIN (R306, R327). -/
def State.storeWin (s : State) : Tick := nsT (100 * atLeast1 (fld (s.inForce A.triadCfg) 7 0))

/-- Values the voters have presented for the store in hand. -/
def State.storeValues (s : State) : List (Nat × StoreVal) :=
  s.voters.filterMap (fun c => ((s.chn c).presented).map (fun v => (c, v)))

/-- The value the voter issues: one that two voters present, in simplex the live channel's (R306, R313). -/
def State.storeWinner (s : State) : Option StoreVal :=
  let vs := s.storeValues
  if s.triad.simplex then (vs.head?).map (fun e => e.2)
  else (vs.find? (fun e => decide (2 ≤ (vs.filter (fun f => f.2 = e.2)).length))).map (fun e => e.2)

/-- Forget what the channels have presented. -/
def State.clearStore (s : State) : State :=
  let s1 := (List.range 3).foldl (fun s c => s.modChn c (fun x => { x with presented := none })) s
  { s1 with triad := { s1.triad with storeWait := false, issued := none } }

/-- A channel presents a store of a higher number that it has presented already. -/
def Chn.advance (x : Chn) : Chn := { x with presented := x.later.head?, later := x.later.drop 1 }

/-- The store in hand is complete: the next number is due, which channels that have gone on present at once. -/
def State.nextStore (s : State) : State :=
  let s1 := (List.range 3).foldl (fun s c => s.modChn c Chn.advance) s.clearStore
  { s1 with triad := { s1.triad with
      storeNo := s1.triad.storeNo + 1, issuedNo := max s1.triad.issuedNo (s1.triad.storeNo + 1), failedStores := 0
      storeWait := (List.range 3).any (fun c => !(s.chn c).later.isEmpty), storeAt := s1.elapsed } }

/-- Channels whose presented value differs from the issued one are outvoted; a failed channel's is an event. -/
def State.judgeStores (s : State) (v : StoreVal) : State :=
  (s.faultOrder id (List.range 3)).foldl (fun s c =>
    match (s.chn c).presented with
    | some x =>
      if x = v then s
      else (s.outvote c 2 false).modChn c (fun y => { y with presented := some v })
    | none => s) s

/-- A store hold (R310): the store is not issued, and the cores return to the last checkpoint, from which they present
their stores again. -/
def State.storeHold (s : State) : State :=
  let s1 := ((List.range 3).foldl (fun s c => s.modChn c (fun x => { x with later := [] })) s.clearStore).noMajority .store
  if s1.triad.hold = some .store then
    { s1 with triad := { s1.triad with paused := true, storeNo := s1.triad.ckptStore } }
  else s1

/-- What the voter does with the values it has (R306). -/
def State.voteStore (s : State) : State :=
  match s.triad.issued with
  | some v =>
    let s1 := s.judgeStores v
    if s1.storeValues.length = s1.voters.length then s1.nextStore else s1
  | none =>
    match s.storeWinner with
    | some v =>
      let s1 := ({ s with triad := { s.triad with issued := some v, lastStore := some v } }).judgeStores v
      if s1.storeValues.length = s1.voters.length then s1.nextStore else s1
    | none => if s.storeValues.length = s.voters.length then s.storeHold else s

/-- The voters go on as far as the stores presented take them: a core is ahead by fewer stores than `later` holds. -/
def State.voteStores (s : State) : State :=
  (List.range (((List.range 3).map (fun c => (s.chn c).later.length)).sum)).foldl (fun s _ =>
    if s.storeValues = [] then s else s.voteStore) s.voteStore

/-- CORE_STORE_VOTE (R305, R306, R312): channel `c` presents its next store. A failed channel's store that meets no
store in hand is compared with the last one issued. DEDUCED, unsafe (log entry 78). -/
def execCoreStoreVote (c : Nat) (addr data : W64) (be : BitVec 8) (s : State) : Host.Outcome State Fault Refusal :=
  gated s fun s =>
    let v : StoreVal := { addr := addr, data := data, be := be }
    if s.triad.lost || s.triad.hold == some .store then s
    else if ((s.chn c).presented).isSome then
      if (s.chn c).failed || (s.chn c).act then s.modChn c (fun x => { x with later := x.later ++ [v] }) else s
    else if (s.chn c).failed && !s.triad.storeWait then
      match s.triad.lastStore with
      | some w => if w = v then s else s.outvote c 2 false
      | none => s
    else if !(s.chn c).failed && !(s.chn c).act then s
    else
      let s1 := s.modChn c (fun x => { x with presented := some v })
      ({ s1 with triad := { s1.triad with storeWait := true, storeAt := s.elapsed } }).voteStores

/-- A window of R306 runs: a store issued waits for the rest, two values differ, or one of two voters is due. -/
def State.windowRuns (s : State) : Bool :=
  s.triad.issued.isSome || decide (2 ≤ s.storeValues.length) ||
    (decide (s.voters.length = 2) && decide (s.storeValues.length = 1))

/-- Vote on what the channels have presented ahead, if anything. -/
def State.goOn (s : State) : State := if s.storeValues = [] then s else s.voteStores

/-- STORE_VOTE_TIMEOUT (R306): a voter that has presented nothing is the minority, or there is no majority. -/
def execStoreVoteTimeout (s : State) : Host.Outcome State Fault Refusal :=
  gated s fun s =>
    if s.triad.storeWait && s.windowRuns && decide (s.triad.storeAt + s.storeWin ≤ s.elapsed) then
      match s.triad.issued with
      | some _ =>
        ((s.faultOrder id (s.voters.filter (fun c => ((s.chn c).presented).isNone))).foldl (fun s c => s.outvote c 2 false) s).nextStore.goOn
      | none => s.storeHold
    else s

/-! ### Holds (R310, R427) -/

/-- Re-seed at the end of a hold: every live channel acts again (R307, R310). -/
def State.reseedAll (s : State) : State :=
  (List.range 3).foldl (fun s c => s.modChn c (fun x => { x with act := x.act || !x.failed, outvoted := false })) s

/-- HOLD_END (R310, R311, R427): a hold taken as a reaction only ends. Else the channels are re-seeded and present
`d0`, `d1`, `d2` on the retry; without a majority another hold follows, or the Triad is lost. -/
def execHoldEnd (d0 d1 d2 : Nat) (s : State) : Host.Outcome State Fault Refusal :=
  gated s fun s =>
    match s.triad.hold with
    | none => s
    | some k =>
      let s1 := { s with triad := { s.triad with hold := none } }
      if k = .reaction then s1
      else
        let s2 := s1.reseedAll
        let s3 := if k = .store then ({ s2 with triad := { s2.triad with paused := false } }).flushBc else s2
        match s3.majority (fun c => if c = 0 then d0 else if c = 1 then d1 else d2) with
        | some _ => s3
        | none => if k = .store then s3.storeHold else s3.noMajority k

/-! ### Checkpoints and the watchdog (R309, R325) -/

/-- The firmware runs and its stores are issued. -/
def State.fwRuns (s : State) : Bool := s.boot.stage == 2 && !s.triad.lost && !s.triad.paused

/-- Sources `c`, 5 + `c` and 8 + `c` are IDLE (R314). -/
def State.chnQuiet (s : State) (c : Nat) : Bool :=
  (s.src c).st == .idle && (s.src (5 + c)).st == .idle && (s.src (8 + c)).st == .idle

/-- A failed channel begins its rejoin at this checkpoint (R314). -/
def State.mayRejoin (s : State) (c : Nat) : Bool :=
  (s.chn c).failed && (s.chn c).rejoin == 0 && s.chnQuiet c &&
    (rbit (s.inForce A.triadCfg) 15 || (s.chn c).cleared)

/-- CHECKPOINT (R309, R312, R314): `diverged` are the channels whose checkpoint differs from the voted one.
DEDUCED, unsafe (log entry 79). -/
def execCheckpoint (diverged : List Nat) (s : State) : Host.Outcome State Fault Refusal :=
  gated s fun s =>
    if s.fwRuns && decide (s.triad.ckptAt + msT 1 ≤ s.elapsed) then
      let s1 := (s.faultOrder id diverged).foldl (fun s c => s.outvote c 3 false) s
      let back := (List.range 3).filter s1.mayRejoin
      let s2 := back.foldl (fun s c => s.modChn c (fun x => { x with rejoin := 2 })) s1
      { s2 with triad := { s2.triad with
          ckptNo := s2.triad.ckptNo + 1, ckptAt := s.elapsed, ckptStore := s2.triad.storeNo, bitten := false } }
    else s

/-- WATCHDOG_TIMEOUT (R309, R325, R370): the checkpoint due 1 ms after the last is more than 10 ms late, one event for
each that is. -/
def execWatchdogTimeout (s : State) : Host.Outcome State Fault Refusal :=
  gated s fun s =>
    if s.boot.stage == 2 && !s.triad.bitten && decide (s.triad.ckptAt + msT 11 < s.elapsed) then
      let s1 := ({ s with triad := { s.triad with bitten := true } }).faultEvent 11
      if s1.boot.castle = 3 then s1.declineCastle 6 0 else s1
    else s

/-! ### Self-test and rejoin (R314, R315) -/

/-- SELFTEST_INTERVAL (R315): an interval of 100 ms is over; `tests` has a bit for each test that passed (SEQ, VOTER,
TIME, MEM, LINK), `failId` names the one that failed first. -/
def execSelftestInterval (c : Nat) (tests : BitVec 5) (failId : Nat) (s : State) :
    Host.Outcome State Fault Refusal :=
  gated s fun s =>
    let bad := (List.range 5).filter (fun i => !bit tests.toNat i)
    if s.elapsed < (s.chn c).testAt + msT 100 then s else
    let s1 := s.modChn c (fun x => { x with
      seqno := (x.seqno + 1) % 256, tests := tests.toNat, valid := true, testAt := s.elapsed
      failId := if (bad.map (· + 1)).contains failId then failId else (bad.map (· + 1)).headD 0 })
    bad.foldl (fun s i => s.faultEvent (5 + c) (i + 1) c) s1

/-- CHANNEL_REJOIN_TEST_DONE (R314). -/
def execChannelRejoinTestDone (c : Nat) (passed : Bool) (s : State) : Host.Outcome State Fault Refusal :=
  gated s fun s =>
    if (s.chn c).failed && (s.chn c).rejoin == 2 then
      if passed then s.modChn c (fun x => { x with rejoin := 3, cleared := false })
      else ((s.modChn c (fun x => { x with rejoin := 0, cleared := false })).post 0x12 3 c []).faultEvent (5 + c) 0 c
    else s

/-! ### Recovery and clearing (R321, R322, R364) -/

/-- Post a source-cleared event (R320). -/
def State.postCleared (s : State) (n sub : Nat) : State := s.post 0x11 sub n (leBytes 2 (s.src n).recov)

/-- FAULT_QUIET_EXPIRE (R321). -/
def execFaultQuietExpire (n : Nat) (s : State) : Host.Outcome State Fault Refusal :=
  gated s fun s =>
    let x := s.src n
    if x.st ≠ .idle ∧ x.last + s.quietOf n ≤ s.elapsed then
      let up := x.st == .severe
      let s1 := s.modSrc n (fun y => { y with
        st := .idle, count := 0, recov := if up then min 65535 (y.recov + 1) else y.recov })
      let s2 := if up then { s1 with boot := { s1.boot with recovDirty := (n :: s1.boot.recovDirty).dedup } } else s1
      let s3 := match srcChannel n with
        | some c => s2.modChn c (fun y => { y with cleared := false })
        | none => s2
      s3.postCleared n 0
    else s

/-- The clear that R314 waits for: the last of a failed channel's sources has been cleared. -/
def State.noteClear (s : State) (n : Nat) : State :=
  match srcChannel n with
  | some c => if (s.chn c).failed && s.chnQuiet c then s.modChn c (fun y => { y with cleared := true }) else s
  | none => s

/-- FAULT_CLEAR (R316, R322). -/
def execFaultClear (c : Cmd) (s : State) : Host.Outcome State Fault Refusal :=
  gated s (runCmd 0x90 c (p0Below c 10 && p1Below c 0 && p2Below c 0) fun s =>
    let n := c.p0.toNat
    if !srcExists n then .ret s stTarget 0
    else if n = 4 then .ret s stBusy 0
    else if (s.src n).st = .idle then .ret (s.noteClear n) stOk 0
    else
      let s1 := s.modSrc n (fun y => { y with st := .idle, count := 0 })
      .ret ((s1.postCleared n 1).noteClear n) stOk 0)

/-- SCORESHEET_COUNTER_WRITE (R364): changed recovery counters go to the next copy; `ok` is the read-back.
DEDUCED, unsafe (log entry 92). -/
def execScoresheetCounterWrite (ok : Bool) (s : State) : Host.Outcome State Fault Refusal :=
  gated s fun s =>
    let ns := s.boot.recovDirty
    if ns = [] then s
    else if ok then
      let rs := ns.foldl (fun m n => SMap.set (fun _ => 0) m n (s.src n).recov) s.nv.recov
      { s with nv := { s.nv with recov := rs, recovCopy := (s.nv.recovCopy + 1) % 32 }
               boot := { s.boot with recovDirty := [] } }
    else ((s.orReg A.bootSsStat (2 ^ 31)).post 0x33 0 0x41 (leBytes 4 ns.length)).faultEvent 23

/-! ### ALIVE (R324) -/

/-- ALIVE_EDGE (R324): a voted store is due every 500 µs while the firmware runs. While a source is SEVERE it is
suppressed, and ALIVE holds its level until the next edge that is scheduled. -/
def execAliveEdge (s : State) : Host.Outcome State Fault Refusal :=
  gated s fun s =>
    if s.fwRuns && decide (s.triad.aliveAt + usT 500 ≤ s.elapsed) then
      { s with triad := { s.triad with
          alive := if s.anySevere then s.triad.alive else !s.triad.alive, aliveAt := s.elapsed } }
    else s

/-! ### FAULT_FIRST and the latched reads (R319, R395) -/

/-- FIRST_CLR (R319, R399). -/
def execFirstClr (value : Reg) (s : State) : Host.Outcome State Fault Refusal :=
  atPins s fun s =>
    if !s.boot.dpReady then s.accErr 3 A.faultCtl
    else if rbit value 0 then { s with fault := { s.fault with first := none } }
    else s

/-- TOUR_EXCL_LO_READ (R395). -/
def execTourExclLoRead (s : State) : Host.Outcome State Fault Refusal :=
  atPins s fun s =>
    let s1 := s.setReg A.tourExclHi (BitVec.ofNat 32 (s.exclMask / 2 ^ 32))
    { s1 with io := { s1.io with latched := BitVec.ofNat 32 s.exclMask } }

/-- FAULT_FIRST_T_LO_READ (R319, R395). -/
def execFaultFirstTLoRead (s : State) : Host.Outcome State Fault Refusal :=
  atPins s fun s =>
    { s with
      fault := { s.fault with latchHi := BitVec.ofNat 32 (s.fault.firstT / 2 ^ 32) }
      io := { s.io with latched := BitVec.ofNat 32 s.fault.firstT } }

end Sys2Proof.Machine
end

