-- ==== Sys2Proof/Machine/Dispatch.lean ====
section
/-! DEFINITION. The meaning of every command, one arm per constructor of Instr. -/

namespace Sys2Proof.Machine

/-- Effect of a command on everything but the queue. -/
def exec (i : Instr) (s : State) : Host.Outcome State Fault Refusal :=
  match i with
  | .nop c => Sys2Proof.Machine.execNop c s
  | .enable c ctx bc => Sys2Proof.Machine.execEnable c ctx bc s
  | .disable c => Sys2Proof.Machine.execDisable c s
  | .bookWrite c block => Sys2Proof.Machine.execBookWrite c block s
  | .bookTurn c => Sys2Proof.Machine.execBookTurn c s
  | .bookLoad c image => Sys2Proof.Machine.execBookLoad c image s
  | .learnInsert c => Sys2Proof.Machine.execLearnInsert c s
  | .learnDelete c => Sys2Proof.Machine.execLearnDelete c s
  | .learnFlushAll c => Sys2Proof.Machine.execLearnFlushAll c s
  | .learnFlushPort c => Sys2Proof.Machine.execLearnFlushPort c s
  | .timeSet c => Sys2Proof.Machine.execTimeSet c s
  | .timeStep c => Sys2Proof.Machine.execTimeStep c s
  | .timeFreq c => Sys2Proof.Machine.execTimeFreq c s
  | .timeSlew c => Sys2Proof.Machine.execTimeSlew c s
  | .phase c => Sys2Proof.Machine.execPhase c s
  | .phaseDef c rec_ => Sys2Proof.Machine.execPhaseDef c rec_ s
  | .powerCap c => Sys2Proof.Machine.execPowerCap c s
  | .bufStateNormal c => Sys2Proof.Machine.execBufStateNormal c s
  | .bufStateTest c => Sys2Proof.Machine.execBufStateTest c s
  | .svcAlloc c => Sys2Proof.Machine.execSvcAlloc c s
  | .svcFree c => Sys2Proof.Machine.execSvcFree c s
  | .isolate c => Sys2Proof.Machine.execIsolate c s
  | .rejoin c => Sys2Proof.Machine.execRejoin c s
  | .sqReset c => Sys2Proof.Machine.execSqReset c s
  | .flashWrite c data readBackOk => Sys2Proof.Machine.execFlashWrite c data readBackOk s
  | .imageVerify c k => Sys2Proof.Machine.execImageVerify c k s
  | .castle c => Sys2Proof.Machine.execCastle c s
  | .rollbackConfirm c vfuse fusesOk => Sys2Proof.Machine.execRollbackConfirm c vfuse fusesOk s
  | .settingsSave c readBackOk => Sys2Proof.Machine.execSettingsSave c readBackOk s
  | .snapshot c => Sys2Proof.Machine.execSnapshot c s
  | .faultClear c => Sys2Proof.Machine.execFaultClear c s
  | .unsupportedOpcode opcode c => Sys2Proof.Machine.execUnsupportedOpcode opcode c s
  | .hostCfgBoot value ctx0 ctx1 => Sys2Proof.Machine.execHostCfgBoot value ctx0 ctx1 s
  | .globalRstWrite value => Sys2Proof.Machine.execGlobalRstWrite value s
  | .deviceResetRelease b => Sys2Proof.Machine.execDeviceResetRelease b s
  | .timeNowLoRead => Sys2Proof.Machine.execTimeNowLoRead s
  | .tourExclLoRead => Sys2Proof.Machine.execTourExclLoRead s
  | .faultFirstTLoRead => Sys2Proof.Machine.execFaultFirstTLoRead s
  | .firstClr value => Sys2Proof.Machine.execFirstClr value s
  | .fomMinRst sq j value => Sys2Proof.Machine.execFomMinRst sq j value s
  | .hwmRst sq value => Sys2Proof.Machine.execHwmRst sq value s
  | .portMapWrite sq isRate value => Sys2Proof.Machine.execPortMapWrite sq isRate value s
  | .squareBroadcastWrite offset value be => Sys2Proof.Machine.execSquareBroadcastWrite offset value be s
  | .bar2Write offset fn => Sys2Proof.Machine.execBar2Write offset fn s
  | .msixUnmask fn vec entry => Sys2Proof.Machine.execMsixUnmask fn vec entry s
  | .registerWrite addr value be poisoned => Sys2Proof.Machine.execRegisterWrite addr value be poisoned s
  | .porAssert => Sys2Proof.Machine.execPorAssert s
  | .porRelease b => Sys2Proof.Machine.execPorRelease b s
  | .bootImageChecked k => Sys2Proof.Machine.execBootImageChecked k s
  | .perst kind => Sys2Proof.Machine.execPerst kind s
  | .vfFlr v => Sys2Proof.Machine.execVfFlr v s
  | .busMasterEnableChange fn on ctl => Sys2Proof.Machine.execBusMasterEnableChange fn on ctl s
  | .hostLinkUp speed width => Sys2Proof.Machine.execHostLinkUp speed width s
  | .hostReadError kind fn ring addr => Sys2Proof.Machine.execHostReadError kind fn ring addr s
  | .doorbellPollRound => Sys2Proof.Machine.execDoorbellPollRound s
  | .producerReadComplete ring p => Sys2Proof.Machine.execProducerReadComplete ring p s
  | .descriptorFetchComplete ring descs => Sys2Proof.Machine.execDescriptorFetchComplete ring descs s
  | .txFrameInject ring bufs ecc => Sys2Proof.Machine.execTxFrameInject ring bufs ecc s
  | .rxFrameDeliver => Sys2Proof.Machine.execRxFrameDeliver s
  | .msixModTimeout ring => Sys2Proof.Machine.execMsixModTimeout ring s
  | .frameReceive port data fcsBad errored => Sys2Proof.Machine.execFrameReceive port data fcsBad errored s
  | .pfcReceive port vec times => Sys2Proof.Machine.execPfcReceive port vec times s
  | .pfcPauseExpire port pri => Sys2Proof.Machine.execPfcPauseExpire port pri s
  | .packHoldExpire sq lane => Sys2Proof.Machine.execPackHoldExpire sq lane s
  | .recircParse sq => Sys2Proof.Machine.execRecircParse sq s
  | .cellEnterCore sq lane ecc => Sys2Proof.Machine.execCellEnterCore sq lane ecc s
  | .deferredFrameNumber sq eport cls => Sys2Proof.Machine.execDeferredFrameNumber sq eport cls s
  | .heldFrameRelease sq q => Sys2Proof.Machine.execHeldFrameRelease sq q s
  | .pfcRefresh port pri => Sys2Proof.Machine.execPfcRefresh port pri s
  | .blitzRecordLookup sq ecc => Sys2Proof.Machine.execBlitzRecordLookup sq ecc s
  | .slotRelease d0 d1 d2 stalled crcBad memBad => Sys2Proof.Machine.execSlotRelease d0 d1 d2 stalled crcBad memBad s
  | .slotComplete last => Sys2Proof.Machine.execSlotComplete last s
  | .slotStallTimeout => Sys2Proof.Machine.execSlotStallTimeout s
  | .directReserveExpire sq cell => Sys2Proof.Machine.execDirectReserveExpire sq cell s
  | .tourPeriodBoundary reseedBad => Sys2Proof.Machine.execTourPeriodBoundary reseedBad s
  | .gapDeclare e isq eport cls => Sys2Proof.Machine.execGapDeclare e isq eport cls s
  | .epochRetire => Sys2Proof.Machine.execEpochRetire s
  | .accountUpdate dst queue => Sys2Proof.Machine.execAccountUpdate dst queue s
  | .captureClaim e => Sys2Proof.Machine.execCaptureClaim e s
  | .egressSelect port => Sys2Proof.Machine.execEgressSelect port s
  | .frameTransmitStart port => Sys2Proof.Machine.execFrameTransmitStart port s
  | .frameTransmitEnd port => Sys2Proof.Machine.execFrameTransmitEnd port s
  | .postcardFrameClose sq => Sys2Proof.Machine.execPostcardFrameClose sq s
  | .gclLoadComplete port => Sys2Proof.Machine.execGclLoadComplete port s
  | .gclStart port => Sys2Proof.Machine.execGclStart port s
  | .gateEntryChange port => Sys2Proof.Machine.execGateEntryChange port s
  | .qsampPeriod sq => Sys2Proof.Machine.execQsampPeriod sq s
  | .bwWindowEnd => Sys2Proof.Machine.execBwWindowEnd s
  | .linkDown port seen => Sys2Proof.Machine.execLinkDown port seen s
  | .linkHoldExpire port => Sys2Proof.Machine.execLinkHoldExpire port s
  | .linkUp port => Sys2Proof.Machine.execLinkUp port s
  | .fomBlock lane symbolErrors cws => Sys2Proof.Machine.execFomBlock lane symbolErrors cws s
  | .refclkLoss k => Sys2Proof.Machine.execRefclkLoss k s
  | .refclkReturn k => Sys2Proof.Machine.execRefclkReturn k s
  | .errorSecond => Sys2Proof.Machine.execErrorSecond s
  | .mgmtSyncLoss => Sys2Proof.Machine.execMgmtSyncLoss s
  | .drainComplete cls inst => Sys2Proof.Machine.execDrainComplete cls inst s
  | .drainTimeout cls inst => Sys2Proof.Machine.execDrainTimeout cls inst s
  | .learnEventApply => Sys2Proof.Machine.execLearnEventApply s
  | .ageSweepVisit entry => Sys2Proof.Machine.execAgeSweepVisit entry s
  | .fragSweep sq => Sys2Proof.Machine.execFragSweep sq s
  | .bookEccRepair hit source => Sys2Proof.Machine.execBookEccRepair hit source s
  | .bookScrub hit bits => Sys2Proof.Machine.execBookScrub hit bits s
  | .bufRecoveryEnd => Sys2Proof.Machine.execBufRecoveryEnd s
  | .bufAuditPeriod sq => Sys2Proof.Machine.execBufAuditPeriod sq s
  | .sqResetDone sq passed => Sys2Proof.Machine.execSqResetDone sq passed s
  | .redFrameDeliver => Sys2Proof.Machine.execRedFrameDeliver s
  | .redRoutineRun e accError => Sys2Proof.Machine.execRedRoutineRun e accError s
  | .redSlotTimeout c slot accError => Sys2Proof.Machine.execRedSlotTimeout c slot accError s
  | .redCstoreError e word => Sys2Proof.Machine.execRedCstoreError e word s
  | .enginePowerUp e => Sys2Proof.Machine.execEnginePowerUp e s
  | .timeVote o0 o1 o2 => Sys2Proof.Machine.execTimeVote o0 o1 o2 s
  | .slewComplete => Sys2Proof.Machine.execSlewComplete s
  | .timeRefLoss isTimeclk k => Sys2Proof.Machine.execTimeRefLoss isTimeclk k s
  | .timeRefReturn isTimeclk k ns => Sys2Proof.Machine.execTimeRefReturn isTimeclk k ns s
  | .evtInEdge edges => Sys2Proof.Machine.execEvtInEdge edges s
  | .ppsLeadingEdge k => Sys2Proof.Machine.execPpsLeadingEdge k s
  | .ppsWidthEnd k => Sys2Proof.Machine.execPpsWidthEnd k s
  | .bcMessageReceive newState clockClass steer => Sys2Proof.Machine.execBcMessageReceive newState clockClass steer s
  | .bcMessageDue m => Sys2Proof.Machine.execBcMessageDue m s
  | .coreStoreVote c addr data be => Sys2Proof.Machine.execCoreStoreVote c addr data be s
  | .storeVoteTimeout => Sys2Proof.Machine.execStoreVoteTimeout s
  | .holdEnd d0 d1 d2 => Sys2Proof.Machine.execHoldEnd d0 d1 d2 s
  | .checkpoint diverged => Sys2Proof.Machine.execCheckpoint diverged s
  | .watchdogTimeout => Sys2Proof.Machine.execWatchdogTimeout s
  | .selftestInterval c tests failId => Sys2Proof.Machine.execSelftestInterval c tests failId s
  | .channelRejoinTestDone c passed => Sys2Proof.Machine.execChannelRejoinTestDone c passed s
  | .faultQuietExpire n => Sys2Proof.Machine.execFaultQuietExpire n s
  | .aliveEdge => Sys2Proof.Machine.execAliveEdge s
  | .slowSquareReport sq => Sys2Proof.Machine.execSlowSquareReport sq s
  | .canaryReport sq margin => Sys2Proof.Machine.execCanaryReport sq margin s
  | .governorTrim sq => Sys2Proof.Machine.execGovernorTrim sq s
  | .setpointSave => Sys2Proof.Machine.execSetpointSave s
  | .powerEstimate est => Sys2Proof.Machine.execPowerEstimate est s
  | .pmbusCorrection pmb est => Sys2Proof.Machine.execPmbusCorrection pmb est s
  | .powerLimiterAct => Sys2Proof.Machine.execPowerLimiterAct s
  | .capUnattainable => Sys2Proof.Machine.execCapUnattainable s
  | .thermalSensorUpdate temps => Sys2Proof.Machine.execThermalSensorUpdate temps s
  | .thermalLimiterAct => Sys2Proof.Machine.execThermalLimiterAct s
  | .thermtrip reading => Sys2Proof.Machine.execThermtrip reading s
  | .phaseScheduleEntry => Sys2Proof.Machine.execPhaseScheduleEntry s
  | .regulatorAlert => Sys2Proof.Machine.execRegulatorAlert s
  | .castleHandover h => Sys2Proof.Machine.execCastleHandover h s
  | .castleCommit writeOk => Sys2Proof.Machine.execCastleCommit writeOk s
  | .scoresheetCounterWrite ok => Sys2Proof.Machine.execScoresheetCounterWrite ok s
  | .meshStart => Sys2Proof.Machine.execMeshStart s
  | .losClear lane ns => Sys2Proof.Machine.execLosClear lane ns s
  | .lolClear lane ppm0 ppm1 => Sys2Proof.Machine.execLolClear lane ppm0 ppm1 s
  | .adaptOk port => Sys2Proof.Machine.execAdaptOk port s
  | .amLock lane pos aligned => Sys2Proof.Machine.execAmLock lane pos aligned s
  | .fecCodewordLock port => Sys2Proof.Machine.execFecCodewordLock port s
  | .faultSequenceClear port localFault remoteFault => Sys2Proof.Machine.execFaultSequenceClear port localFault remoteFault s
  | .autonegComplete port partner => Sys2Proof.Machine.execAutonegComplete port partner s
  | .linkTrainingComplete lane ok => Sys2Proof.Machine.execLinkTrainingComplete lane ok s
  | .mgmtSyncAcquire => Sys2Proof.Machine.execMgmtSyncAcquire s
  | .mgmtAutonegComplete speed fullDuplex linkOk remoteFault drift => Sys2Proof.Machine.execMgmtAutonegComplete speed fullDuplex linkOk remoteFault drift s
  | .mgmtFrameReceive data errored gap drift => Sys2Proof.Machine.execMgmtFrameReceive data errored gap drift s
  | .summaryReadComplete fn words => Sys2Proof.Machine.execSummaryReadComplete fn words s
  | .swapComplete fn word bits => Sys2Proof.Machine.execSwapComplete fn word bits s
  | .castleLoadComplete sigOk => Sys2Proof.Machine.execCastleLoadComplete sigOk s
  | .sriovVfEnable on numVfs => Sys2Proof.Machine.execSriovVfEnable on numVfs s
  | .railOutOfRange rail => Sys2Proof.Machine.execRailOutOfRange rail s
  | .boundaryScanInstruction tap => Sys2Proof.Machine.execBoundaryScanInstruction tap s

end Sys2Proof.Machine
end

