-- ==== Sys2Proof/Machine/Step.lean ====
section
/-!
DEFINITION. One step: the command at the front of the queue runs with the queue's rest; on an empty
queue one port-clock cycle passes.
-/

namespace Sys2Proof.Machine

/-- One step of the device.
DESIGN CHOICE, unsafe (log entry 1). DESIGN CHOICE, unsafe (log entry 3). DESIGN CHOICE, unsafe (log entry 96). -/
def step (s : State) : Host.Outcome State Fault Refusal :=
  match s.pending with
  | [] => .next (tick s)
  | c :: rest => exec c { s with pending := rest }

/-- `s` with the command that a table word spells at the front of its queue. -/
def State.withFetchWord (s : State) (nbits w : Nat) : State :=
  match decodeTableWord nbits w with
  | some c => { s with pending := c :: s.pending }
  | none => s

end Sys2Proof.Machine
end

