-- ==== Sys2Proof/Machine/Reads.lean ====
section
/-!
DEFINITION. What a read of each setup register returns: the stored RW and sticky fields, with every status field
taken from the state it shows (R392 to R396, R403, R405 and the register tables of every chapter).
-/

namespace Sys2Proof.Machine

/-- The stored fields of the register at `a`: RW and W1C ones. -/
def State.stored (s : State) (a : Nat) : Nat := (s.reg a).toNat

/-- Fields `v` at bit `k`, cut to `n` bits. -/
def at_ (k n v : Nat) : Nat := v % 2 ^ n * 2 ^ k

/-! ### GLOBAL and HOST (R73, R303, R403) -/

def State.readGlobal (s : State) (a : Nat) : Nat :=
  if a = 0x8 then s.nv.grade
  else if a = 0xC then s.boot.bootsel + at_ 4 1 (b2n s.boot.testmode)
  else if a = 0x10 then s.nv.serial.toNat % 2 ^ 32
  else if a = 0x14 then s.nv.serial.toNat / 2 ^ 32
  else if a = 0x20 then 0
  else if a = 0x24 then at_ 16 16 s.boot.devCnt + at_ 8 8 s.boot.perstCnt + b2n s.boot.cause
  else s.stored a

def State.readHost (s : State) (a : Nat) : Nat :=
  if a = A.hostStat then
    Nat.land (s.stored a) 4 + b2n s.host.linkUp + at_ 1 1 (b2n (s.isOn 5 0 && s.isOn 5 1)) +
      at_ 5 3 s.host.speed + at_ 8 4 s.host.width
  else if a = A.hostMgmtStat then
    let m := s.host.mgmt
    Nat.land (s.stored a) 64 + b2n m.sync + at_ 1 1 (b2n m.anDone) + at_ 2 1 (b2n m.up) + at_ 4 2 m.speed +
      at_ 7 1 (b2n m.rxRf)
  else s.stored a

/-! ### TRIAD, FAULT, POWER, TIME, BOOT (R271, R327, R349, R373) -/

/-- A mask of three channels. -/
def State.chnMask (s : State) (p : Chn → Bool) : Nat := ((List.range 3).map (fun c => b2n (p (s.chn c)) * 2 ^ c)).sum

def State.readTriad (s : State) (a : Nat) : Nat :=
  if a = A.triadStat then
    s.chnMask (fun c => c.act) + 16 * s.chnMask (fun c => c.failed) + at_ 8 1 (b2n s.triad.hold.isSome) +
      at_ 9 1 (b2n s.triad.simplex) + at_ 10 1 (b2n s.triad.lost)
  else if a = A.triadHolds then s.triad.holds
  else if A.triadHealth 0 ≤ a ∧ a ≤ A.triadHealth 2 then
    let c := s.chn ((a - A.triadHealth 0) / 4)
    b2n c.valid + at_ 1 5 c.tests + at_ 16 8 c.failId + at_ 24 8 c.seqno
  else s.stored a

def State.readFault (s : State) (a : Nat) : Nat :=
  if a = A.faultCtl then at_ 8 1 (b2n s.factory)
  else if a = A.faultFirst then s.fault.first.elim 0 (fun f => 2 ^ 31 + at_ 16 2 f.1 + at_ 0 10 f.2)
  else if a = A.faultFirstTLo then s.fault.firstT % 2 ^ 32
  else if a = A.faultFirstTHi then s.fault.latchHi.toNat
  else if A.faultSevere 0 ≤ a ∧ a ≤ A.faultSevere 31 then
    let w := (a - A.faultSevere 0) / 4
    ((List.range 32).map (fun b => b2n ((s.src (32 * w + b)).st == .severe) * 2 ^ b)).sum
  else if A.faultStat 0 ≤ a ∧ a ≤ A.faultStat 1023 then
    let x := s.src ((a - A.faultStat 0) / 4)
    at_ 16 16 x.recov + at_ 14 2 x.st.code + at_ 0 8 x.count
  else s.stored a

/-- A reading in 0.125 °C as a 12-bit field. -/
def temp12 (t : Int) : Nat := (t % 4096).toNat

def State.readPower (s : State) (a : Nat) : Nat :=
  let p := s.power
  if a = A.powerStat then
    Nat.land (s.stored a) (2 ^ 30) + at_ 31 1 (b2n p.unatt) +
      at_ 29 1 (b2n (p.cur.mode == 0 && decide (s.nv.grade < p.cur.tempo))) +
      at_ 28 1 (b2n (p.ttherm != 0)) + at_ 27 1 (b2n (p.tcap != 0)) + at_ 26 1 (b2n s.freeRun) +
      ((List.range 8).map (fun k => b2n (thas p.phases k) * 2 ^ (16 + k))).sum + at_ 4 12 p.tempo + at_ 0 3 p.phase
  else if a = A.powerCapReg then at_ 16 12 p.pmb + at_ 0 12 p.cap
  else if a = A.powerEst then p.est
  else if a = A.powerLimit then at_ 16 12 p.ttherm + at_ 0 12 p.tcap
  else if a = A.powerHot then at_ 16 7 p.hot + temp12 s.hotTemp
  else if A.powerTemp 0 ≤ a ∧ a ≤ A.powerTemp 84 then
    (tget p.temps ((a - A.powerTemp 0) / 4)).elim 0 (fun t => 2 ^ 31 + temp12 t)
  else s.stored a

def State.readTime (s : State) (a : Nat) : Nat :=
  if a = A.timeStat then
    at_ 9 1 (b2n s.time.noRef) + at_ 8 1 (b2n s.bcOwns) + at_ 7 1 (b2n s.time.slewing) + at_ 6 1 (b2n s.nv.timeclk) +
      at_ 5 1 (b2n s.time.holdover) + at_ 4 1 (b2n s.time.isSet) + at_ 0 4 s.time.refUsed
  else if a = A.timeNowLo then s.nowNs % 2 ^ 32
  else if a = A.timeNowHi then s.time.latchHi.toNat
  else if a = A.timeNowFrac then s.time.latchFrac.toNat
  else s.stored a

def State.readBoot (s : State) (a : Nat) : Nat :=
  let b := s.boot
  if a = A.bootStat then
    at_ 8 1 (b2n b.recovery) + at_ 7 1 (b2n b.restoreRef) + at_ 6 1 (b2n b.restored) + at_ 5 1 (b2n b.fellBack) +
      at_ 4 1 b.slot + at_ 2 2 b.bootsel + b2n b.dpReady
  else if a = A.bootFwver then b.fwver.toNat
  else if a = A.bootSlot 0 ∨ a = A.bootSlot 1 then
    let x := b.slotSt ((a - A.bootSlot 0) / 4)
    at_ 31 1 (b2n x.commitOk) + at_ 30 1 (b2n x.verified) + at_ 16 8 x.svn + at_ 8 4 x.fail
  else if a = A.bootSeq 0 ∨ a = A.bootSeq 1 then
    let x := b.slotSt ((a - A.bootSeq 0) / 4)
    if x.commitOk then x.seq else 0
  else if a = A.bootCastle then
    at_ 31 1 (b2n b.lastValid) + at_ 24 4 b.castle + at_ 16 8 b.lastReason + at_ 0 16 b.lastTlv
  else if a = A.bootOtp then at_ 16 1 (b2n s.nv.keySet) + at_ 0 8 s.nv.rbc
  else if a = A.bootSsStat then Nat.land (s.stored a) (2 ^ 31) + at_ 0 16 b.logDrop
  else s.stored a

/-! ### BOOK, TOUR, SERVICES (R139, R170, R201, R254) -/

def State.readBook (s : State) (a : Nat) : Nat :=
  let b := s.book
  if a = A.bookStat then
    at_ 16 8 (match b.old with | some o => o.epoch | none => b.lastOld) + at_ 8 8 b.epoch +
      at_ 2 1 (b2n b.old.isSome) + at_ 1 1 (b2n b.turn.isSome) + b2n b.turned
  else if a = A.bookLearnStat then b.learn.length
  else if A.bookVolmap 0 ≤ a ∧ a ≤ A.bookVolmap 15 then
    let v := (a - A.bookVolmap 0) / 4
    at_ 16 13 (mapSize b.map v) + at_ 0 13 (mapBase b.map v)
  else s.stored a

/-- Squares excluded, base and run time. -/
def State.excluded (s : State) : Nat := ((List.range 64).filter (fun i => bit s.tour.x i || bit s.baseExcl i)).length

def State.readTour (s : State) (a : Nat) : Nat :=
  let t := s.tour
  if a = A.tourStat then
    at_ 20 7 s.excluded + at_ 18 1 (b2n t.running) + at_ 17 1 (b2n s.triad.hold.isSome) +
      at_ 16 1 (b2n (decide (1 < popcount t.x 64))) + at_ 14 1 (b2n t.slow) + at_ 8 6 t.slowSq + at_ 0 7 s.curTour
  else if a = A.tourExclLo then s.exclMask % 2 ^ 32
  else if a = A.tourSlot then t.slot % 2 ^ 32
  else if a = A.bufStateReg then
    Nat.land (s.stored a) 4 + at_ 8 7 (squares.filter s.sqActive).length + at_ 0 2 s.buf.state
  else if a = A.bufGfree then at_ 0 21 s.buf.gf
  else s.stored a

/-- A mask of the four engines. -/
def engineMask (p : Nat → Bool) : Nat := ((List.range 4).map (fun e => b2n (p e) * 2 ^ e)).sum

def State.readServices (s : State) (a : Nat) : Nat :=
  if a = A.svcRedStat then
    16 * engineMask (fun e => (s.engine e).powered && s.boot.dpReady) + engineMask (fun e => s.isOn 4 e)
  else if a = A.svcRedVer then s.red.ver.toNat
  else if A.svcRedEng 0 ≤ a ∧ a ≤ A.svcRedEng 3 then
    let e := (a - A.svcRedEng 0) / 4
    at_ 24 8 (s.engineChans e).length + at_ 11 11 (s.engineDescs e)
  else if A.svcRedSlots 0 ≤ a ∧ a ≤ A.svcRedSlots 3 then at_ 0 12 (s.engineSlots ((a - A.svcRedSlots 0) / 4))
  else s.stored a

/-! ### Square blocks (R73, R103, R170, R201, R229, R349) -/

/-- A change under R41 waits in the square. -/
def State.mapPend (s : State) (k : Nat) : Bool :=
  s.mapPending k || (List.range 16).any (fun i =>
    s.portExists (16 * k + i) && (portRegs k i).any (fun a => s.reg a != s.inForce a))

/-- The port's own PCS signals Local Fault (R55): a lane without lock, or no deskew. The manual does not say which states
count; LOS or LOL alone do not (DESIGN CHOICE, unsafe, log entry 116). -/
def State.ownLf (s : State) (p : Nat) : Bool :=
  !((s.portLanes p).all (fun l => (s.lane l).am) && (s.link p).fec && (s.link p).deskew)

def State.readLink (s : State) (p : Nat) (a : Nat) : Nat :=
  if !s.portExists p then 0xFF0000
  else
    let l := s.link p
    let ls := (s.portLanes p).map s.lane
    Nat.land (s.stored a) (2 ^ 24) + at_ 16 8 l.lane + at_ 12 4 l.cause + at_ 9 1 (b2n l.adapt) +
      at_ 8 1 (b2n (s.portLive p && (s.ownLf p || l.rxLf))) + at_ 7 1 (b2n l.rxRf) + at_ 6 1 (b2n l.rxLf) +
      at_ 5 1 (b2n l.deskew) + at_ 4 1 (b2n (ls.all (fun x => x.am))) + at_ 3 1 (b2n l.fec) +
      at_ 2 1 (b2n (ls.any (fun x => x.lol))) + at_ 1 1 (b2n (ls.any (fun x => x.los))) + b2n l.up

def State.readGate (s : State) (p : Nat) (a : Nat) : Nat :=
  let e := s.eport p
  Nat.land (s.stored a) (2 ^ 30) + at_ 31 1 (b2n e.pendGate.isSome) + at_ 16 10 (e.gate.elim 0 (fun g => g.num)) +
    at_ 0 8 e.gateEntry

def State.readSquare (s : State) (k o : Nat) : Nat :=
  let a := A.sq k + o
  let q := s.sq k
  if o = 0x8 then Nat.land (s.stored a) 1 + at_ 1 1 (b2n (s.mapPend k))
  else if 0x200 ≤ o ∧ o < 0x240 then s.readLink (16 * k + (o - 0x200) / 4) a
  else if 0x300 ≤ o ∧ o < 0x340 then
    let l := s.lane (16 * k + (o - 0x300) / 4)
    at_ 22 2 l.train + at_ 8 8 l.fomMin + at_ 0 8 l.fom
  else if o = 0x1008 then at_ 0 14 q.frag.length
  else if o = 0x100C then s.boot.parseVer.toNat
  else if o = 0x2004 then at_ 16 12 q.reseqHwm + at_ 0 12 q.parkedCount
  else if o = 0x3010 then Nat.land (s.stored a) 65536 + at_ 0 15 (16384 - q.cells.length)
  else if 0x4100 ≤ o ∧ o < 0x4140 then s.readGate (16 * k + (o - 0x4100) / 4) a
  else if o = 0x6000 then
    let v := s.vsq k
    at_ 31 1 (b2n (decide (s.power.cur.vmax ≤ v.setpoint))) + at_ 16 8 (v.margin % 256).toNat + at_ 0 10 v.setpoint
  else s.stored a

/-! ### Any register (R392, R404) -/

/-- The 32-bit register at BAR0 offset `a` as a read returns it. DESIGN CHOICE, safe (log entry 14). -/
def State.readReg (s : State) (a : Nat) : Reg :=
  if regRow a = none then 0
  else if s.boot.stage = 4 ∧ 0x10000 ≤ a then 0
  else BitVec.ofNat 32 (
    if inSquare a then s.readSquare (squareOf a) (offsetOf a)
    else if a < 0x10000 then s.readGlobal a
    else if a < 0x20000 then s.readHost a
    else if a < 0x30000 then s.readTriad a
    else if a < 0x40000 then s.readFault a
    else if a < 0x50000 then s.readPower a
    else if a < 0x60000 then s.readTime a
    else if a < 0x80000 then s.readBoot a
    else if a < 0x100000 then s.readBook a
    else if a < 0x200000 then s.readTour a
    else s.readServices a)

/-- The `len` bytes that a BAR0 read at `a` returns; none stands for Unsupported Request (R394). The three registers
that latch at a read have commands of their own. -/
def State.bar0Read (s : State) (a len : Nat) : Option (List Byte) :=
  if 1 ≤ len ∧ a % 64 + len ≤ 64 then
    some ((List.range len).map (fun i =>
      BitVec.ofNat 8 ((s.readReg ((a + i) / 4 * 4)).toNat / 2 ^ (8 * ((a + i) % 4)))))
  else none

end Sys2Proof.Machine
end

