-- ==== Sys2Proof/Safety.lean ====
section
/-!
DEFINITION. The terms the statements use: when a command runs, how a command of a command ring is answered and what
its answer leaves alone, the kinds of command, and the invariant of the device.
-/

namespace Sys2Proof

/-! ### Kinds of command -/

/-- The descriptor of a command of a command ring, with its opcode (R293). -/
def Instr.ringCmd : Instr → Option (Nat × Cmd)
  | .nop c => some (0x01, c)
  | .enable c _ _ => some (0x10, c)
  | .disable c => some (0x11, c)
  | .bookWrite c _ => some (0x20, c)
  | .bookTurn c => some (0x21, c)
  | .bookLoad c _ => some (0x22, c)
  | .learnInsert c => some (0x23, c)
  | .learnDelete c => some (0x23, c)
  | .learnFlushAll c => some (0x23, c)
  | .learnFlushPort c => some (0x23, c)
  | .timeSet c => some (0x30, c)
  | .timeStep c => some (0x31, c)
  | .timeFreq c => some (0x32, c)
  | .timeSlew c => some (0x33, c)
  | .phase c => some (0x40, c)
  | .phaseDef c _ => some (0x41, c)
  | .powerCap c => some (0x42, c)
  | .bufStateNormal c => some (0x50, c)
  | .bufStateTest c => some (0x50, c)
  | .svcAlloc c => some (0x51, c)
  | .svcFree c => some (0x52, c)
  | .isolate c => some (0x60, c)
  | .rejoin c => some (0x61, c)
  | .sqReset c => some (0x62, c)
  | .flashWrite c _ _ => some (0x70, c)
  | .imageVerify c _ => some (0x71, c)
  | .castle c => some (0x72, c)
  | .rollbackConfirm c _ _ => some (0x73, c)
  | .settingsSave c _ => some (0x74, c)
  | .snapshot c => some (0x80, c)
  | .faultClear c => some (0x90, c)
  | .unsupportedOpcode op c => some (op.toNat, c)
  | _ => none

/-- What reaches the device over its pins: frames and link signals, reads and writes of the host, its resets and
reads of host memory. Boundary scan takes all of them away (R420). -/
def Instr.atPin : Instr → Bool
  | .hostCfgBoot _ _ _ | .globalRstWrite _ | .timeNowLoRead | .tourExclLoRead
  | .faultFirstTLoRead | .firstClr _ | .fomMinRst _ _ _ | .hwmRst _ _
  | .portMapWrite _ _ _ | .squareBroadcastWrite _ _ _ | .bar2Write _ _ | .msixUnmask _ _ _
  | .registerWrite _ _ _ _ | .perst _ | .vfFlr _ | .busMasterEnableChange _ _ _
  | .hostLinkUp _ _ | .producerReadComplete _ _ | .descriptorFetchComplete _ _ | .txFrameInject _ _ _
  | .frameReceive _ _ _ _ | .pfcReceive _ _ _ | .refclkReturn _ | .timeRefReturn _ _ _
  | .evtInEdge _ | .losClear _ _ | .lolClear _ _ _ | .amLock _ _ _
  | .fecCodewordLock _ | .faultSequenceClear _ _ _ | .autonegComplete _ _ | .linkTrainingComplete _ _
  | .mgmtSyncAcquire | .mgmtAutonegComplete _ _ _ _ _ | .mgmtFrameReceive _ _ _ _ | .summaryReadComplete _ _
  | .swapComplete _ _ _ | .sriovVfEnable _ _ => true
  | _ => false

/-- What acts while POR_N is low or the device reset is held (R350, R404, R415, R418 to R420). -/
def Instr.inReset : Instr → Bool
  | .porAssert | .porRelease _ | .deviceResetRelease _ | .thermtrip _ | .railOutOfRange _ => true
  | .boundaryScanInstruction _ => true
  | _ => false

end Sys2Proof

namespace Sys2Proof.Machine

/-! ### When a command runs -/

/-- The device runs: no rail has left its range since POR_N, and no reset is held (R404, R415, R418). -/
abbrev Up (s : State) : Prop := s.pins.railBad = false ∧ s.running = true

/-- The device runs and boundary scan does not have the pins (R420). -/
abbrev Wired (s : State) : Prop := Up s ∧ s.pins.scan = false

/-- The device accepts the next command of the ring and has its Triad (R291, R311, R359). -/
abbrev Serves (s : State) (ring : Nat) : Prop :=
  Up s ∧ s.accepts ring = true ∧ s.boot.recovery = false ∧ s.triad.lost = false

/-- The device takes command `c`, whose bytes 2–3 hold no reserved bit (R290, R293). -/
abbrev Takes (s : State) (c : Cmd) : Prop := Serves s c.ring ∧ c.rsvd = 0

/-- The command `i` completes in `s`: `exec` answers a next state, of which `P` holds. -/
def Yields (i : Instr) (s : State) (P : State → Prop) : Prop := ∃ t, exec i s = .next t ∧ P t

/-! ### How a command of a command ring is answered (R290, R291) -/

/-- The state in which an accepted command runs: its ring holds it, and the rotation has moved on (R291). -/
def accepted (op : Nat) (c : Cmd) (s : State) : State :=
  let s1 := s.modRing c.ring (fun r => { r with fetched := r.fetched.drop 1, accepted := some (cmdBytes op c) })
  { s1 with host := { s1.host with cmdRot := c.ring } }

/-- The answer to a command that runs to its end: `f` is its effect on the state in which it was accepted. -/
def answer (op : Nat) (c : Cmd) (s : State) (st res : Nat) (f : State → State) : State :=
  (f (accepted op c s)).completeCmd c.ring (cmdBytes op c) st res

/-- What the return of one descriptor of ring `n` may touch: that ring's own counts, the pending bit of its vector
(R276) and what leaves the device; nothing else. -/
def ReturnFrame (n : Nat) (u t : State) : Prop :=
  t = { u with regs := t.regs, host := t.host, io := t.io } ∧
  t.host = { u.host with rings := t.host.rings, cmdRot := t.host.cmdRot, vfPending := t.host.vfPending } ∧
  t.io = { u.io with rets := t.io.rets, hostw := t.io.hostw, msix := t.io.msix } ∧
  (∀ m, m ≠ n → t.ring m = u.ring m) ∧
  t.ring n = { u.ring n with
    fetched := (t.ring n).fetched, accepted := (t.ring n).accepted, c := (t.ring n).c, retq := (t.ring n).retq
    unsignalled := (t.ring n).unsignalled, oldest := (t.ring n).oldest } ∧
  (∀ a, a ≠ A.msixPba ((u.ring n).vec / 32) → t.reg a = u.reg a)

/-- The newest return is that of command `c` with opcode `op`, status `st` and result `res`. -/
def Answered (t : State) (c : Cmd) (op st res : Nat) : Prop :=
  t.io.rets.head? = some { ring := c.ring, tag := c.tag, opcode := op, status := st, res := res }

/-- The command has returned: one return more than in `u`, the ring free for its next command, and nothing else of `u`
touched. `u` is the state before with the command's own effect. -/
def Returns (u t : State) (c : Cmd) (op st res : Nat) : Prop :=
  t.io.rets = { ring := c.ring, tag := c.tag, opcode := op, status := st, res := res } :: u.io.rets ∧
  (t.ring c.ring).accepted = none ∧ ReturnFrame c.ring u t

/-- The command has been accepted and returns later: the ring holds it, nothing has left the device, and nothing else
of `u` is touched. -/
def Waits (u t : State) (c : Cmd) (op : Nat) : Prop :=
  t.ring c.ring = { u.ring c.ring with
    fetched := (u.ring c.ring).fetched.drop 1, accepted := some (cmdBytes op c) } ∧
  t = { u with host := { u.host with rings := t.host.rings, cmdRot := t.host.cmdRot } } ∧
  (∀ m, m ≠ c.ring → t.ring m = u.ring m)

/-! ### The invariant of the device -/

/-- DP_READY is set only while the firmware runs (R351); recovery mode is the stage that serves it (R359); BOOTSEL has
two bits (R352); a rail fault ends with POR_N (R415); flash and both sides of the Book are in their canonical form. -/
structure Inv (s : State) : Prop where
  stage : s.boot.stage ≤ 4
  dpReady : s.boot.dpReady = true → s.boot.stage = 2
  recovery : s.boot.recovery = true ↔ s.boot.stage = 3
  bootsel : s.boot.bootsel < 4
  rails : s.boot.stage = 0 → s.pins.railBad = false
  flash : SMap.wf flashErased s.nv.flash = true
  active : SMap.wf (fun _ => 0) s.book.active = true
  standby : SMap.wf (fun _ => 0) s.book.standby = true

end Sys2Proof.Machine
end

