-- ==== Sys2Proof/Certificates/Slice0/Obligations.lean ====
section
/-!
DEFINITION. The statements about the block, for the provers. Each is a Prop and cites the rules of spec/ it rests on.

A statement that a command completes is made under hypotheses on the state and the operands alone, and its conclusion
says which next state `exec` answers. Where the next state is written as the state before with some parts replaced, or
with shared operations applied, that is the frame as well: everything not named is as before. What the shared operations
`post`, `faultEvent`, `count` and `completeCmd` do is said once, in statements of their own.
-/

section
open Sys2Proof Sys2Proof.Machine

/-! ### The machine as a whole -/

/-- A step takes the command at the front of the queue and runs `exec` on it with the queue's rest. -/
def Obligations.StepRunsFrontCommand : Prop :=
  (∀ (c : Instr) (rest : List Instr) (s : State), s.pending = c :: rest → step s = exec c { s with pending := rest }) ∧
  (∀ (c : Instr) (s : State), step { s with pending := c :: s.pending } = exec c s)

/-- With an empty queue one port-clock cycle passes (a choice of the model, log entry 3): nothing but the time state
changes. In reset nothing changes; a held device reset counts elapsed time; while the device runs with no adjustment
and no slew, the three counters and elapsed time advance by the cycle's length (R256, R258). -/
def Obligations.IdleStepIsOneCycle : Prop :=
  ∀ s : State, s.pending = [] →
    (s.boot.stage = 0 → step s = .next s) ∧
    (s.boot.stage = 4 → step s = .next { s with time := { s.time with
      elapsed := s.time.elapsed + Config.cycleTime s.time.cycles, cycles := s.time.cycles + 1 } }) ∧
    (s.running = true → s.time.freq = 0 → s.time.slew = 0 → step s = .next { s with time := { s.time with
      c0 := (s.time.c0 + Config.cycleTime s.time.cycles) % timeModulus
      c1 := (s.time.c1 + Config.cycleTime s.time.cycles) % timeModulus
      c2 := (s.time.c2 + Config.cycleTime s.time.cycles) % timeModulus
      elapsed := s.time.elapsed + Config.cycleTime s.time.cycles
      cycles := s.time.cycles + 1 } }) ∧
    (∃ x : TimeSt, step s = .next { s with time := x })

/-- The state after reset satisfies the invariant. -/
def Obligations.InvariantHoldsAtReset : Prop := Inv State.reset

/-- Every step keeps the invariant. -/
def Obligations.EveryStepKeepsInvariant : Prop :=
  ∀ s t : State, Inv s → step s = .next t → Inv t

/-- A command stops with a fault exactly when a rail has left its range with POR_N high and the command is not
POR_ASSERT (R415); no command is refused. No command touches the queue of waiting commands. -/
def Obligations.OnlyRailsStopTheDevice : Prop :=
  (∀ (i : Instr) (s : State),
     ((∃ f, exec i s = .fault f) ↔ (s.pins.railBad = true ∧ i ≠ .porAssert)) ∧ (∀ r, exec i s ≠ .refused r)) ∧
  (∀ (i : Instr) (s t : State), exec i s = .next t → t.pending = s.pending)

/-- While POR_N is low, or the device reset is held, only the resets' own commands, the temperature trip, a rail and
boundary scan do anything (R404, R418). Boundary scan takes the pins away from the device: what arrives at a pin has
no effect (R420). -/
def Obligations.ResetAndScanHoldTheDevice : Prop :=
  (∀ (i : Instr) (s : State), s.pins.railBad = false → s.boot.stage = 0 ∨ s.boot.stage = 4 → i.inReset = false →
     exec i s = .next s) ∧
  (∀ (i : Instr) (s : State), Up s → s.pins.scan = true → i.atPin = true → exec i s = .next s)

/-- RBC never decreases, and only ROLLBACK_CONFIRM changes it (R362); nothing changes the rest of the one-time
programmable memory: key, grade, serial number and factory bit. -/
def Obligations.RollbackCounterNeverDecreases : Prop :=
  ∀ (i : Instr) (s t : State), exec i s = .next t →
    s.nv.rbc ≤ t.nv.rbc ∧ (t.nv.rbc ≠ s.nv.rbc → ∃ c v f, i = .rollbackConfirm c v f) ∧
    t.nv.keySet = s.nv.keySet ∧ t.nv.grade = s.nv.grade ∧ t.nv.serial = s.nv.serial ∧
    t.nv.factoryBit = s.nv.factoryBit

/-- Flash bytes change only by FLASH_WRITE, by the commit of Castling, and by an external programmer, whose bytes the
release of a reset finds (R353, R359, R360, R370). Words of the Book, on both sides, change only by table writes,
loads, turns, and the whole-device resets (R105, R130, R133, R137). Ageing, learning, repair and every frame leave
them. -/
def Obligations.WhoWritesFlashAndBook : Prop :=
  (∀ (i : Instr) (s t : State), exec i s = .next t → t.nv.flash ≠ s.nv.flash →
     (∃ c d b, i = .flashWrite c d b) ∨ (∃ b, i = .castleCommit b) ∨ (∃ b, i = .porRelease b) ∨
     (∃ b, i = .deviceResetRelease b)) ∧
  (∀ (i : Instr) (s t : State), exec i s = .next t → t.book.active ≠ s.book.active ∨ t.book.standby ≠ s.book.standby →
     (∃ c b, i = .bookWrite c b) ∨ (∃ c, i = .bookTurn c) ∨ (∃ c b, i = .bookLoad c b) ∨ i = .meshStart ∨
     (∃ b, i = .tourPeriodBoundary b) ∨ i = .porAssert ∨ (∃ v, i = .globalRstWrite v) ∨
     (∃ a v e p, i = .registerWrite a v e p))

/-! ### Commands of the command rings in general -/

/-- A command that is not accepted changes nothing (R291). An accepted one returns BUSY with no other effect in
recovery mode, unless recovery mode serves it (R359), and with the Triad lost, if it needs the Triad (R311). A
reserved bit of bytes 2–3 returns INVALID (R293). NOP completes OK; an opcode that R293 does not list returns
UNSUPPORTED. Neither does anything else. -/
def Obligations.CommandAcceptance : Prop :=
  (∀ (i : Instr) (op : Nat) (c : Cmd) (s : State), i.ringCmd = some (op, c) → Up s →
     (s.accepts c.ring = false → exec i s = .next s) ∧
     (s.accepts c.ring = true → s.boot.recovery = true → recoveryOp op = false →
       Yields i s fun t => Returns s t c op stBusy 0) ∧
     (s.accepts c.ring = true → s.boot.recovery = false → s.triad.lost = true → needsTriad op = true →
       Yields i s fun t => Returns s t c op stBusy 0) ∧
     (Serves s c.ring → knownOpcodes.contains op = true → c.rsvd ≠ 0 →
       Yields i s fun t => Returns s t c op stInvalid 0)) ∧
  ((∀ (c : Cmd) (s : State), Up s → s.accepts c.ring = true → c.rsvd = 0 → c.p0 = 0 → c.p1 = 0 → c.p2 = 0 →
     Yields (.nop c) s fun t => Returns s t c 0x0001 stOk 0) ∧
   (∀ (op : BitVec 16) (c : Cmd) (s : State), Serves s c.ring → knownOpcodes.contains op.toNat = false →
     Yields (.unsupportedOpcode op c) s fun t => Returns s t c op.toNat stUnsupported 0))

/-! ### Functions: DISABLE, ENABLE and the end of a drain (R26 to R33) -/

/-- DISABLE of a function that exists, by its state (R33). OFF returns already-off, and DRAINING as part of a container
already-draining; nothing else happens. DRAINING under a command of its own returns already-draining, with the earlier of
the old deadline and the one that P2 gives. ON returns OK; with a timeout above 0, in P2 or the class's default (R30),
the function drains under a command of its own from this instant until that timeout has passed, each function it contains
that is ON drains as part of it (R31), and nothing changes but lifecycle states, rings, and what the return touches. A
class above 10, or a P2 between 10,000,000 and the default's code, returns INVALID, and an instance that names no
function INVALID_TARGET, with no other effect (R30, R293). -/
def Obligations.DisableByLifecycleState : Prop :=
  (∀ (c : Cmd) (s : State), Takes s c → fnParamsOk c = true → c.p1 = 0 → cmdCls c ≤ 10 →
     s.instExists (cmdCls c) (cmdInst c) = true → s.instUnreachable (cmdCls c) (cmdInst c) = false →
     (∀ us : Nat, us = (if c.p2.toNat = 4294967295 then defaultTimeout (cmdCls c) else c.p2.toNat) →
       c.p2.toNat ≤ 10000000 ∨ c.p2.toNat = 4294967295 →
       ((s.fn (cmdCls c) (cmdInst c)).st = .off → Yields (.disable c) s fun t => Returns s t c 0x0011 stAlreadyOff 0) ∧
       ((s.fn (cmdCls c) (cmdInst c)).st = .draining → (s.fn (cmdCls c) (cmdInst c)).own = false →
         Yields (.disable c) s fun t => Returns s t c 0x0011 stAlreadyDraining 0) ∧
       ((s.fn (cmdCls c) (cmdInst c)).st = .draining → (s.fn (cmdCls c) (cmdInst c)).own = true →
         Yields (.disable c) s fun t =>
           Returns (s.modFn (cmdCls c) (cmdInst c) fun f => { f with
             deadline := min f.deadline (s.elapsed + usT us), byPhase := false }) t c 0x0011 stAlreadyDraining 0) ∧
       ((s.fn (cmdCls c) (cmdInst c)).st = .on → exec (.disable c) s = .next (answer 0x0011 c s stOk 0 fun u =>
         u.beginDrain (cmdCls c) (cmdInst c) us false)) ∧
       ((s.fn (cmdCls c) (cmdInst c)).st = .on → 0 < us → Yields (.disable c) s fun t =>
         Answered t c 0x0011 stOk 0 ∧
         t.fn (cmdCls c) (cmdInst c) =
           { st := .draining, own := true, since := s.elapsed, deadline := s.elapsed + usT us } ∧
         (∀ f ∈ s.contained (cmdCls c) (cmdInst c), s.isOn f.1 f.2 = true →
           t.isDraining f.1 f.2 = true ∧ (t.fn f.1 f.2).own = false) ∧
         t = { s with
           fns := t.fns, regs := t.regs
           host := { s.host with rings := t.host.rings, cmdRot := t.host.cmdRot, vfPending := t.host.vfPending }
           io := { s.io with rets := t.io.rets, hostw := t.io.hostw, msix := t.io.msix } }))) ∧
  (∀ (c : Cmd) (s : State), Takes s c → fnParamsOk c = true → c.p1 = 0 →
     (10 < cmdCls c → Yields (.disable c) s fun t => Returns s t c 0x0011 stInvalid 0) ∧
     (10000000 < c.p2.toNat → c.p2.toNat < 4294967295 → Yields (.disable c) s fun t => Returns s t c 0x0011 stInvalid 0) ∧
     (cmdCls c ≤ 10 → c.p2.toNat ≤ 10000000 → s.instExists (cmdCls c) (cmdInst c) = false →
       Yields (.disable c) s fun t => Returns s t c 0x0011 stTarget 0))

/-- ENABLE of a function that exists, by its state and class (R33). ON returns already-on and DRAINING busy, with nothing
changed. From OFF, a function of class 1, 7, 8 or 10, and an engine with power (R334), enters ON with its lifecycle event
(SUB 3, count 0, time 0) and nothing else; an engine without power returns busy. The boundary clock service enters ON in
the same way with the configuration given, or its own, where that lies in its ranges (R269); else INVALID. A recirculation
port takes its queues that are OFF with it (R31). A front-panel port needs loaded parser microcode (R76) and its square's
reserve (R190), and returns INVALID without the reserve; the management port needs neither. A channel for which
enableChan finds a valid record and buffers (R236 to R240) is ON with the record's window and block size. A VF latches its
doorbell area (R303). A ring whose context is read and valid takes it (R278); a failed read returns HOST_ERR, and a bad
context INVALID. -/
def Obligations.EnableByLifecycleState : Prop :=
  ∀ (c : Cmd) (x : HostRead) (b : Option BcCfg) (s : State), Takes s c → fnParamsOk c = true → c.p1 = 0 → c.p2 = 0 →
    cmdCls c ≤ 10 →
    s.instExists (cmdCls c) (cmdInst c) = true → s.instUnreachable (cmdCls c) (cmdInst c) = false →
    ((s.fn (cmdCls c) (cmdInst c)).st = .on → Yields (.enable c x b) s fun t => Returns s t c 0x0010 stAlreadyOn 0) ∧
    ((s.fn (cmdCls c) (cmdInst c)).st = .draining → Yields (.enable c x b) s fun t => Returns s t c 0x0010 stBusy 0) ∧
    ((s.fn (cmdCls c) (cmdInst c)).st = .off →
      (cmdCls c = 1 ∨ cmdCls c = 7 ∨ cmdCls c = 8 ∨ cmdCls c = 10 ∨
          (cmdCls c = 4 ∧ (s.engine (cmdInst c)).powered = true) →
        exec (.enable c x b) s = .next (answer 0x0010 c s stOk 0 fun u =>
          (u.setFn (cmdCls c) (cmdInst c) { st := .on }).post 1 3 (cmdInst c)
            (lifePayload (cmdCls c) 0 0))) ∧
      (cmdCls c = 4 → (s.engine (cmdInst c)).powered = false →
        Yields (.enable c x b) s fun t => Returns s t c 0x0010 stBusy 0) ∧
      (∀ y, y = b.getD s.time.bcCfg → cmdCls c = 9 →
        (s.bcCfgOk y = true → exec (.enable c x b) s = .next (answer 0x0010 c s stOk 0 fun u =>
          (({ u with time := { u.time with bcCfg := y, bcClass := y.clockClass } }).setFn 9 (cmdInst c)
            { st := .on }).post 1 3 (cmdInst c) (lifePayload 9 0 0))) ∧
        (s.bcCfgOk y = false → Yields (.enable c x b) s fun t => Returns s t c 0x0010 stInvalid 0)) ∧
      (cmdCls c = 2 → Yields (.enable c x b) s fun t => Answered t c 0x0010 stOk 0 ∧ t.isOn 2 (cmdInst c) = true ∧
        (∀ k < 16, t.fn 1 (16 * (1024 + cmdInst c) + k) =
          if s.isOff 1 (16 * (1024 + cmdInst c) + k) then { st := .on } else s.fn 1 (16 * (1024 + cmdInst c) + k)) ∧
        t = { s with fns := t.fns, regs := t.regs, host := t.host, cnt := t.cnt, io := t.io }) ∧
      (cmdCls c = 0 → cmdInst c < 1024 → s.boot.parseVer ≠ 0 → s.reserveOk (cmdInst c) = true →
        Yields (.enable c x b) s fun t => Answered t c 0x0010 stOk 0 ∧ t.isOn 0 (cmdInst c) = true) ∧
      (cmdCls c = 0 → cmdInst c < 1024 → s.boot.parseVer ≠ 0 → s.reserveOk (cmdInst c) = false →
        Yields (.enable c x b) s fun t => Returns s t c 0x0010 stInvalid 0) ∧
      (cmdCls c = 0 → cmdInst c = 1089 →
        Yields (.enable c x b) s fun t => Answered t c 0x0010 stOk 0 ∧ t.isOn 0 1089 = true) ∧
      (cmdCls c = 3 → (s.enableChan (cmdInst c)).2 = stOk →
        Yields (.enable c x b) s fun t => Answered t c 0x0010 stOk 0 ∧ t.isOn 3 (cmdInst c) = true ∧
          (t.chan (cmdInst c)).window = chanWindow (s.chanWord (cmdInst c) 0) ∧
          (t.chan (cmdInst c)).blockBytes = bits (s.chanWord (cmdInst c) 1) 13 0) ∧
      (cmdCls c = 6 → Yields (.enable c x b) s fun t => Answered t c 0x0010 stOk 0 ∧ t.isOn 6 (cmdInst c) = true ∧
        t.inForce (A.hostDbLo (cmdInst c)) = s.reg (A.hostDbLo (cmdInst c)) ∧
        t.inForce (A.hostDbHi (cmdInst c)) = s.reg (A.hostDbHi (cmdInst c))) ∧
      (cmdCls c = 5 → x = .err → Yields (.enable c x b) s fun t => Answered t c 0x0010 stHostErr 0) ∧
      (∀ bs, cmdCls c = 5 → x = .ok bs → s.ctxValid bs = true →
        Yields (.enable c x b) s fun t => Answered t c 0x0010 stOk 0 ∧ t.isOn 5 (cmdInst c) = true ∧
          t.ring (cmdInst c) = { s.ringOf bs with evq := (t.ring (cmdInst c)).evq }) ∧
      (∀ bs, cmdCls c = 5 → x = .ok bs → s.ctxValid bs = false →
        Yields (.enable c x b) s fun t => Answered t c 0x0010 stInvalid 0 ∧ t.fns = s.fns ∧
          (∀ n, n ≠ c.ring → t.ring n = s.ring n)))

/-- DRAIN_COMPLETE and DRAIN_TIMEOUT (R27, R28). A function that drains under a command of its own and has no work left
enters OFF at DRAIN_COMPLETE, and at DRAIN_TIMEOUT once its deadline has come, by the shared operation of OFF with outcome
1 where its timeout had ended and 0 elsewhere. For a queue that operation clears its tag and posts the lifecycle event with
the outcome, its discards and its time in DRAINING. The boundary clock service whose deadline has come discards the
messages that wait, its stamps and its Sync records, takes the next event number, and enters OFF. DRAIN_COMPLETE of a
function that does not drain, or has work, and DRAIN_TIMEOUT of one that does not drain, or whose deadline has not come,
change nothing. -/
def Obligations.DrainEnds : Prop :=
  (∀ (cls inst : Nat) (s : State), Up s → s.isDraining cls inst = true → (s.fn cls inst).own = true →
     s.hasWork cls inst = false →
     exec (.drainComplete cls inst) s = .next (s.enterOff cls inst (b2n (s.fn cls inst).timedOut)) ∧
     ((s.fn cls inst).deadline ≤ s.elapsed →
       exec (.drainTimeout cls inst) s = .next (s.enterOff cls inst (b2n (s.fn cls inst).timedOut)))) ∧
  (∀ (q o : Nat) (s : State), s.enterOff 1 q o =
    ((s.setFn 1 q { byPhase := (s.fn 1 q).byPhase }).modQueue q fun x => { x with tag := none }).post 1 o q
      (lifePayload 1 (s.fn 1 q).discarded (toUs (s.elapsed - (s.fn 1 q).since)))) ∧
  (∀ (cls inst : Nat) (s : State), Up s → s.isDraining cls inst = false ∨ s.hasWork cls inst = true →
    exec (.drainComplete cls inst) s = .next s) ∧
  (∀ s : State, Up s → s.isDraining 9 0 = true → (s.fn 9 0).own = true → (s.fn 9 0).deadline ≤ s.elapsed →
    Yields (.drainTimeout 9 0) s fun t => t.isOff 9 0 = true ∧
      t.time.bcTxDue = [] ∧ t.time.bcStamps = [] ∧ t.time.bcSync = [] ∧
      t.host.evSeq = (s.post 1 1 0 []).host.evSeq ∧
      t = { s with
        fns := t.fns, time := t.time, force := t.force, regs := t.regs, host := t.host, cnt := t.cnt, io := t.io }) ∧
  (∀ (cls inst : Nat) (s : State), Up s → s.isDraining cls inst = false ∨ s.elapsed < (s.fn cls inst).deadline →
    exec (.drainTimeout cls inst) s = .next s)

/-! ### The Book and the learn engine (R90, R127 to R138, R294) -/

/-- BOOK_WRITE (R130, R294): a failed read of the block returns HOST_ERR. A group that the checks turn away (writeGroup)
returns their status and changes nothing; so does, with INVALID, one of 0 or more than 32 pairs, or of a side above 1. A
good group to a standby side writes every pair there and marks the volume loaded; nothing else changes but the marks of
bad words. A good group to an active side writes every pair there and leaves the standby side. BOOK_TURN (R133): with a
turn committed, or an old epoch live, it returns BUSY, and where a check fails INVALID, with nothing changed. A good
commit waits, with the next epoch, the volumes and the activation time, where the mesh runs, it names volume 10, or its
time has not come (log entry 40); else the turn is made at once, and the epoch that was current is the old one.
BOOK_LOAD (R137): a failed read returns HOST_ERR; with a turn committed or an old epoch live it returns BUSY and changes
nothing. A good image fills the standby sides from its sections, and the volumes of its mask are loaded; a bad one returns
INVALID, and they are not loaded. Nothing else changes but the map that waits and the marks of bad words. -/
def Obligations.BookCommands : Prop :=
  (∀ (c : Cmd) (bs : List Byte) (s : State), Takes s c → c.p1 = 0 → c.p2 = 0 →
     Yields (.bookWrite c .err) s (fun t => Answered t c 0x0020 stHostErr 0) ∧
     ((s.writeGroup bs).2 ≠ stOk → Yields (.bookWrite c (.ok bs)) s fun t =>
       Returns s t c 0x0020 (s.writeGroup bs).2 0) ∧
     (leAt bs 2 1 = 0 ∨ 32 < leAt bs 2 1 ∨ 1 < leAt bs 1 1 → Yields (.bookWrite c (.ok bs)) s fun t =>
       Returns s t c 0x0020 stInvalid 0) ∧
     ((s.writeGroup bs).2 = stOk → leAt bs 1 1 = 1 → Yields (.bookWrite c (.ok bs)) s fun t =>
       Returns { s with book := t.book } t c 0x0020 stOk 0 ∧
       bit t.book.loaded (leAt bs 0 1) = true ∧
       t.book = { s.book with
         standby := (List.range (leAt bs 2 1)).foldl (fun m k => SMap.set (fun _ => 0) m
           (bookKey (leAt bs 0 1) (leAt bs (8 + 16 * k) 8 / 8)) (BitVec.ofNat 64 (leAt bs (16 + 16 * k) 8))) s.book.standby
         loaded := t.book.loaded, badWords := t.book.badWords }) ∧
     ((s.writeGroup bs).2 = stOk → leAt bs 1 1 = 0 → Yields (.bookWrite c (.ok bs)) s fun t =>
       Answered t c 0x0020 stOk 0 ∧ t.book.standby = s.book.standby ∧
       t.book.active = (List.range (leAt bs 2 1)).foldl (fun m k => SMap.set (fun _ => 0) m
           (bookKey (leAt bs 0 1) (leAt bs (8 + 16 * k) 8 / 8)) (BitVec.ofNat 64 (leAt bs (16 + 16 * k) 8)))
           s.book.active)) ∧
  (∀ (c : Cmd) (s : State), Takes s c → c.p0.toNat < 65536 → c.p2 = 0 →
     (s.book.turn.isSome = true ∨ s.book.old.isSome = true → Yields (.bookTurn c) s fun t =>
       Returns s t c 0x0021 stBusy 0) ∧
     (s.book.turn = none → s.book.old = none → s.book.turnValid c.p0.toNat = false → Yields (.bookTurn c) s fun t =>
       Returns s t c 0x0021 stInvalid 0) ∧
     (s.book.turn = none → s.book.old = none → s.book.turnValid c.p0.toNat = true →
       s.tour.running = true ∨ bit c.p0.toNat 10 = true ∨ (c.p1.toNat ≠ 0 ∧ s.nowNs < c.p1.toNat) →
       Yields (.bookTurn c) s fun t => Returns { s with book := { s.book with
         turn := some { epoch := (s.book.epoch + 1) % 256, mask := c.p0.toNat, act := c.p1.toNat } } } t c 0x0021 stOk 0) ∧
     (s.book.turn = none → s.book.old = none → s.book.turnValid c.p0.toNat = true → s.tour.running = false →
       bit c.p0.toNat 10 = false → c.p1 = 0 → Yields (.bookTurn c) s fun t => Answered t c 0x0021 stOk 0 ∧
         t.book.epoch = (s.book.epoch + 1) % 256 ∧ t.book.turn = none ∧
         t.book.old = some { epoch := s.book.epoch, mask := c.p0.toNat, swapAt := s.elapsed })) ∧
  (∀ (c : Cmd) (bs : List Byte) (s : State), Takes s c → c.p1 = 0 →
     Yields (.bookLoad c .err) s (fun t => Answered t c 0x0022 stHostErr 0) ∧
     (s.book.turn.isSome = true ∨ s.book.old.isSome = true → Yields (.bookLoad c (.ok bs)) s fun t =>
       Returns s t c 0x0022 stBusy 0) ∧
     ((s.loadImage bs c.p2.toNat).2 = stOk → Yields (.bookLoad c (.ok bs)) s fun t =>
       Returns { s with book := { s.book with
         standby := (imageSections bs).foldl (applySection bs) (s.book.clearedStandby bs)
         newMap := t.book.newMap, loaded := t.book.loaded, badWords := t.book.badWords } } t c 0x0022 stOk 0 ∧
       (∀ v < 13, bit (imageMask bs) v = true → bit t.book.loaded v = true)) ∧
     ((s.loadImage bs c.p2.toNat).2 = stInvalid → Yields (.bookLoad c (.ok bs)) s fun t =>
       Returns { s with book := { s.book with loaded := t.book.loaded } } t c 0x0022 stInvalid 0 ∧
       (∀ v < 13, bit (imageMask bs) v = true → bit t.book.loaded v = false)))

/-- The LEARN commands (R6, R15, R129, R293). An insert and a port flush of a port that does not exist return
INVALID_TARGET, and of one whose attachments are both excluded UNREACHABLE; then an insert or delete of a key that is not
of an L2 table returns INVALID; then, with the engine not ON, each returns BUSY; nothing else changes. Else the command is
accepted and waits for the engine with its operation, key, port and STATIC bit. LEARN_EVENT_APPLY (R127): with the engine
OFF, or no source with work, nothing happens; else the next source in rotation is served: a host command by applyLearnCmd,
whose status it then returns, or the first event of a square by applyLearn. applyLearn puts an absent key into the first
empty way of its set; a full set, a port that is the entry's own, and a static entry (counted) leave the entries; an entry
in its hold is marked FLAP and counted; any other takes the port and the time of its move. A host's delete removes the key,
a flush of all keeps the static entries, a port flush removes the port's (R129). AGE_SWEEP_VISIT (R128): with the engine
not ON, or less than a period after the visit before, nothing happens. Else HIT is cleared and MOVED kept only in the hold;
an entry that ages is not idle if it was hit, else idle, and one idle already is removed. FRAG_SWEEP removes the square's
expired fragment entries (R90). -/
def Obligations.LearnEngineAndCommands : Prop :=
  (∀ (op : Nat) (i : Cmd → Instr), (op, i) ∈ [(0, Instr.learnInsert), (1, .learnDelete), (2, .learnFlushAll), (3, .learnFlushPort)] →
     ∀ (c : Cmd) (s : State) (p : Nat), Takes s c → c.p1.toNat < 32768 → bits c.p1.toNat 11 11 = 0 → c.p2 = 0 →
       p = bits c.p1.toNat 10 0 →
       (op = 0 ∨ op = 3 → s.portExists p = false → Yields (i c) s fun t => Returns s t c 0x0023 stTarget 0) ∧
       (op = 0 ∨ op = 3 → s.portExists p = true → s.portUnreachable p = true →
         Yields (i c) s fun t => Returns s t c 0x0023 stUnreachable 0) ∧
       (op = 1 ∨ op = 2 ∨ (s.portExists p = true ∧ s.portUnreachable p = false) →
         (op ≤ 1 → c.p0.toNat % 16 ≠ 1 → Yields (i c) s fun t => Returns s t c 0x0023 stInvalid 0) ∧
         (2 ≤ op ∨ c.p0.toNat % 16 = 1 →
           (s.isOn 7 0 = false → Yields (i c) s fun t => Returns s t c 0x0023 stBusy 0) ∧
           (s.isOn 7 0 = true → Yields (i c) s fun t => Waits { s with book := { s.book with
             learnCmds := s.book.learnCmds ++ [{ op := op, key := c.p0, port := p, static := bit c.p1.toNat 14
                                                 ring := c.ring, tag := c.tag, opcode := 0x23 }] } } t c 0x0023)))) ∧
  (∀ s : State, Up s →
     (s.isOff 7 0 = true ∨ s.learnNext = none → exec .learnEventApply s = .next s) ∧
     (∀ c cs (u : State), s.isOff 7 0 = false → s.learnNext = some 64 → s.book.learnCmds = c :: cs →
       u = { s with book := { s.book with learnRot := 64, learnCmds := cs } } →
       exec .learnEventApply s = .next ((u.applyLearnCmd c).1.finishCmd c.ring c.tag (u.applyLearnCmd c).2.1
         (b2n (u.applyLearnCmd c).2.2))) ∧
     (∀ k ev evs, s.isOff 7 0 = false → s.learnNext = some k → k ≠ 64 → (s.sq k).learnQ = ev :: evs →
       exec .learnEventApply s = .next ((({ s with book := { s.book with learnRot := k } }).modSq k fun q => { q with
         learnQ := evs }).applyLearn ev.key ev.port false).1) ∧
     (∀ n, s.isOn 7 0 = false ∨ s.sweepDue n = false → exec (.ageSweepVisit n) s = .next s) ∧
     (∀ n, s.isOn 7 0 = true → s.sweepDue n = true → tget s.book.learn n = none → exec (.ageSweepVisit n) s =
       .next { s with book := { s.book with sweptAt := SMap.insert s.book.sweptAt n s.elapsed } }) ∧
     (∀ n x, s.isOn 7 0 = true → s.sweepDue n = true → tget s.book.learn n = some x →
       (x.static = true ∨ s.agePeriod = 0 → Yields (.ageSweepVisit n) s fun t =>
         tget t.book.learn n = some { x with hit := 0, moved := s.inHold x }) ∧
       (x.static = false → s.agePeriod ≠ 0 →
         (x.hit ≠ 0 → Yields (.ageSweepVisit n) s fun t =>
           tget t.book.learn n = some { x with hit := 0, idle := false, moved := s.inHold x }) ∧
         (x.hit = 0 → x.idle = false → Yields (.ageSweepVisit n) s fun t =>
           tget t.book.learn n = some { x with hit := 0, idle := true, moved := s.inHold x }) ∧
         (x.hit = 0 → x.idle = true → Yields (.ageSweepVisit n) s fun t =>
           tget t.book.learn n = none ∧ ∀ m, m ≠ n → tget t.book.learn m = tget s.book.learn m))) ∧
     (∀ i, exec (.fragSweep i) s = .next (s.modSq i fun q => { q with
       frag := q.frag.filter fun e => decide (s.elapsed < e.2.created + s.fragLife i) }))) ∧
  (∀ (key : W64) (port : Nat) (st : Bool) (s : State),
     (∀ w < 4, s.learnFind key = none → thas s.book.learn (4 * learnSet key + w) = false →
       (∀ v < w, thas s.book.learn (4 * learnSet key + v) = true) →
       (s.applyLearn key port st).1.book.learn =
         SMap.insert s.book.learn (4 * learnSet key + w) { key := key, port := port, static := st } ∧
       (s.applyLearn key port st).2 = stOk) ∧
     (s.learnFind key = none → (∀ w < 4, thas s.book.learn (4 * learnSet key + w) = true) →
       s.applyLearn key port st = (s.learnFull key port, stNoSpace) ∧
       (s.learnFull key port).book.learn = s.book.learn) ∧
     (∀ n x, s.learnFind key = some (n, x) →
       (x.port = port → s.applyLearn key port false = (s, stOk)) ∧
       (x.port ≠ port → x.static = true → s.applyLearn key port st = (s.count (devCtr 1) 1, stBusy)) ∧
       (x.port ≠ port → x.static = false → s.inHold x = true →
         (s.applyLearn key port st).1.book.learn = tmod s.book.learn n (fun y => { y with flap := true }) ∧
         (s.applyLearn key port st).2 = stBusy) ∧
       (x.port ≠ port → x.static = false → s.inHold x = false →
         (s.applyLearn key port st).1.book.learn = tmod s.book.learn n (fun y => { y with
           port := port, static := st, moved := true, moveT := s.nowUs32, flap := false }) ∧
         (s.applyLearn key port st).2 = stOk)) ∧
     (∀ c : LearnCmd,
       (c.op = 1 → (s.applyLearnCmd c).1.book.learn = s.book.learn.filter fun e => e.2.key != c.key) ∧
       (c.op = 2 → (s.applyLearnCmd c).1.book.learn = s.book.learn.filter fun e => e.2.static) ∧
       (c.op = 3 → (s.applyLearnCmd c).1.book.learn = s.book.learn.filter fun e => e.2.port != c.port)))

/-- BOOK_ECC_REPAIR and BOOK_SCRUB (R138). A bad word that another replica holds good is rewritten from the replica that
R138 names: it is bad no longer, and nothing else changes, but for the HIT bit of a learn-cache word. A word bad in all
replicas raises source 15. Where the word is not bad, or the replica is not the one R138 names, nothing happens. A scrub
visit that finds no wrong bit does nothing, one wrong bit is counted and logged, and two or more are treated as a
double-bit error. -/
def Obligations.BookEcc : Prop :=
  ∀ (h : EccHit) (s : State), Up s →
    (∀ j, s.wordBad h h.replica = true → s.repairSource h = some j → h.area ≠ 2 → exec (.bookEccRepair h (some j)) s =
      .next { s with book := { s.book with badWords := SMap.set (fun _ => false) s.book.badWords (eccKey h) false } }) ∧
    (∀ j, s.wordBad h h.replica = true → s.repairSource h = some j → h.area = 2 → Yields (.bookEccRepair h (some j)) s
      fun t => t.wordBad h h.replica = false ∧ t = { s with book := { s.book with
        badWords := t.book.badWords, learn := t.book.learn } }) ∧
    (s.wordBad h h.replica = true → s.repairSource h = none →
      exec (.bookEccRepair h none) s = .next (s.faultEvent 15)) ∧
    (∀ x, s.wordBad h h.replica = false ∨ s.repairSource h ≠ x → exec (.bookEccRepair h x) s = .next s) ∧
    exec (.bookScrub h 0) s = .next s ∧
    exec (.bookScrub h 1) s = .next ((s.count (devCtr 4) 1).eccLog h false) ∧
    (∀ n, 2 ≤ n → exec (.bookScrub h n) s = .next (s.eccUe h))

/-! ### Device time (R255 to R265) -/

/-- The boundary clock service owns device time exactly while a port of it is UNCALIBRATED (8) or SLAVE (9). In the running
device TIME_STAT.BC_OWNS then reads 1, else 0, and while it reads 1 the host's SET, STEP, FREQ and SLEW return BUSY and
change nothing. A message after which the service does not own device time leaves the frequency adjustment as it stood, as
does every message that the service sends (R260). -/
def Obligations.ServiceOwnsTime : Prop :=
  (∀ s : State, s.bcOwns = true ↔ ∃ e ∈ s.time.bcPorts, e.2 = 8 ∨ e.2 = 9) ∧
  (∀ s : State, Up s → rbit (s.readReg A.timeStat) 8 = s.bcOwns) ∧
  (∀ (c : Cmd) (s : State), Takes s c → s.bcOwns = true →
    (c.p1 = 0 → c.p2.toNat < 65536 → Yields (.timeSet c) s fun t => Returns s t c 0x0030 stBusy 0) ∧
    (c.p1 = 0 → c.p2.toNat < 65536 → Yields (.timeStep c) s fun t => Returns s t c 0x0031 stBusy 0) ∧
    (c.p0 = 0 → c.p1 = 0 → Yields (.timeFreq c) s fun t => Returns s t c 0x0032 stBusy 0) ∧
    (c.p1 = 0 → c.p2 = 0 → Yields (.timeSlew c) s fun t => Returns s t c 0x0033 stBusy 0)) ∧
  (∀ (st cl : Nat) (x : Steer) (s t : State), exec (.bcMessageReceive st cl x) s = .next t → t.bcOwns = false →
    t.time.freq = s.time.freq) ∧
  (∀ (m : BcDue) (s t : State), exec (.bcMessageDue m) s = .next t → t.time.freq = s.time.freq)

/-- The time commands while the boundary clock service does not own device time (R259). SET gives the three counters the
value of P0 and P2; STEP gives them the voted time with its signed offset added; both cancel a slew, set SET and leave
elapsed time, and return OK. FREQ and SLEW return OK and change only the adjustment and the slew. A STEP or SLEW that would
leave 0 to 2^64 − 1 ns, and a FREQ beyond ±500,000 ppb, return INVALID and change nothing. -/
def Obligations.TimeCommands : Prop :=
  ∀ (c : Cmd) (s : State), Takes s c → s.bcOwns = false →
    (c.p1 = 0 → c.p2.toNat < 65536 → Yields (.timeSet c) s fun t => Answered t c 0x0030 stOk 0 ∧
      t.time.c0 = c.p0.toNat * 2 ^ 40 + c.p2.toNat * 2 ^ 24 ∧ t.time.c1 = t.time.c0 ∧ t.time.c2 = t.time.c0 ∧
      t.time.slew = 0 ∧ t.time.slewing = false ∧ t.time.isSet = true ∧ t.elapsed = s.elapsed) ∧
    (c.p1 = 0 → c.p2.toNat < 65536 →
      0 ≤ (s.now : Int) + c.p0.toInt * 2 ^ 40 + c.p2.toNat * 2 ^ 24 →
      (s.now : Int) + c.p0.toInt * 2 ^ 40 + c.p2.toNat * 2 ^ 24 < 2 ^ 104 →
      Yields (.timeStep c) s fun t => Answered t c 0x0031 stOk 0 ∧
        (t.time.c0 : Int) = (s.now : Int) + c.p0.toInt * 2 ^ 40 + c.p2.toNat * 2 ^ 24 ∧
        t.time.c1 = t.time.c0 ∧ t.time.c2 = t.time.c0 ∧
        t.time.slew = 0 ∧ t.time.slewing = false ∧ t.time.isSet = true ∧ t.elapsed = s.elapsed) ∧
    (c.p1 = 0 → c.p2.toNat < 65536 →
      (s.now : Int) + c.p0.toInt * 2 ^ 40 + c.p2.toNat * 2 ^ 24 < 0 ∨
        2 ^ 104 ≤ (s.now : Int) + c.p0.toInt * 2 ^ 40 + c.p2.toNat * 2 ^ 24 →
      Yields (.timeStep c) s fun t => Returns s t c 0x0031 stInvalid 0) ∧
    (c.p0 = 0 → c.p1 = 0 → -128000000 ≤ c.p2.toInt → c.p2.toInt ≤ 128000000 → Yields (.timeFreq c) s fun t =>
      Returns { s with time := { s.time with freq := c.p2.toInt } } t c 0x0032 stOk 0) ∧
    (c.p0 = 0 → c.p1 = 0 → c.p2.toInt < -128000000 ∨ 128000000 < c.p2.toInt → Yields (.timeFreq c) s fun t =>
      Returns s t c 0x0032 stInvalid 0) ∧
    (c.p1 = 0 → c.p2 = 0 → 0 ≤ (s.now : Int) + c.p0.toInt * 2 ^ 40 → (s.now : Int) + c.p0.toInt * 2 ^ 40 < 2 ^ 104 →
      Yields (.timeSlew c) s fun t => Returns { s with time := { s.time with
        slew := c.p0.toInt * 2 ^ 40, slewing := decide (c.p0 ≠ 0) } } t c 0x0033 stOk 0) ∧
    (c.p1 = 0 → c.p2 = 0 → (s.now : Int) + c.p0.toInt * 2 ^ 40 < 0 ∨ 2 ^ 104 ≤ (s.now : Int) + c.p0.toInt * 2 ^ 40 →
      Yields (.timeSlew c) s fun t => Returns s t c 0x0033 stInvalid 0)

/-- Device time's own events. TIME_VOTE (R257): three counters that agree on integer and fraction are left; one that
differs from two equal ones takes their value and raises source 12; three that differ take the median, and the event forces
SEVERE. SLEW_COMPLETE ends a slew that is used up (R259). TIME_REF_LOSS and TIME_REF_RETURN (R256): the reference is marked
absent or present, REF_USED is the lowest REFCLK present, HOLDOVER says that the selected reference is lost, and TIMECLK_IN
is used again after 10 ms of good edges. EVT_IN_EDGE (R264): each edge is taken, and what waits is posted. An edge that is
not selected is not taken; a selected one is counted as dropped with the ring not ON, or with 64 waiting, and else waits
with its stamp; a lone one is posted at once where the ring has room. PPS_LEADING_EDGE (R265): at a multiple of the period of
an enabled output, with device time set, new settings come into force, and the output becomes active for its width where
they enable it; elsewhere nothing happens, but an output that is disabled takes new settings at once. PPS_WIDTH_END ends the
pulse whose width has passed, and no other. -/
def Obligations.TimeEvents : Prop :=
  (∀ s : State, Up s →
     (∀ o0 o1 o2 a b c, a = upset s.time.c0 o0 → b = upset s.time.c1 o1 → c = upset s.time.c2 o2 →
       (a / 2 ^ 24 = b / 2 ^ 24 → b / 2 ^ 24 = c / 2 ^ 24 → exec (.timeVote o0 o1 o2) s =
         .next { s with time := { s.time with c0 := a, c1 := b, c2 := c } }) ∧
       (a / 2 ^ 24 = b / 2 ^ 24 → b / 2 ^ 24 ≠ c / 2 ^ 24 →
         exec (.timeVote o0 o1 o2) s = .next ((s.loadTime a).faultEvent 12 0 2)) ∧
       (a / 2 ^ 24 = c / 2 ^ 24 → b / 2 ^ 24 ≠ c / 2 ^ 24 →
         exec (.timeVote o0 o1 o2) s = .next ((s.loadTime a).faultEvent 12 0 1)) ∧
       (b / 2 ^ 24 = c / 2 ^ 24 → a / 2 ^ 24 ≠ b / 2 ^ 24 →
         exec (.timeVote o0 o1 o2) s = .next ((s.loadTime b).faultEvent 12 0 0)) ∧
       (a / 2 ^ 24 ≠ b / 2 ^ 24 → b / 2 ^ 24 ≠ c / 2 ^ 24 → a / 2 ^ 24 ≠ c / 2 ^ 24 →
         exec (.timeVote o0 o1 o2) s = .next ((s.loadTime (votedTick a b c)).faultEvent 12 0 0 0 true))) ∧
     (s.time.slew = 0 → exec .slewComplete s = .next { s with time := { s.time with slewing := false } }) ∧
     (s.time.slew ≠ 0 → exec .slewComplete s = .next s) ∧
     (∀ k, Yields (.timeRefLoss false k) s fun t => bit t.nv.refclk k = false ∧ t.nv.timeclk = s.nv.timeclk ∧
       t.time.refUsed = t.lowRef.getD s.time.refUsed ∧
       t.time.holdover = (if s.srcTclk then !(s.nv.timeclk && s.time.tclkOk) else t.lowRef.isNone) ∧
       t.time.noRef = (t.time.holdover && t.lowRef.isNone)) ∧
     (∀ k, Yields (.timeRefLoss true k) s fun t => t.nv.timeclk = false ∧ t.nv.refclk = s.nv.refclk ∧
       t.time.tclkOk = false ∧ t.time.holdover = (s.srcTclk || s.lowRef.isNone)) ∧
     (s.pins.scan = false → ∀ k < 16, ∀ ns, Yields (.timeRefReturn false k ns) s fun t => bit t.nv.refclk k = true ∧
       t.time.refUsed = t.lowRef.getD s.time.refUsed ∧
       t.time.holdover = (s.srcTclk && !(s.nv.timeclk && s.time.tclkOk)) ∧ t.time.noRef = false) ∧
     (s.pins.scan = false → ∀ k ns, Yields (.timeRefReturn true k ns) s fun t => t.nv.timeclk = true ∧
       t.nv.refclk = s.nv.refclk ∧ t.time.tclkOk = (s.time.tclkOk || decide (10000000 ≤ ns)) ∧
       (s.srcTclk = true → t.time.holdover = !t.time.tclkOk))) ∧
  (∀ (es : List (Nat × Bool)) (s : State), Wired s → exec (.evtInEdge es) s =
     .next (es.foldl (fun u e => (u.takeEdge e.1 e.2).takePps e.1 e.2) s).drainEdges) ∧
  (∀ (k : Nat) (b : Bool) (s : State),
     (s.edgeOn k b = false → s.takeEdge k b = s) ∧
     (s.edgeOn k b = true →
       (s.isOn 5 (fld (s.reg A.timeEvtCfg) 27 16) = false →
         s.takeEdge k b = (s.setEdges k []).count (devCtr (7 + k)) ((s.edgesOf k).length + 1)) ∧
       (s.isOn 5 (fld (s.reg A.timeEvtCfg) 27 16) = true → 64 ≤ (s.edgesOf k).length →
         s.takeEdge k b = s.count (devCtr (7 + k)) 1) ∧
       (s.isOn 5 (fld (s.reg A.timeEvtCfg) 27 16) = true → (s.edgesOf k).length < 64 →
         s.takeEdge k b = s.setEdges k (s.edgesOf k ++ [{ input := k, falling := b, stamp := s.now }])) ∧
       (Wired s → k < 4 → s.evRoom (fld (s.reg A.timeEvtCfg) 27 16) = true → (∀ j, s.edgesOf j = []) →
         Yields (.evtInEdge [(k, b)]) s fun t => (∀ j, t.edgesOf j = []) ∧
           SMap.get (fun _ => 0) t.host.evSeq (fld (s.reg A.timeEvtCfg) 27 16) =
             (SMap.get (fun _ => 0) s.host.evSeq (fld (s.reg A.timeEvtCfg) 27 16) + 1) % 2147483648))) ∧
  (∀ (k : Nat) (s : State), Up s →
     (s.ppsOn k = true → s.time.isSet = true → s.nowNs % s.ppsPeriod k = 0 → Yields (.ppsLeadingEdge k) s fun t =>
       t.inForce (A.timePpsCfg k) = s.reg (A.timePpsCfg k) ∧ t.inForce (A.timePpsPeriod k) = s.reg (A.timePpsPeriod k) ∧
       t.pps k = (if rbit (s.reg (A.timePpsCfg k)) 31 then
         { active := true, widthEnd := s.now + nsT (t.ppsWidth k) } else {})) ∧
     (s.ppsOn k = true → s.time.isSet = false ∨ s.nowNs % s.ppsPeriod k ≠ 0 → exec (.ppsLeadingEdge k) s = .next s) ∧
     (s.ppsOn k = false → rbit (s.reg (A.timePpsCfg k)) 31 = false → Yields (.ppsLeadingEdge k) s fun t =>
       t.inForce (A.timePpsCfg k) = s.reg (A.timePpsCfg k) ∧ t = { s with force := t.force }) ∧
     ((s.pps k).active = true → (s.pps k).widthEnd ≤ s.now → Yields (.ppsWidthEnd k) s fun t =>
       t.pps k = {} ∧ (∀ j, j ≠ k → t.pps j = s.pps j) ∧ t = { s with time := t.time }) ∧
     ((s.pps k).active = false ∨ s.now < (s.pps k).widthEnd → exec (.ppsWidthEnd k) s = .next s))

/-! ### Buffers, services memory and squares -/

/-- BUF_STATE (R182, R183, R426). A change to the state that will be in force is OK and does nothing. A change to
NORMAL is BUSY where that state is RECOVERY, and where it is STARTUP and the mesh has not started. Every other change
to NORMAL or TEST is INVALID where the settings as written break R183; else it is captured with them and waits for the
boundary, but that TEST takes effect at acceptance, with its event, from STARTUP with no change waiting before the mesh
has started. The values 0 and 3 return INVALID. SVC_ALLOC and SVC_FREE (R176, R179). An allocation of 1 to 16,384 bytes
takes a buffer for the host (tag 5) and answers its offset in services memory; without room it answers NO_SPACE and
takes nothing; any other length is INVALID. A free gives back the host's own buffer that starts at the offset; one of
another owner is INVALID, an offset that starts no buffer INVALID_TARGET. -/
def Obligations.BufferAndServicesCommands : Prop :=
  (∀ (c : Cmd) (s : State), Takes s c → c.p1 = 0 → c.p2 = 0 →
     (c.p0 = 1 →
       (s.bufNext ≠ 1 → s.bufNext ≠ 3 → s.tour.running = true ∨ s.bufNext ≠ 0 →
         (bufSettingOk s.bufCapture = true → Yields (.bufStateNormal c) s fun t => Returns { s with buf := { s.buf with
           pending := s.buf.pending ++ [{ target := 1, regs := s.bufCapture }] } } t c 0x0050 stOk 0) ∧
         (bufSettingOk s.bufCapture = false → Yields (.bufStateNormal c) s fun t =>
           Returns s t c 0x0050 stInvalid 0)) ∧
       (s.bufNext = 1 → Yields (.bufStateNormal c) s fun t => Returns s t c 0x0050 stOk 0) ∧
       (s.bufNext = 3 ∨ (s.bufNext = 0 ∧ s.tour.running = false) →
         Yields (.bufStateNormal c) s fun t => Returns s t c 0x0050 stBusy 0)) ∧
     (c.p0 = 2 →
       (s.bufNext ≠ 2 → s.tour.running = true ∨ s.buf.state ≠ 0 ∨ s.buf.pending ≠ [] → bufSettingOk s.bufCapture = true →
         Yields (.bufStateTest c) s fun t => Returns { s with buf := { s.buf with
           pending := s.buf.pending ++ [{ target := 2, regs := s.bufCapture }] } } t c 0x0050 stOk 0) ∧
       (s.tour.running = false → s.buf.state = 0 → s.buf.pending = [] → bufSettingOk s.bufCapture = true →
         Yields (.bufStateTest c) s fun t => Answered t c 0x0050 stOk 0 ∧ t.buf.state = 2 ∧
           t.host.evSeq = (s.post 3 2 0 []).host.evSeq) ∧
       (s.bufNext = 2 → Yields (.bufStateTest c) s fun t => Returns s t c 0x0050 stOk 0) ∧
       (s.bufNext ≠ 2 → bufSettingOk s.bufCapture = false →
         Yields (.bufStateTest c) s fun t => Returns s t c 0x0050 stInvalid 0)) ∧
     (c.p0 = 0 ∨ c.p0 = 3 →
       Yields (.bufStateNormal c) s (fun t => Returns s t c 0x0050 stInvalid 0) ∧
       Yields (.bufStateTest c) s (fun t => Returns s t c 0x0050 stInvalid 0))) ∧
  (∀ (c : Cmd) (s : State), Takes s c → c.p1 = 0 →
     (c.p0 = 0 → 1 ≤ c.p2.toNat → c.p2.toNat ≤ 16384 →
       (∀ key, (s.svcTake 5 c.p2.toNat).2 = some key → Yields (.svcAlloc c) s fun t =>
         Returns { s with red := { s.red with svc := SMap.insert s.red.svc key 5 }, cnt := t.cnt }
           t c 0x0051 stOk (s.poolBase (key / 65536) + poolSize (key / 65536) * (key % 65536))) ∧
       ((s.svcTake 5 c.p2.toNat).2 = none → Yields (.svcAlloc c) s fun t => Returns s t c 0x0051 stNoSpace 0)) ∧
     (c.p0 = 0 → c.p2.toNat = 0 ∨ 16384 < c.p2.toNat → Yields (.svcAlloc c) s fun t => Returns s t c 0x0051 stInvalid 0) ∧
     (c.p2 = 0 →
       (∀ key, s.svcAt c.p0.toNat = some key → tget s.red.svc key = some 5 → Yields (.svcFree c) s fun t =>
         Returns { s with red := { s.red with svc := SMap.erase s.red.svc key } } t c 0x0052 stOk 0) ∧
       (∀ key, s.svcAt c.p0.toNat = some key → tget s.red.svc key ≠ some 5 → Yields (.svcFree c) s fun t =>
         Returns s t c 0x0052 stInvalid 0) ∧
       (s.svcAt c.p0.toNat = none → Yields (.svcFree c) s fun t => Returns s t c 0x0052 stTarget 0)))

/-- ISOLATE adds the square to X with its source (R167), unless no active square would be left (log entry 66); one in X
already is OK. REJOIN of a square whose reset has passed waits for the boundary, else it is BUSY (R169). SQ_RESET of a
square in X, none of whose functions drains, begins the reset, nothing else changes, and it returns at the reset's end;
with the square in reset already, or not in X, it is BUSY (R418). The audit of a square does nothing before
AUDIT_PERIOD has passed; when it has, the setting for the next period is latched, and with EN set every cell ages by
one, up to 15 (R199, R201). The one cell of a square, as old as LEAK_AGE and with no reference to it, is freed. A reset
that ends leaves the square without cells and contexts and its lanes and links at their reset values; where it passed,
the command that the square's ring still holds returns OK with result 1. An end that no reset waits for does nothing. -/
def Obligations.SquareCommandsAndReset : Prop :=
  (∀ (c : Cmd) (s : State), Takes s c → c.p0.toNat < 64 → c.p1 = 0 → c.p2 = 0 →
     (bit s.tour.x c.p0.toNat = false → s.leaves (setBit s.tour.x c.p0.toNat true) ≠ 0 → Yields (.isolate c) s fun t =>
       Returns { s with tour := { s.tour with
         x := setBit s.tour.x c.p0.toNat true
         xSource := SMap.set (fun _ => 0) s.tour.xSource c.p0.toNat 65536 } } t c 0x0060 stOk 0) ∧
     (bit s.tour.x c.p0.toNat = true → Yields (.isolate c) s fun t => Returns s t c 0x0060 stOk 0) ∧
     (bit s.tour.x c.p0.toNat = false → s.leaves (setBit s.tour.x c.p0.toNat true) = 0 → Yields (.isolate c) s fun t =>
       Returns s t c 0x0060 stBusy 0) ∧
     (bit s.tour.xInForce c.p0.toNat = true → (s.sq c.p0.toNat).resetSt = 2 → Yields (.rejoin c) s fun t =>
       Returns { s with tour := { s.tour with rejoin := setBit s.tour.rejoin c.p0.toNat true } } t c 0x0061 stOk 0) ∧
     (bit s.tour.xInForce c.p0.toNat = false ∨ (s.sq c.p0.toNat).resetSt ≠ 2 → Yields (.rejoin c) s fun t =>
       Returns s t c 0x0061 stBusy 0) ∧
     (bit s.tour.x c.p0.toNat = true → (s.sq c.p0.toNat).resetSt ≠ 1 →
       (∀ f ∈ s.removedFns c.p0.toNat, s.isDraining f.1 f.2 = false) → Yields (.sqReset c) s fun t =>
         Waits (s.modSq c.p0.toNat fun q => { q with resetSt := 1, resetCmd := some (c.ring, c.tag) }) t c 0x0062) ∧
     (bit s.tour.x c.p0.toNat = true → (s.sq c.p0.toNat).resetSt = 1 → Yields (.sqReset c) s fun t =>
       Returns s t c 0x0062 stBusy 0) ∧
     (bit s.tour.x c.p0.toNat = false → Yields (.sqReset c) s fun t => Returns s t c 0x0062 stBusy 0)) ∧
  ((∀ (i : Nat) (s : State), Up s →
     (s.auditDue i = false → exec (.bufAuditPeriod i) s = .next s) ∧
     (s.auditDue i = true → rbit (s.reg A.bufAudit) 31 = false → exec (.bufAuditPeriod i) s = .next (s.modSq i fun q =>
       { q with auditAt := s.elapsed, audit := s.reg A.bufAudit })) ∧
     (s.auditDue i = true → rbit (s.reg A.bufAudit) 31 = true →
       (∀ x ∈ (s.sq i).cells, min 15 (x.2.age + 1) < leakAge (s.reg A.bufAudit)) →
       exec (.bufAuditPeriod i) s = .next ((s.modSq i fun q =>
         { q with auditAt := s.elapsed, audit := s.reg A.bufAudit }).modSq i fun q =>
         { q with cells := q.cells.map fun x => (x.1, { x.2 with age := min 15 (x.2.age + 1) }) })) ∧
     (∀ k c, s.auditDue i = true → rbit (s.reg A.bufAudit) 31 = true → (s.sq i).cells = [(k, c)] →
       leakAge (s.reg A.bufAudit) ≤ min 15 (c.age + 1) →
       (s.sq i).ownRef k = false → s.egressRef i k c = false → bit s.tour.x i = false →
       Yields (.bufAuditPeriod i) s fun t => (t.sq i).cells = [])) ∧
   (∀ (i : Nat) (ok : Bool) (s : State), Up s →
     ((s.sq i).resetSt ≠ 1 → exec (.sqResetDone i ok) s = .next s) ∧
     ((s.sq i).resetSt = 1 → Yields (.sqResetDone i ok) s fun t =>
       (t.sq i).resetSt = (if ok then 2 else 3) ∧ (t.sq i).resetCmd = none ∧ (t.sq i).cells = [] ∧ (t.sq i).ctxOut = [] ∧
       (∀ l < 16, t.lane (16 * i + l) = {} ∧ t.link (16 * i + l) = {}) ∧
       (∀ n tag d, ok = true → (s.sq i).resetCmd = some (n, tag) → (s.ring n).accepted = some d → leAt d 4 4 = tag.toNat →
         (t.io.rets.head?.map fun r => (r.ring, r.tag, r.status, r.res)) = some (n, tag, stOk, 1)))))

/-! ### Staging, images, settings, Castling (R359 to R371) -/

/-- FLASH_WRITE (R359, R360): of a multiple of 4,096 bytes that fits the image region of the slot it targets, each
byte reads back as the block gives it, the slot is no longer verified, its commit sector is erased at the first write,
every other byte keeps its value, and nothing else changes. A failed read-back returns INVALID with RES 9. It is
served in recovery mode as well, where it may target either slot. -/
def Obligations.FlashWrite : Prop :=
  ∀ (c : Cmd) (bs : List Byte) (s : State), Up s → s.accepts c.ring = true → c.rsvd = 0 → s.castling = false →
    s.boot.recovery = true ∨ s.triad.lost = false → c.p1.toNat % 4096 = 0 → c.p2.toNat % 4096 = 0 →
    4096 ≤ c.p2.toNat → c.p2.toNat ≤ 1048576 → c.p1.toNat + c.p2.toNat ≤ 6291456 →
    (bs.length = c.p2.toNat → Yields (.flashWrite c (.ok bs) true) s fun t =>
      Returns { s with nv := { s.nv with flash := t.nv.flash }, boot := { s.boot with
        slotA := t.boot.slotA, slotB := t.boot.slotB } } t c 0x0070 stOk 0 ∧
      (t.boot.slotSt (s.stageSlot c)).verified = false ∧
      (∀ i < c.p2.toNat, t.nv.flashAt (s.stageSlot c) (4096 + c.p1.toNat + i) = bs.getD i 0) ∧
      (∀ i < 4096, (s.boot.slotSt (s.stageSlot c)).erased = false → t.nv.flashAt (s.stageSlot c) i = 255) ∧
      (∀ a, ¬ (16777216 * s.stageSlot c ≤ a ∧ a < 16777216 * s.stageSlot c + 4096) →
        ¬ (16777216 * s.stageSlot c + 4096 + c.p1.toNat ≤ a ∧
          a < 16777216 * s.stageSlot c + 4096 + c.p1.toNat + c.p2.toNat) →
        SMap.get flashErased t.nv.flash a = SMap.get flashErased s.nv.flash a)) ∧
    Yields (.flashWrite c (.ok bs) false) s (fun t => Answered t c 0x0070 stInvalid 9) ∧
    (∀ b, Yields (.flashWrite c .err b) s fun t => Answered t c 0x0070 stHostErr 0)

/-- IMAGE_VERIFY (R361) outside Castling: the slot's SVN and failure code are kept, a passing image sets VERIFIED, and
RES gives code, SVN and firmware version; nothing else changes. During Castling it is BUSY. CASTLE (R367): with the
other slot verified, Castling starts and the command returns when it ends; unverified it is INVALID, and during
Castling BUSY. A good signature makes the handover ready and a bad one declines with reason 1. CASTLE_HANDOVER, with no
message of the boundary clock due, writes the handover record. A hold in the step has it tried once more, then it
declines with 7. A record that the new firmware does not accept declines with the reason and TLV type of that check;
one it accepts starts probation at this instant. 50 ms later the commit record is written, with the next sequence
number: the other slot runs, and the command that the ring still holds returns OK; a failed write declines with 8. A
decline ends Castling with the running slot and non-volatile memory as they were, and the command that the ring still
holds returns DECLINED with the reason and the TLV type (R370). Before its time each of the three does nothing. -/
def Obligations.VerifyAndCastling : Prop :=
  (∀ (c : Cmd) (k : Crypto) (s : State), Up s → s.accepts c.ring = true → c.rsvd = 0 →
     s.boot.recovery = true ∨ s.triad.lost = false → c.p0.toNat < 2 → c.p1 = 0 → c.p2 = 0 →
     (s.castling = false → s.nv.imageCode c.p0.toNat k false = 0 → Yields (.imageVerify c k) s fun t =>
       Returns (s.modSlot c.p0.toNat fun x => { x with
         svn := s.nv.imgSvn c.p0.toNat, fail := 0, verified := true, erased := false }) t c 0x0071 stOk
         (256 * s.nv.imgSvn c.p0.toNat + 2 ^ 32 * s.nv.imgFw c.p0.toNat)) ∧
     (s.castling = false → s.nv.imageCode c.p0.toNat k false ≠ 0 → Yields (.imageVerify c k) s fun t =>
       Returns (s.modSlot c.p0.toNat fun x => { x with
         svn := s.nv.imgSvn c.p0.toNat, fail := s.nv.imageCode c.p0.toNat k false }) t c 0x0071 stInvalid
         (s.nv.imageCode c.p0.toNat k false + 256 * s.nv.imgSvn c.p0.toNat + 2 ^ 32 * s.nv.imgFw c.p0.toNat)) ∧
     (s.castling = true → Yields (.imageVerify c k) s fun t => Returns s t c 0x0071 stBusy 0)) ∧
  (∀ (c : Cmd) (s : State), Takes s c → c.p0 = 0 → c.p1 = 0 → c.p2 = 0 →
     (s.castling = false → (s.boot.slotSt (1 - s.boot.slot)).verified = true → Yields (.castle c) s fun t =>
       Waits { s with boot := { s.boot with
         castle := 1, castleCmd := some (c.ring, c.tag), castleRetry := false, castleReady := false } } t c 0x0072) ∧
     (s.castling = false → (s.boot.slotSt (1 - s.boot.slot)).verified = false → Yields (.castle c) s fun t =>
       Returns s t c 0x0072 stInvalid 0) ∧
     (s.castling = true → Yields (.castle c) s fun t => Returns s t c 0x0072 stBusy 0)) ∧
  (∀ s : State, Up s →
     (∀ b, s.boot.castle ≠ 1 ∨ s.boot.castleReady = true → exec (.castleLoadComplete b) s = .next s) ∧
     (s.boot.castle = 1 → s.boot.castleReady = false →
       exec (.castleLoadComplete true) s = .next { s with boot := { s.boot with castleReady := true } } ∧
       exec (.castleLoadComplete false) s = .next (s.declineCastle 1 0)) ∧
     (∀ h, s.boot.castle ≠ 1 ∨ s.boot.castleReady = false ∨ s.triad.lost = true ∨ s.triad.paused = true →
       exec (.castleHandover h) s = .next s) ∧
     (∀ h, s.boot.castle = 1 → s.boot.castleReady = true → s.triad.lost = false → s.triad.paused = false → h.due = [] →
       (h.hold = true ∨ s.triad.hold = some .slot →
         (s.boot.castleRetry = false → exec (.castleHandover h) s = .next { s with boot := { s.boot with
           handover := s.handoverRecord h.extra, castleRetry := true } }) ∧
         (s.boot.castleRetry = true → exec (.castleHandover h) s = .next (({ s with boot := { s.boot with
           handover := s.handoverRecord h.extra } } : State).declineCastle 7 0))) ∧
       (h.hold = false → s.triad.hold ≠ some .slot →
         (∀ code type, code ≠ 0 → s.nv.handoverCode (1 - s.boot.slot) h (handoverRead h (s.handoverRecord h.extra)) =
             (code, type) → exec (.castleHandover h) s = .next (({ s with boot := { s.boot with
               handover := s.handoverRecord h.extra } } : State).declineCastle code type)) ∧
         ((s.nv.handoverCode (1 - s.boot.slot) h (handoverRead h (s.handoverRecord h.extra))).1 = 0 →
           exec (.castleHandover h) s = .next (({ s with boot := { s.boot with
             handover := s.handoverRecord h.extra } } : State).freshServices h.known).castleOn ∧
           Yields (.castleHandover h) s fun t => t.boot.castle = 3 ∧ t.boot.castleS = t.elapsed))) ∧
     (∀ b, s.boot.castle ≠ 3 ∨ s.elapsed < s.boot.castleS + msT 50 ∨ s.triad.lost = true →
       exec (.castleCommit b) s = .next s) ∧
     (s.boot.castle = 3 → s.boot.castleS + msT 50 ≤ s.elapsed → s.triad.lost = false →
       exec (.castleCommit false) s = .next (s.declineCastle 8 0) ∧
       (s.boot.slot ≤ 1 → Yields (.castleCommit true) s fun t =>
         t.boot.slot = 1 - s.boot.slot ∧ t.boot.castle = 0 ∧ t.boot.lastReason = 0 ∧
         t.boot.fwver = BitVec.ofNat 32 (s.nv.imgFw (1 - s.boot.slot)) ∧
         (t.boot.slotSt (1 - s.boot.slot)).commitOk = true ∧
         (t.boot.slotSt (1 - s.boot.slot)).seq = ((s.boot.slotSt s.boot.slot).seq + 1) % 2 ^ 32 ∧
         t.boot.slotSt s.boot.slot = s.boot.slotSt s.boot.slot ∧
         (∀ i < 64, t.nv.flashAt (1 - s.boot.slot) i = (Commit.bytes {
           seq := ((s.boot.slotSt s.boot.slot).seq + 1) % 2 ^ 32, imgLen := s.nv.imgLen (1 - s.boot.slot)
           imgCrc := BitVec.ofNat 32 (crc32c (s.nv.image (1 - s.boot.slot) 0
             (s.nv.imgLen (1 - s.boot.slot)))) }).getD i 0) ∧
         (∀ n tag d, s.boot.castleCmd = some (n, tag) → (s.ring n).accepted = some d → leAt d 4 4 = tag.toNat →
           (t.io.rets.head?.map fun r => (r.ring, r.tag, r.status)) = some (n, tag, stOk)))) ∧
     (∀ r v, (s.declineCastle r v).boot.castle = 0 ∧ (s.declineCastle r v).boot.slot = s.boot.slot ∧
       (s.declineCastle r v).boot.lastReason = r ∧ (s.declineCastle r v).nv = s.nv ∧
       (∀ n tag d, r ≠ 0 → s.boot.castleCmd = some (n, tag) → (s.ring n).accepted = some d → leAt d 4 4 = tag.toNat →
         ((s.declineCastle r v).io.rets.head?.map fun x => (x.ring, x.tag, x.status, x.res)) =
           some (n, tag, stDeclined, r + 65536 * v))))

/-- ROLLBACK_CONFIRM (R362): RBC rises to the SVN of the running image where that is greater, with event 0x32 and the
new RBC in RES; where it is not, RBC stays and the command returns OK. It is BUSY, with RBC as it was, during
Castling, without VFUSE, and where a fuse fails. SETTINGS_SAVE (R364, R365): the settings, with the next sequence
number, go to the copy that is not the later one, and RES gives the number; the other copy stays. During Castling, or
within 1 s of the last save, it is BUSY. -/
def Obligations.RollbackAndSettings : Prop :=
  (∀ (c : Cmd) (v f : Bool) (s : State), Takes s c → c.p0 = 0 → c.p1 = 0 → c.p2 = 0 →
     (s.castling = false → s.nv.rbc < (s.boot.slotSt s.boot.slot).svn →
       exec (.rollbackConfirm c true true) s = .next (answer 0x0073 c s stOk (s.boot.slotSt s.boot.slot).svn fun u =>
         ({ u with nv := { u.nv with rbc := (s.boot.slotSt s.boot.slot).svn } }).post 0x32 0 0
           (leBytes 1 s.nv.rbc ++ leBytes 1 (s.boot.slotSt s.boot.slot).svn))) ∧
     (s.castling = false → (s.boot.slotSt s.boot.slot).svn ≤ s.nv.rbc → Yields (.rollbackConfirm c true f) s fun t =>
       Returns s t c 0x0073 stOk s.nv.rbc) ∧
     (s.castling = false → s.nv.rbc < (s.boot.slotSt s.boot.slot).svn → Yields (.rollbackConfirm c true false) s fun t =>
       Returns s t c 0x0073 stBusy 0) ∧
     (s.castling = true ∨ v = false → Yields (.rollbackConfirm c v f) s fun t => Returns s t c 0x0073 stBusy 0)) ∧
  (∀ (c : Cmd) (s : State), Takes s c → c.p0 = 0 → c.p1 = 0 → c.p2 = 0 →
     (s.castling = false → (∀ t ∈ s.boot.lastSave, t + secT 1 ≤ s.elapsed) → Yields (.settingsSave c true) s fun t =>
       Returns { s with
         nv := s.nv.setCopy (1 - s.nv.laterCopy.1) (some (s.snapshotOf ((snapSeq s.nv.laterCopy.2 + 1) % 2 ^ 32)))
         boot := { s.boot with lastSave := some s.elapsed } } t c 0x0074 stOk
         ((snapSeq s.nv.laterCopy.2 + 1) % 2 ^ 32)) ∧
     (s.castling = true ∨ (∃ t ∈ s.boot.lastSave, s.elapsed < t + secT 1) → ∀ b, Yields (.settingsSave c b) s fun t =>
       Returns s t c 0x0074 stBusy 0))

/-- A counter snapshot (R297, R383 to R386). Of a set that exists, whose port is not unreachable, and that is open to
the function of an ON snapshot ring with a posted buffer, the header and the copied ranges go to the buffer, cut to its
length; the command returns OK with the bytes written in RES; the words copied restart; nothing else changes but the
two rings, pending vectors and what leaves the device. A set not open to the function is INVALID. Without an ON
snapshot ring or a posted buffer the command returns NO_SPACE and is counted; a set that does not exist is
INVALID_TARGET. -/
def Obligations.CounterSnapshot : Prop :=
  ∀ (c : Cmd) (s : State), Takes s c → bits c.p0.toNat 15 12 = 0 → c.p0.toNat < 2 ^ 32 → c.p1 = 0 → c.p2 = 0 →
    (∀ rs, s.setRanges (bits c.p0.toNat 31 16) = some rs →
      (bits c.p0.toNat 31 16 < 1091 → s.portUnreachable (bits c.p0.toNat 31 16) = false) →
      (∀ d ds, s.ringIs (bits c.p0.toNat 11 0) 5 = true → s.rangesOpen (s.ring (bits c.p0.toNat 11 0)).fn rs = true →
        s.fnLive (s.ring (bits c.p0.toNat 11 0)).fn = true → (s.ring (bits c.p0.toNat 11 0)).fetched = d :: ds →
        Yields (.snapshot c) s fun t =>
          Answered t c 0x0080 stOk (min (leAt d 8 4) (64 + (rs.map (fun r => r.2)).sum)) ∧
          (∀ w ∈ s.hostTlps (s.ring (bits c.p0.toNat 11 0)).fn (leAt d 0 8) true
              ((snapHeader (bits c.p0.toNat 31 16) s.nowNs rs ++
                s.rangeBytes (cutRanges (min (leAt d 8 4) (64 + (rs.map (fun r => r.2)).sum) - 64) rs)).take
                  (min (leAt d 8 4) (64 + (rs.map (fun r => r.2)).sum))), w ∈ t.io.hostw) ∧
          t = { s.restartCopied (cutRanges (min (leAt d 8 4) (64 + (rs.map (fun r => r.2)).sum) - 64) rs) with
            regs := t.regs, host := t.host, io := t.io } ∧
          t.host = { s.host with rings := t.host.rings, cmdRot := t.host.cmdRot, vfPending := t.host.vfPending } ∧
          (∀ m, m ≠ c.ring → m ≠ bits c.p0.toNat 11 0 → t.ring m = s.ring m)) ∧
      (s.ringIs (bits c.p0.toNat 11 0) 5 = true → s.rangesOpen (s.ring (bits c.p0.toNat 11 0)).fn rs = false →
        Yields (.snapshot c) s fun t => Returns s t c 0x0080 stInvalid 0) ∧
      (s.ringIs (bits c.p0.toNat 11 0) 5 = false ∨
          (s.rangesOpen (s.ring (bits c.p0.toNat 11 0)).fn rs = true ∧ (s.ring (bits c.p0.toNat 11 0)).fetched = []) →
        Yields (.snapshot c) s fun t => Returns (s.count (devCtr 11) 1) t c 0x0080 stNoSpace 0)) ∧
    (s.setRanges (bits c.p0.toNat 31 16) = none → Yields (.snapshot c) s fun t => Returns s t c 0x0080 stTarget 0)

/-- FAULT_CLEAR (R322) returns the named source to IDLE at once: its count is 0, its recovery counter as it was, and a
source-cleared event with SUB 1 posted. Source 4 is BUSY. An IDLE source completes OK with no event; for a failed
channel with all its sources IDLE the clear is kept for its rejoin (R314). What is queued behind the clear is applied
to what it leaves. -/
def Obligations.FaultClear : Prop :=
  ∀ (c : Cmd) (s : State), Takes s c → c.p0.toNat < 1024 → c.p1 = 0 → c.p2 = 0 →
    (srcExists c.p0.toNat = true → c.p0.toNat ≠ 4 → (s.src c.p0.toNat).st ≠ .idle → srcChannel c.p0.toNat = none →
      exec (.faultClear c) s = .next (answer 0x0090 c s stOk 0 fun u =>
        (u.modSrc c.p0.toNat fun x => { x with st := .idle, count := 0 }).post 0x11 1 c.p0.toNat
          (leBytes 2 (s.src c.p0.toNat).recov))) ∧
    (srcExists c.p0.toNat = true → c.p0.toNat ≠ 4 → (s.src c.p0.toNat).st ≠ .idle → Yields (.faultClear c) s fun t =>
      Answered t c 0x0090 stOk 0 ∧ t.src c.p0.toNat = { s.src c.p0.toNat with st := .idle, count := 0 } ∧
      t.nv = s.nv ∧ t.host.evSeq = (s.post 0x11 1 c.p0.toNat []).host.evSeq ∧
      (∀ k, srcChannel c.p0.toNat = some k → (t.chn k).failed = true → t.chnQuiet k = true →
        (t.chn k).cleared = true)) ∧
    (srcExists c.p0.toNat = true → c.p0.toNat ≠ 4 → (s.src c.p0.toNat).st = .idle → Yields (.faultClear c) s fun t =>
      Returns { s with triad := t.triad } t c 0x0090 stOk 0 ∧
      (∀ k, srcChannel c.p0.toNat = some k → (t.chn k).failed = true → t.chnQuiet k = true →
        (t.chn k).cleared = true)) ∧
    (c.p0.toNat = 4 → Yields (.faultClear c) s fun t => Returns s t c 0x0090 stBusy 0) ∧
    (srcExists c.p0.toNat = false → Yields (.faultClear c) s fun t => Returns s t c 0x0090 stTarget 0) ∧
    (∀ i rest t, s.pending = .faultClear c :: i :: rest → step s = .next t → step t = exec i { t with pending := rest })

/-! ### Register accesses (R10, R40, R41, R275, R299, R301, R392 to R401) -/

/-- A write of a whole register outside the square blocks with no function of its own (R10, R21, R394, R399): RW bits
take the value written, W1C bits written 1 are cleared, every other bit is kept, and no other register is written but,
where the write unmasks a vector, the pending bits. It is made from DP_READY on, or in a block that accepts writes
before. A write of TIME_CFG that changes the reference in use raises source 13 as well (R256). -/
def Obligations.RegisterWriteFields : Prop :=
  ∀ (a : Nat) (v : Reg) (r : RegRow) (s u : State), Wired s → s.boot.dpReady = true ∨ a < 0x20000 → a < 0x1000000 →
    regRow a = some r → a ≠ 0x20 → a ≠ A.faultCtl → a ≠ A.faultInj → a ≠ A.faultCfg 4 → a ≠ A.faultCfg 15 →
    u = s.setReg a (BitVec.ofNat 32 (writtenWord r (s.reg a).toNat v.toNat)) →
    (∀ i < 32, bit (u.reg a).toNat i = if bit r.rw i then bit v.toNat i
      else bit (s.reg a).toNat i && !(bit r.w1c i && bit v.toNat i)) ∧
    (a ≠ A.timeCfg ∨ refChanged u u.chooseRef = false → Yields (.registerWrite a v 15 false) s fun t =>
      (∀ i < 32, bit (t.reg a).toNat i = if bit r.rw i then bit v.toNat i
        else bit (s.reg a).toNat i && !(bit r.w1c i && bit v.toNat i)) ∧
      (∀ x, x ≠ a → x < 0x1C000 ∨ 0x1C100 ≤ x → t.reg x = s.reg x) ∧
      t = { s with regs := t.regs, force := t.force, time := t.time, host := t.host, io := t.io }) ∧
    (a = A.timeCfg → refChanged u u.chooseRef = true →
      exec (.registerWrite a v 15 false) s = .next (u.chooseRef.faultEvent 13))

/-- A write that is turned away (R301, R393, R394, R399): poisoned (HOST_ERR_LOG kind 4), before DP_READY (kind 3), to
no register (kind 2), or with some byte enables only (kind 1), is discarded and logged; with no byte enable nothing
happens. A log keeps its first entry. A broadcast write is one write of the register in each of the 64 square blocks,
in ascending order, and so is the write through the broadcast window (R401); an offset that no register of a square
block occupies is logged once. -/
def Obligations.WritesTurnedAwayAndBroadcast : Prop :=
  (∀ (a : Nat) (v : Reg) (be : BitVec 4) (s : State), Wired s →
     exec (.registerWrite a v be true) s = .next (s.hostErr 4 0 0) ∧
     (a < 0x2000000 → be = 0 → exec (.registerWrite a v be false) s = .next s) ∧
     (a < 0x2000000 → be ≠ 0 → s.boot.dpReady = false → 0x20000 ≤ a →
       exec (.registerWrite a v be false) s = .next (s.accErr 3 a)) ∧
     (a < 0x2000000 → be ≠ 0 → s.boot.dpReady = true → regRow a = none →
       exec (.registerWrite a v be false) s = .next (s.accErr 2 a)) ∧
     (a < 0x2000000 → be ≠ 0 → be ≠ 15 → s.boot.dpReady = true → regRow a ≠ none →
       exec (.registerWrite a v be false) s = .next (s.accErr 1 a)) ∧
     (∀ fn o, exec (.bar2Write o fn) s = .next (if rbit (s.reg A.hostErrLog) 31 then s
       else s.setReg A.hostErrLog (BitVec.ofNat 32 (2147483648 + (5 * 2 ^ 28 + 0 * 2 ^ 16 + fn)))))) ∧
  (∀ (o : Nat) (v : Reg) (be : BitVec 4) (s : State), Wired s → o < 0x40000 →
     (∀ r, findRow squareRows o = some r →
       exec (.squareBroadcastWrite o v be) s = .next ((List.range 64).foldl (fun u k => u.hostWriteReg (A.sq k + o) v be) s)) ∧
     (findRow squareRows o = none → be ≠ 0 →
       exec (.squareBroadcastWrite o v be) s = .next (s.accErr 2 (0x2000000 + o))) ∧
     exec (.registerWrite (0x2000000 + o) v be false) s = exec (.squareBroadcastWrite o v be) s)

/-- A write of PORT_MAP or LANE_RATE (R40, R41). A map whose ports are aligned, with lanes that agree and no rate code
3, is taken as written; with every front-panel port of the square OFF it is in force at once, and while a port that it
changes is not OFF the map in force stays. Any other is discarded and sets MAP_ERR. Before DP_READY the write is
discarded and logged. -/
def Obligations.PortMapWrite : Prop :=
  ∀ (k : Nat) (v : Reg) (s : State), Wired s → k < 64 →
    (s.boot.dpReady = false → exec (.portMapWrite k false v) s = .next (s.accErr 3 (A.portMap k)) ∧
      exec (.portMapWrite k true v) s = .next (s.accErr 3 (A.laneRate k))) ∧
    (s.boot.dpReady = true →
      (laneMapOk v.toNat (s.reg (A.laneRate k)).toNat = false →
        exec (.portMapWrite k false v) s = .next (s.orReg (A.mapStat k) 1)) ∧
      (laneMapOk (s.reg (A.portMap k)).toNat v.toNat = false →
        exec (.portMapWrite k true v) s = .next (s.orReg (A.mapStat k) 1)) ∧
      (laneMapOk v.toNat (s.reg (A.laneRate k)).toNat = true → Yields (.portMapWrite k false v) s fun t =>
        t.reg (A.portMap k) = v ∧ t = { s with regs := t.regs, force := t.force } ∧
        ((∀ i < 16, s.isOff 0 (16 * k + i) = true) → t.inForce (A.portMap k) = v ∧
          t.inForce (A.laneRate k) = s.reg (A.laneRate k)) ∧
        ((s.setReg (A.portMap k) v).mapBlockers k ≠ [] → t.force = s.force)) ∧
      (laneMapOk (s.reg (A.portMap k)).toNat v.toNat = true → Yields (.portMapWrite k true v) s fun t =>
        t.reg (A.laneRate k) = v ∧ t = { s with regs := t.regs, force := t.force } ∧
        ((∀ i < 16, s.isOff 0 (16 * k + i) = true) → t.inForce (A.laneRate k) = v ∧
          t.inForce (A.portMap k) = s.reg (A.portMap k)) ∧
        ((s.setReg (A.laneRate k) v).mapBlockers k ≠ [] → t.force = s.force)))

/-- Write-one restarts (R48, R170, R319): a minimum FOM restarts at the present FOM, a high-water mark at the cells
parked now, and FIRST_CLR frees the first-event latch; each only with its bit set, each only from DP_READY on, and
nothing else changes. The three reads that latch (R261, R395): the read answers the low half of device time, of X or
of FAULT_FIRST_T, and from then on the other registers of the value read the rest of that same value. Nothing else
changes. -/
def Obligations.RestartsAndLatchedReads : Prop :=
  (∀ (k j : Nat) (v : Reg) (s : State), Wired s →
     (s.boot.dpReady = true →
       exec (.fomMinRst k j v) s = .next (if rbit v 16 then s.modLane (16 * k + j) fun l => { l with fomMin := l.fom }
         else s) ∧
       exec (.hwmRst k v) s = .next (if rbit v 31 then s.modSq k fun q => { q with reseqHwm := q.parkedCount } else s) ∧
       exec (.firstClr v) s = .next (if rbit v 0 then { s with fault := { s.fault with first := none } } else s)) ∧
     (s.boot.dpReady = false →
       exec (.fomMinRst k j v) s = .next (s.accErr 3 (A.laneFom k j)) ∧
       exec (.hwmRst k v) s = .next (s.accErr 3 (A.reseqStat k)) ∧
       exec (.firstClr v) s = .next (s.accErr 3 A.faultCtl))) ∧
  (∀ s : State, Wired s →
     (Yields .timeNowLoRead s fun t =>
       t = { s with time := { s.time with latchHi := t.time.latchHi, latchFrac := t.time.latchFrac }
                    io := { s.io with latched := BitVec.ofNat 32 s.nowNs } } ∧
       t.readReg A.timeNowHi = BitVec.ofNat 32 (s.now / 2 ^ 72) ∧
       t.readReg A.timeNowFrac = BitVec.ofNat 32 (s.now / 2 ^ 24 % 2 ^ 16)) ∧
     (Yields .tourExclLoRead s fun t =>
       t = { s with regs := t.regs, io := { s.io with latched := BitVec.ofNat 32 s.exclMask } } ∧
       t.readReg A.tourExclHi = BitVec.ofNat 32 (s.exclMask / 2 ^ 32) ∧ (∀ a, a ≠ A.tourExclHi → t.reg a = s.reg a)) ∧
     (Yields .faultFirstTLoRead s fun t =>
       t = { s with fault := { s.fault with latchHi := t.fault.latchHi }
                    io := { s.io with latched := BitVec.ofNat 32 s.fault.firstT } } ∧
       t.readReg A.faultFirstTHi = BitVec.ofNat 32 (s.fault.firstT / 2 ^ 32)))

/-- HOST_CFG.BOOT (R299): the RW fields are written; with BOOT at 1, both rings OFF, the PF allowed to issue requests
and contexts 0 and 1 valid, a command ring and an event ring of the PF, both are enabled with their contexts. With any
other context, or none read, BOOT_ERR is set and nothing else changes but for the reads of the contexts, which are
issued where the PF may. -/
def Obligations.HostBoot : Prop :=
  ∀ (v : Reg) (x y : HostRead) (s : State), Wired s →
    (rbit v 0 = false ∨ s.isOff 5 0 = false ∨ s.isOff 5 1 = false →
      exec (.hostCfgBoot v x y) s = .next (s.setReg A.hostCfg (v &&& 0x0FFF0004#32))) ∧
    (rbit v 0 = true → s.isOff 5 0 = true → s.isOff 5 1 = true →
      (∀ a b, x = .ok a → y = .ok b → s.fnLive 0 = true → s.ctxValid a = true → s.ctxValid b = true →
        leAt a 8 1 = 3 → leAt b 8 1 = 4 → leAt a 10 1 = 0 → leAt b 10 1 = 0 → Yields (.hostCfgBoot v x y) s fun t =>
          t.isOn 5 0 = true ∧ t.isOn 5 1 = true ∧ t.host.bootOn = true ∧ t.reg A.hostCfg = v &&& 0x0FFF0004#32 ∧
          t.ring 0 = { type := 3, base := leAt a 0 8, log2 := leAt a 9 1, fn := 0, vec := leAt a 12 2
                       modCnt := leAt a 14 2, modTime := leAt a 16 2, bufSize := leAt a 18 2, splitWb := rbit v 2 } ∧
          t.ring 1 = { type := 4, base := leAt b 0 8, log2 := leAt b 9 1, fn := 0, vec := leAt b 12 2
                       modCnt := leAt b 14 2, modTime := leAt b 16 2, bufSize := leAt b 18 2, splitWb := rbit v 2
                       evq := (t.ring 1).evq }) ∧
      (x = .err ∨ y = .err ∨ s.fnLive 0 = false ∨ (∃ a, x = .ok a ∧ (s.ctxValid a = false ∨ leAt a 8 1 ≠ 3 ∨ leAt a 10 1 ≠ 0)) ∨
          (∃ b, y = .ok b ∧ (s.ctxValid b = false ∨ leAt b 8 1 ≠ 4 ∨ leAt b 10 1 ≠ 0)) →
        exec (.hostCfgBoot v x y) s =
          .next ((((s.setReg A.hostCfg (v &&& 0x0FFF0004#32)).readContext 0).readContext 1).orReg A.hostStat 4)))

/-! ### Resets, boot, rails and boundary scan (R350 to R359, R402, R404, R415, R418 to R420) -/

/-- GLOBAL_RST (R404): DEV_RST with KEY 0xC5 asserts the device reset. Every part goes to its reset value but the
link, the configuration space, the MSI-X table and the PBA, the non-volatile stores and the pins; the resets are
counted. Any other value is discarded. POR_N low (R418) resets the whole device at any time, after a rail fault as
well (R415): only the one-time programmable memory, flash, scoresheet and the outside levels stay, and THERMTRIP_N
until POR_N rises. Release of POR_N or of the device reset after its 101 µs (R350 to R356, R359, R404): the straps are
read; with BOOTSEL 0 or 1 and a committed slot the ROM begins with the slots in order, the later SEQ first; else
recovery mode is entered. A release that is not due does nothing. -/
def Obligations.ResetsAndTheirRelease : Prop :=
  (∀ (v : Reg) (s : State), Wired s →
     (rbit v 0 = true → fld v 31 24 = 0xC5 → exec (.globalRstWrite v) s = .next { State.reset with
       pending := s.pending, nv := s.nv, io := s.io, nextFid := s.nextFid, pins := s.pins
       time := { cycles := s.time.cycles }
       regs := s.regs.filter fun e => decide (0x14000 ≤ e.1 ∧ e.1 < 0x1C100)
       host := { linkUp := s.host.linkUp, speed := s.host.speed, width := s.host.width, bme := s.host.bme
                 vfEnable := s.host.vfEnable, ctl := s.host.ctl, vfMsix := s.host.vfMsix
                 vfPending := s.host.vfPending, numVfs := s.host.numVfs }
       boot := { stage := 4, devCnt := min 65535 (s.boot.devCnt + 1), perstCnt := s.boot.perstCnt, cause := true } }) ∧
     (rbit v 0 = false ∨ fld v 31 24 ≠ 0xC5 → exec (.globalRstWrite v) s = .next s)) ∧
  (∀ s : State, exec .porAssert s = .next { State.reset with
     pending := s.pending, nv := s.nv, io := s.io, nextFid := s.nextFid, time := { cycles := s.time.cycles }
     pins := { thermtrip := s.pins.thermtrip } }) ∧
  (∀ (b : BoardIn) (s : State), s.pins.railBad = false →
     (s.boot.stage = 0 → Yields (.porRelease b) s fun t =>
       t.boot.bootsel = b.bootsel.toNat ∧ t.boot.testmode = b.testmode ∧ t.nv = (s.programmed b).nv ∧
       (b.bootsel.toNat < 2 → t.nv.slotOrder ≠ [] → t.boot.stage = 1 ∧ t.boot.order = t.nv.slotOrder) ∧
       (2 ≤ b.bootsel.toNat ∨ t.nv.slotOrder = [] → t.boot.stage = 3 ∧ t.boot.recovery = true) ∧
       t = { s with boot := t.boot, nv := t.nv, pins := t.pins, fault := t.fault }) ∧
     (s.boot.stage ≠ 0 → exec (.porRelease b) s = .next s) ∧
     (s.boot.stage = 4 → usT 101 ≤ s.elapsed → Yields (.deviceResetRelease b) s fun t =>
       t.boot.bootsel = b.bootsel.toNat ∧ t.boot.testmode = b.testmode ∧ t.time = { cycles := s.time.cycles } ∧
       t.nv = (if s.pins.spiFree then (s.programmed b).nv else s.nv) ∧ t.pins.thermtrip = s.pins.thermtrip ∧
       (b.bootsel.toNat < 2 → t.nv.slotOrder ≠ [] → t.boot.stage = 1 ∧ t.boot.order = t.nv.slotOrder) ∧
       (2 ≤ b.bootsel.toNat ∨ t.nv.slotOrder = [] → t.boot.stage = 3 ∧ t.boot.recovery = true) ∧
       t = { s with boot := t.boot, nv := t.nv, pins := t.pins, fault := t.fault, time := t.time }) ∧
     (s.boot.stage ≠ 4 ∨ s.elapsed < usT 101 → exec (.deviceResetRelease b) s = .next s))

/-- The ROM has checked the slot it chose (R350, R356 to R359): one that passes is booted, the firmware runs and
DP_READY is set; one that fails keeps its failure code, and the next slot is tried, or recovery mode entered where
none is left. Rails, THERMTRIP and boundary scan (R346, R415, R419, R420): a rail fault counts while POR_N is high, a
sensor at 125 °C drives THERMTRIP_N low in any state, and the instruction in force decides who has the pins. -/
def Obligations.BootAndPins : Prop :=
  (∀ (k : Crypto) (i : Nat) (rest : List Nat) (s : State), Up s → s.boot.stage = 1 → s.boot.order = i :: rest →
     (s.nv.imageCode i k true = 0 → Yields (.bootImageChecked k) s fun t =>
       t.boot.stage = 2 ∧ t.boot.dpReady = true ∧ t.boot.slot = i ∧ t.boot.fwver = BitVec.ofNat 32 (s.nv.imgFw i) ∧
       t.triad.ckptAt = s.elapsed ∧ t.nv.flash = s.nv.flash ∧ t.nv.rbc = s.nv.rbc) ∧
     (s.nv.imageCode i k true ≠ 0 → rest ≠ [] → Yields (.bootImageChecked k) s fun t =>
       (t.boot.slotSt (if i = 0 then 0 else 1)).fail = s.nv.imageCode i k true ∧ t.boot.order = rest ∧
       t.boot.stage = 1 ∧ t.boot.fellBack = true ∧ t = { s with boot := t.boot }) ∧
     (s.nv.imageCode i k true ≠ 0 → rest = [] → Yields (.bootImageChecked k) s fun t =>
       (t.boot.slotSt (if i = 0 then 0 else 1)).fail = s.nv.imageCode i k true ∧ t.boot.stage = 3 ∧
       t.boot.recovery = true ∧ t = { s with boot := t.boot, pins := t.pins })) ∧
  (∀ s : State, s.pins.railBad = false →
     (∀ r, s.boot.stage ≠ 0 → exec (.railOutOfRange r) s = .next { s with pins := { s.pins with railBad := true } }) ∧
     (∀ r, s.boot.stage = 0 → exec (.railOutOfRange r) s = .next s) ∧
     (∀ x : Int, 8 * 125 ≤ x → exec (.thermtrip x) s = .next { s with pins := { s.pins with thermtrip := true } }) ∧
     (∀ x : Int, x < 8 * 125 → exec (.thermtrip x) s = .next s) ∧
     (∀ n, s.boot.stage ≠ 0 →
       exec (.boundaryScanInstruction (.other n)) s = .next { s with pins := { s.pins with scan := true } }) ∧
     (∀ i, s.boot.stage ≠ 0 → i = .bypass ∨ i = .idcode ∨ i = .samplePreload →
       exec (.boundaryScanInstruction i) s = .next { s with pins := { s.pins with scan := false } }))

/-! ### Links (R43 to R71, R195, R196, R267 to R270) -/

/-- Steps of bring-up on a port that is not OFF (R43, R46 to R54): each detector changes the one thing it reports, and
UP_HOLD starts where every condition then holds (R50). Energy counts from LOS_QUAL on, a clock with two windows within
300 ppm, and a link partner where it advertises the port's own ability; short of that nothing happens. The first
marker pattern of a lane is its candidate, and one at one spacing after it locks the lane. With all lanes locked the
port is deskewed where their markers lie together; a port that never was and whose link is not up keeps cause 7. On a
port that is OFF nothing happens. LINK_UP (R50, R58): after UP_HOLD, with every condition holding, the link is up, its
bit in the link state vector is set, and every priority in XOFF whose cells are still at the threshold is sent in one
PFC frame (R189); before, nothing happens. -/
def Obligations.LinkBringUp : Prop :=
  (∀ (l p : Nat) (s : State), Wired s →
     (s.portLive (s.portBase l) = false →
       (∀ ns, exec (.losClear l ns) s = .next s) ∧ (∀ a b, exec (.lolClear l a b) s = .next s) ∧
       (∀ pos b, exec (.amLock l pos b) s = .next s) ∧ ∀ b, exec (.linkTrainingComplete l b) s = .next s) ∧
     (s.portLive p = false → exec (.fecCodewordLock p) s = .next s ∧ (∀ x, exec (.autonegComplete p x) s = .next s) ∧
       exec (.adaptOk p) s = .next s ∧ ∀ a b, exec (.faultSequenceClear p a b) s = .next s) ∧
     (s.portLive (s.portBase l) = true →
       (∀ ns, s.losQual (s.portBase l) ≤ ns → exec (.losClear l ns) s = .next ((s.modLane l fun x => { x with
         los := false, sig := true, train := if s.trains (s.portBase l) = true ∧ x.train = 0 then 1
           else x.train }).tryUpHold (s.portBase l))) ∧
       (∀ ns, ns < s.losQual (s.portBase l) → exec (.losClear l ns) s = .next s) ∧
       (∀ a b, a ≤ 300 → b ≤ 300 → exec (.lolClear l a b) s =
         .next ((s.modLane l fun x => { x with lol := false, cdr := true }).tryUpHold (s.portBase l))) ∧
       (∀ a b, 300 < a ∨ 300 < b → exec (.lolClear l a b) s = .next s) ∧
       (s.trains (s.portBase l) = true → ∀ b, exec (.linkTrainingComplete l b) s =
           .next ((s.modLane l fun x => { x with train := if b then 2 else 3 }).tryUpHold (s.portBase l))) ∧
       (s.trains (s.portBase l) = false → ∀ b, exec (.linkTrainingComplete l b) s = .next s) ∧
       (∀ pos b u, u = s.modLane l (Lane.match_ (s.amSpacing (s.portBase l)) pos) →
         ((∃ k ∈ s.portLanes (s.portBase l), (u.lane k).am = false) →
           exec (.amLock l pos b) s = .next (u.tryUpHold (s.portBase l))) ∧
         ((∀ k ∈ s.portLanes (s.portBase l), (u.lane k).am = true) →
           exec (.amLock l pos b) s = .next ((u.deskewTo (s.portBase l) b).tryUpHold (s.portBase l))))) ∧
     (s.portLive p = true →
       exec (.fecCodewordLock p) s = .next ((s.modLink p fun x => { x with fec := true, ucwRun := 0 }).tryUpHold p) ∧
       (∀ x, rbit (s.portCfg p) 29 = true → s.advertised p ∈ x →
         exec (.autonegComplete p x) s = .next ((s.modLink p fun x => { x with anDone := true }).tryUpHold p)) ∧
       (∀ x, s.advertised p ∉ x → exec (.autonegComplete p x) s = .next s) ∧
       ((∀ k ∈ s.portLanes p, ∃ t, (s.lane k).fomOkAt = some t ∧ t + msT 1 ≤ s.elapsed) →
         exec (.adaptOk p) s = .next ((s.modLink p fun x => { x with adapt := true }).tryUpHold p)) ∧
       ∀ a b, exec (.faultSequenceClear p a b) s = .next ((s.modLink p fun x => { x with
         rxLf := x.rxLf && !a, rxRf := x.rxRf && !b }).tryUpHold p))) ∧
  (∀ (d pos : Nat) (x : Lane),
     (x.cand = none → x.match_ d pos = { x with cand := some pos }) ∧
     (∀ c, x.cand = some c → x.am = false →
       (pos = c + d → x.match_ d pos = { x with am := true, misses := 0, cand := some pos }) ∧
       (pos < c + d → x.match_ d pos = x) ∧ (c + d < pos → x.match_ d pos = { x with cand := some pos }))) ∧
  (∀ (p : Nat) (s : State),
     s.deskewTo p true = s.modLink p (fun x => { x with deskew := true }) ∧
     ((s.link p).up = false → (s.link p).deskew = false →
       s.deskewTo p false = s.modLink p (fun x => { x with cause := 7, lane := 255 }))) ∧
  (∀ (p : Nat) (s : State), Up s → (s.link p).upHold = none → exec (.linkUp p) s = .next s) ∧
  (∀ (p : Nat) (t0 : Tick) (s : State), Up s → (s.link p).upHold = some t0 →
     (s.portLive p = true → (s.link p).up = false → s.linkQualified p = true → s.noFaultSeq p = true →
       t0 + s.upHold p ≤ s.elapsed → Yields (.linkUp p) s fun t =>
         (t.link p) = { s.link p with
           up := true, upHold := none, holdFrom := none, holdExt := false, discarding := false } ∧
         SMap.get (fun _ => false) t.book.lsv p = true ∧ (∀ x, x ≠ p → t.link x = s.link x) ∧
         (s.xoffPris p = [] → t.io = s.io ∧ t.cnt = s.cnt ∧ t.sqs = s.sqs) ∧
         (s.xoffPris p ≠ [] → t.io = { s.io with
           pfc := (p, s.pfcFrame ((s.xoffPris p).map fun k => (k, s.quanta))) :: s.io.pfc })) ∧
     (s.portLive p = false ∨ (s.link p).up = true ∨ s.linkQualified p = false ∨ s.noFaultSeq p = false ∨
       s.elapsed < t0 + s.upHold p → exec (.linkUp p) s = .next s))

/-- LINK_DOWN (R46, R47, R51, R52, R55 to R59). Of what a port's receiver sees in one cycle, each condition of R56 has
its cause, and the lowest cause counts, with its lowest lane. On an up link it takes the link down with that cause and,
for causes 1, 2 and 6, the lane, and the link state vector's bit falls; on a link not up the hold of R50 ends, and the
cause stays. Each condition also leaves its mark: lost signal, lost clock, codeword lock lost, a fault received, marker
lock and deskew lost. Energy low for less than LOS_QUAL, and a clock within 1,000 ppm, are no condition and change
nothing; one marker miss short of the loss is counted; codewords that end no burst are counted. A port that is OFF is
not touched. LINK_HOLD_EXPIRE (R196): with the link back the hold ends; with bring-up in UP_HOLD it is extended; else
the port's lossless frames are discarded until the link is up. Without a hold, or before its end, nothing happens. -/
def Obligations.LinkDownAndHold : Prop :=
  (∀ (l : List (Nat × Nat)) (c : Nat × Nat), lowestCause l = some c →
     c ∈ l ∧ ∀ d ∈ l, c.1 < d.1 ∨ (c.1 = d.1 ∧ c.2 ≤ d.2)) ∧
  (∀ (p : Nat) (s : State), Up s →
     (∀ seen, s.portLive p = false → exec (.linkDown p seen) s = .next s) ∧
     (∀ seen c, s.portLive p = true → lowestCause (seen.filterMap (s.causeOf p)) = some c →
       Yields (.linkDown p seen) s fun t =>
         (t.link p).up = false ∧ (t.link p).upHold = none ∧ (∀ x, x ≠ p → t.link x = s.link x) ∧
         ((s.link p).up = true → (t.link p).cause = c.1 ∧
           (t.link p).lane = (if c.1 = 1 ∨ c.1 = 2 ∨ c.1 = 6 then c.2 else 255) ∧
           SMap.get (fun _ => false) t.book.lsv p = false) ∧
         ((s.link p).up = false → (t.link p).cause = (s.link p).cause ∧ (t.link p).lane = (s.link p).lane)) ∧
     (s.portLive p = true → ∀ k, k < s.portWidth p →
       (∀ ns, s.losQual p ≤ ns → s.causeOf p (.energyLow k ns) = some (1, k) ∧
         Yields (.linkDown p [.energyLow k ns]) s fun t => (t.lane (p + k)).los = true ∧ (t.lane (p + k)).sig = false) ∧
       (∀ ns, ns < s.losQual p → exec (.linkDown p [.energyLow k ns]) s = .next s) ∧
       (∀ ppm, 1000 < ppm → s.causeOf p (.clockOff k ppm) = some (2, k) ∧
         Yields (.linkDown p [.clockOff k ppm]) s fun t => (t.lane (p + k)).lol = true ∧ (t.lane (p + k)).cdr = false) ∧
       (∀ ppm, ppm ≤ 1000 → exec (.linkDown p [.clockOff k ppm]) s = .next s) ∧
       ((s.lane (p + k)).am = true → s.amMisses p ≤ (s.lane (p + k)).misses + 1 →
         s.causeOf p (.markerMiss k) = some (6, k) ∧
         Yields (.linkDown p [.markerMiss k]) s fun t => (t.lane (p + k)).am = false ∧ (t.link p).deskew = false) ∧
       ((s.lane (p + k)).am = true → (s.lane (p + k)).misses + 1 < s.amMisses p →
         exec (.linkDown p [.markerMiss k]) s = .next (s.modLane (p + k) fun x => { x with misses := x.misses + 1 }))) ∧
     (s.portLive p = true →
       (∀ rs, s.ucwFires p rs = true → s.causeOf p (.codewords rs) = some (3, 255) ∧
         Yields (.linkDown p [.codewords rs]) s fun t => (t.link p).fec = false) ∧
       (∀ rs, s.ucwFires p rs = false → exec (.linkDown p [.codewords rs]) s = .next (s.countCws p rs)) ∧
       s.causeOf p .localFault = some (4, 255) ∧ (Yields (.linkDown p [.localFault]) s fun t => (t.link p).rxLf = true) ∧
       s.causeOf p .remoteFault = some (5, 255) ∧ (Yields (.linkDown p [.remoteFault]) s fun t => (t.link p).rxRf = true) ∧
       s.causeOf p .deskewLost = some (7, 255) ∧
       (Yields (.linkDown p [.deskewLost]) s fun t => (t.link p).deskew = false))) ∧
  (∀ (p : Nat) (s : State), Up s → (s.link p).holdFrom = none → exec (.linkHoldExpire p) s = .next s) ∧
  (∀ (p : Nat) (t0 : Tick) (s : State), Up s → (s.link p).holdFrom = some t0 →
     (s.elapsed < t0 + s.linkHold → exec (.linkHoldExpire p) s = .next s) ∧
     (t0 + s.linkHold ≤ s.elapsed →
       (s.portDown p = false → exec (.linkHoldExpire p) s = .next (s.modLink p fun l => { l with holdFrom := none })) ∧
       (s.portDown p = true → s.linkQualified p = true → (s.link p).upHold.isSome = true →
         exec (.linkHoldExpire p) s = .next (s.modLink p fun l => { l with holdExt := true })) ∧
       (s.portDown p = true → s.linkQualified p = false ∨ (s.link p).upHold = none → Yields (.linkHoldExpire p) s fun t =>
         (t.link p).discarding = true ∧ (t.link p).holdFrom = none ∧ (t.link p).up = (s.link p).up)))

/-- FOM_BLOCK (R48, R49, R51): the block's figure of merit is kept, with the minimum, and its codewords are counted; at
or above MIN_FOM nothing else happens but the time it has held; below it ADAPT_OK and UP_HOLD end, and an up link
raises its port's source. Codewords that complete a burst take an up link down with cause 3 (R56). Reference clocks
(R67): the loss of REFCLK k takes every port on its lanes down, and clears what the lanes had reached; its return only
marks it present. ERROR_SECOND (R60): at a new second of device time, for a port in ON or DRAINING, the first boundary
starts its first second; later ones put the class of the second that ends, SES with the link down or SES_UCW
uncorrectable codewords, ES with any, at the end of its delay line of 10 s and start the next second. A port that is
OFF is untouched; within a second nothing happens. -/
def Obligations.LinkQualityAndClocks : Prop :=
  (∀ (l n : Nat) (cws : List CwRun) (s : State), Up s → s.portLive (s.portBase l) = true →
     (s.ucwFires (s.portBase l) cws = false →
       (s.minFom l ≤ fomOf n → exec (.fomBlock l n cws) s = .next ((s.modLane l fun x => { x with
         fom := fomOf n, fomMin := min x.fomMin (fomOf n), fomOkAt := some (x.fomOkAt.getD s.elapsed) }).countCws
           (s.portBase l) cws)) ∧
       (fomOf n < s.minFom l → (s.link (s.portBase l)).up = true → exec (.fomBlock l n cws) s = .next ((((s.modLane l
         fun x => { x with fom := fomOf n, fomMin := min x.fomMin (fomOf n), fomOkAt := none }).modLink (s.portBase l)
           fun x => { x with adapt := false, upHold := none }).faultEvent
             (portSrc (s.portBase l)) 2 (s.portBase l)).countCws (s.portBase l) cws)) ∧
       (fomOf n < s.minFom l → (s.link (s.portBase l)).up = false → exec (.fomBlock l n cws) s = .next (((s.modLane l
         fun x => { x with fom := fomOf n, fomMin := min x.fomMin (fomOf n), fomOkAt := none }).modLink (s.portBase l)
           fun x => { x with adapt := false, upHold := none }).countCws (s.portBase l) cws))) ∧
     (s.ucwFires (s.portBase l) cws = true → (s.link (s.portBase l)).up = true → Yields (.fomBlock l n cws) s fun t =>
       (t.link (s.portBase l)).up = false ∧ (t.link (s.portBase l)).cause = 3)) ∧
  (∀ (l n : Nat) (cws : List CwRun) (s : State), Up s → s.portLive (s.portBase l) = false →
     exec (.fomBlock l n cws) s = .next s) ∧
  ((∀ (k : Nat) (s : State), Up s → k < 16 → Yields (.refclkLoss k) s fun t =>
     bit t.nv.refclk k = false ∧
     (∀ l, 64 * k ≤ l → l < 64 * k + 64 → (t.lane l).sig = false ∧ (t.lane l).cdr = false ∧ (t.lane l).am = false) ∧
     (∀ p, 64 * k ≤ p → p < 64 * k + 64 → s.portLive p = true →
       (t.link p).up = false ∧ (t.link p).upHold = none ∧ (t.link p).adapt = false ∧ (t.link p).fec = false ∧
       (t.link p).deskew = false ∧ ((s.link p).up = true → (t.link p).cause = 8)) ∧
     (∀ p, p < 64 * k ∨ 64 * k + 64 ≤ p → t.link p = s.link p)) ∧
   (∀ (k : Nat) (s : State), Wired s →
     exec (.refclkReturn k) s = .next { s with nv := { s.nv with refclk := setBit s.nv.refclk k true } })) ∧
  (∀ s : State, Up s →
     (s.time.second = s.nowNs / 1000000000 → exec .errorSecond s = .next s) ∧
     (s.time.second ≠ s.nowNs / 1000000000 → Yields .errorSecond s fun t =>
       (∀ p, s.portLive p = true → (s.link p).secOn = false →
         t.link p = { s.link p with secOn := true, secDown := !(s.link p).up, secUcw := 0 }) ∧
       (∀ p, s.portLive p = true → (s.link p).secOn = true → (s.link p).secs.length < 10 →
         t.link p = { s.link p with
           secs := (s.link p).secs ++ [if (s.link p).secDown = true ∨ s.sesUcw p ≤ (s.link p).secUcw then .ses
             else if (s.link p).secUcw = 0 then .clean else .es]
           secDown := !(s.link p).up, secUcw := 0 }) ∧
       (∀ p, s.portLive p = false → t.link p = s.link p) ∧
       t = { s with links := t.links, cnt := t.cnt, time := { s.time with second := s.nowNs / 1000000000 } }))

/-- The management port (R68, R69, R70): loss of synchronisation takes it down and ends auto-negotiation;
synchronisation starts the link timer with the elastic buffer at its middle, and auto-negotiation that is enabled
completes once the timer has run; the port is up where every condition then holds. A PTP message that the boundary
clock service takes sets its port's state, and a frequency correction that comes with UNCALIBRATED or SLAVE is applied
(R269, R270); one of a type it ignores is discarded and counted, one that comes to a service that is OFF discarded, and
all wait while firmware services pause. A message that falls due on a port of the service waits in a pause; else its
port takes its state, and it is sent, but for one that begins an exchange of a service not ON and for a Follow_Up
without the stamp of its Sync. A frame of the management port passes the elastic buffer; where that overflows, or the
length is wrong, or the port drains, it is dropped; else it is named and goes to the host's port, and waits where cells
are lacking (R70, R175). -/
def Obligations.ManagementAndServiceMessages : Prop :=
  (∀ s : State, Up s →
     (Yields .mgmtSyncLoss s fun t => t.host.mgmt = { s.host.mgmt with
       sync := false, anDone := false, anFrom := none, up := false }) ∧
     (s.pins.scan = false →
       (∀ up, up = (!s.isOff 0 1089 && decide (fld s.mgmtCfg 1 0 ≤ 1) &&
           (!rbit s.mgmtCfg 2 || (s.host.mgmt.anDone && !s.host.mgmt.halfDuplex && !s.host.mgmt.rxRf))) →
         (s.host.mgmt.sync = false → Yields .mgmtSyncAcquire s fun t => t.host.mgmt = { s.host.mgmt with
           sync := true, anFrom := some s.elapsed, fill := 16, up := up }) ∧
         (s.host.mgmt.sync = true → Yields .mgmtSyncAcquire s fun t => t.host.mgmt = { s.host.mgmt with up := up })) ∧
       (∀ sp fd ok rf ds, rbit s.mgmtCfg 2 = true → s.mgmtTimerDone = true →
         Yields (.mgmtAutonegComplete sp fd ok rf ds) s fun t => t.host.mgmt = { s.host.mgmt with
           anDone := ok, speed := if fld s.mgmtCfg 1 0 = 1 then sp else 2, halfDuplex := !fd, rxRf := rf
           fill := (elastic 4 ds s.host.mgmt.fill).1
           up := !s.isOff 0 1089 && s.host.mgmt.sync && decide (fld s.mgmtCfg 1 0 ≤ 1) && (ok && fd && !rf) }) ∧
       (∀ sp fd ok rf ds, rbit s.mgmtCfg 2 = false ∨ s.mgmtTimerDone = false →
         exec (.mgmtAutonegComplete sp fd ok rf ds) s = .next s))) ∧
  ((∀ (st cl : Nat) (x : Steer) (s : State), Up s →
     (takeFirst (fun (f : WholeFrame) => f.hdr.bc) s.red.inbox = none ∨ s.triad.paused = true ∨ s.triad.lost = true →
       exec (.bcMessageReceive st cl x) s = .next s) ∧
     (∀ f rest u, takeFirst (fun (f : WholeFrame) => f.hdr.bc) s.red.inbox = some (f, rest) → s.triad.paused = false →
       s.triad.lost = false → u = ({ s with red := { s.red with inbox := rest } } : State).dropStamp f.hdr.fid →
       (s.isOff 9 0 = true → exec (.bcMessageReceive st cl x) s = .next u) ∧
       (s.isOff 9 0 = false → bcIgnored (ptpType f.bytes) = true → exec (.bcMessageReceive st cl x) s =
         .next { u with time := { u.time with bcIgnored := s.time.bcIgnored + 1 } }) ∧
       (s.isOff 9 0 = false → bcIgnored (ptpType f.bytes) = false →
         exec (.bcMessageReceive st cl .none) s = .next (u.bcPortState f.hdr.iport st cl) ∧
         SMap.get (fun _ => 0) (u.bcPortState f.hdr.iport st cl).time.bcPorts f.hdr.iport = st) ∧
       (∀ v, s.isOff 9 0 = false → bcIgnored (ptpType f.bytes) = false → st = 8 ∨ st = 9 → -128000000 ≤ v →
         v ≤ 128000000 → exec (.bcMessageReceive st cl (.freq v)) s =
           .next ((u.bcPortState f.hdr.iport st cl).setFreq v)))) ∧
   (∀ (m : BcDue) (s : State), Up s →
     (s.bcActive m.port = false ∨ s.triad.lost = true → exec (.bcMessageDue m) s = .next s) ∧
     (s.bcActive m.port = true → s.triad.lost = false →
       (s.triad.paused = true → exec (.bcMessageDue m) s = .next { s with time := { s.time with
         bcTxDue := s.time.bcTxDue ++ [m] } }) ∧
       (s.triad.paused = false →
         (s.isOn 9 0 = false ∧ bcCompletes m.msgType = false →
           exec (.bcMessageDue m) s = .next (s.bcPortState m.port m.state s.time.bcClass)) ∧
         (m.msgType = 8 → s.syncStamped m.port = false → Yields (.bcMessageDue m) s fun t =>
           t.nextFid = s.nextFid ∧ t.red = s.red ∧ t.io = s.io) ∧
         (s.isOn 9 0 = true ∨ bcCompletes m.msgType = true → m.msgType ≠ 8 ∨ s.syncStamped m.port = true →
           Yields (.bcMessageDue m) s fun t => t.nextFid = s.nextFid + 1 ∧
             SMap.get (fun _ => 0) t.time.bcPorts m.port = m.state ∧
             (s.red.outbox = [] → s.mayTake s.tour.attSvc 64 < cellsOf m.frame.length →
               (t.red.outbox.map fun w => (w.bytes, w.ctx.eport)) = [(m.frame, m.port)]) ∧
             (s.red.outbox = [] → cellsOf m.frame.length ≤ s.mayTake s.tour.attSvc 64 → t.red.outbox = []))))) ∧
   (∀ (bs : List Byte) (bad : Bool) (gap : List Int) (d : Int) (s : State), Wired s →
     (s.isOff 0 1089 = true ∨ s.host.mgmt.up = false → exec (.mgmtFrameReceive bs bad gap d) s = .next s) ∧
     (s.isOff 0 1089 = false → s.host.mgmt.up = true →
       (((s.elasticGap 2 gap).elasticFrame d).2 = true ∨ bs.length + 4 < 64 ∨ s.maxFrame 1089 < bs.length + 4 ∨
           s.isDraining 0 1089 = true →
         exec (.mgmtFrameReceive bs bad gap d) s = .next ((s.elasticGap 2 gap).elasticFrame d).1) ∧
       (((s.elasticGap 2 gap).elasticFrame d).2 = false → 64 ≤ bs.length + 4 → bs.length + 4 ≤ s.maxFrame 1089 →
         s.isDraining 0 1089 = false → s.host.outbox = [] →
         (s.mayTake s.tour.attHost 65 < cellsOf bs.length → Yields (.mgmtFrameReceive bs bad gap d) s fun t =>
           t.nextFid = s.nextFid + 1 ∧ (t.host.outbox.map fun w => (w.bytes, w.hdr.fid, w.hdr.iport, w.ctx.eport)) =
             [(bs, s.nextFid, 1089, 1088)]) ∧
         (cellsOf bs.length ≤ s.mayTake s.tour.attHost 65 → Yields (.mgmtFrameReceive bs bad gap d) s fun t =>
           t.nextFid = s.nextFid + 1 ∧ t.host.outbox = [])))))

/-! ### The host link and the rings (R273 to R289, R301, R302) -/

/-- The resets of the host link (R302, R402): every ring that the device holds, and every VF, goes OFF, what waits at
the link is dropped, and the functions' own settings go to their reset state. PERST_N and a link down take the link
down, a PF reset leaves it; PERST_N is counted. The host link trains (R273): speed and width are shown, and anything
but 32 GT/s at 8 lanes raises source 18. Virtual functions (R274, R302): a function-level reset of an existing VF takes
its rings OFF, leaves its own lifecycle state, clears its Bus Master Enable, makes its BAR2 view read zero and is
reported; VF Enable sets which VFs exist, and one that ceases to goes OFF (log entry 121, the model's choice). A VF
that does not exist is not reset. Bus Master Enable (R302): clearing it changes nothing else but the control fields
written with it; setting it writes the returns that waited. The bit of a VF that does not exist is ignored. -/
def Obligations.HostFunctions : Prop :=
  (∀ (k : LinkReset) (s : State), Wired s → Yields (.perst k) s fun t =>
     (∀ n, thas s.host.rings n = true → t.isOff 5 n = true) ∧ (∀ v ≤ 8, t.isOff 6 v = true) ∧
     t.host.inbox = [] ∧ t.host.outbox = [] ∧ t.host.summaryOut = [] ∧ t.host.swapOut = [] ∧ t.host.prodOut = [] ∧
     t.host.prodWait = [] ∧ t.host.bme = [] ∧ t.host.vfEnable = false ∧ t.host.numVfs = 0 ∧ t.host.ctl = [] ∧
     t.host.vfMsix = [] ∧ t.host.vfPending = [] ∧ t.host.bootOn = false ∧
     t.host.linkUp = (s.host.linkUp && decide (k = .pfFlr)) ∧
     t.boot.perstCnt = (if k = .perstN then min 255 (s.boot.perstCnt + 1) else s.boot.perstCnt) ∧
     t = { s with fns := t.fns, host := t.host, cnt := t.cnt, boot := { s.boot with perstCnt := t.boot.perstCnt } }) ∧
  (∀ (sp w : Nat) (s : State), Wired s →
     (sp = 3 → w = 8 → exec (.hostLinkUp sp w) s = .next { s with host := { s.host with
       linkUp := true, speed := 3, width := 8 } }) ∧
     (sp ≠ 3 ∨ w ≠ 8 → exec (.hostLinkUp sp w) s = .next (({ s with host := { s.host with
       linkUp := true, speed := sp, width := w } }).faultEvent 18))) ∧
  (∀ s : State, Wired s →
     (∀ v, s.vfExists v = true → Yields (.vfFlr v) s fun t =>
       t.fn 6 v = s.fn 6 v ∧ (∀ n ∈ s.ringsOf v, t.isOff 5 n = true) ∧ t.fnLive v = false ∧
       (∀ o, t.bar2Word v o = 0) ∧
       (∀ w, w ≠ v → SMap.get (fun _ => false) t.host.bme w = SMap.get (fun _ => false) s.host.bme w) ∧
       t.host.evSeq = ((s.flrVf v).post 8 0 v []).host.evSeq) ∧
     (∀ v, s.vfExists v = false → exec (.vfFlr v) s = .next s) ∧
     (∀ on n, Yields (.sriovVfEnable on n) s fun t =>
       t.host.vfEnable = on ∧ t.host.numVfs = min 8 n ∧
       (∀ v ≤ 8, s.vfExists v = true → t.vfExists v = false → t.isOff 6 v = true) ∧
       t = { s with fns := t.fns, host := { s.host with
         vfEnable := on, numVfs := min 8 n, rings := t.host.rings, bme := t.host.bme, ctl := t.host.ctl
         vfMsix := t.host.vfMsix, vfPending := t.host.vfPending, summaryOut := t.host.summaryOut
         swapOut := t.host.swapOut, prodOut := t.host.prodOut, prodWait := t.host.prodWait } })) ∧
  (∀ (fn : Nat) (x : Option FnCtl) (s : State), Wired s →
     (fn = 0 ∨ s.vfExists fn = true →
       exec (.busMasterEnableChange fn false x) s = .next { s with host := { s.host with
         bme := SMap.set (fun _ => false) s.host.bme fn false
         ctl := match x with
           | some y => SMap.set (fun _ => {}) s.host.ctl fn y
           | none => s.host.ctl } } ∧
       Yields (.busMasterEnableChange fn true x) s fun t =>
         SMap.get (fun _ => false) t.host.bme fn = true ∧ t.ctl fn = x.getD (s.ctl fn) ∧
         (s.host.linkUp = true → ∀ n ∈ s.ringsOf fn, (t.ring n).retq = [])) ∧
     (fn ≠ 0 → s.vfExists fn = false → ∀ on, exec (.busMasterEnableChange fn on x) s = .next s))

/-- Vectors (R276, R284). MSIX_UNMASK clears the mask bit of an entry, or writes the entry. A pending vector that may
then be sent, its entry unmasked, MSI-X enabled, the function not masked and able to issue requests, sends its message
and clears its pending bit; in every other case nothing is sent and the pending bit stays. A ring's moderation time
ends: its vector fires for all its unsignalled returns, as a message, or as the pending bit where it may not be sent;
before that time nothing happens. -/
def Obligations.VectorsFire : Prop :=
  ∀ (fn vec : Nat) (s : State), Wired s → fn ≤ 8 → vec < (if fn = 0 then 2048 else 16) →
    (∀ x e, e = (match x with
        | none => { s.msixEntry fn vec with mask := false }
        | some y => ({ y with addr := BitVec.ofNat 64 (y.addr.toNat / 4 * 4) } : MsixEntry)) →
      (s.vecPending fn vec = true → e.mask = false → (s.ctl fn).msixEn = true → (s.ctl fn).msixMask = false →
        s.fnLive fn = true → Yields (.msixUnmask fn vec x) s fun t =>
          t.msixEntry fn vec = e ∧ t.vecPending fn vec = false ∧
          t.io = { s.io with msix := { fn := fn, vec := vec, addr := e.addr, data := e.data } :: s.io.msix } ∧
          t = { s with regs := t.regs, io := t.io, host := { s.host with
            vfMsix := t.host.vfMsix, vfPending := t.host.vfPending } }) ∧
      (s.vecPending fn vec = false ∨ e.mask = true ∨ (s.ctl fn).msixEn = false ∨ (s.ctl fn).msixMask = true ∨
        s.fnLive fn = false → Yields (.msixUnmask fn vec x) s fun t =>
          t.msixEntry fn vec = e ∧ t.vecPending fn vec = s.vecPending fn vec ∧
          t = { s with regs := t.regs, host := { s.host with vfMsix := t.host.vfMsix } })) ∧
    (∀ n, s.isOff 5 n = false → (s.ring n).fn = fn → (s.ring n).vec = vec → 0 < (s.ring n).unsignalled →
      (s.ring n).modTime ≠ 0 → (s.ring n).oldest + usT (s.ring n).modTime ≤ s.elapsed → s.fnLive fn = true →
      (s.vecOpen fn vec = true → exec (.msixModTimeout n) s =
        .next ((s.modRing n fun r => { r with unsignalled := 0 }).msixSend fn vec)) ∧
      (s.vecOpen fn vec = false → Yields (.msixModTimeout n) s fun t => (t.ring n).unsignalled = 0 ∧
        t.vecPending fn vec = true ∧ t.io = s.io)) ∧
    (∀ n, (s.ring n).unsignalled = 0 ∨ (s.ring n).modTime = 0 ∨ s.elapsed < (s.ring n).oldest + usT (s.ring n).modTime →
      exec (.msixModTimeout n) s = .next s)

/-- A doorbell round (R282, R283): it starts only when POLL has passed since the one before started and that one has
finished, and asks for the 512-byte summary of each doorbell area that is enabled; rings with descriptors left over ask
for them too. A summary's non-zero words are swapped, or, in the scan mode, the producers of the rings they name are
asked for; so are those of the bits a Swap returned. Of a function that may issue no requests a summary is left alone,
and the rings of a Swap wait. Producer words and descriptors (R279, R282, R301). A producer word within the ring is
kept, and up to 64 descriptors, with at most 256 in a round, are asked for from the fetch point where no fetch of the
ring is out; one beyond the ring stops it. The descriptors that were asked for join those the ring holds, and the fetch
point advances. An answer nobody waits for changes nothing. -/
def Obligations.DoorbellsAndDescriptors : Prop :=
  (∀ s : State, Wired s →
     (s.roundDue = true → Yields .doorbellPollRound s fun t =>
       t.host.summaryOut = (List.range 9).filter s.dbEnabled ∧ t.host.roundAt = some s.elapsed ∧
       (∀ n, t.ring n = { s.ring n with asked := (t.ring n).asked }) ∧
       t = { s with io := { s.io with reads := t.io.reads }, host := { s.host with
         summaryOut := t.host.summaryOut, roundAt := t.host.roundAt, roundCnt := t.host.roundCnt
         rings := t.host.rings } }) ∧
     (s.roundDue = true → (∀ n, (s.ring n).toFetch = 0) → exec .doorbellPollRound s = .next { s with
       host := { s.host with
         summaryOut := (List.range 9).filter s.dbEnabled, roundAt := some s.elapsed, roundCnt := 0 }
       io := { s.io with reads := (((List.range 9).filter s.dbEnabled).flatMap
         fun f => s.readTlps f (s.dbArea f + 0x4000) 512).reverse ++ s.io.reads } }) ∧
     (s.roundDue = false → exec .doorbellPollRound s = .next s) ∧
     (∀ fn ws, s.host.summaryOut.contains fn = false → exec (.summaryReadComplete fn ws) s = .next s) ∧
     (∀ fn ws, s.host.summaryOut.contains fn = true → s.fnLive fn = false → exec (.summaryReadComplete fn ws) s =
       .next { s with host := { s.host with summaryOut := s.host.summaryOut.erase fn } }) ∧
     (∀ fn ws es, s.host.summaryOut.contains fn = true → s.fnLive fn = true → s.scanMode = false →
       es = (ws.zipIdx.filter fun e => e.1 != 0 && decide (e.2 < 64)) →
       exec (.summaryReadComplete fn ws) s = .next { s with
         host := { s.host with
           summaryOut := s.host.summaryOut.erase fn
           swapOut := s.host.swapOut ++ es.map fun e => (fn, e.2, e.1) }
         io := { s.io with swaps := (es.map fun e => (fn, s.dbArea fn + 0x4000 + 8 * e.2)).reverse ++ s.io.swaps } }) ∧
     (∀ fn ws, s.host.summaryOut.contains fn = true → s.fnLive fn = true → s.scanMode = true →
       Yields (.summaryReadComplete fn ws) s fun t =>
         t.host.summaryOut = s.host.summaryOut.erase fn ∧
         (∀ k j, k < 64 → j < 64 → bit (ws.getD k 0).toNat j = true → s.isOn 5 (64 * k + j) = true →
           (s.ring (64 * k + j)).fn = fn → (s.ring (64 * k + j)).stopped = false → 64 * k + j ∈ t.host.prodOut) ∧
         t = { s with host := { s.host with summaryOut := t.host.summaryOut, prodOut := t.host.prodOut }
                      io := { s.io with reads := t.io.reads } }) ∧
     (∀ fn w b, s.swapIsOut fn w = false → exec (.swapComplete fn w b) s = .next s) ∧
     (∀ fn w b, s.swapIsOut fn w = true → Yields (.swapComplete fn w b) s fun t =>
       t.swapIsOut fn w = false ∧
       (∀ j, j < 64 → bit b.toNat j = true → s.isOn 5 (64 * w + j) = true → (s.ring (64 * w + j)).fn = fn →
         (s.ring (64 * w + j)).stopped = false →
         64 * w + j ∈ t.host.prodOut ∨ (s.fnLive fn = false ∧ 64 * w + j ∈ t.host.prodWait)) ∧
       t = { s with io := { s.io with reads := t.io.reads }, host := { s.host with
         swapOut := t.host.swapOut, prodOut := t.host.prodOut, prodWait := t.host.prodWait } })) ∧
  (∀ (n : Nat) (s : State), Wired s →
     (∀ p, s.host.prodOut.contains n = false → exec (.producerReadComplete n p) s = .next s) ∧
     (∀ p, s.host.prodOut.contains n = true → s.isOn 5 n = false ∨ (s.ring n).stopped = true →
       exec (.producerReadComplete n p) s = .next { s with host := { s.host with
         prodOut := s.host.prodOut.erase n } }) ∧
     (∀ p k, s.host.prodOut.contains n = true → s.isOn 5 n = true → (s.ring n).stopped = false →
       (p.toNat + 4294967296 - (s.ring n).c) % 4294967296 ≤ 2 ^ (s.ring n).log2 →
       k = min (min 64 ((p.toNat + 4294967296 - (s.ring n).fetch) % 4294967296)) (256 - s.host.roundCnt) →
       Yields (.producerReadComplete n p) s fun t =>
         t.host.prodOut = s.host.prodOut.erase n ∧ (∀ m, m ≠ n → t.ring m = s.ring m) ∧
         (k = 0 ∨ 0 < (s.ring n).asked ∨ s.fnLive (s.ring n).fn = false →
           t.ring n = { s.ring n with prod := p.toNat } ∧ t.io.reads = s.io.reads) ∧
         (k ≠ 0 → (s.ring n).asked = 0 → s.fnLive (s.ring n).fn = true →
           t.ring n = { s.ring n with prod := p.toNat, asked := k } ∧
           t.io.reads = (((s.ring n).span k).flatMap fun e => s.readTlps (s.ring n).fn e.1 e.2).reverse ++ s.io.reads) ∧
         t = { s with io := { s.io with reads := t.io.reads }, host := { s.host with
           prodOut := t.host.prodOut, rings := t.host.rings, roundCnt := t.host.roundCnt } }) ∧
     (∀ p, s.host.prodOut.contains n = true → s.isOn 5 n = true → (s.ring n).stopped = false →
       2 ^ (s.ring n).log2 < (p.toNat + 4294967296 - (s.ring n).c) % 4294967296 → Yields (.producerReadComplete n p) s fun t =>
         t.host.prodOut = s.host.prodOut.erase n ∧ (t.ring n).stopped = true ∧ (t.ring n).prod = (s.ring n).prod) ∧
     (∀ ds, s.isOn 5 n = true → (s.ring n).stopped = false → 0 < (s.ring n).asked → ds.length = (s.ring n).asked →
       (Yields (.descriptorFetchComplete n ds) s fun t =>
         (t.ring n).fetch = ((s.ring n).fetch + ds.length) % 4294967296 ∧ (t.ring n).prod = (s.ring n).prod) ∧
       ((s.ring n).type ≠ 4 → Yields (.descriptorFetchComplete n ds) s fun t =>
         t.ring n = { s.ring n with
           fetched := (s.ring n).fetched ++ ds, fetch := ((s.ring n).fetch + ds.length) % 4294967296
           asked := (t.ring n).asked } ∧
         (∀ m, m ≠ n → t.ring m = s.ring m) ∧
         t = { s with io := { s.io with reads := t.io.reads }, host := { s.host with
           rings := t.host.rings, roundCnt := t.host.roundCnt } })) ∧
     (∀ ds, s.isOn 5 n = false ∨ (s.ring n).stopped = true ∨ (s.ring n).asked = 0 ∨ ds.length ≠ (s.ring n).asked →
       exec (.descriptorFetchComplete n ds) s = .next s))

/-- Failed reads of host memory (R301). The read of a ring's descriptors that is out stops the ring with a ring error
event of cause 1, that of its producer word with cause 2; the read of a function's summary stops the rings of the bits
that were pending; a failed Swap ends, and no ring stops; a buffer read is logged with kind 3, and returns a command
with HOST_ERR. The first three and the last are logged in HOST_ERR_LOG and raise source 19 as written. A read that is
not out, or of a ring that is OFF, is not concerned. Receive (R285, R286): the oldest frame for port 1088 leaves the
queue; with an ON receive ring whose function may issue requests and enough descriptors it fills them, one for each
buffer's length of it, else it is counted in RX_DROP of its ring. With no such frame nothing happens. -/
def Obligations.HostErrorsAndReceive : Prop :=
  (∀ (n fn : Nat) (a : W64) (s : State), Up s → (s.ring n).fn = fn →
     (s.isOff 5 n = false →
       (0 < (s.ring n).asked → exec (.hostReadError .descriptor fn n a) s = .next ((((s.modRing n fun r =>
         { r with stopped := true, asked := 0 }).post 7 1 n (leBytes 8 a.toNat)).hostErr 1 n fn).faultEvent 19)) ∧
       ((s.ring n).asked = 0 → exec (.hostReadError .descriptor fn n a) s = .next s) ∧
       (s.host.prodOut.contains n = true → exec (.hostReadError .doorbell fn n a) s = .next ((((({ s with host :=
         { s.host with prodOut := s.host.prodOut.erase n } } : State).modRing n fun r =>
           { r with stopped := true, asked := 0 }).post 7 2 n (leBytes 8 a.toNat)).hostErr 2 n fn).faultEvent 19)) ∧
       (s.host.prodOut.contains n = false → exec (.hostReadError .doorbell fn n a) s = .next s) ∧
       ((s.ring n).type ≠ 2 → (s.ring n).type ≠ 3 →
         exec (.hostReadError .buffer fn n a) s = .next ((s.hostErr 3 n fn).faultEvent 19)) ∧
       (∀ d ds, (s.ring n).type = 3 → (s.ring n).fetched = d :: ds → Yields (.hostReadError .buffer fn n a) s fun t =>
         (t.ring n).fetched = ds ∧ (t.io.rets.head?.map fun r => (r.ring, r.status)) = some (n, stHostErr))) ∧
     (s.isOff 5 n = true → exec (.hostReadError .descriptor fn n a) s = .next s ∧
       exec (.hostReadError .doorbell fn n a) s = .next s ∧ exec (.hostReadError .buffer fn n a) s = .next s)) ∧
  (∀ (n fn : Nat) (a : W64) (s : State), Up s →
     (∀ rs, s.host.summaryOut.contains fn = true → Yields (.hostReadError (.summary rs) fn n a) s fun t =>
       t.host.summaryOut = s.host.summaryOut.erase fn ∧
       (∀ m ∈ rs, s.isOn 5 m = true → (s.ring m).fn = fn → (t.ring m).stopped = true) ∧
       (∀ m, m ∉ rs → (t.ring m).stopped = (s.ring m).stopped)) ∧
     (∀ rs, s.host.summaryOut.contains fn = false → exec (.hostReadError (.summary rs) fn n a) s = .next s) ∧
     (∀ w, w = (a.toNat - (s.dbArea fn + 0x4000)) / 8 →
       (s.swapIsOut fn w = true → Yields (.hostReadError .swap fn n a) s fun t => t.swapIsOut fn w = false ∧
         ∀ m, (t.ring m).stopped = (s.ring m).stopped) ∧
       (s.swapIsOut fn w = false → exec (.hostReadError .swap fn n a) s = .next s))) ∧
  (∀ s : State, Up s → s.host.inbox = [] → exec .rxFrameDeliver s = .next s) ∧
  (∀ (f : WholeFrame) (fs : List WholeFrame) (k n : Nat) (s : State), Up s → s.host.inbox = f :: fs → n = s.rxRing f.hdr →
     k = atLeast1 (cdiv f.bytes.length (256 * (s.ring n).bufSize)) →
     (s.ringIs n 1 = true → s.fnLive (s.ring n).fn = true → k ≤ (s.ring n).fetched.length →
       Yields .rxFrameDeliver s fun t => t.host.inbox = fs ∧ t.cnt = s.cnt ∧
         (t.ring n).fetched.length + k = (s.ring n).fetched.length ∧ (∀ m, m ≠ n → t.ring m = s.ring m) ∧
         (∀ d ds, (s.ring n).fetched = d :: ds → f.bytes.length ≤ 256 * (s.ring n).bufSize →
           ∀ w ∈ s.hostTlps (s.ring n).fn (leAt d 0 8) true f.bytes, w ∈ t.io.hostw) ∧
         t = { s with regs := t.regs, host := t.host, io := t.io }) ∧
     (s.ringIs n 1 = false ∨ s.fnLive (s.ring n).fn = false ∨ (s.ring n).fetched.length < k →
       exec .rxFrameDeliver s = .next (({ s with host := { s.host with inbox := fs } } : State).count (ringCtr n 0) 1)))

/-- Transmit (R287 to R289, R301). A whole chain of one descriptor that R287 or R288 turns away returns with INVALID,
INVALID_TARGET or UNREACHABLE, and one whose buffer cannot be read leaves the ring. A good frame of MODE 0 without
cells waits, counted; with cells it takes a name, and its descriptor leaves the ring; where its queue admits it, it is
counted at port 1088 (R377) and stored at the host's attachment square. A good frame of MODE 1 waits, counted, or takes
a name, and its descriptor leaves the ring. Nothing to send, a chain not whole, buffers that are not its own, or a ring
that is OFF, is left alone. -/
def Obligations.TransmitFrames : Prop :=
  ∀ (n : Nat) (bufs : List HostRead) (x : Option EccErr) (s : State), Wired s →
    (txChain 8 (s.ring n).fetched = [] ∨ s.isOff 5 n = true ∨ (s.ring n).type ≠ 2 ∨
        s.fnLive (s.ring n).fn = false ∨ chainWhole (txChain 8 (s.ring n).fetched) = false ∨
        bufs.length ≠ (txChain 8 (s.ring n).fetched).length →
      exec (.txFrameInject n bufs x) s = .next s) ∧
    (∀ d, txChain 8 (s.ring n).fetched = [d] → s.isOff 5 n = false → (s.ring n).type = 2 →
      s.fnLive (s.ring n).fn = true → chainWhole [d] = true → bufs.length = 1 →
      (txDescOk d = false → exec (.txFrameInject n bufs x) s = .next (s.takeTx n 0 [d] (some (stInvalid, 0)))) ∧
      (txDescOk d = true → s.portExists (leAt d 10 2) = false →
        exec (.txFrameInject n bufs x) s = .next (s.takeTx n 0 [d] (some (stTarget, 0)))) ∧
      (txDescOk d = true → bit (leAt d 12 1) 4 = false → s.portExists (leAt d 10 2) = true →
        s.hostLost = true ∨ s.portUnreachable (leAt d 10 2) = true →
        exec (.txFrameInject n bufs x) s = .next (s.takeTx n 0 [d] (some (stUnreachable, 0)))) ∧
      (txDescOk d = true → s.portExists (leAt d 10 2) = true → s.hostLost = false →
        s.portUnreachable (leAt d 10 2) = false → bit (leAt d 12 1) 4 = false ∨ leAt d 10 2 < 1024 →
        (bufs = [.err] → Yields (.txFrameInject n bufs x) s fun t => (t.ring n).fetched = (s.ring n).fetched.drop 1) ∧
        (∀ b bs, bufs = [.ok b] → bs = b.take (leAt d 8 2) → bs.length < 60 ∨ s.maxFrame (leAt d 10 2) - 4 < bs.length →
          exec (.txFrameInject n bufs x) s = .next (s.takeTx n 0 [d] (some (stInvalid, 0)))) ∧
        (∀ b bs, bufs = [.ok b] → bs = b.take (leAt d 8 2) → 60 ≤ bs.length → bs.length ≤ s.maxFrame (leAt d 10 2) - 4 →
          (bit (leAt d 12 1) 4 = true → Yields (.txFrameInject n bufs x) s fun t =>
            t = s.count (sqCtr s.tour.attHost (8 * 65)) 1 ∨
              (s.nextFid < t.nextFid ∧ (t.ring n).fetched = (s.ring n).fetched.drop 1)) ∧
          (bit (leAt d 12 1) 4 = false → s.mayTake s.tour.attHost 65 < cellsOf bs.length →
            exec (.txFrameInject n bufs x) s = .next (s.count (sqCtr s.tour.attHost (8 * 65)) 1)) ∧
          (bit (leAt d 12 1) 4 = false → cellsOf bs.length ≤ s.mayTake s.tour.attHost 65 →
            (Yields (.txFrameInject n bufs x) s fun t => t.nextFid = s.nextFid + 1 ∧
              (t.ring n).fetched = (s.ring n).fetched.drop 1) ∧
            (bit (leAt d 12 1) 6 = false → ∀ h u held,
              h = { fid := s.nextFid, length := bs.length, iport := 1088, ingressNs := s.stamp32
                    cls := leAt d 12 1 % 16, inj := true : FrameHdr } →
              (s.portIn 1088 bs.length).freshFid.1.takeIn s.tour.attHost 5 2 65 h
                { eport := leAt d 10 2, cls := leAt d 12 1 % 16 } = (u, some held) →
              exec (.txFrameInject n bufs x) s = .next ((u.takeTx n s.nextFid [d] (some (stOk, 0))).storeWhole
                s.tour.attHost 2 65 { main := some ({ eport := leAt d 10 2, cls := leAt d 12 1 % 16 }, h), held := held
                                      epoch := s.book.epoch } bs))))))

/-! ### Frames from the MACs to the core (R17, R44, R45, R74 to R80, R126, R147 to R163, R187 to R191) -/

/-- FRAME_RECEIVE. On a link that is not up nothing arrives (R44). A frame below 64 bytes with its FCS is discarded and
counted; so is one above MAX_FRAME, but for one whose head takes a cut-through path at a port that does not drain,
which goes as far as MAX_FRAME and fails (R45). A PAUSE frame is counted and discarded, a PFC frame is received, and
either is discarded where its FCS fails; a draining port counts what it discards. Any other frame takes a name. Blitz
puts it on its egress port at once (R161). Else, where the crossing of its parse lane has room, it is filled byte for
byte into that lane's cells behind what the lane holds, its frame word with its name, length and port first (R147);
where the crossing is full it is dropped and counted (R18). -/
def Obligations.FramesAtTheMac : Prop :=
  ∀ (p : Nat) (data : List Byte) (fcsBad errored bad : Bool) (s : State), Wired s → bad = (fcsBad || errored) →
    (s.portLive p = false ∨ (s.link p).up = false → exec (.frameReceive p data fcsBad errored) s = .next s) ∧
    (s.portLive p = true → (s.link p).up = true →
      (data.length + 4 < 64 → exec (.frameReceive p data fcsBad errored) s = .next (s.countPort p 5 1)) ∧
      (64 ≤ data.length + 4 → s.maxFrame p < data.length + 4 →
        (s.isDraining 0 p = true ∨ s.cutsThrough p (data.take (s.maxFrame p - 4)) = false →
          exec (.frameReceive p data fcsBad errored) s = .next (s.countPort p 6 1)) ∧
        (s.isDraining 0 p = false → s.cutsThrough p (data.take (s.maxFrame p - 4)) = true →
          exec (.frameReceive p data fcsBad errored) s =
            .next ((s.countPort p 6 1).takeFrame p (data.take (s.maxFrame p - 4)) true))) ∧
      (64 ≤ data.length + 4 → data.length + 4 ≤ s.maxFrame p →
        (macControl data 1 = true ∨ (bad = true ∧ macControl data 0x0101 = true) →
          Yields (.frameReceive p data fcsBad errored) s fun t =>
            t.cnt = ((s.portIn p data.length).countPort p (if bad then 4 else 7) 1).cnt ∧
            t = { s with cnt := t.cnt, eports := t.eports }) ∧
        (macControl data 1 = false → macControl data 0x0101 = true → bad = false →
          exec (.frameReceive p data fcsBad errored) s = .next (((s.portIn p data.length).bwCount p true
            data.length).pfcReceived p (beAt data 16 2 % 256) ((List.range 8).map fun k => beAt data (18 + 2 * k) 2))) ∧
        (macControl data 1 = false → macControl data 0x0101 = false → s.isDraining 0 p = true →
          Yields (.frameReceive p data fcsBad errored) s fun t =>
            t.counter (portCtr p 31) = bumpWord (s.counter (portCtr p 31)) 1 ∧
            t = { s with cnt := t.cnt, eports := t.eports }) ∧
        (macControl data 1 = false → macControl data 0x0101 = false → s.isDraining 0 p = false →
          (∀ e out cls, s.blitzEntry p (parse (s.parseCfgOf (p / 16) p none) data) = some (e, out, cls) →
            Yields (.frameReceive p data fcsBad errored) s fun t =>
              ((t.eport out).tx.map fun x => (x.fid, x.cls, x.startNs, x.blitz)) =
                some (s.nextFid, cls, s.nowNs, some data) ∧
              (t.sq (p / 16)).blitz.length = (s.sq (p / 16)).blitz.length + 1 ∧ t.nextFid = s.nextFid + 1) ∧
          (∀ u l ctx, s.blitzEntry p (parse (s.parseCfgOf (p / 16) p none) data) = none → l = s.rxLane p →
            ctx = s.preview (p / 16) s.book.epoch (parse (s.parseCfgOf (p / 16) p none) data) →
            u = (if s.joins (p / 16) l ctx then s else s.closeCell (p / 16) l) →
            (64 ≤ (u.xing (p / 16) l).length → Yields (.frameReceive p data fcsBad errored) s fun t =>
              t.counter (sqWord (p / 16) 0) = bumpWord (s.counter (sqWord (p / 16) 0)) 1 ∧ t.sqs = u.sqs ∧
              t = { s with cnt := t.cnt, eports := t.eports, sqs := t.sqs, nextFid := s.nextFid + 1
                           time := { s.time with bcStamps := t.time.bcStamps } }) ∧
            ((u.xing (p / 16) l).length < 64 →
              (∀ c ∈ (s.openCell (p / 16) l).cell :: (s.xing (p / 16) l ++
                  SMap.get (fun _ => []) (s.sq (p / 16)).backlog l), ∀ g ∈ c.segs, g.fid ≠ s.nextFid) →
              Yields (.frameReceive p data fcsBad errored) s fun t =>
                (∀ cs : List RawCell, cs = t.xing (p / 16) l ++
                    (SMap.get (fun _ => []) (t.sq (p / 16)).backlog l ++ [(t.openCell (p / 16) l).cell]) →
                  ((cs.flatMap fun c => c.segs.filter fun g => g.fid == s.nextFid).flatMap fun g => g.bytes) = data ∧
                  (∃ c ∈ cs, ∃ g ∈ c.segs, (g.hdr.map fun h => (h.fid, h.length, h.iport, h.ingressNs)) =
                    some (s.nextFid, data.length, p, s.stamp32))) ∧
                (∀ k, k ≠ p / 16 → t.sq k = s.sq k) ∧
                t = { s with cnt := t.cnt, eports := t.eports, sqs := t.sqs, nextFid := s.nextFid + 1
                             time := { s.time with bcStamps := t.time.bcStamps } })))))

/-- PACK_HOLD_EXPIRE and RECIRC_PARSE. PACK_HOLD slots after its last frame ended, an open cell closes and joins its
crossing behind the cells on their way into it (R147). The oldest recirculated frame enters the recirculation crossing
whole, in cells of its own, if the crossing has room (R76), and counts as received at its recirculation port (R377).
PFC_RECEIVE, PFC_PAUSE_EXPIRE and PFC_REFRESH. A received frame counts every priority it enables and pauses those whose
reception is enabled until their time has passed, a time of 0 ending the pause (R191). A pause ends when its time has
come. Halfway through the XOFF time a priority still in XOFF sends its frame again (R189); before, nothing happens. -/
def Obligations.CrossingsAndPauses : Prop :=
  (∀ (i l : Nat) (s : State), Up s →
     (∀ e, (s.openCell i l).endSlot = some e → e + s.packHold ≤ s.tour.slot → (s.openCell i l).cell.segs ≠ [] →
       Yields (.packHoldExpire i l) s fun t =>
         t.xing i l ++ SMap.get (fun _ => []) (t.sq i).backlog l =
           s.xing i l ++ SMap.get (fun _ => []) (s.sq i).backlog l ++ [(s.openCell i l).cell] ∧
         t.openCell i l = {} ∧ (∀ m, m ≠ l → t.xing i m = s.xing i m ∧ t.openCell i m = s.openCell i m) ∧
         (∀ k, k ≠ i → t.sq k = s.sq k) ∧ t = { s with sqs := t.sqs }) ∧
     ((s.openCell i l).endSlot = none ∨ (∃ e, (s.openCell i l).endSlot = some e ∧ s.tour.slot < e + s.packHold) →
       exec (.packHoldExpire i l) s = .next s) ∧
     (∀ f fs, (s.sq i).recirc = f :: fs → (s.xing i 4).length < 32 → Yields (.recircParse i) s fun t =>
       (t.sq i).recirc = fs ∧
       (∃ cs : List RawCell, t.xing i 4 ++ SMap.get (fun _ => []) (t.sq i).backlog 4 =
         s.xing i 4 ++ SMap.get (fun _ => []) (s.sq i).backlog 4 ++ cs ∧ ((cs.flatMap fun c => c.segs).flatMap fun g => g.bytes) = f.bytes ∧
         ∀ c ∈ cs, ∀ g ∈ c.segs, g.fid = f.hdr.fid) ∧
       t.cnt = (s.portIn (1024 + i) f.bytes.length).cnt ∧
       (∀ k, k ≠ i → t.sq k = s.sq k) ∧ t = { s with sqs := t.sqs, cnt := t.cnt }) ∧
     ((s.sq i).recirc = [] ∨ 32 ≤ (s.xing i 4).length → exec (.recircParse i) s = .next s)) ∧
  (∀ (p : Nat) (s : State), p < 1024 →
     (∀ (v : BitVec 8) (ts : List Nat), Wired s → s.portLive p = true → (s.link p).up = true →
       Yields (.pfcReceive p v ts) s fun t =>
         (∀ k < 8, t.counter (portCtr p (8 + k)) =
           if bit v.toNat k then bumpWord (s.counter (portCtr p (8 + k))) 1 else s.counter (portCtr p (8 + k))) ∧
         (∀ k < 8, SMap.get (fun _ => 0) (t.sq (p / 16)).pause (8 * (p % 16) + k) =
           if bit v.toNat k && bit (fld (s.inForce (A.pfcCfg (p / 16) (p % 16))) 31 24) k then
             (if ts.getD k 0 = 0 then 0 else s.elapsed + ts.getD k 0 * 512 * tickNs / s.carriedRate p)
           else SMap.get (fun _ => 0) (s.sq (p / 16)).pause (8 * (p % 16) + k)) ∧
         (∀ i, i ≠ p / 16 → t.sq i = s.sq i) ∧ t = { s with sqs := t.sqs, cnt := t.cnt, queues := t.queues }) ∧
     (∀ v ts, Wired s → s.portLive p = false ∨ (s.link p).up = false → exec (.pfcReceive p v ts) s = .next s) ∧
     (∀ k, Up s → s.elapsed < SMap.get (fun _ => 0) (s.sq (p / 16)).pause (8 * (p % 16) + k) →
       exec (.pfcPauseExpire p k) s = .next s) ∧
     (∀ k, Up s → SMap.get (fun _ => 0) (s.sq (p / 16)).pause (8 * (p % 16) + k) ≤ s.elapsed →
       Yields (.pfcPauseExpire p k) s fun t =>
         SMap.get (fun _ => 0) (t.sq (p / 16)).pause (8 * (p % 16) + k) = 0 ∧
         (∀ j, j ≠ 8 * (p % 16) + k → SMap.get (fun _ => 0) (t.sq (p / 16)).pause j =
           SMap.get (fun _ => 0) (s.sq (p / 16)).pause j) ∧
         t = { s with sqs := t.sqs, queues := t.queues }) ∧
     (∀ k < 8, Up s → s.inXoff p k = true → (s.link p).up = true →
       SMap.get (fun _ => 0) (s.sq (p / 16)).xoffAt (8 * (p % 16) + k) + s.quanta * 256 * tickNs / s.carriedRate p ≤ s.elapsed →
       Yields (.pfcRefresh p k) s fun t =>
         t.io = { s.io with pfc := (p, s.pfcFrame [(k, s.quanta)]) :: s.io.pfc } ∧
         t.counter (portCtr p (16 + k)) = bumpWord (s.counter (portCtr p (16 + k))) 1 ∧
         t = { s with sqs := t.sqs, cnt := t.cnt, io := t.io }) ∧
     (∀ k, Up s → s.inXoff p k = false ∨ (s.link p).up = false ∨ s.elapsed <
         SMap.get (fun _ => 0) (s.sq (p / 16)).xoffAt (8 * (p % 16) + k) + s.quanta * 256 * tickNs / s.carriedRate p →
       exec (.pfcRefresh p k) s = .next s))

/-- CELL_ENTER_CORE. The frames that start in the head cell are decided in order (R17). Where the pool then gives
every cell its segments need, the head leaves its crossing, the cells behind it keep their order, and the verdicts of
the frames that end in it go; where it does not, the head stays, decided, and NONE counts once (R175).
DEFERRED_FRAME_NUMBER and HELD_FRAME_RELEASE. Once its context is free, the oldest deferred frame's cells are numbered
in order; they are held, or, with another egress square, the ingress square holds them unannounced (R148). Once a
queue's LEVEL is below 3, the cells held for it join those that wait, in the order of their numbers (R187).
BLITZ_RECORD_LOOKUP (R163). The oldest record leaves the queue. A lookup is good only if it meets no double-bit error
and bridges the frame unmetered, on its first pass and with no exception, to the entry's port and class; it leaves the
entry as it is. Any other is a mismatch: it is counted, the entry's EN falls, and the frame still in transmission is
stomped. -/
def Obligations.CellsAtTheCore : Prop :=
  (∀ (i l : Nat) (ue : Option EccErr) (c : RawCell) (rest : List RawCell) (s : State), Up s →
     (s.xing i l = [] ∨ s.coreTurn i l = false → exec (.cellEnterCore i l ue) s = .next s) ∧
     (s.xing i l = c :: rest → s.coreTurn i l = true → ∀ u : State,
       u = (s.undecided i c).zipIdx.foldl (fun s f => s.startFrame i l f.1.1 f.1.2 (if f.2 = 0 then ue else none)) s →
       (((c.segs.foldl (routeSeg (u.sq i).verdicts) []).map fun g => (u.piecesOf i g).2.1.length).sum ≤ u.mayTake i i →
         Yields (.cellEnterCore i l ue) s fun t =>
           t.xing i l ++ SMap.get (fun _ => []) (t.sq i).backlog l =
             rest ++ SMap.get (fun _ => []) (s.sq i).backlog l ∧
           (t.sq i).verdicts = (u.sq i).verdicts.filter fun v =>
             !((c.segs.filter fun g => g.last).map fun g => g.fid).contains v.1) ∧
       (u.mayTake i i < ((c.segs.foldl (routeSeg (u.sq i).verdicts) []).map fun g => (u.piecesOf i g).2.1.length).sum →
         exec (.cellEnterCore i l ue) s = .next (u.count (sqCtr i (8 * i)) 1)))) ∧
  (∀ (i e c : Nat) (s : State), Up s →
     ((s.ctxIn i { eport := e, cls := c }).owner ≠ none ∨ (s.ctxIn i { eport := e, cls := c }).deferred = [] →
       exec (.deferredFrameNumber i e c) s = .next s) ∧
     (∀ d ds, (s.ctxIn i { eport := e, cls := c }).owner = none →
       (s.ctxIn i { eport := e, cls := c }).deferred = d :: ds → d.cells ≠ [] → Yields (.deferredFrameNumber i e c) s fun t =>
         (t.ctxIn i { eport := e, cls := c }).deferred = ds ∧
         (t.ctxIn i { eport := e, cls := c }).next = ((s.ctxIn i { eport := e, cls := c }).next + d.cells.length) % 4194304 ∧
         (t.ctxIn i { eport := e, cls := c }).owner = (if d.done then none else some d.fid) ∧
         (d.held = true → (t.sq i).waiting = (s.sq i).waiting ∧ (t.sq i).heldCells = (s.sq i).heldCells ++ d.cells) ∧
         (d.held = false → (∀ k ∈ d.cells, ∃ x, tget (s.sq i).cells k = some x ∧ s.egressOf x ≠ i) →
           (t.sq i).waiting = (s.sq i).waiting ∧ (t.sq i).heldCells = (s.sq i).heldCells ∧
           ∀ k ∈ d.cells, (tget (t.sq i).cells k).map (fun x => x.st) = some .unannounced)) ∧
     (∀ q ks, ks = (s.sq i).heldCells.filter (fun k => match tget (s.sq i).cells k with
         | some x => 16 * x.ctx.eport + x.ctx.cls == q | none => false) →
       (3 ≤ s.seenLevel i q ∨ ks = [] → exec (.heldFrameRelease i q) s = .next s) ∧
       (s.seenLevel i q < 3 → ks ≠ [] → Yields (.heldFrameRelease i q) s fun t =>
         (t.sq i).waiting = sortBy (fun k => ((tget (s.sq i).cells k).map fun x => x.num).getD 0)
           ((s.sq i).waiting ++ ks) ∧ (∀ k ∈ ks, k ∉ (t.sq i).heldCells) ∧
         ∀ k ∈ ks, (tget (t.sq i).cells k).map (fun x => x.st) = some .waiting))) ∧
  (∀ (i : Nat) (s : State), Up s →
     ((s.sq i).blitz = [] → ∀ ue, exec (.blitzRecordLookup i ue) s = .next s) ∧
     (∀ b bs x (r : State × Decision × Bool), (s.sq i).blitz = b :: bs →
       r = (s.modSq i fun q => { q with blitz := bs }).blitzLook i b x →
       (r.2.2 = true → (∀ h, x = some h → h.double = false) ∧ r.2.1.metered = false ∧ r.2.1.second = none ∧
         r.2.1.raised = none ∧ r.2.1.main.map (fun m => m.1) = some { eport := b.eport, cls := b.hdr.cls }) ∧
       (r.2.2 = true → Yields (.blitzRecordLookup i x) s fun t =>
         (t.sq i).blitz = bs ∧ (b.done = none → t.reg (A.blitzAct i b.entry) = r.1.reg (A.blitzAct i b.entry)) ∧
         t.inForce (A.blitzAct i b.entry) = r.1.inForce (A.blitzAct i b.entry)) ∧
       (r.2.2 = false → Yields (.blitzRecordLookup i x) s fun t =>
         (t.sq i).blitz = bs ∧
         (b.eport ≤ 1090 → b.hdr.cls < 16 → t.counter (sqWord i 11) = bumpWord (r.1.counter (sqWord i 11)) 1) ∧
         t.inForce (A.blitzAct i b.entry) = putFld (r.1.inForce (A.blitzAct i b.entry)) 31 31 0 ∧
         (∀ y, b.done = none → (r.1.eport b.eport).tx = some y → y.fid = b.hdr.fid →
           (t.eport b.eport).tx.map (fun z => z.stomp) = some (some (y.stomp.getD 4))))))

/-! ### The mesh (R133 to R155, R166 to R200, R308 to R334) -/

/-- SLOT_RELEASE, SLOT_COMPLETE and SLOT_STALL_TIMEOUT. A slot is released where the channels have a majority: it is
the last one released, its time is kept, failed holds start over, and the active squares that stall are the unfinished
ones. With no majority a hold is asked for (R310). A released slot with no unfinished square completes, but during no
hold: the number advances, every rotation pointer moves, and every 64th ends a period (R140, R174); a slot later than
the paced time of the next records the active square that completed last (R166). Squares that stall too long are fenced
(R167). -/
def Obligations.SlotCycle : Prop :=
  ∀ (d0 d1 d2 : Nat) (stalled : List Nat) (bad mem : List (Nat × Nat)) (s : State), Up s →
    (s.mayRelease = false → exec (.slotRelease d0 d1 d2 stalled bad mem) s = .next s) ∧
    (s.mayRelease = true → s.majority (fun c => if c = 0 then d0 else if c = 1 then d1 else d2) = none →
      exec (.slotRelease d0 d1 d2 stalled bad mem) s = .next (s.noMajority .slot)) ∧
    (∀ w, s.mayRelease = true → s.majority (fun c => if c = 0 then d0 else if c = 1 then d1 else d2) = some w →
      Yields (.slotRelease d0 d1 d2 stalled bad mem) s fun t =>
        t.tour.released = true ∧ t.tour.lastReleased = s.tour.slot ∧ t.tour.slot = s.tour.slot ∧
        t.tour.releasedAt = s.elapsed ∧ t.triad.failedHolds = 0 ∧
        t.tour.unfinished = (stalled.filter s.inSlot.contains).foldl (fun m i => setBit m i true) 0) ∧
    (∀ last, s.tour.released = true → s.tour.unfinished = 0 → s.triad.hold = none → Yields (.slotComplete last) s fun t =>
      t.tour = { s.tour with released := false, slot := (s.tour.slot + 1) % 2 ^ 64
                             boundary := decide ((s.tour.slot + 1) % 64 = 0) } ∧
      (∀ i < 64, (t.sq i).rotP = ((s.sq i).rotP + 1) % 66) ∧ t.red.svcRotP = (s.red.svcRotP + 1) % 6 ∧
      (s.slotLate = true → s.inSlot.contains last = true → (t.sq last).lastRecorded = true) ∧
      (∀ i, s.slotLate = false ∨ i ≠ last → (t.sq i).lastRecorded = (s.sq i).lastRecorded) ∧
      t = { s with tour := t.tour, sqs := t.sqs, red := { s.red with svcRotP := t.red.svcRotP }
                   power := { s.power with vsq := t.power.vsq } }) ∧
    (∀ last, s.tour.released = false ∨ s.tour.unfinished ≠ 0 ∨ s.triad.hold.isSome = true →
      exec (.slotComplete last) s = .next s) ∧
    (s.tour.released = true → s.tour.unfinished ≠ 0 → s.tour.releasedAt + s.stallTime ≤ s.elapsed →
      Yields .slotStallTimeout s fun t => t.tour.unfinished = 0 ∧ t.tour.released = true ∧ t.tour.slot = s.tour.slot ∧
        ∀ i < 64, bit s.tour.unfinished i = true → (t.sq i).fenced = true) ∧
    (s.tour.released = false ∨ s.tour.unfinished = 0 ∨ s.elapsed < s.tour.releasedAt + s.stallTime →
      exec .slotStallTimeout s = .next s)

/-- TOUR_PERIOD_BOUNDARY. With no boundary due, a hold, or the Triad lost, nothing happens. Else the period ends: no
square is fenced any more (R167), no rejoin waits, and, where no turn is due, the squares of X that do not rejoin are
excluded from here on (R145, R169); a live channel that was fenced acts again if the re-seed succeeds (R308), no phase
waits (R334), and, with neither a turn nor a phase to come into force, a paced tempo above its target falls towards it
by at most 2 % (R331). MESH_START (R133, R145). Before the mesh runs, a turn that is due swaps; one that names volume
10 starts the mesh at slot 0 with the paced tempo at its target. With the mesh running, or no turn due, nothing
happens. -/
def Obligations.PeriodsAndTheStart : Prop :=
  (∀ (bad : List Nat) (s : State), Up s →
     (s.tour.boundary = false ∨ s.triad.hold.isSome = true ∨ s.triad.lost = true →
       exec (.tourPeriodBoundary bad) s = .next s) ∧
     (s.tour.boundary = true → s.triad.hold = none → s.triad.lost = false → Yields (.tourPeriodBoundary bad) s fun t =>
       t.tour.boundary = false ∧ t.tour.rejoin = 0 ∧ t.tour.slot = s.tour.slot ∧ t.power.pending = [] ∧
       t.buf.gf = t.gfNow ∧ (∀ i < 64, (t.sq i).fenced = false ∧ (t.sq i).lastRecorded = false) ∧
       (s.turnDue = false → s.xChanges = false → t.tour.xInForce = s.tour.x) ∧
       (∀ i, s.turnDue = false → bit s.tour.x i = true → bit s.tour.rejoin i = false → bit t.tour.xInForce i = true) ∧
       (bad = [] → ∀ c < 3, (s.chn c).failed = false → (s.chn c).outvoted = false → (t.chn c).act = true) ∧
       (s.turnDue = false → s.power.pending = [] → s.freeRun = false → s.targetTempo ≤ s.power.tempo →
         t.power.tempo = max s.targetTempo (cdiv (98 * s.power.tempo) 100)))) ∧
  (∀ s : State, Up s →
     (s.tour.running = true ∨ s.turnDue = false → exec .meshStart s = .next s) ∧
     (∀ x, s.tour.running = false → s.turnDue = true → s.book.turn = some x → Yields .meshStart s fun t =>
       t.book.epoch = x.epoch ∧ t.book.turn = none ∧ t.book.turned = true ∧
       t.tour.running = bit x.mask 10 ∧
       (bit x.mask 10 = true → t.tour.slot = 0 ∧ t.tour.released = false ∧ t.tour.boundary = false ∧
         t.power.tempo = t.power.lastTarget ∧ t.buf.gf = t.gfNow)))

/-- Reservations, gaps, accounts, claims, the old epoch and RECOVERY. A reservation older than MAX_GAP slots ends
(R150). At the fourth boundary the lowest parked cell of a context leaves the parked ones, to which nothing is added
(R155). A square's view takes the free count, or a queue's LEVEL and VICTIM bit (R180). The first claim by
(ingress square − P) mod 64 is served, once; one whose queue's newest frame cannot be captured is counted (R193). The
old epoch retires with its event (R134); RECOVERY's end waits for the boundary, where no change that a command asked
for waits before it (R183). What is not due changes nothing. -/
def Obligations.MeshHousekeeping : Prop :=
  (∀ (i k : Nat) (c : Cell) (s : State), Up s → tget (s.sq i).cells k = some c → Yields (.directReserveExpire i k) s fun t =>
    tget (t.sq i).cells k = some { c with
      reserved := c.reserved && !(c.st == .waiting && decide (c.numSlot + s.maxGap ≤ s.tour.slot)) } ∧
    (∀ j, j ≠ k → tget (t.sq i).cells j = tget (s.sq i).cells j) ∧ t = { s with sqs := t.sqs }) ∧
  (∀ (e isq p c : Nat) (s : State), Up s →
    ((s.ctxOut e (reseqKey isq { eport := p, cls := c })).gapCount < 4 → exec (.gapDeclare e isq p c) s = .next s) ∧
    (∀ m, 4 ≤ (s.ctxOut e (reseqKey isq { eport := p, cls := c })).gapCount →
      (s.ctxOut e (reseqKey isq { eport := p, cls := c })).lowest = some m → Yields (.gapDeclare e isq p c) s fun t =>
        (∀ x ∈ (t.ctxOut e (reseqKey isq { eport := p, cls := c })).parked, x.seq ≠ m.seq ∧
          x ∈ (s.ctxOut e (reseqKey isq { eport := p, cls := c })).parked))) ∧
  (∀ (j : Nat) (s : State), Up s →
    (Yields (.accountUpdate j none) s fun t => t.buf = { s.buf with gf := s.gfNow } ∧
      t.sq j = { s.sq j with viewGf := s.gfNow } ∧ (∀ i, i ≠ j → t.sq i = s.sq i) ∧
      t = { s with sqs := t.sqs, buf := t.buf }) ∧
    (∀ q, Yields (.accountUpdate j (some q)) s fun t => t.seenLevel j q = s.level q ∧
      SMap.get (fun _ => false) (t.sq j).viewVictim q = (s.queue q).victim ∧
      (∀ n, n ≠ q → t.seenLevel j n = s.seenLevel j n) ∧ (∀ i, i ≠ j → t.sq i = s.sq i) ∧ t = { s with sqs := t.sqs })) ∧
  (∀ (e : Nat) (s : State), Up s →
    ((s.sq e).claims = [] → exec (.captureClaim e) s = .next s) ∧
    (∀ c cs, sortBy (fun x => (x.from_ + 128 - (s.sq e).rotP) % 64) (s.sq e).claims = c :: cs →
      (Yields (.captureClaim e) s fun t => (t.sq e).claims = (s.sq e).claims.erase c) ∧
      ((∀ f, (s.queue c.queue).frames.getLast? = some f → f.eligible = false) → exec (.captureClaim e) s =
        .next ((s.modSq e fun q => { q with claims := q.claims.erase c }).count (queueCtr c.queue 15) 1)))) ∧
  (∀ s : State, Up s →
    (s.book.old = none → exec .epochRetire s = .next s) ∧
    (∀ x, s.book.old = some x → 0 < s.waitSecond x.epoch → s.elapsed < x.swapAt + usT 100 →
      exec .epochRetire s = .next s) ∧
    (∀ x, s.book.old = some x → s.waitSecond x.epoch = 0 ∨ x.swapAt + usT 100 ≤ s.elapsed →
      exec .epochRetire s = .next (({ s with book := { s.book with
        old := none, oldMap := [], lastOld := x.epoch, policyFrom := s.book.policyFrom.map fun _ => 256 } }).post 2 0
          s.book.epoch (leBytes 2 x.mask ++ leBytes 2 0 ++ leBytes 4 (s.waitSecond x.epoch)))) ∧
    (s.buf.state = 3 → s.buf.recovEnd ≤ s.elapsed → s.buf.pending = [] →
      exec .bufRecoveryEnd s = .next { s with buf := { s.buf with recovDue := true } }) ∧
    (s.buf.state ≠ 3 ∨ s.elapsed < s.buf.recovEnd ∨ s.buf.pending ≠ [] → exec .bufRecoveryEnd s = .next s))

/-! ### The egress (R158 to R160, R207 to R227, R382, R389) -/

/-- EGRESS_SELECT, FRAME_TRANSMIT_START and FRAME_TRANSMIT_END. A port that may select takes the batch of the queue it
picks, after the ones it had: its frames are marked selected, none that the port did not pick joins, and under WFQ V takes
the queue's tag (R209). A port whose first selected frame is ready, with its gate open and its priority not paused, starts
it: the frame carries its start, its stamp and the rewrite read for it (R160, R262); else nothing happens. At its end the
frame leaves its queue and the port is free; at a front-panel port its bytes, with its verdict as the FCS, go on the wire
(R158, R377).
-/
def Obligations.FramesLeave : Prop :=
  ∀ (p : Nat) (s : State), Up s →
    (∀ u, u = ((List.range 16).map (16 * p + ·)).foldl State.tagQueue s →
      (u.maySelect p = false ∨ u.pickQueue p = none → exec (.egressSelect p) s = .next u) ∧
      (∀ q, u.maySelect p = true → u.pickQueue p = some q → Yields (.egressSelect p) s fun t =>
        (t.eport p).selected.Sublist ((u.eport p).selected ++ (u.queue q).batch.map fun f => f.fid) ∧
        (t.eport p).v = (if queueStrict u.book.current q then (u.eport p).v else (u.queue q).tag.getD 0) ∧
        ∀ f ∈ (t.queue q).frames, (u.queue q).batch.any (fun g => g.fid == f.fid) = true → f.selected = true)) ∧
    ((s.eport p).tx ≠ none ∨ (s.eport p).selected = [] → exec (.frameTransmitStart p) s = .next s) ∧
    (∀ fid ids q f, (s.eport p).tx = none → (s.eport p).selected = fid :: ids → s.frameAt p fid = some (q, f) →
      (s.reachable p = true → s.ready (s.queueSquare p) p f = true → s.gateOpen p (q % 16) = true →
        s.paused p (q % 16) = false → s.recircRoom p f = true → Yields (.frameTransmitStart p) s fun t =>
          ((t.eport p).tx.map fun x => (x.fid, x.cls, x.startNs, x.startAt, x.stamp, x.rw)) =
            some (fid, q % 16, s.nowNs, s.elapsed, if p < 1024 then s.txStamp p fid else s.now,
              (s.readRewrite (s.queueSquare p) f).2) ∧
          fid ∉ (t.eport p).selected) ∧
      (s.reachable p = false ∨ s.ready (s.queueSquare p) p f = false ∨ s.gateOpen p (q % 16) = false ∨
        s.paused p (q % 16) = true ∨ s.recircRoom p f = false → exec (.frameTransmitStart p) s = .next s)) ∧
    ((s.eport p).tx = none → exec (.frameTransmitEnd p) s = .next s) ∧
    (∀ x, (s.eport p).tx = some x → Yields (.frameTransmitEnd p) s fun t =>
      (t.eport p).tx = none ∧ (∀ f ∈ (t.queue (16 * p + x.cls)).frames, f.fid ≠ x.fid) ∧
      (p < 1024 → t.io.wire = {
        port := p, bytes := (s.addTrailer p x (s.finalBytes (s.queueSquare p) p x).1).2
        fcs := b2n (s.finalBytes (s.queueSquare p) p x).2.isSome, startNs := x.startNs } :: s.io.wire))

/-- Gate lists, depth samples, bandwidth windows and postcards. A list that has loaded waits for its start, one that
R225 turns away is logged and list 0 ends gating (R224); at its start it is operational (R226). Each of these judges the
frame in transmission by the lists it ran under (R223) and leaves every queue of the port tagged as its eligibility now
says (R209), which an entry's change does too. At the end of its period QSAMP_PERIOD latches its register and, enabled on
an active square, records every depth (R227). At a multiple of the window BW_WINDOW_END shows each port's counts, with
that multiple, and starts a window (R382). 10 µs after its first record a collector frame of at most 8 is closed (R389).
-/
def Obligations.GatesAndWindows : Prop :=
  ∀ (p : Nat) (s : State), Up s →
    ((s.eport p).loadGate = none → exec (.gclLoadComplete p) s = .next s) ∧
    ((s.eport p).loadGate = some 0 → Yields (.gclLoadComplete p) s fun t =>
      t.eport p = { s.eport p with
        loadGate := none, gate := none, pendGate := none, gateEntry := 0
        tx := (s.eport p).tx.map fun x => { x with overrun := s.overran p x, gateFrom := s.nowNs } } ∧
      (∀ c < 16, (t.queue (16 * p + c)).tag = t.tagFor (16 * p + c)) ∧
      (∀ q, t.queue q = { s.queue q with tag := (t.queue q).tag }) ∧ (∀ k, k ≠ p → t.eport k = s.eport k) ∧
      t = { s with eports := t.eports, queues := t.queues }) ∧
    (∀ n, (s.eport p).loadGate = some n → n ≠ 0 →
      (gclCode s.book.current (4096 * mapSize s.book.map 9) n ≠ 0 → exec (.gclLoadComplete p) s =
        .next ((s.modEport p fun e => { e with loadGate := none }).logReg (A.egrStat (p / 16)) (p % 16 * 2 ^ 24 +
          gclCode s.book.current (4096 * mapSize s.book.map 9) n * 2 ^ 16 + n))) ∧
      (gclCode s.book.current (4096 * mapSize s.book.map 9) n = 0 → Yields (.gclLoadComplete p) s fun t =>
        t.eport p = { s.eport p with
          loadGate := none
          pendGate := if (s.eport p).gate.any (fun g => sameGates g (gclRead s.book.current n)) then none
            else some (gclRead s.book.current n, gateStart (gclRead s.book.current n) s.nowNs)
          tx := (s.eport p).tx.map fun x => { x with overrun := s.overran p x, gateFrom := s.nowNs } } ∧
        (∀ c < 16, (t.queue (16 * p + c)).tag = t.tagFor (16 * p + c)) ∧
        (∀ q, t.queue q = { s.queue q with tag := (t.queue q).tag }) ∧ (∀ k, k ≠ p → t.eport k = s.eport k) ∧
        t = { s with eports := t.eports, queues := t.queues })) ∧
    ((s.eport p).pendGate = none → exec (.gclStart p) s = .next s) ∧
    (∀ g st, (s.eport p).pendGate = some (g, st) →
      (st ≤ s.nowNs → Yields (.gclStart p) s fun t =>
        t.eport p = { s.eport p with
          gate := some g, pendGate := none, gateEntry := g.entryAt s.nowNs
          tx := (s.eport p).tx.map fun x => { x with overrun := s.overran p x, gateFrom := s.nowNs } } ∧
        (∀ c < 16, (t.queue (16 * p + c)).tag = t.tagFor (16 * p + c)) ∧
        (∀ q, t.queue q = { s.queue q with tag := (t.queue q).tag }) ∧ (∀ k, k ≠ p → t.eport k = s.eport k) ∧
        t = { s with eports := t.eports, queues := t.queues }) ∧
      (s.nowNs < st → exec (.gclStart p) s = .next s)) ∧
    (∀ g, (s.eport p).gate = some g → Yields (.gateEntryChange p) s fun t =>
      t.eport p = { s.eport p with gateEntry := g.entryAt s.nowNs } ∧
      (∀ c < 16, (t.queue (16 * p + c)).tag = t.tagFor (16 * p + c)) ∧
      (∀ q, t.queue q = { s.queue q with tag := (t.queue q).tag }) ∧ (∀ k, k ≠ p → t.eport k = s.eport k) ∧
      t = { s with eports := t.eports, queues := t.queues }) ∧
    ((s.eport p).gate = none → exec (.gateEntryChange p) s = .next s) ∧
    (∀ i, (s.elapsed < (s.sq i).qsampAt + s.qsampPeriod i → exec (.qsampPeriod i) s = .next s) ∧
      ((s.sq i).qsampAt + s.qsampPeriod i ≤ s.elapsed → Yields (.qsampPeriod i) s fun t =>
        t.inForce (A.qsampCfg i) = s.reg (A.qsampCfg i) ∧ t.sq i = { s.sq i with qsampAt := s.elapsed } ∧
        (∀ q, t.queue q =
          if rbit (s.reg (A.qsampCfg i)) 16 && s.sqActive i && s.queueSquare (q / 16) == i
          then { s.queue q with depthNow := (s.queue q).depth } else s.queue q) ∧
        (∀ k, k ≠ i → t.sq k = s.sq k) ∧ t = { s with force := t.force, queues := t.queues, sqs := t.sqs })) ∧
    (s.time.bwWin = s.nowNs / s.bwLen → exec .bwWindowEnd s = .next s) ∧
    (s.time.bwWin ≠ s.nowNs / s.bwLen → Yields .bwWindowEnd s fun t =>
      (∀ k < 1024, s.portExists k = true →
        t.counter (portCtr k 56) = (s.eport k).bwRx ∧ t.counter (portCtr k 57) = (s.eport k).bwTx ∧
        t.counter (portCtr k 58) = max (s.counter (portCtr k 58)) (s.eport k).bwRx ∧
        t.counter (portCtr k 59) = max (s.counter (portCtr k 59)) (s.eport k).bwTx ∧
        t.counter (portCtr k 60) = s.nowNs / s.bwLen * s.bwLen ∧
        t.eport k = { s.eport k with bwRx := 0, bwTx := 0 }) ∧
      t.inForce A.cntBwCfg = s.reg A.cntBwCfg ∧
      t = { s with
        cnt := t.cnt, eports := t.eports, force := t.force
        time := { s.time with bwWin := s.nowNs / (1000 * clip 1 1000000 (fld (s.reg A.cntBwCfg) 19 0)) } }) ∧
    (∀ i, (s.sq i).postcards = [] → exec (.postcardFrameClose i) s = .next s) ∧
    (∀ i x xs, (s.sq i).postcards = x :: xs →
      (s.elapsed < x.at_ + usT 10 → exec (.postcardFrameClose i) s = .next s) ∧
      (x.at_ + usT 10 ≤ s.elapsed → Yields (.postcardFrameClose i) s fun t =>
        (t.sq i).postcards = xs.drop 7 ∧ (t.nextFid = s.nextFid ∨ t.nextFid = s.nextFid + 1)))

/-- A gate list with COUNT 0 or above 256, a CYCLE below 1,000, a misaligned ENTRY_OFF, or entries beyond the volume's
SIZE is not loaded (R225): the operational list goes on, as does one that waits, and EGR_STAT holds a
valid record, of this port and list where it held none. -/
def Obligations.BadGateListIsRefused : Prop :=
  ∀ (p n base cycle count off : Nat) (s : State), Up s → (s.eport p).loadGate = some n → n ≠ 0 → n < 1024 →
    gclHeader s.book.current n = (base, cycle, count, off) →
    count = 0 ∨ 256 < count ∨ cycle < 1000 ∨ off % 8 ≠ 0 ∨ 4096 * mapSize s.book.map 9 < off + 8 * count →
    Yields (.gclLoadComplete p) s fun t =>
      t.eport p = { s.eport p with loadGate := none } ∧ rbit (t.reg (A.egrStat (p / 16))) 31 = true ∧
      (rbit (s.reg (A.egrStat (p / 16))) 31 = false → fld (t.reg (A.egrStat (p / 16))) 27 24 = p % 16 ∧
        fld (t.reg (A.egrStat (p / 16))) 15 0 = n) ∧
      (rbit (s.reg (A.egrStat (p / 16))) 31 = true → t.regs = s.regs) ∧ t = { s with eports := t.eports, regs := t.regs }

/-! ### Reduction (R241 to R251, R334) -/

/-- RED_FRAME_DELIVER and RED_ROUTINE_RUN. A delivered frame joins its channel's queue with a buffer, or is dropped and
counted; one that is no reduction frame is discarded (R241). On a running engine a routine then runs, and input of an
urgent channel abandons the routine of another one that has been abandoned fewer than PREEMPT_MAX times (R251). A routine
commits and its descriptor goes: one with a wrong length is counted, as is one of a wrong sender; a first contribution
opens its slot with its own bit, T0 and the widened payload; a further one combines, element by element, into the
accumulator and sets its bit; the last one makes the slot DONE, or UP where the channel has a parent (R244, R245, R247,
R248). One that meets an uncorrectable accumulator frees the slot and stays queued (R251). A timeout that is due goes
before the channel's frames, which stay. The counter clauses are for an engine whose output stage is empty. -/
def Obligations.ReductionRoutines : Prop :=
  ∀ (e : Nat) (s : State), Up s →
    (takeFirst (fun (f : WholeFrame) => !f.hdr.bc) s.red.inbox = none → exec .redFrameDeliver s = .next s) ∧
    (∀ f rest, takeFirst (fun (f : WholeFrame) => !f.hdr.bc) s.red.inbox = some (f, rest) → f.hdr.red.isSome = false →
      exec .redFrameDeliver s = .next { s with red := { s.red with inbox := rest } }) ∧
    (∀ f rest c n u, takeFirst (fun (f : WholeFrame) => !f.hdr.bc) s.red.inbox = some (f, rest) → f.hdr.red.isSome = true →
      c = beAt f.bytes ((redAt f).2 + 2) 2 % 512 → n = beAt f.bytes ((redAt f).2 + 12) 2 →
      u = ({ s with red := { s.red with inbox := rest } }).count (chanCtr c 0) 1 →
      (∀ key, s.isOn 3 c = true → s.isOn 4 (engineOf c) = true → (s.chan c).inq.length < s.inqMax →
        s.engineDescs (engineOf c) < 1024 → (u.svcTake (engineOf c) n).2 = some key → Yields .redFrameDeliver s fun t =>
          t.red.inbox = rest ∧ (t.chan c).inq = (s.chan c).inq ++ [redDesc f key] ∧
          tget t.red.svc key = some (engineOf c) ∧ t = { s with red := t.red, cnt := t.cnt } ∧
          (s.engineRuns (engineOf c) = true → (t.engine (engineOf c)).running.isSome = true) ∧
          (∀ k, s.engineRuns (engineOf c) = true → (s.engine (engineOf c)).running = some k → s.urgent c = true →
            s.urgent k = false → (s.chan k).abandons < s.preemptMax →
            (∀ j, j ≠ c → s.urgent j = true → (s.chan j).ready = false) →
            (t.engine (engineOf c)).running = some c ∧
            t.chan k = { s.chan k with abandons := (s.chan k).abandons + 1 })) ∧
      (s.isOn 3 c = false ∨ s.isOn 4 (engineOf c) = false ∨ s.inqMax ≤ (s.chan c).inq.length ∨
          1024 ≤ s.engineDescs (engineOf c) ∨ (u.svcTake (engineOf c) n).2 = none →
        exec .redFrameDeliver s = .next (u.count (chanCtr c 1) 1))) ∧
    (s.engineRuns e = false ∨ s.nextRoutine e = none → ∀ b, exec (.redRoutineRun e b) s = .next s) ∧
    (∀ c i ds x, s.engineRuns e = true → s.nextRoutine e = some c → (s.chan c).due = i :: ds →
      Yields (.redRoutineRun e x) s fun t => (t.chan c).due = ds ∧ (t.chan c).inq = (s.chan c).inq ∧
        (∀ j, j ≠ i → t.redSlot c j = s.redSlot c j) ∧
        (s.timedOut c i = false → t.redSlot c i = s.redSlot c i)) ∧
    (∀ c x, s.engineRuns e = true → s.nextRoutine e = some c → (s.chan c).due = [] → (s.chan c).inq = [] →
      exec (.redRoutineRun e x) s = .next (s.modEngine e fun y => { y with running := none })) ∧
    (∀ c d ds i sl b k, s.engineRuns e = true → s.nextRoutine e = some c → (s.chan c).due = [] →
      (s.chan c).inq = d :: ds → i = beAt d.hdr 8 4 % (s.chan c).window → sl = s.redSlot c i → b = beAt d.hdr 14 1 →
      k = (beAt d.hdr 4 4, beAt d.hdr 8 4) →
      (d.udpLen ≠ 40 + beAt d.hdr 12 2 → ∀ x, Yields (.redRoutineRun e x) s fun t =>
        (t.chan c).inq = ds ∧ (t.chan c).slots = (s.chan c).slots ∧
        ((s.engine e).out = [] → t.counter (chanCtr c 2) = bumpWord (s.counter (chanCtr c 2)) 1)) ∧
      (d.udpLen = 40 + beAt d.hdr 12 2 → beAt d.hdr 0 1 % 16 = 0 → s.senderOk c d = false → ∀ x,
        Yields (.redRoutineRun e x) s fun t => (t.chan c).inq = ds ∧ (t.chan c).slots = (s.chan c).slots ∧
          ((s.engine e).out = [] → t.counter (chanCtr c 3) = bumpWord (s.counter (chanCtr c 3)) 1)) ∧
      (d.udpLen = 40 + beAt d.hdr 12 2 → beAt d.hdr 0 1 % 16 = 0 → s.senderOk c d = true →
        (∀ x, sl.state = 0 ∨ (sl.state = 3 ∧ keyAfter k sl.key = true) → Yields (.redRoutineRun e x) s fun t =>
          (t.chan c).inq = ds ∧ (t.redSlot c i).bitmap = 2 ^ b ∧ (t.redSlot c i).key = k ∧
          (t.redSlot c i).len = beAt d.hdr 12 2 ∧ (t.redSlot c i).t0 = s.nowUs32 ∧
          (t.redSlot c i).value = widenAll (s.chan c).dtype d.payload ∧
          (t.redSlot c i).state =
            (if 2 ^ b ≠ allBits (s.chan c).ncontrib then 1 else if bit (s.chanWord c 0) 53 then 2 else 3) ∧
          (∀ j, j ≠ i → t.redSlot c j = s.redSlot c j)) ∧
        (sl.state = 1 → sl.key = k → sl.len = beAt d.hdr 12 2 → bit sl.bitmap b = false →
          (Yields (.redRoutineRun e false) s fun t =>
            (t.chan c).inq = ds ∧ (t.redSlot c i).bitmap = setBit sl.bitmap b true ∧ (t.redSlot c i).key = k ∧
            (t.redSlot c i).value = (sl.value.zip (widenAll (s.chan c).dtype d.payload)).map (fun p =>
              combine (s.chan c).op (s.chan c).dtype p.1 p.2) ∧
            (t.redSlot c i).state = (if setBit sl.bitmap b true ≠ allBits (s.chan c).ncontrib then 1
              else if bit (s.chanWord c 0) 53 then 2 else 3) ∧
            (∀ j, j ≠ i → t.redSlot c j = s.redSlot c j)) ∧
          (Yields (.redRoutineRun e true) s fun t => (t.chan c).inq = d :: ds ∧ t.redSlot c i = {} ∧
            (t.engine e).running = some c))))

/-- RED_SLOT_TIMEOUT, RED_CSTORE_ERROR and ENGINE_POWER_UP. A slot whose time has passed is input of its channel: behind
another channel's routine it waits (R242); where nothing else has input it is freed with aborts or, with PARTIAL,
completed as it is, unless its accumulator is uncorrectable, which frees it too (R250, R251). A control-store error
reloads the word and raises source 17, and the routine in progress stays, to restart (R251). An engine with its RED_PWR
bit is powered, with event 0x43, and comes back if a phase had disabled it (R334). -/
def Obligations.ReductionEngines : Prop :=
  ∀ s : State, Up s →
    (∀ c i b, s.engineRuns (engineOf c) = false ∨ s.isOff 3 c = true ∨ s.timedOut c i = false ∨
      (s.chan c).due.contains i = true → exec (.redSlotTimeout c i b) s = .next s) ∧
    (∀ c i, s.engineRuns (engineOf c) = true → s.isOff 3 c = false →
      (s.redSlot c i).state = 1 ∨ (s.redSlot c i).state = 2 → s.chanTimeout c ≤ s.sinceUs (s.redSlot c i).t0 →
      (∀ k b, (s.chan c).due.contains i = false → (s.engine (engineOf c)).running = some k → k ≠ c → s.urgent c = false →
        Yields (.redSlotTimeout c i b) s fun t => (t.chan c).due = (s.chan c).due ++ [i] ∧
          t.redSlot c i = s.redSlot c i ∧ (t.engine (engineOf c)).running = some k) ∧
      ((s.chan c).due = [] → (∀ k, k ≠ c → (s.chan k).ready = false) →
        (s.engine (engineOf c)).running = none ∨ (s.engine (engineOf c)).running = some c →
        ((s.redSlot c i).state = 1 → bit (s.chanWord c 0) 52 = true →
          (Yields (.redSlotTimeout c i false) s fun t =>
            (t.redSlot c i).state = (if bit (s.chanWord c 0) 53 then 2 else 3) ∧ (t.redSlot c i).partial_ = true ∧
            (t.redSlot c i).bitmap = (s.redSlot c i).bitmap ∧ (t.redSlot c i).value = (s.redSlot c i).value ∧
            (t.chan c).due = [] ∧ (t.chan c).inq = (s.chan c).inq) ∧
          (Yields (.redSlotTimeout c i true) s fun t => t.redSlot c i = {} ∧ (t.chan c).due = [])) ∧
        (∀ b, (s.redSlot c i).state = 2 ∨ bit (s.chanWord c 0) 52 = false →
          Yields (.redSlotTimeout c i b) s fun t => t.redSlot c i = {} ∧ (t.chan c).due = [] ∧
            (t.chan c).inq = (s.chan c).inq))) ∧
    (∀ e w, s.red.ver = 0 ∨ (s.engine e).powered = false → exec (.redCstoreError e w) s = .next s) ∧
    (∀ e w u, s.red.ver ≠ 0 → (s.engine e).powered = true →
      u = (s.modEngine e fun x => { x with cstore := x.cstore.set w (s.red.patch.getD w 0) }).faultEvent 17 0 w →
      (u.engineRuns e = false ∨ u.nextRoutine e = none → exec (.redCstoreError e w) s = .next u) ∧
      (∀ c, u.engineRuns e = true → u.nextRoutine e = some c → Yields (.redCstoreError e w) s fun t =>
        (t.engine e).running = some c ∧ (t.engine e).out = [] ∧
        t.chan c = { u.chan c with abandons := (u.chan c).abandons + 1 } ∧ t = { u with red := t.red })) ∧
    (∀ e, bit s.power.cur.redPwr e = false ∨ s.isOff 4 e = false → exec (.enginePowerUp e) s = .next s) ∧
    (∀ e, bit s.power.cur.redPwr e = true → s.isOff 4 e = true →
      ((s.engine e).powered = false → (s.fn 4 e).byPhase = false → exec (.enginePowerUp e) s =
        .next ((s.modEngine e fun x => { x with powered := true }).post 0x43 1 e [])) ∧
      ((s.engine e).powered = true → (s.fn 4 e).byPhase = false → exec (.enginePowerUp e) s = .next s) ∧
      ((s.fn 4 e).byPhase = true → Yields (.enginePowerUp e) s fun t =>
        t.isOn 4 e = true ∧ (t.engine e).powered = true))

/-! ### The Triad and the fault unit (R305 to R325, R364) -/

/-- The store vote (R305, R306), with three channels voting that have presented nothing further: the first value waits,
the second equal one is issued, and the third equal one ends the store, so that the next number is due; a third that
differs is outvoted. A further store of a channel waits its turn; a failed channel's is compared with the last one issued
(R312). At the end of the window a store that has been issued goes on without the silent voter, which is outvoted; one
that has not been issued is a store hold (R310). HOLD_END (R310, R311, R427). A hold taken as a reaction ends, and nothing
else. After a hold for want of a majority every live channel acts again; with a majority on the retry the mesh, or the
cores, go on; without one another hold follows, counted, for a store from the last checkpoint on, or, after RETRY_MAX
failed ones, the Triad is lost. -/
def Obligations.StoreVoteAndHolds : Prop :=
  ((∀ (c : Nat) (a d : W64) (b : BitVec 8) (s : State), Up s → c < 3 →
     (s.triad.lost = true ∨ s.triad.hold = some .store → exec (.coreStoreVote c a d b) s = .next s) ∧
     (s.triad.lost = false → s.triad.hold ≠ some .store →
       ((s.chn c).presented ≠ none → exec (.coreStoreVote c a d b) s = .next
         (if (s.chn c).failed || (s.chn c).act
          then s.modChn c fun x => { x with later := x.later ++ [{ addr := a, data := d, be := b }] } else s)) ∧
       ((s.chn c).presented = none → (s.chn c).failed = false → (s.chn c).act = false →
         exec (.coreStoreVote c a d b) s = .next s) ∧
       ((s.chn c).presented = none → (s.chn c).failed = true → s.triad.storeWait = false →
         exec (.coreStoreVote c a d b) s = .next
           (if s.triad.lastStore.any (fun w => w ≠ { addr := a, data := d, be := b }) then s.faultEvent c 2 c else s))) ∧
     (s.triad.lost = false → s.triad.hold = none → s.triad.simplex = false → (s.chn c).presented = none →
       (∀ k < 3, (s.chn k).failed = false ∧ (s.chn k).act = true ∧ (s.chn k).later = []) →
       ((∀ k < 3, (s.chn k).presented = none) → s.triad.issued = none → Yields (.coreStoreVote c a d b) s fun t =>
         (t.chn c).presented = some { addr := a, data := d, be := b } ∧ t.triad.issued = none ∧
         t.triad.storeNo = s.triad.storeNo ∧ t.triad.storeAt = s.elapsed ∧ t.triad.storeWait = true) ∧
       (∀ k < 3, k ≠ c → (s.chn k).presented = some { addr := a, data := d, be := b } → s.triad.issued = none →
         (∀ m < 3, m ≠ k → (s.chn m).presented = none) → Yields (.coreStoreVote c a d b) s fun t =>
           t.triad.issued = some { addr := a, data := d, be := b } ∧
           t.triad.lastStore = some { addr := a, data := d, be := b } ∧ t.triad.storeNo = s.triad.storeNo) ∧
       (∀ v, s.triad.issued = some v → (∀ k < 3, k ≠ c → (s.chn k).presented = some v) →
         Yields (.coreStoreVote c a d b) s fun t => t.triad.storeNo = s.triad.storeNo + 1 ∧
           t.triad.issuedNo = max s.triad.issuedNo (s.triad.storeNo + 1) ∧
           (∀ k < 3, (t.chn k).presented = none) ∧ t.triad.issued = none ∧ t.triad.storeWait = false ∧
           (v ≠ { addr := a, data := d, be := b } → (t.chn c).act = false)))) ∧
   (∀ s : State, Up s →
     (s.triad.storeWait = false ∨ s.windowRuns = false ∨ s.elapsed < s.triad.storeAt + s.storeWin →
       exec .storeVoteTimeout s = .next s) ∧
     (s.triad.storeWait = true → s.windowRuns = true → s.triad.storeAt + s.storeWin ≤ s.elapsed →
       (s.triad.issued = none → exec .storeVoteTimeout s = .next s.storeHold) ∧
       (∀ v c, s.triad.issued = some v → (∀ k < 3, (s.chn k).later = []) →
         s.voters.filter (fun k => ((s.chn k).presented).isNone) = [c] →
         Yields .storeVoteTimeout s fun t => t.triad.storeNo = s.triad.storeNo + 1 ∧ (t.chn c).act = false)))) ∧
  (∀ (d0 d1 d2 : Nat) (s : State), Up s →
     (s.triad.hold = none → exec (.holdEnd d0 d1 d2) s = .next s) ∧
     (s.triad.hold = some .reaction →
       exec (.holdEnd d0 d1 d2) s = .next { s with triad := { s.triad with hold := none } }) ∧
     (s.triad.simplex = false → (∀ c < 3, (s.chn c).failed = false) →
       (∀ k, s.triad.hold = some k → k = .slot ∨ (k = .store ∧ s.time.bcTxDue = []) → d0 = d1 ∨ d1 = d2 ∨ d0 = d2 →
         Yields (.holdEnd d0 d1 d2) s fun t => t.triad.hold = none ∧ t.triad.lost = s.triad.lost ∧
           (k = .store → t.triad.paused = false) ∧ ∀ c < 3, (t.chn c).act = true ∧ (t.chn c).outvoted = false) ∧
       (s.triad.lost = false → d0 ≠ d1 → d1 ≠ d2 → d0 ≠ d2 →
         (s.triad.hold = some .slot →
           (s.triad.failedHolds < atLeast1 (fld (s.inForce A.triadCfg) 11 8) → Yields (.holdEnd d0 d1 d2) s fun t =>
             t.triad.hold = some .slot ∧ t.triad.failedHolds = s.triad.failedHolds + 1 ∧
             t.triad.holds = min 4294967295 (s.triad.holds + 1) ∧ t.triad.lost = false) ∧
           (atLeast1 (fld (s.inForce A.triadCfg) 11 8) ≤ s.triad.failedHolds → Yields (.holdEnd d0 d1 d2) s fun t =>
             t.triad.lost = true ∧ t.triad.hold = none)) ∧
         (s.triad.hold = some .store → s.time.bcTxDue = [] →
           (s.triad.failedStores < atLeast1 (fld (s.inForce A.triadCfg) 11 8) → Yields (.holdEnd d0 d1 d2) s fun t =>
             t.triad.hold = some .store ∧ t.triad.failedStores = s.triad.failedStores + 1 ∧
             t.triad.holds = min 4294967295 (s.triad.holds + 1) ∧ t.triad.lost = false ∧ t.triad.paused = true ∧
             t.triad.storeNo = s.triad.ckptStore ∧ ∀ c < 3, (t.chn c).presented = none ∧ (t.chn c).later = []) ∧
           (atLeast1 (fld (s.inForce A.triadCfg) 11 8) ≤ s.triad.failedStores → Yields (.holdEnd d0 d1 d2) s fun t =>
             t.triad.lost = true ∧ t.triad.hold = none)))))

/-- CHECKPOINT, WATCHDOG_TIMEOUT, SELFTEST_INTERVAL and CHANNEL_REJOIN_TEST_DONE. A checkpoint is numbered at most
once in 1 ms while the firmware runs; it starts the rejoin of a failed channel that may rejoin, and fences one that
diverges (R309, R314). One more than 10 ms late raises source 11 once, and declines a Castling in probation (R325, R370).
Every 100 ms a self-test records its results, with the test that failed: the one named if it did, else the first (R315);
with none failed it raises nothing. A channel under test waits for the next re-seed, or stays failed (R314).
-/
def Obligations.ChannelHealth : Prop :=
  ∀ s : State, Up s →
    (∀ ds, s.fwRuns = false ∨ s.elapsed < s.triad.ckptAt + msT 1 → exec (.checkpoint ds) s = .next s) ∧
    (s.fwRuns = true → s.triad.ckptAt + msT 1 ≤ s.elapsed → Yields (.checkpoint []) s fun t =>
      t.triad.ckptNo = s.triad.ckptNo + 1 ∧ t.triad.ckptAt = s.elapsed ∧ t.triad.ckptStore = s.triad.storeNo ∧
      t.triad.bitten = false ∧
      (∀ c < 3, t.chn c = { s.chn c with rejoin := if s.mayRejoin c then 2 else (s.chn c).rejoin }) ∧
      t = { s with triad := t.triad }) ∧
    (∀ c < 3, s.fwRuns = true → s.triad.ckptAt + msT 1 ≤ s.elapsed → (s.chn c).failed = false →
      Yields (.checkpoint [c]) s fun t => t.triad.ckptNo = s.triad.ckptNo + 1 ∧ (t.chn c).act = false) ∧
    (s.boot.stage ≠ 2 ∨ s.triad.bitten = true ∨ s.elapsed ≤ s.triad.ckptAt + msT 11 →
      exec .watchdogTimeout s = .next s) ∧
    (∀ u, u = ({ s with triad := { s.triad with bitten := true } }).faultEvent 11 → s.boot.stage = 2 →
      s.triad.bitten = false → s.triad.ckptAt + msT 11 < s.elapsed →
      (s.boot.castle ≠ 3 → exec .watchdogTimeout s = .next u) ∧
      (s.boot.castle = 3 → exec .watchdogTimeout s = .next (u.declineCastle 6 0))) ∧
    (∀ c v n, s.elapsed < (s.chn c).testAt + msT 100 → exec (.selftestInterval c v n) s = .next s) ∧
    (∀ c (v : BitVec 5) n, (s.chn c).testAt + msT 100 ≤ s.elapsed → Yields (.selftestInterval c v n) s fun t =>
      (t.chn c).seqno = ((s.chn c).seqno + 1) % 256 ∧ (t.chn c).tests = v.toNat ∧ (t.chn c).valid = true ∧
      (t.chn c).testAt = s.elapsed ∧ (v = 31 → (t.chn c).failId = 0) ∧
      (∀ k < 5, bit v.toNat k = false → (t.chn c).failId =
        if 1 ≤ n ∧ n ≤ 5 ∧ bit v.toNat (n - 1) = false then n
        else if bit v.toNat 0 = false then 1 else if bit v.toNat 1 = false then 2
        else if bit v.toNat 2 = false then 3 else if bit v.toNat 3 = false then 4 else 5)) ∧
    (∀ c n, (s.chn c).testAt + msT 100 ≤ s.elapsed →
      exec (.selftestInterval c 31 n) s = .next (s.modChn c fun x => { x with
        seqno := (x.seqno + 1) % 256, tests := 31, valid := true, testAt := s.elapsed, failId := 0 })) ∧
    (∀ c, (s.chn c).failed = true → (s.chn c).rejoin = 2 →
      exec (.channelRejoinTestDone c true) s = .next (s.modChn c fun x => { x with rejoin := 3, cleared := false }) ∧
      exec (.channelRejoinTestDone c false) s = .next (((s.modChn c fun x => { x with
        rejoin := 0, cleared := false }).post 0x12 3 c []).faultEvent (5 + c) 0 c)) ∧
    (∀ c b, (s.chn c).failed = false ∨ (s.chn c).rejoin ≠ 2 → exec (.channelRejoinTestDone c b) s = .next s)

/-- What recording an event of a source does (R317, R319, R316): the source's state, count and window move by the
counting rule; the first event since the latch was freed is latched with the time, at whatever severity; a reserved
source raises nothing. No source but 4, with the Triad lost, changes beside it. -/
def Obligations.FaultEventsAreCounted : Prop :=
  ∀ (n d c z : Nat) (f : Bool) (s : State),
    (srcExists n = false → s.faultEvent n d c z f = s) ∧
    (srcExists n = true →
      (s.faultEvent n d c z f).src n = srcAfter (s.faultCfgOf n) f s.elapsed (s.src n) ∧
      ((s.faultEvent n d c z f).fault.first = some (s.fault.first.getD
        ((srcAfter (s.faultCfgOf n) f s.elapsed (s.src n)).st.code, n))) ∧
      (s.fault.first = none → (s.faultEvent n d c z f).fault.firstT = s.nowNs) ∧
      (∀ m, m ≠ n → m ≠ 4 → (s.faultEvent n d c z f).src m = s.src m)) ∧
    (∀ (cfg : Nat) (now : Tick) (x : Src), x.start + faultWindow cfg ≤ now ∨ x.st = .idle →
      srcAfter cfg false now x = { x with
        st := if faultN cfg ≤ 1 ∨ x.st = .severe then .severe else .active, count := 1, start := now, last := now }) ∧
    (∀ (cfg : Nat) (now : Tick) (x : Src), now < x.start + faultWindow cfg → x.st ≠ .idle →
      srcAfter cfg false now x = { x with
        st := if faultN cfg ≤ min 255 (x.count + 1) ∨ x.st = .severe then .severe else .active
        count := min 255 (x.count + 1), last := now })

/-- A second failed channel (R313): the one live channel runs in simplex with its act line high and a simplex event
where SIMPLEX is 1, and with SIMPLEX at 0 the Triad is lost. A third failure in simplex loses it. -/
def Obligations.SecondChannelFails : Prop :=
  ∀ (c l : Nat) (s : State), s.triad.lost = false → (s.chn c).failed = false →
    (s.liveChns = [c, l] ∨ s.liveChns = [l, c] →
      (rbit (s.inForce A.triadCfg) 16 = true → (s.failChannel c).triad.simplex = true ∧
        ((s.failChannel c).chn l).act = true ∧ (s.failChannel c).liveChns = [l] ∧ (s.failChannel c).triad.lost = false ∧
        (∀ d : Nat → Nat, (s.failChannel c).majority d = some (d l)) ∧
        (s.failChannel c).host.evSeq = ((s.post 0x12 0 c []).post 0x12 2 l []).host.evSeq) ∧
      (rbit (s.inForce A.triadCfg) 16 = false → (s.failChannel c).triad.lost = true)) ∧
    (s.liveChns = [c] → (s.failChannel c).triad.lost = true ∧ (s.failChannel c).triad.simplex = false)

/-- FAULT_QUIET_EXPIRE, ALIVE_EDGE, SCORESHEET_COUNTER_WRITE, SLOW_SQUARE_REPORT and REGULATOR_ALERT. A source that
has been quiet long enough is IDLE again, with a source-cleared event of SUB 0; from SEVERE its recovery counter
rises, up to 65,535, and waits for the scoresheet (R321, R364). ALIVE changes every 500 µs, but
keeps its level at an edge while a source is SEVERE (R324). A square recorded without a break for 1 ms is slow (R166). -/
def Obligations.FaultRecovery : Prop :=
  ∀ s : State, Up s →
    (∀ n, (s.src n).st = .idle ∨ s.elapsed < (s.src n).last + s.quietOf n → exec (.faultQuietExpire n) s = .next s) ∧
    (∀ n, (s.src n).st ≠ .idle → (s.src n).last + s.quietOf n ≤ s.elapsed → Yields (.faultQuietExpire n) s fun t =>
      t.src n = { s.src n with
        st := .idle, count := 0
        recov := if (s.src n).st = .severe then min 65535 ((s.src n).recov + 1) else (s.src n).recov } ∧
      (∀ m, m ≠ n → t.src m = s.src m) ∧ ((s.src n).st = .severe → n ∈ t.boot.recovDirty) ∧
      t.host.evSeq = (s.post 0x11 0 n []).host.evSeq) ∧
    (s.fwRuns = true → s.triad.aliveAt + usT 500 ≤ s.elapsed → exec .aliveEdge s =
      .next { s with triad := { s.triad with
        alive := if s.anySevere then s.triad.alive else !s.triad.alive, aliveAt := s.elapsed } }) ∧
    (s.fwRuns = false ∨ s.elapsed < s.triad.aliveAt + usT 500 → exec .aliveEdge s = .next s) ∧
    (∀ b, s.boot.recovDirty = [] → exec (.scoresheetCounterWrite b) s = .next s) ∧
    (s.boot.recovDirty ≠ [] → Yields (.scoresheetCounterWrite true) s fun t =>
      (∀ n ∈ s.boot.recovDirty, SMap.get (fun _ => 0) t.nv.recov n = (s.src n).recov) ∧ t.boot.recovDirty = [] ∧
      t.nv.recovCopy = (s.nv.recovCopy + 1) % 32 ∧ t = { s with
        nv := { s.nv with recov := t.nv.recov, recovCopy := t.nv.recovCopy }
        boot := { s.boot with recovDirty := [] } }) ∧
    (s.boot.recovDirty ≠ [] → exec (.scoresheetCounterWrite false) s = .next (((s.orReg A.bootSsStat (2 ^ 31)).post 0x33 0
      0x41 (leBytes 4 s.boot.recovDirty.length)).faultEvent 23)) ∧
    (∀ i u, (s.sq i).lastSince = some u →
      (u + msT 1 ≤ s.elapsed → exec (.slowSquareReport i) s = .next (({ s with tour := { s.tour with
        slow := true, slowSq := i } }).faultEvent (64 + 8 * i + 1) 0 i)) ∧
      (s.elapsed < u + msT 1 → exec (.slowSquareReport i) s = .next s)) ∧
    (∀ i, (s.sq i).lastSince = none → exec (.slowSquareReport i) s = .next s) ∧
    exec .regulatorAlert s = .next (s.faultEvent 22)

/-! ### Tempo, power and temperature (R328 to R349) -/

/-- CANARY_REPORT, GOVERNOR_TRIM and SETPOINT_SAVE. Every 10 µs a margin is kept as a signed byte (R336). A square that trails is
raised 10 mV, one below GUARD 5 mV, each at most every 100 µs and not above VSQ_MAX; one above GUARD + 5 mV is lowered
5 mV at most every 10 ms, not below VSQ_MIN (R337, R338). Saving, once an hour, keeps each setpoint with the tempo in force
(R339).
POWER_ESTIMATE, PMBUS_CORRECTION, POWER_LIMITER_ACT and CAP_UNATTAINABLE. The estimate is kept in its 12 bits every 10 µs, a
correction every 1 ms (R341). Every 40 µs, above the cap, the limiter cuts to 95 % of the paced tempo, not below 0.60 G, posting its event when it engages; with
room for 1 ms it rises by 1 %, or lets go once that reaches the phase's tempo (R342). At 0.60 G for 200 µs above the
cap, the cap is unattainable: source 21, once (R343). -/
def Obligations.PowerAndGovernor : Prop :=
  (∀ (i : Nat) (s : State), Up s →
     (∀ m : Int, (s.jobDue (6 + i) (usT 10) = true → exec (.canaryReport i m) s =
         .next ((s.jobRuns (6 + i)).modVsq i fun v => { v with margin := max (-128) (min 127 m) })) ∧
       (s.jobDue (6 + i) (usT 10) = false → exec (.canaryReport i m) s = .next s)) ∧
     ((s.sq i).trailing = true → s.since (s.vsq i).lastRaise (usT 100) = true → Yields (.governorTrim i) s fun t =>
       (t.vsq i).setpoint = max (s.vsq i).setpoint (min s.power.cur.vmax ((s.vsq i).setpoint + 10)) ∧
       (t.vsq i).lastRaise = some s.elapsed ∧ (∀ j, j ≠ i → t.vsq j = s.vsq j) ∧ t = { s with power := t.power }) ∧
     ((s.sq i).trailing = false → s.since (s.vsq i).recorded (msT 10) = true → (s.vsq i).margin < s.guard →
       s.since (s.vsq i).lastRaise (usT 100) = true → Yields (.governorTrim i) s fun t =>
         (t.vsq i).setpoint = max (s.vsq i).setpoint (min s.power.cur.vmax ((s.vsq i).setpoint + 5)) ∧
         (t.vsq i).lastRaise = some s.elapsed ∧ t = { s with power := t.power }) ∧
     ((s.sq i).trailing = false → s.since (s.vsq i).recorded (msT 10) = true → (s.guard : Int) + 5 < (s.vsq i).margin →
       s.since (s.vsq i).lastRaise (msT 10) = true → s.since (s.vsq i).lastLower (msT 10) = true →
       Yields (.governorTrim i) s fun t =>
         (t.vsq i).setpoint = min (s.vsq i).setpoint (max s.power.cur.vmin ((s.vsq i).setpoint - 5)) ∧
         (t.vsq i).lastLower = some s.elapsed ∧ t = { s with power := t.power }) ∧
     ((s.sq i).trailing = false → s.since (s.vsq i).recorded (msT 10) = false ∨
       ((s.guard : Int) ≤ (s.vsq i).margin ∧ (s.vsq i).margin ≤ (s.guard : Int) + 5) →
       exec (.governorTrim i) s = .next s) ∧
     (s.jobDue 5 (secT 3600) = false → exec .setpointSave s = .next s) ∧
     (s.jobDue 5 (secT 3600) = true → Yields .setpointSave s fun t =>
       (∀ k < 64, tget t.nv.setpoints k = some (s.vsq k).setpoint ∧ tget t.nv.setTempo k = some s.power.tempo) ∧
       t = { s.jobRuns 5 with nv := { s.nv with setpoints := t.nv.setpoints, setTempo := t.nv.setTempo } })) ∧
  (∀ s : State, Up s →
     (∀ n, (s.jobDue 0 (usT 10) = false → exec (.powerEstimate n) s = .next s) ∧
       (s.jobDue 0 (usT 10) = true → Yields (.powerEstimate n) s fun t =>
         t.power.est = min 4095 n ∧ (t.power.capOkAt.isSome = t.capRoom) ∧ t = { s with power := { s.power with
           est := t.power.est, capOkAt := t.power.capOkAt, overAt := t.power.overAt
           jobs := (s.jobRuns 0).power.jobs } })) ∧
     (∀ m n, (s.jobDue 1 (msT 1) = false → exec (.pmbusCorrection m n) s = .next s) ∧
       (s.jobDue 1 (msT 1) = true → Yields (.pmbusCorrection m n) s fun t =>
         t.power.est = min 4095 n ∧ t.power.pmb = min 4095 m ∧ t = { s with power := { s.power with
           est := t.power.est, pmb := t.power.pmb, capOkAt := t.power.capOkAt, overAt := t.power.overAt
           jobs := (s.jobRuns 1).power.jobs } })) ∧
     (s.jobDue 2 (usT 40) = false → exec .powerLimiterAct s = .next s) ∧
     (s.jobDue 2 (usT 40) = true → ∀ js, js = (s.jobRuns 2).power.jobs →
       (s.power.cap < s.power.est →
         (s.power.tcap ≠ 0 → exec .powerLimiterAct s = .next { s with power := { s.power with
           jobs := js, tcap := max 600 (95 * s.power.tempo / 100) } }) ∧
         (s.power.tcap = 0 → Yields .powerLimiterAct s fun t =>
           t.power = { s.power with jobs := js, tcap := max 600 (95 * s.power.tempo / 100) } ∧
           t.host.evSeq = (s.post 0x41 0 0 []).host.evSeq)) ∧
       (s.power.est ≤ s.power.cap → s.power.tcap ≠ 0 → s.capRoom = true → s.since s.power.capOkAt (msT 1) = true →
         (101 * s.power.tcap / 100 < s.phaseTempo → exec .powerLimiterAct s = .next { s with power := { s.power with
           jobs := js, tcap := 101 * s.power.tcap / 100, capOkAt := some s.elapsed } }) ∧
         (s.phaseTempo ≤ 101 * s.power.tcap / 100 → Yields .powerLimiterAct s fun t =>
           t.power = { s.power with jobs := js, tcap := 0 } ∧ t.host.evSeq = (s.post 0x41 1 0 []).host.evSeq)) ∧
       (s.power.est ≤ s.power.cap → s.power.tcap = 0 ∨ s.capRoom = false ∨ s.since s.power.capOkAt (msT 1) = false →
         exec .powerLimiterAct s = .next (s.jobRuns 2))) ∧
     (s.power.tempo = 600 → s.power.cap < s.power.est → s.power.overAt.isSome = true →
       s.since s.power.overAt (usT 200) = true → s.power.unatt = false → exec .capUnattainable s =
         .next ((({ s with power := { s.power with unatt := true } }).faultEvent 21).post 0x41 4 0
           (s.limPayload s.power.tcap))) ∧
     (s.power.tempo ≠ 600 ∨ s.power.est ≤ s.power.cap ∨ s.power.overAt = none ∨
       s.since s.power.overAt (usT 200) = false ∨ s.power.unatt = true → exec .capUnattainable s = .next s))

/-- PHASE of a defined phase is accepted and returns when the phase is in force; of an undefined one it returns
INVALID (R334). PHASE_DEF stores a record that passes R333, and asks for the phase again if it is the one in force.
POWER_CAP takes 400 to 2,000 W (R341). THERMAL_SENSOR_UPDATE, THERMAL_LIMITER_ACT and PHASE_SCHEDULE_ENTRY. Every
10 µs the readings are kept, with the lowest-numbered of the hottest (R344). Every 40 µs, at the threshold, the limiter cuts the tempo,
raising source 20 and its event when it engages; below the hysteresis for 1 ms it rises by 1 %, or lets go (R345). A
schedule entry that falls due asks for its phase; one that names an undefined phase is reported; nothing due does
nothing (R335). -/
def Obligations.PhasesAndTemperature : Prop :=
  (∀ (c : Cmd) (s : State), Takes s c →
     (c.p0.toNat < 8 → c.p1 = 0 → c.p2 = 0 →
       (s.phaseDefined c.p0.toNat = true → Yields (.phase c) s fun t => Waits { s with power := { s.power with
         pending := s.power.pending ++ [(c.p0.toNat, 0, some (c.ring, c.tag))] } } t c 0x0040) ∧
       (s.phaseDefined c.p0.toNat = false → Yields (.phase c) s fun t => Returns s t c 0x0040 stInvalid 0)) ∧
     (c.p0.toNat < 8 → c.p2 = 0 → ∀ bs,
       (phaseBytesOk bs = true → Yields (.phaseDef c (.ok bs)) s fun t =>
         Returns { s with power := { s.power with
           phases := SMap.insert s.power.phases c.p0.toNat (phaseOf bs)
           pending := if s.power.phase = c.p0.toNat then s.power.pending ++ [(c.p0.toNat, 0, none)]
             else s.power.pending } } t c 0x0041 stOk 0) ∧
       (phaseBytesOk bs = false → Yields (.phaseDef c (.ok bs)) s fun t => Returns s t c 0x0041 stInvalid 0) ∧
       Yields (.phaseDef c .err) s fun t => Answered t c 0x0041 stHostErr 0) ∧
     (c.p0 = 0 → c.p1 = 0 →
       (400 ≤ c.p2.toNat → c.p2.toNat ≤ 2000 → Yields (.powerCap c) s fun t => Returns { s with power := { s.power with
         cap := c.p2.toNat, unatt := false, overAt := t.power.overAt, capOkAt := t.power.capOkAt } } t c 0x0042 stOk 0) ∧
       (c.p2.toNat < 400 ∨ 2000 < c.p2.toNat → Yields (.powerCap c) s fun t => Returns s t c 0x0042 stInvalid 0))) ∧
  (∀ s : State, Up s →
     (∀ ts : List Int, s.jobDue 3 (usT 10) = false → exec (.thermalSensorUpdate ts) s = .next s) ∧
     (∀ ts : List Int, s.jobDue 3 (usT 10) = true → ts ≠ [] → Yields (.thermalSensorUpdate ts) s fun t =>
       (∀ k x, ts[k]? = some x → tget t.power.temps k = some x) ∧
       (∃ x, ts[t.power.hot]? = some x ∧ (∀ y ∈ ts, y ≤ x) ∧ ∀ k y, ts[k]? = some y → k < t.power.hot → y < x) ∧
       t = { s with power := { s.power with
         temps := t.power.temps, hot := t.power.hot, thermOkAt := t.power.thermOkAt
         jobs := (s.jobRuns 3).power.jobs } }) ∧
     (s.jobDue 4 (usT 40) = false → exec .thermalLimiterAct s = .next s) ∧
     (s.jobDue 4 (usT 40) = true → ∀ js, js = (s.jobRuns 4).power.jobs →
       (s.power.temps ≠ [] → s.thermThr ≤ s.hotTemp →
         (s.power.ttherm ≠ 0 → exec .thermalLimiterAct s = .next { s with power := { s.power with
           jobs := js, ttherm := max 600 (95 * s.power.tempo / 100) } }) ∧
         (s.power.ttherm = 0 → Yields .thermalLimiterAct s fun t =>
           t.power = { s.power with jobs := js, ttherm := max 600 (95 * s.power.tempo / 100) } ∧
           (t.src 20).last = s.elapsed)) ∧
       (s.hotTemp < s.thermThr → s.power.ttherm ≠ 0 → s.thermRoom = true → s.since s.power.thermOkAt (msT 1) = true →
         (101 * s.power.ttherm / 100 < s.phaseTempo → exec .thermalLimiterAct s = .next { s with power := { s.power with
           jobs := js, ttherm := 101 * s.power.ttherm / 100, thermOkAt := some s.elapsed } }) ∧
         (s.phaseTempo ≤ 101 * s.power.ttherm / 100 → Yields .thermalLimiterAct s fun t =>
           t.power = { s.power with jobs := js, ttherm := 0 } ∧ t.host.evSeq = (s.post 0x41 3 0 []).host.evSeq)) ∧
       (s.power.temps = [] ∨ s.hotTemp < s.thermThr →
         s.power.ttherm = 0 ∨ s.thermRoom = false ∨ s.since s.power.thermOkAt (msT 1) = false →
         exec .thermalLimiterAct s = .next (s.jobRuns 4))) ∧
     (∀ n, n = schedDue s.book.current s.nowNs →
       (s.power.schedOn = false ∨ s.schedEn = false ∨ n ≤ s.power.schedLast →
         exec .phaseScheduleEntry s = .next s) ∧
       (s.power.schedOn = true → s.schedEn = true → s.power.schedLast < n → ∀ k,
         k = schedPhase s.book.current ((n - 1) % schedCount s.book.current) →
         (s.phaseDefined k = true → exec .phaseScheduleEntry s = .next { s with power := { s.power with
           schedLast := n, pending := s.power.pending ++ [(k, 1, none)] } }) ∧
         (s.phaseDefined k = false → exec .phaseScheduleEntry s = .next (({ s with power := { s.power with
           schedLast := n } }).post 0x42 1 ((n - 1) % schedCount s.book.current) [])))))

/-! ### Shared operations (R295, R375) -/

/-- A counter advanced by a count that is not 0 wraps from 2^48 − 1 to 0 with WRAP, keeps a WRAP that is set, and
reads zero above bit 48; no other counter changes. Posting an event (R295). Every event takes the ring's next number,
modulo 2^31. A ring that is not an ON event ring, or whose queue of 256 is full, discards it: nothing but its counter
changes. Else it joins the queue, behind what waits, and is written at once only where the ring has a descriptor. -/
def Obligations.CountersAndEvents : Prop :=
  (∀ (o n : Nat) (s : State), 0 < n →
     (s.count o n).counter o % 2 ^ 48 = (s.counter o + n) % 2 ^ 48 ∧ (s.count o n).counter o < 2 ^ 49 ∧
     (bit ((s.count o n).counter o) 48 = (decide (2 ^ 48 ≤ s.counter o % 2 ^ 48 + n) || decide (2 ^ 48 ≤ s.counter o))) ∧
     (∀ k, k ≠ o → (s.count o n).counter k = s.counter k) ∧ s.count o n = { s with cnt := (s.count o n).cnt }) ∧
  (∀ (n ty sub src time : Nat) (bs : List Byte) (s : State),
     (∀ m, SMap.get (fun _ => 0) (s.postAt n ty sub src bs time).host.evSeq m = if m = n
       then (SMap.get (fun _ => 0) s.host.evSeq n + 1) % 2147483648 else SMap.get (fun _ => 0) s.host.evSeq m) ∧
     (s.ringIs n 4 = false ∨ 256 ≤ (s.ring n).evq.length → s.postAt n ty sub src bs time =
       ({ s with host := { s.host with
         evSeq := (s.postAt n ty sub src bs time).host.evSeq } }).count (ringCtr n 1) 1) ∧
     (s.ringIs n 4 = true → (s.ring n).evq.length < 256 →
       ((s.ring n).fetched = [] → ((s.postAt n ty sub src bs time).ring n).evq = (s.ring n).evq ++
           [{ type := ty, sub := sub, src := src, time := time, payload := bs
              seq := SMap.get (fun _ => 0) s.host.evSeq n }] ∧
         (s.postAt n ty sub src bs time).io = s.io) ∧
       ((s.ring n).evq = [] → (s.ring n).fetched ≠ [] → ((s.postAt n ty sub src bs time).ring n).evq = [] ∧
         ((s.postAt n ty sub src bs time).ring n).fetched = (s.ring n).fetched.drop 1) ∧
       (s.postAt n ty sub src bs time).cnt = s.cnt ∧
       ∀ m, m ≠ n → (s.postAt n ty sub src bs time).ring m = s.ring m))

end
end

