-- ==== Sys2Proof/Laws/Gate.lean ====
section
/-!
SUPPORT. What the gates of Machine/Ops.lean answer when the device runs, is in reset, or has had a rail fault.
-/

namespace Sys2Proof.Machine

theorem gated_up {s : State} (h : Up s) (f : State → State) : gated s f = .next (f s) := by
  simp [gated, h.1, h.2]

theorem gated_void {s : State} (h : s.pins.railBad = true) (f : State → State) :
    gated s f = .fault .guaranteesVoid := by
  simp [gated, h]

theorem gated_reset {s : State} (h : s.pins.railBad = false) (hr : s.running = false) (f : State → State) :
    gated s f = .next s := by
  simp [gated, h, hr]

theorem atPins_wired {s : State} (h : Wired s) (f : State → State) : atPins s f = .next (f s) := by
  simp [atPins, gated_up h.1, h.2]

theorem atPins_scan {s : State} (h : Up s) (hs : s.pins.scan = true) (f : State → State) : atPins s f = .next s := by
  simp [atPins, gated_up h, hs]

theorem always_next {s : State} (h : s.pins.railBad = false) (f : State → State) : always s f = .next (f s) := by
  simp [always, h]

theorem always_void {s : State} (h : s.pins.railBad = true) (f : State → State) :
    always s f = .fault .guaranteesVoid := by
  simp [always, h]

end Sys2Proof.Machine
end

