-- ==== Sys2Proof/Laws/Kept.lean ====
section
/-!
SUPPORT. What the operations of the device leave alone: one lemma per operation. Every operation keeps the queue of
commands, the pins, the boot stage, flash and OTP and the Book's words, but for those of the resets, of boot, of
Castling and of the Book commands, which are named apart.
-/

set_option linter.unusedSimpArgs false
set_option linter.unnecessarySeqFocus false
set_option linter.unusedTactic false
set_option linter.unreachableTactic false

namespace Sys2Proof.Machine

/-- The parts of `Boot` that only resets, boot and Castling change. -/
def Boot.kept (b : Boot) : Nat × Bool × Bool × Nat × Bool :=
  (b.stage, b.dpReady, b.recovery, b.bootsel, b.testmode)

/-- The parts of the non-volatile stores that only flash commands, boot and ROLLBACK_CONFIRM change. -/
def Nv.kept (n : Nv) : SMap Byte × Nat × Bool × Nat × W64 × Bool :=
  (n.flash, n.rbc, n.keySet, n.grade, n.serial, n.factoryBit)

/-- The parts of the Book that only Book commands, turns and repairs change. -/
def Book.kept (b : Book) : SMap W64 × SMap W64 := (b.active, b.standby)

/-- What almost every operation of the device leaves alone: the queue, the pins' levels, the boot stage, flash and
OTP, and the Book's words. -/
def State.kept (s : State) : List Instr × Pins × (Nat × Bool × Bool × Nat × Bool) ×
    (SMap Byte × Nat × Bool × Nat × W64 × Bool) × (SMap W64 × SMap W64) :=
  (s.pending, s.pins, s.boot.kept, s.nv.kept, s.book.kept)

@[simp] theorem Boot.kept_mk (b : Boot) (x0 x1 x2 x3 x4 x5 x6 x7 x8 x9 x10 x11 x12 x13 x14 x15 x16 x17 x18 x19 x20 x21 x22 x23 x24 x25 x26 x27 x28) :
    Boot.kept { b with handover := x28, restoreRef := x0, restored := x1, fellBack := x2, slot := x3, order := x4, failCode := x5, fwver := x6, parseVer := x7, slotA := x8, slotB := x9, castle := x10, castleCmd := x11, castleS := x12, castleRetry := x13, castleReady := x14, lastValid := x15, lastReason := x16, lastTlv := x17, lastSave := x18, saveSeq := x19, logDrop := x20, logSec := x21, logCnt := x22, recovDirty := x23, devCnt := x24, perstCnt := x25, cause := x26, rstAt := x27 } = b.kept := by
  simp [Boot.kept]

@[simp] theorem Nv.kept_mk (n : Nv) (x0 x1 x2 x3 x4 x5 x6 x7 x8 x9 x10) :
    Nv.kept { n with settings0 := x0, settings1 := x1, faultLog := x2, recov := x3, recovCopy := x4, setpoints := x5, setTempo := x6, bootRecs := x7, isoRecs := x8, refclk := x9, timeclk := x10 } = n.kept := by
  simp [Nv.kept]

@[simp] theorem Book.kept_mk (k : Book) (x0 x1 x2 x3 x4 x5 x6 x7 x8 x9 x10 x11 x12 x13 x14 x15 x16) :
    Book.kept { k with sweptAt := x16, map := x0, newMap := x1, loaded := x2, sideB := x3, epoch := x4, lastOld := x5, old := x6, turn := x7, turned := x8, policyFrom := x9, oldMap := x10, learn := x11, learnRot := x12, learnCmds := x13, badWords := x14, lsv := x15 } = k.kept := by
  simp [Book.kept]

/-- A record update that leaves the queue and the pins, and the kept parts of three fields, keeps them all. -/
@[simp] theorem State.kept_mk (s : State) (r f fns links lanes sqs bk tour buf qs eps red time host triad fault power
    bt n cnt fid io) (hb : Boot.kept bt = s.boot.kept) (hn : Nv.kept n = s.nv.kept) (hk : Book.kept bk = s.book.kept) :
    State.kept (State.mk s.pending r f fns links lanes sqs bk tour buf qs eps red time host triad fault power
      bt n s.pins cnt fid io) = s.kept := by
  simp [State.kept, hb, hn, hk]

/-- A choice between operations that keep keeps. -/
theorem kept_ite {c : Prop} [Decidable c] {a b s : State} (ha : a.kept = s.kept) (hb : b.kept = s.kept) :
    (if c then a else b).kept = s.kept := by
  split
  · exact ha
  · exact hb

/-- A fold of operations that keep keeps. -/
theorem foldl_kept {α : Type} {f : State → α → State} (h : ∀ s a, (f s a).kept = s.kept) (l : List α) (s : State) :
    (l.foldl f s).kept = s.kept := by
  induction l generalizing s with
  | nil => rfl
  | cons a l ih => simp [ih, h]

/-- What a command's effect keeps, whether it returns now or later. -/
def CmdOut.kept : CmdOut → List Instr × Pins × (Nat × Bool × Bool × Nat × Bool) ×
    (SMap Byte × Nat × Bool × Nat × W64 × Bool) × (SMap W64 × SMap W64)
  | .ret s _ _ => s.kept
  | .later s => s.kept

@[simp] theorem CmdOut.kept_ret (s : State) (a b : Nat) : (CmdOut.ret s a b).kept = s.kept := rfl
@[simp] theorem CmdOut.kept_later (s : State) : (CmdOut.later s).kept = s.kept := rfl

@[simp] theorem State.setReg_kept (s : State) (a : Nat) (v : Reg) :
    (State.setReg s a v).kept = s.kept := by
  unfold State.setReg
  (try dsimp only)
  (repeat' split) <;> simp [foldl_kept, apply_ite State.kept, *]

@[simp] theorem State.setForce_kept (s : State) (a : Nat) (v : Reg) :
    (State.setForce s a v).kept = s.kept := by
  unfold State.setForce
  (try dsimp only)
  (repeat' split) <;> simp [foldl_kept, apply_ite State.kept, *]

@[simp] theorem State.latch_kept (s : State) (as : List Nat) :
    (State.latch s as).kept = s.kept := by
  unfold State.latch
  (try dsimp only)
  (repeat' split) <;> simp [foldl_kept, apply_ite State.kept, *]

@[simp] theorem State.setSq_kept (s : State) (i : Nat) (x : Sq) :
    (State.setSq s i x).kept = s.kept := by
  unfold State.setSq
  (try dsimp only)
  (repeat' split) <;> simp [foldl_kept, apply_ite State.kept, *]

@[simp] theorem State.modSq_kept (s : State) (i : Nat) (f : Sq → Sq) :
    (State.modSq s i f).kept = s.kept := by
  unfold State.modSq
  (try dsimp only)
  (repeat' split) <;> simp [foldl_kept, apply_ite State.kept, *]

@[simp] theorem State.modLane_kept (s : State) (i : Nat) (f : Lane → Lane) :
    (State.modLane s i f).kept = s.kept := by
  unfold State.modLane
  (try dsimp only)
  (repeat' split) <;> simp [foldl_kept, apply_ite State.kept, *]

@[simp] theorem State.modLink_kept (s : State) (p : Nat) (f : Link → Link) :
    (State.modLink s p f).kept = s.kept := by
  unfold State.modLink
  (try dsimp only)
  (repeat' split) <;> simp [foldl_kept, apply_ite State.kept, *]

@[simp] theorem State.modQueue_kept (s : State) (q : Nat) (f : Queue → Queue) :
    (State.modQueue s q f).kept = s.kept := by
  unfold State.modQueue
  (try dsimp only)
  (repeat' split) <;> simp [foldl_kept, apply_ite State.kept, *]

@[simp] theorem State.modEport_kept (s : State) (p : Nat) (f : EPort → EPort) :
    (State.modEport s p f).kept = s.kept := by
  unfold State.modEport
  (try dsimp only)
  (repeat' split) <;> simp [foldl_kept, apply_ite State.kept, *]

@[simp] theorem State.modRing_kept (s : State) (n : Nat) (f : Ring → Ring) :
    (State.modRing s n f).kept = s.kept := by
  unfold State.modRing
  (try dsimp only)
  (repeat' split) <;> simp [foldl_kept, apply_ite State.kept, *]

@[simp] theorem State.modChan_kept (s : State) (c : Nat) (f : Chan → Chan) :
    (State.modChan s c f).kept = s.kept := by
  unfold State.modChan
  (try dsimp only)
  (repeat' split) <;> simp [foldl_kept, apply_ite State.kept, *]

@[simp] theorem State.modEngine_kept (s : State) (e : Nat) (f : Engine → Engine) :
    (State.modEngine s e f).kept = s.kept := by
  unfold State.modEngine
  (try dsimp only)
  (repeat' split) <;> simp [foldl_kept, apply_ite State.kept, *]

@[simp] theorem State.modChn_kept (s : State) (c : Nat) (f : Chn → Chn) :
    (State.modChn s c f).kept = s.kept := by
  unfold State.modChn
  (try dsimp only)
  (repeat' split) <;> simp [foldl_kept, apply_ite State.kept, *]

@[simp] theorem State.modSrc_kept (s : State) (n : Nat) (f : Src → Src) :
    (State.modSrc s n f).kept = s.kept := by
  unfold State.modSrc
  (try dsimp only)
  (repeat' split) <;> simp [foldl_kept, apply_ite State.kept, *]

@[simp] theorem State.modVsq_kept (s : State) (i : Nat) (f : Vsq → Vsq) :
    (State.modVsq s i f).kept = s.kept := by
  unfold State.modVsq
  (try dsimp only)
  (repeat' split) <;> simp [foldl_kept, apply_ite State.kept, *]

theorem gated_kept {s t : State} {f : State → State} (h : ∀ s, (f s).kept = s.kept) (hn : gated s f = .next t) :
    t.kept = s.kept := by
  unfold gated at hn
  split at hn
  · cases hn
  · split at hn <;> (cases hn; simp [h])

theorem atPins_kept {s t : State} {f : State → State} (h : ∀ s, (f s).kept = s.kept) (hn : atPins s f = .next t) :
    t.kept = s.kept := by
  refine gated_kept (fun s => ?_) hn
  split <;> simp [h]

theorem always_kept {s t : State} {f : State → State} (h : ∀ s, (f s).kept = s.kept) (hn : always s f = .next t) :
    t.kept = s.kept := by
  unfold always at hn
  split at hn
  · cases hn
  · cases hn; exact h s

@[simp] theorem State.loadTime_kept (s : State) (t : Tick) :
    (State.loadTime s t).kept = s.kept := by
  unfold State.loadTime
  (try dsimp only)
  (repeat' split) <;> simp [foldl_kept, apply_ite State.kept, *]

@[simp] theorem State.setCounter_kept (s : State) (o : Nat) (v : Nat) :
    (State.setCounter s o v).kept = s.kept := by
  unfold State.setCounter
  (try dsimp only)
  (repeat' split) <;> simp [foldl_kept, apply_ite State.kept, *]

@[simp] theorem State.count_kept (s : State) (o : Nat) (n : Nat) :
    (State.count s o n).kept = s.kept := by
  unfold State.count
  (try dsimp only)
  (repeat' split) <;> simp [foldl_kept, apply_ite State.kept, *]

@[simp] theorem State.countPort_kept (s : State) (p : Nat) (w : Nat) (n : Nat) :
    (State.countPort s p w n).kept = s.kept := by
  unfold State.countPort
  (try dsimp only)
  (repeat' split) <;> simp [foldl_kept, apply_ite State.kept, *]

@[simp] theorem State.portIn_kept (s : State) (p n : Nat) : (s.portIn p n).kept = s.kept := by
  simp [State.portIn]

@[simp] theorem State.bcPortState_kept (s : State) (p : Nat) (st : Nat) (clockClass : Nat) :
    (State.bcPortState s p st clockClass).kept = s.kept := by
  unfold State.bcPortState
  (try dsimp only)
  (repeat' split) <;> simp [foldl_kept, apply_ite State.kept, *]

@[simp] theorem State.bcLeave_kept (s : State) (p : Nat) :
    (State.bcLeave s p).kept = s.kept := by
  unfold State.bcLeave
  (try dsimp only)
  (repeat' split) <;> simp [foldl_kept, apply_ite State.kept, *]

@[simp] theorem State.bcLost_kept (s : State) (fid : Nat) :
    (State.bcLost s fid).kept = s.kept := by
  unfold State.bcLost
  (try dsimp only)
  (repeat' split) <;> simp [foldl_kept, apply_ite State.kept, *]

@[simp] theorem State.setFn_kept (s : State) (cls : Nat) (inst : Nat) (x : Fn) :
    (State.setFn s cls inst x).kept = s.kept := by
  unfold State.setFn
  (try dsimp only)
  (repeat' split) <;> simp [foldl_kept, apply_ite State.kept, *]

@[simp] theorem State.modFn_kept (s : State) (cls : Nat) (inst : Nat) (f : Fn → Fn) :
    (State.modFn s cls inst f).kept = s.kept := by
  unfold State.modFn
  (try dsimp only)
  (repeat' split) <;> simp [foldl_kept, apply_ite State.kept, *]

@[simp] theorem State.chargeQueue_kept (s : State) (q : Nat) (n : Nat) :
    (State.chargeQueue s q n).kept = s.kept := by
  unfold State.chargeQueue
  (try dsimp only)
  (repeat' split) <;> simp [foldl_kept, apply_ite State.kept, *]

@[simp] theorem State.hostWrite_kept (s : State) (fn : Nat) (addr : Nat) (relaxed : Bool) (bs : List Byte) :
    (State.hostWrite s fn addr relaxed bs).kept = s.kept := by
  unfold State.hostWrite
  (try dsimp only)
  (repeat' split) <;> simp [foldl_kept, apply_ite State.kept, *]

@[simp] theorem State.askRead_kept (s : State) (fn : Nat) (addr : Nat) (len : Nat) :
    (State.askRead s fn addr len).kept = s.kept := by
  unfold State.askRead
  (try dsimp only)
  (repeat' split) <;> simp [foldl_kept, apply_ite State.kept, *]

@[simp] theorem State.msixSend_kept (s : State) (fn : Nat) (vec : Nat) :
    (State.msixSend s fn vec).kept = s.kept := by
  unfold State.msixSend
  (try dsimp only)
  (repeat' split) <;> simp [foldl_kept, apply_ite State.kept, *]

@[simp] theorem State.setVecPending_kept (s : State) (fn : Nat) (vec : Nat) (b : Bool) :
    (State.setVecPending s fn vec b).kept = s.kept := by
  unfold State.setVecPending
  (try dsimp only)
  (repeat' split) <;> simp [foldl_kept, apply_ite State.kept, *]

@[simp] theorem State.fireVector_kept (s : State) (fn : Nat) (vec : Nat) :
    (State.fireVector s fn vec).kept = s.kept := by
  unfold State.fireVector
  (try dsimp only)
  (repeat' split) <;> simp [foldl_kept, apply_ite State.kept, *]

@[simp] theorem State.sendPending_kept (s : State) (fn : Nat) (vec : Nat) :
    (State.sendPending s fn vec).kept = s.kept := by
  unfold State.sendPending
  (try dsimp only)
  (repeat' split) <;> simp [foldl_kept, apply_ite State.kept, *]

@[simp] theorem State.signalRing_kept (s : State) (n : Nat) :
    (State.signalRing s n).kept = s.kept := by
  unfold State.signalRing
  (try dsimp only)
  (repeat' split) <;> simp [foldl_kept, apply_ite State.kept, *]

@[simp] theorem State.writeReturn_kept (s : State) (n : Nat) (bs : List Byte) (word : Nat) :
    (State.writeReturn s n bs word).kept = s.kept := by
  unfold State.writeReturn
  (try dsimp only)
  (repeat' split) <;> simp [foldl_kept, apply_ite State.kept, *]

@[simp] theorem State.flushReturns_kept (s : State) (n : Nat) :
    (State.flushReturns s n).kept = s.kept := by
  unfold State.flushReturns
  (try dsimp only)
  (repeat' split) <;> simp [foldl_kept, apply_ite State.kept, *]

@[simp] theorem State.ringReturn_kept (s : State) (n : Nat) (bs : List Byte) (word : Nat) :
    (State.ringReturn s n bs word).kept = s.kept := by
  unfold State.ringReturn
  (try dsimp only)
  (repeat' split) <;> simp [foldl_kept, apply_ite State.kept, *]

@[simp] theorem State.fillEvent_kept (s : State) (n : Nat) :
    (State.fillEvent s n).kept = s.kept := by
  unfold State.fillEvent
  (try dsimp only)
  (repeat' split) <;> simp [foldl_kept, apply_ite State.kept, *]

@[simp] theorem State.fillEvents_kept (s : State) (n : Nat) :
    (State.fillEvents s n).kept = s.kept := by
  unfold State.fillEvents
  (try dsimp only)
  (repeat' split) <;> simp [foldl_kept, apply_ite State.kept, *]

@[simp] theorem State.postAt_kept (s : State) (ring : Nat) (type : Nat) (sub : Nat) (src : Nat) (payload : List Byte) (time : Nat) :
    (State.postAt s ring type sub src payload time).kept = s.kept := by
  unfold State.postAt
  (try dsimp only)
  (repeat' split) <;> simp [foldl_kept, apply_ite State.kept, *]

@[simp] theorem State.post_kept (s : State) (type : Nat) (sub : Nat) (src : Nat) (payload : List Byte) :
    (State.post s type sub src payload).kept = s.kept := by
  unfold State.post
  (try dsimp only)
  (repeat' split) <;> simp [foldl_kept, apply_ite State.kept, *]

@[simp] theorem State.postLife_kept (s : State) (cls : Nat) (inst : Nat) (outcome : Nat) (units : Nat) (us : Nat) :
    (State.postLife s cls inst outcome units us).kept = s.kept := by
  unfold State.postLife
  (try dsimp only)
  (repeat' split) <;> simp [foldl_kept, apply_ite State.kept, *]

@[simp] theorem State.orReg_kept (s : State) (a : Nat) (v : Nat) :
    (State.orReg s a v).kept = s.kept := by
  unfold State.orReg
  (try dsimp only)
  (repeat' split) <;> simp [foldl_kept, apply_ite State.kept, *]

@[simp] theorem State.logReg_kept (s : State) (a : Nat) (v : Nat) :
    (State.logReg s a v).kept = s.kept := by
  unfold State.logReg
  (try dsimp only)
  (repeat' split) <;> simp [foldl_kept, apply_ite State.kept, *]

@[simp] theorem State.hostErr_kept (s : State) (kind : Nat) (ring : Nat) (fn : Nat) :
    (State.hostErr s kind ring fn).kept = s.kept := by
  unfold State.hostErr
  (try dsimp only)
  (repeat' split) <;> simp [foldl_kept, apply_ite State.kept, *]

@[simp] theorem State.accErr_kept (s : State) (kind : Nat) (addr : Nat) :
    (State.accErr s kind addr).kept = s.kept := by
  unfold State.accErr
  (try dsimp only)
  (repeat' split) <;> simp [foldl_kept, apply_ite State.kept, *]

@[simp] theorem State.freshFid_kept (s : State) :
    (State.freshFid s).1.kept = s.kept := by
  unfold State.freshFid
  (try dsimp only)
  (repeat' split) <;> simp [foldl_kept, apply_ite State.kept, *]

@[simp] theorem State.logFault_kept (s : State) (r : List Nat) :
    (State.logFault s r).kept = s.kept := by
  unfold State.logFault
  (try dsimp only)
  (repeat' split) <;> simp [foldl_kept, apply_ite State.kept, *]

@[simp] theorem State.latchFirst_kept (s : State) (n : Nat) (sev : Nat) :
    (State.latchFirst s n sev).kept = s.kept := by
  unfold State.latchFirst
  (try dsimp only)
  (repeat' split) <;> simp [foldl_kept, apply_ite State.kept, *]

@[simp] theorem State.recordFault_kept (s : State) (n : Nat) (detail : Nat) (concerned : Nat) (cause : Nat) (forced : Bool) :
    (State.recordFault s n detail concerned cause forced).1.kept = s.kept := by
  unfold State.recordFault
  (try dsimp only)
  (repeat' split) <;> simp [foldl_kept, apply_ite State.kept, *]

@[simp] theorem State.loseTriad_kept (s : State) :
    (State.loseTriad s).kept = s.kept := by
  unfold State.loseTriad
  (try dsimp only)
  (repeat' split) <;> simp [foldl_kept, apply_ite State.kept, *]

@[simp] theorem State.failChannel_kept (s : State) (c : Nat) :
    (State.failChannel s c).kept = s.kept := by
  unfold State.failChannel
  (try dsimp only)
  (repeat' split) <;> simp [foldl_kept, apply_ite State.kept, *]

@[simp] theorem State.beginHold_kept (s : State) (k : HoldKind) :
    (State.beginHold s k).kept = s.kept := by
  unfold State.beginHold
  (try dsimp only)
  (repeat' split) <;> simp [foldl_kept, apply_ite State.kept, *]

@[simp] theorem State.addToX_kept (s : State) (i : Nat) (source : Nat) :
    (State.addToX s i source).kept = s.kept := by
  unfold State.addToX
  (try dsimp only)
  (repeat' split) <;> simp [foldl_kept, apply_ite State.kept, *]

@[simp] theorem State.react_kept (s : State) (n : Nat) (code : Nat) :
    (State.react s n code).kept = s.kept := by
  unfold State.react
  (try dsimp only)
  (repeat' split) <;> simp [foldl_kept, apply_ite State.kept, *]

@[simp] theorem State.faultEvent_kept (s : State) (n : Nat) (detail : optParam Nat 0) (concerned : optParam Nat 0) (cause : optParam Nat 0) (forced : optParam Bool false) :
    (State.faultEvent s n detail concerned cause forced).kept = s.kept := by
  unfold State.faultEvent
  (repeat' split) <;> simp [foldl_kept, apply_ite State.kept, *]

@[simp] theorem State.sqFault_kept (s : State) (i : Nat) (j : Nat) :
    (State.sqFault s i j).kept = s.kept := by
  unfold State.sqFault
  (try dsimp only)
  (repeat' split) <;> simp [foldl_kept, apply_ite State.kept, *]

@[simp] theorem State.upsetCell_kept (s : State) (e : Nat × Nat) :
    (State.upsetCell s e).kept = s.kept := by
  unfold State.upsetCell
  (try dsimp only)
  (repeat' split) <;> simp [foldl_kept, apply_ite State.kept, *]

@[simp] theorem State.noteCrc_kept (s : State) (i : Nat) (bad : Bool) :
    (State.noteCrc s i bad).kept = s.kept := by
  unfold State.noteCrc
  (try dsimp only)
  (repeat' split) <;> simp [foldl_kept, apply_ite State.kept, *]

@[simp] theorem State.readCell_kept (s : State) (i : Nat) (c : Cell) :
    (State.readCell s i c).1.kept = s.kept := by
  unfold State.readCell
  (try dsimp only)
  (repeat' split) <;> simp [foldl_kept, apply_ite State.kept, *]

@[simp] theorem State.alloc_kept (s : State) (i : Nat) (r : Nat) (c : Cell) :
    (State.alloc s i r c).1.kept = s.kept := by
  unfold State.alloc
  (try dsimp only)
  (repeat' split) <;> simp [foldl_kept, apply_ite State.kept, *]

@[simp] theorem State.badFree_kept (s : State) (i : Nat) (k : Nat) (r : Nat) (owner : Nat) (foreign : Bool) :
    (State.badFree s i k r owner foreign).kept = s.kept := by
  unfold State.badFree
  (try dsimp only)
  (repeat' split) <;> simp [foldl_kept, apply_ite State.kept, *]

@[simp] theorem State.freeCell_kept (s : State) (i : Nat) (k : Nat) (r : Nat) :
    (State.freeCell s i k r).kept = s.kept := by
  unfold State.freeCell
  (try dsimp only)
  (repeat' split) <;> simp [foldl_kept, apply_ite State.kept, *]

@[simp] theorem State.freeByHeader_kept (s : State) (i : Nat) (k : Nat) :
    (State.freeByHeader s i k).kept = s.kept := by
  unfold State.freeByHeader
  (try dsimp only)
  (repeat' split) <;> simp [foldl_kept, apply_ite State.kept, *]

@[simp] theorem State.latchQuotas_kept (s : State) (i : Nat) :
    (State.latchQuotas s i).kept = s.kept := by
  unfold State.latchQuotas
  (try dsimp only)
  (repeat' split) <;> simp [foldl_kept, apply_ite State.kept, *]

@[simp] theorem State.setTag_kept (s : State) (q : Nat) (t : Option Nat) :
    (State.setTag s q t).kept = s.kept := by
  unfold State.setTag
  (try dsimp only)
  (repeat' split) <;> simp [foldl_kept, apply_ite State.kept, *]

@[simp] theorem State.tagQueue_kept (s : State) (q : Nat) :
    (State.tagQueue s q).kept = s.kept := by
  unfold State.tagQueue
  (try dsimp only)
  (repeat' split) <;> simp [foldl_kept, apply_ite State.kept, *]

@[simp] theorem State.tagPort_kept (s : State) (p : Nat) :
    (State.tagPort s p).kept = s.kept := by
  unfold State.tagPort
  (try dsimp only)
  (repeat' split) <;> simp [foldl_kept, apply_ite State.kept, *]

@[simp] theorem State.dropRef_kept (s : State) (e : Nat) (r : CellRef) :
    (State.dropRef s e r).kept = s.kept := by
  unfold State.dropRef
  (try dsimp only)
  (repeat' split) <;> simp [foldl_kept, apply_ite State.kept, *]

@[simp] theorem State.removeFrames_kept (s : State) (q : Nat) (gone : QFrame → Bool) :
    (State.removeFrames s q gone).kept = s.kept := by
  unfold State.removeFrames
  (try dsimp only)
  (repeat' split) <;> simp [foldl_kept, apply_ite State.kept, *]

@[simp] theorem State.returnTx_kept (s : State) (n : Nat) (status : Nat) (stamp : Nat) (bs : List Byte) :
    (State.returnTx s n status stamp bs).kept = s.kept := by
  unfold State.returnTx
  (try dsimp only)
  (repeat' split) <;> simp [foldl_kept, apply_ite State.kept, *]

@[simp] theorem State.flushTxOne_kept (s : State) (n : Nat) :
    (State.flushTxOne s n).kept = s.kept := by
  unfold State.flushTxOne
  (try dsimp only)
  (repeat' split) <;> simp [foldl_kept, apply_ite State.kept, *]

@[simp] theorem State.flushTx_kept (s : State) (n : Nat) :
    (State.flushTx s n).kept = s.kept := by
  unfold State.flushTx
  (try dsimp only)
  (repeat' split) <;> simp [foldl_kept, apply_ite State.kept, *]

@[simp] theorem State.reportTx_kept (s : State) (h : FrameHdr) (status : Nat) (stamp : Nat) :
    (State.reportTx s h status stamp).kept = s.kept := by
  unfold State.reportTx
  (try dsimp only)
  (repeat' split) <;> simp [foldl_kept, apply_ite State.kept, *]

@[simp] theorem State.discardFrames_kept (s : State) (q : Nat) (w : Nat) (gone : QFrame → Bool) :
    (State.discardFrames s q w gone).kept = s.kept := by
  unfold State.discardFrames
  (try dsimp only)
  (repeat' split) <;> simp [foldl_kept, apply_ite State.kept, *]

@[simp] theorem State.setPol_kept (s : State) (i : Nat) (n : Nat) (v : Int) :
    (State.setPol s i n v).kept = s.kept := by
  unfold State.setPol
  (try dsimp only)
  (repeat' split) <;> simp [foldl_kept, apply_ite State.kept, *]

@[simp] theorem State.takeToken_kept (s : State) (i : Nat) (n : Nat) :
    (State.takeToken s i n).1.kept = s.kept := by
  unfold State.takeToken
  (try dsimp only)
  (repeat' split) <;> simp [foldl_kept, apply_ite State.kept, *]

@[simp] theorem State.repolicy_kept (s : State) (s0 : State) (full : Bool) (is : List Nat) :
    (State.repolicy s s0 full is).kept = s.kept := by
  unfold State.repolicy
  (try dsimp only)
  (repeat' split) <;> simp [foldl_kept, apply_ite State.kept, *]

@[simp] theorem State.meterFrame_kept (s : State) (i : Nat) (m : Nat) (b : Nat) (c : Nat) :
    (State.meterFrame s i m b c).1.kept = s.kept := by
  unfold State.meterFrame
  (try dsimp only)
  (repeat' split) <;> simp [foldl_kept, apply_ite State.kept, *]

@[simp] theorem State.remeter_kept (s : State) (s0 : State) (i : Nat) (ms : List Nat) :
    (State.remeter s s0 i ms).kept = s.kept := by
  unfold State.remeter
  (try dsimp only)
  (repeat' split) <;> simp [foldl_kept, apply_ite State.kept, *]

@[simp] theorem State.fragWrite_kept (s : State) (i : Nat) (e : Nat) (p : Parse) (idx : Nat) (r : LookRes) :
    (State.fragWrite s i e p idx r).kept = s.kept := by
  unfold State.fragWrite
  (try dsimp only)
  (repeat' split) <;> simp [foldl_kept, apply_ite State.kept, *]

@[simp] theorem State.fragRead_kept (s : State) (i : Nat) (e : Nat) (p : Parse) :
    (State.fragRead s i e p).1.kept = s.kept := by
  unfold State.fragRead
  (try dsimp only)
  (repeat' split) <;> simp [foldl_kept, apply_ite State.kept, *]

@[simp] theorem State.learnFrom_kept (s : State) (i : Nat) (e : Nat) (p : Parse) (bad : Bool) :
    (State.learnFrom s i e p bad).kept = s.kept := by
  unfold State.learnFrom
  (try dsimp only)
  (repeat' split) <;> simp [foldl_kept, apply_ite State.kept, *]

@[simp] theorem State.eccLog_kept (s : State) (h : EccHit) (ue : Bool) :
    (State.eccLog s h ue).kept = s.kept := by
  unfold State.eccLog
  (try dsimp only)
  (repeat' split) <;> simp [foldl_kept, apply_ite State.kept, *]

@[simp] theorem State.setBadWord_kept (s : State) (k : Nat) (b : Bool) :
    (State.setBadWord s k b).kept = s.kept := by
  unfold State.setBadWord
  (try dsimp only)
  (repeat' split) <;> simp [foldl_kept, apply_ite State.kept, *]

@[simp] theorem State.eccUe_kept (s : State) (h : EccHit) :
    (State.eccUe s h).kept = s.kept := by
  unfold State.eccUe
  (try dsimp only)
  (repeat' split) <;> simp [foldl_kept, apply_ite State.kept, *]

@[simp] theorem State.eccSbe_kept (s : State) (h : EccHit) :
    (State.eccSbe s h).kept = s.kept := by
  unfold State.eccSbe
  (try dsimp only)
  (repeat' split) <;> simp [foldl_kept, apply_ite State.kept, *]

@[simp] theorem State.meetEcc_kept (s : State) (e : Option EccErr) :
    (State.meetEcc s e).1.kept = s.kept := by
  unfold State.meetEcc
  (try dsimp only)
  (repeat' split) <;> simp [foldl_kept, apply_ite State.kept, *]

@[simp] theorem State.settle_kept (s : State) (i : Nat) (e : Nat) (p : Parse) :
    (State.settle s i e p).1.kept = s.kept := by
  unfold State.settle
  (try dsimp only)
  (repeat' split) <;> simp [foldl_kept, apply_ite State.kept, *]

@[simp] theorem State.noteLookup_kept (s : State) (i : Nat) (e : Nat) (p : Parse) (inj : Bool) (slot : Option Nat) (r : LookRes) (rz : Option (Nat × Nat)) :
    (State.noteLookup s i e p inj slot r rz).kept = s.kept := by
  unfold State.noteLookup
  (try dsimp only)
  (repeat' split) <;> simp [foldl_kept, apply_ite State.kept, *]

@[simp] theorem State.hostToken_kept (s : State) (i : Nat) (rz : Option (Nat × Nat)) :
    (State.hostToken s i rz).1.kept = s.kept := by
  unfold State.hostToken
  (try dsimp only)
  (repeat' split) <;> simp [foldl_kept, apply_ite State.kept, *]

@[simp] theorem State.forwardFrame_kept (s : State) (i : Nat) (p : Parse) (inj : Bool) (r : LookRes) (f : Fwd) (d : Decision) :
    (State.forwardFrame s i p inj r f d).1.kept = s.kept := by
  unfold State.forwardFrame
  (try dsimp only)
  (repeat' split) <;> simp [foldl_kept, apply_ite State.kept, *]

@[simp] theorem State.decideFrame_kept (s : State) (i : Nat) (e : Nat) (p : Parse) (inj : Bool) :
    (State.decideFrame s i e p inj).1.kept = s.kept := by
  unfold State.decideFrame
  (try dsimp only)
  (repeat' split) <;> simp [foldl_kept, apply_ite State.kept, *]

@[simp] theorem State.reshape_kept (s : State) (s0 : State) :
    (State.reshape s s0).kept = s.kept := by
  unfold State.reshape
  (try dsimp only)
  (repeat' split) <;> simp [foldl_kept, apply_ite State.kept, *]

@[simp] theorem State.keepTags_kept (s : State) (s0 : State) :
    (State.keepTags s s0).kept = s.kept := by
  unfold State.keepTags
  (try dsimp only)
  (repeat' split) <;> simp [foldl_kept, apply_ite State.kept, *]

@[simp] theorem State.startGclLoad_kept (s : State) (p : Nat) :
    (State.startGclLoad s p).kept = s.kept := by
  unfold State.startGclLoad
  (try dsimp only)
  (repeat' split) <;> simp [foldl_kept, apply_ite State.kept, *]

@[simp] theorem State.startGclLoads_kept (s : State) :
    (State.startGclLoads s).kept = s.kept := by
  unfold State.startGclLoads
  (try dsimp only)
  (repeat' split) <;> simp [foldl_kept, apply_ite State.kept, *]

@[simp] theorem State.installSchedule_kept (s : State) :
    (State.installSchedule s).kept = s.kept := by
  unfold State.installSchedule
  (try dsimp only)
  (repeat' split) <;> simp [foldl_kept, apply_ite State.kept, *]

@[simp] theorem State.afterBook_kept (s : State) (s0 : State) (vs : List Nat) (full : Bool) :
    (State.afterBook s s0 vs full).kept = s.kept := by
  unfold State.afterBook
  (try dsimp only)
  (repeat' split) <;> simp [foldl_kept, apply_ite State.kept, *]

@[simp] theorem State.completeCmd_kept (s : State) (ring : Nat) (d : List Byte) (status : Nat) (res : Nat) :
    (State.completeCmd s ring d status res).kept = s.kept := by
  unfold State.completeCmd
  (try dsimp only)
  (repeat' split) <;> simp [foldl_kept, apply_ite State.kept, *]

@[simp] theorem State.finishCmd_kept (s : State) (ring : Nat) (tag : BitVec 32) (status : Nat) (res : Nat) :
    (State.finishCmd s ring tag status res).kept = s.kept := by
  unfold State.finishCmd
  (try dsimp only)
  (repeat' split) <;> simp [foldl_kept, apply_ite State.kept, *]

theorem runCmd_kept (op : Nat) (c : Cmd) (ok : Bool) {f : State → CmdOut} (h : ∀ s, (f s).kept = s.kept)
    (s : State) : (runCmd op c ok f s).kept = s.kept := by
  unfold runCmd
  dsimp only
  split
  · split
    · simp
    · split
      · simp
      · split
        · simp
        · split
          all_goals
            next x hx =>
            have := h ({ s.modRing c.ring (fun r => { r with
              fetched := r.fetched.drop 1, accepted := some (cmdBytes op c) }) with
              host := { (s.modRing c.ring (fun r => { r with
                fetched := r.fetched.drop 1, accepted := some (cmdBytes op c) })).host with cmdRot := c.ring } })
            rw [hx] at this
            simp at this
            simp [this]
  · rfl

@[simp] theorem State.bufferReadFailed_kept (s : State) (ring : Nat) (fn : Nat) :
    (State.bufferReadFailed s ring fn).kept = s.kept := by
  unfold State.bufferReadFailed
  (try dsimp only)
  (repeat' split) <;> simp [foldl_kept, apply_ite State.kept, *]

theorem withBlock_kept (c : Cmd) (r : HostRead) {f : List Byte → State → CmdOut}
    (h : ∀ b s, (f b s).kept = s.kept) (s : State) : (withBlock c r f s).kept = s.kept := by
  unfold withBlock
  split <;> simp [h]

@[simp] theorem State.learnNote_kept (s : State) (type : Nat) (key : W64) (port : Nat) (prev : Nat) :
    (State.learnNote s type key port prev).kept = s.kept := by
  unfold State.learnNote
  (try dsimp only)
  (repeat' split) <;> simp [foldl_kept, apply_ite State.kept, *]

@[simp] theorem Book.clearArea_kept (b : Book) (area lo n : Nat) : (b.clearArea area lo n).kept = b.kept := rfl

theorem State.learnPut_kept {s t : State} {x : LearnEnt} (h : s.learnPut x = some t) : t.kept = s.kept := by
  unfold State.learnPut at h
  obtain ⟨k, -, rfl⟩ := Option.map_eq_some_iff.mp h
  rfl

@[simp] theorem State.learnMod_kept (s : State) (idx : Nat) (f : LearnEnt → LearnEnt) :
    (s.learnMod idx f).kept = s.kept := rfl

@[simp] theorem State.learnFull_kept (s : State) (key : W64) (port : Nat) :
    (State.learnFull s key port).kept = s.kept := by
  unfold State.learnFull
  (try dsimp only)
  (repeat' split) <;> simp [foldl_kept, apply_ite State.kept, *]

@[simp] theorem State.applyLearn_kept (s : State) (key : W64) (port : Nat) (static : Bool) :
    (s.applyLearn key port static).1.kept = s.kept := by
  unfold State.applyLearn
  split
  · split
    · next h => simp [State.learnPut_kept h]
    · simp
  · dsimp only
    (repeat' split) <;> simp [apply_ite State.kept]

@[simp] theorem State.learnErase_kept (s : State) (f : LearnEnt → Bool) : (s.learnErase f).kept = s.kept := by
  have h : ∀ (l : List (Nat × LearnEnt)) (b : Book),
      (l.foldl (fun b e => b.clearArea 2 (2 * e.1) 2) b).kept = b.kept := by
    intro l
    induction l with
    | nil => intro b; rfl
    | cons y l ih => intro b; simp [ih]
  unfold State.learnErase
  simp [State.kept_mk, Book.kept_mk, h]

@[simp] theorem State.applyLearnCmd_kept (s : State) (c : LearnCmd) : (s.applyLearnCmd c).1.kept = s.kept := by
  unfold State.applyLearnCmd
  split <;> simp

@[simp] theorem learnCmd_kept (op : Nat) (c : Cmd) (s : State) : (learnCmd op c s).kept = s.kept := by
  unfold learnCmd
  refine runCmd_kept _ _ _ (fun s => ?_) s
  dsimp only
  (repeat' split) <;> simp

@[simp] theorem State.sendPfc_kept (s : State) (p : Nat) (pris : List (Nat × Nat)) :
    (State.sendPfc s p pris).kept = s.kept := by
  unfold State.sendPfc
  (try dsimp only)
  (repeat' split) <;> simp [foldl_kept, apply_ite State.kept, *]

@[simp] theorem State.pfcPort_kept (s : State) (p : Nat) :
    (State.pfcPort s p).kept = s.kept := by
  unfold State.pfcPort
  (try dsimp only)
  (repeat' split) <;> simp [foldl_kept, apply_ite State.kept, *]

@[simp] theorem State.pfcSquare_kept (s : State) (i : Nat) :
    (State.pfcSquare s i).kept = s.kept := by
  unfold State.pfcSquare
  (try dsimp only)
  (repeat' split) <;> simp [foldl_kept, apply_ite State.kept, *]

@[simp] theorem State.discardHeld_kept (s : State) (i : Nat) (q : Nat) (w : Nat) :
    (State.discardHeld s i q w).kept = s.kept := by
  unfold State.discardHeld
  (try dsimp only)
  (repeat' split) <;> simp [foldl_kept, apply_ite State.kept, *]

@[simp] theorem State.tryUpHold_kept (s : State) (p : Nat) :
    (State.tryUpHold s p).kept = s.kept := by
  unfold State.tryUpHold
  (try dsimp only)
  (repeat' split) <;> simp [foldl_kept, apply_ite State.kept, *]

@[simp] theorem State.dropLossless_kept (s : State) (p : Nat) :
    (State.dropLossless s p).kept = s.kept := by
  unfold State.dropLossless
  (try dsimp only)
  (repeat' split) <;> simp [foldl_kept, apply_ite State.kept, *]

@[simp] theorem State.abortTx_kept (s : State) (p : Nat) :
    (State.abortTx s p).kept = s.kept := by
  unfold State.abortTx
  (try dsimp only)
  (repeat' split) <;> simp [foldl_kept, apply_ite State.kept, *]

@[simp] theorem State.queuesDown_kept (s : State) (p : Nat) :
    (State.queuesDown s p).kept = s.kept := by
  unfold State.queuesDown
  (try dsimp only)
  (repeat' split) <;> simp [foldl_kept, apply_ite State.kept, *]

@[simp] theorem State.setLsv_kept (s : State) (p : Nat) (b : Bool) :
    (State.setLsv s p b).kept = s.kept := by
  unfold State.setLsv
  (try dsimp only)
  (repeat' split) <;> simp [foldl_kept, apply_ite State.kept, *]

@[simp] theorem State.linkDownEvent_kept (s : State) (p : Nat) (cause : Nat) (lane : Nat) :
    (State.linkDownEvent s p cause lane).kept = s.kept := by
  unfold State.linkDownEvent
  (try dsimp only)
  (repeat' split) <;> simp [foldl_kept, apply_ite State.kept, *]

@[simp] theorem State.downCondition_kept (s : State) (p : Nat) (cause : Nat) (lane : Nat) :
    (State.downCondition s p cause lane).kept = s.kept := by
  unfold State.downCondition
  (try dsimp only)
  (repeat' split) <;> simp [foldl_kept, apply_ite State.kept, *]

@[simp] theorem State.restartBringUp_kept (s : State) (p : Nat) :
    (State.restartBringUp s p).kept = s.kept := by
  unfold State.restartBringUp
  (try dsimp only)
  (repeat' split) <;> simp [foldl_kept, apply_ite State.kept, *]

@[simp] theorem State.countCw_kept (s : State) (p : Nat) (r : CwRun) :
    (State.countCw s p r).kept = s.kept := by
  unfold State.countCw
  (try dsimp only)
  (repeat' split) <;> simp [foldl_kept, apply_ite State.kept, *]

@[simp] theorem State.countCws_kept (s : State) (p : Nat) (rs : List CwRun) :
    (State.countCws s p rs).kept = s.kept := by
  unfold State.countCws
  (try dsimp only)
  (repeat' split) <;> simp [foldl_kept, apply_ite State.kept, *]

@[simp] theorem State.markSight_kept (s : State) (p : Nat) (hit : Bool) (x : Sight) :
    (s.markSight p hit x).kept = s.kept := by
  unfold State.markSight
  (try dsimp only)
  (repeat' split) <;> simp [foldl_kept, apply_ite State.kept, *]

@[simp] theorem State.see_kept (s : State) (p : Nat) (seen : List Sight) : (s.see p seen).kept = s.kept := by
  unfold State.see
  dsimp only
  refine (foldl_kept (fun s m => by simp only [State.markSight_kept]) _ _).trans ?_
  split <;> simp

@[simp] theorem State.deskewTo_kept (s : State) (p : Nat) (aligned : Bool) :
    (State.deskewTo s p aligned).kept = s.kept := by
  unfold State.deskewTo
  (try dsimp only)
  (repeat' split) <;> simp [foldl_kept, apply_ite State.kept, *]

@[simp] theorem State.fomTo_kept (s : State) (lane : Nat) (symbolErrors : Nat) :
    (State.fomTo s lane symbolErrors).kept = s.kept := by
  unfold State.fomTo
  (try dsimp only)
  (repeat' split) <;> simp [foldl_kept, apply_ite State.kept, *]

@[simp] theorem State.retireSecond_kept (s : State) (p : Nat) (line : List SecClass) :
    (State.retireSecond s p line).kept = s.kept := by
  unfold State.retireSecond
  (try dsimp only)
  (repeat' split) <;> simp [foldl_kept, apply_ite State.kept, *]

@[simp] theorem State.portSecond_kept (s : State) (p : Nat) :
    (State.portSecond s p).kept = s.kept := by
  unfold State.portSecond
  (try dsimp only)
  (repeat' split) <;> simp [foldl_kept, apply_ite State.kept, *]

@[simp] theorem State.secondBoundary_kept (s : State) :
    (State.secondBoundary s).kept = s.kept := by
  unfold State.secondBoundary
  (try dsimp only)
  (repeat' split) <;> simp [foldl_kept, apply_ite State.kept, *]

@[simp] theorem State.secondStep_kept (s : State) (ns : Nat) :
    (State.secondStep s ns).kept = s.kept := by
  unfold State.secondStep
  (try dsimp only)
  (repeat' split) <;> simp [foldl_kept, apply_ite State.kept, *]

@[simp] theorem State.modMgmt_kept (s : State) (f : MgmtLink → MgmtLink) :
    (State.modMgmt s f).kept = s.kept := by
  unfold State.modMgmt
  (try dsimp only)
  (repeat' split) <;> simp [foldl_kept, apply_ite State.kept, *]

@[simp] theorem State.elasticGap_kept (s : State) (n : Int) (ds : List Int) :
    (State.elasticGap s n ds).kept = s.kept := by
  unfold State.elasticGap
  (try dsimp only)
  (repeat' split) <;> simp [foldl_kept, apply_ite State.kept, *]

@[simp] theorem State.elasticFrame_kept (s : State) (d : Int) :
    (State.elasticFrame s d).1.kept = s.kept := by
  unfold State.elasticFrame
  (try dsimp only)
  (repeat' split) <;> simp [foldl_kept, apply_ite State.kept, *]

@[simp] theorem State.mgmtDown_kept (s : State) :
    (State.mgmtDown s).kept = s.kept := by
  unfold State.mgmtDown
  (try dsimp only)
  (repeat' split) <;> simp [foldl_kept, apply_ite State.kept, *]

@[simp] theorem State.mgmtUpdate_kept (s : State) :
    (State.mgmtUpdate s).kept = s.kept := by
  unfold State.mgmtUpdate
  (try dsimp only)
  (repeat' split) <;> simp [foldl_kept, apply_ite State.kept, *]

@[simp] theorem State.readContext_kept (s : State) (n : Nat) :
    (State.readContext s n).kept = s.kept := by
  unfold State.readContext
  (try dsimp only)
  (repeat' split) <;> simp [foldl_kept, apply_ite State.kept, *]

@[simp] theorem State.startRing_kept (s : State) (n : Nat) (x : List Byte) :
    (State.startRing s n x).kept = s.kept := by
  unfold State.startRing
  (try dsimp only)
  (repeat' split) <;> simp [foldl_kept, apply_ite State.kept, *]

@[simp] theorem State.releaseBootEvent_kept (s : State) :
    (State.releaseBootEvent s).kept = s.kept := by
  unfold State.releaseBootEvent
  (try dsimp only)
  (repeat' split) <;> simp [foldl_kept, apply_ite State.kept, *]

@[simp] theorem State.askDescs_kept (s : State) (n : Nat) :
    (State.askDescs s n).kept = s.kept := by
  unfold State.askDescs
  (try dsimp only)
  (repeat' split) <;> simp [foldl_kept, apply_ite State.kept, *]

@[simp] theorem State.askProducers_kept (s : State) (fn : Nat) (ns : List Nat) :
    (State.askProducers s fn ns).kept = s.kept := by
  unfold State.askProducers
  (try dsimp only)
  (repeat' split) <;> simp [foldl_kept, apply_ite State.kept, *]

@[simp] theorem State.askSwap_kept (s : State) (fn : Nat) (w : Nat) (bits : W64) :
    (State.askSwap s fn w bits).kept = s.kept := by
  unfold State.askSwap
  (try dsimp only)
  (repeat' split) <;> simp [foldl_kept, apply_ite State.kept, *]

@[simp] theorem State.endSwap_kept (s : State) (fn : Nat) (word : Nat) :
    (State.endSwap s fn word).kept = s.kept := by
  unfold State.endSwap
  (try dsimp only)
  (repeat' split) <;> simp [foldl_kept, apply_ite State.kept, *]

@[simp] theorem State.ringError_kept (s : State) (n : Nat) (cause : Nat) (addr : Nat) :
    (State.ringError s n cause addr).kept = s.kept := by
  unfold State.ringError
  (try dsimp only)
  (repeat' split) <;> simp [foldl_kept, apply_ite State.kept, *]

@[simp] theorem State.haltRing_kept (s : State) (n : Nat) (cause : Nat) (addr : Nat) :
    (State.haltRing s n cause addr).kept = s.kept := by
  unfold State.haltRing
  (try dsimp only)
  (repeat' split) <;> simp [foldl_kept, apply_ite State.kept, *]

@[simp] theorem State.stopRing_kept (s : State) (n : Nat) (cause : Nat) (kind : Nat) (addr : Nat) :
    (State.stopRing s n cause kind addr).kept = s.kept := by
  unfold State.stopRing
  (try dsimp only)
  (repeat' split) <;> simp [foldl_kept, apply_ite State.kept, *]

@[simp] theorem State.postEdge_kept (s : State) (e : Edge) :
    (State.postEdge s e).kept = s.kept := by
  unfold State.postEdge
  (try dsimp only)
  (repeat' split) <;> simp [foldl_kept, apply_ite State.kept, *]

@[simp] theorem State.setEdges_kept (s : State) (n : Nat) (es : List Edge) :
    (State.setEdges s n es).kept = s.kept := by
  unfold State.setEdges
  (try dsimp only)
  (repeat' split) <;> simp [foldl_kept, apply_ite State.kept, *]

@[simp] theorem State.drainInput_kept (s : State) (n : Nat) :
    (State.drainInput s n).kept = s.kept := by
  unfold State.drainInput
  (try dsimp only)
  (repeat' split) <;> simp [foldl_kept, apply_ite State.kept, *]

@[simp] theorem State.drainEdges_kept (s : State) :
    (State.drainEdges s).kept = s.kept := by
  unfold State.drainEdges
  (try dsimp only)
  (repeat' split) <;> simp [foldl_kept, apply_ite State.kept, *]

@[simp] theorem State.setMsix_kept (s : State) (fn : Nat) (vec : Nat) (e : MsixEntry) :
    (State.setMsix s fn vec e).kept = s.kept := by
  unfold State.setMsix
  (try dsimp only)
  (repeat' split) <;> simp [foldl_kept, apply_ite State.kept, *]

@[simp] theorem State.clearMask_kept (s : State) (fn : Nat) (vec : Nat) :
    (State.clearMask s fn vec).kept = s.kept := by
  unfold State.clearMask
  (try dsimp only)
  (repeat' split) <;> simp [foldl_kept, apply_ite State.kept, *]

@[simp] theorem State.killRing_kept (s : State) (n : Nat) :
    (State.killRing s n).kept = s.kept := by
  unfold State.killRing
  (try dsimp only)
  (repeat' split) <;> simp [foldl_kept, apply_ite State.kept, *]

@[simp] theorem State.dropReads_kept (s : State) (fn : Nat) :
    (State.dropReads s fn).kept = s.kept := by
  unfold State.dropReads
  (try dsimp only)
  (repeat' split) <;> simp [foldl_kept, apply_ite State.kept, *]

@[simp] theorem State.resetVf_kept (s : State) (v : Nat) :
    (State.resetVf s v).kept = s.kept := by
  unfold State.resetVf
  (try dsimp only)
  (repeat' split) <;> simp [foldl_kept, apply_ite State.kept, *]

@[simp] theorem State.flrVf_kept (s : State) (v : Nat) :
    (State.flrVf s v).kept = s.kept := by
  unfold State.flrVf
  (try dsimp only)
  (repeat' split) <;> simp [foldl_kept, apply_ite State.kept, *]

@[simp] theorem State.killVf_kept (s : State) (v : Nat) :
    (State.killVf s v).kept = s.kept := by
  unfold State.killVf
  (try dsimp only)
  (repeat' split) <;> simp [foldl_kept, apply_ite State.kept, *]

@[simp] theorem State.rxDrop_kept (s : State) (h : FrameHdr) :
    (State.rxDrop s h).kept = s.kept := by
  unfold State.rxDrop
  (try dsimp only)
  (repeat' split) <;> simp [foldl_kept, apply_ite State.kept, *]

@[simp] theorem State.hostDown_kept (s : State) :
    (State.hostDown s).kept = s.kept := by
  unfold State.hostDown
  (try dsimp only)
  (repeat' split) <;> simp [foldl_kept, apply_ite State.kept, *]

@[simp] theorem State.resumeFn_kept (s : State) (fn : Nat) :
    (State.resumeFn s fn).kept = s.kept := by
  unfold State.resumeFn
  (try dsimp only)
  (repeat' split) <;> simp [foldl_kept, apply_ite State.kept, *]

@[simp] theorem State.returnHeadTx_kept (s : State) (n : Nat) (status : Nat) :
    (State.returnHeadTx s n status).kept = s.kept := by
  unfold State.returnHeadTx
  (try dsimp only)
  (repeat' split) <;> simp [foldl_kept, apply_ite State.kept, *]

@[simp] theorem State.svcTake_kept (s : State) (tag : Nat) (n : Nat) :
    (State.svcTake s tag n).1.kept = s.kept := by
  unfold State.svcTake
  (try dsimp only)
  (repeat' split) <;> simp [foldl_kept, apply_ite State.kept, *]

@[simp] theorem State.svcGive_kept (s : State) (key : Nat) (tag : Nat) :
    (State.svcGive s key tag).kept = s.kept := by
  unfold State.svcGive
  (try dsimp only)
  (repeat' split) <;> simp [foldl_kept, apply_ite State.kept, *]

@[simp] theorem accStep_kept (tag bytes : Nat) (a : State × Option (List Nat)) :
    (accStep tag bytes a).1.kept = a.1.kept := by
  unfold accStep
  split
  · rfl
  · dsimp only
    split <;> simp [foldl_kept]

@[simp] theorem State.takeAccs_kept (s : State) (tag bytes n : Nat) : (s.takeAccs tag bytes n).1.kept = s.kept := by
  unfold State.takeAccs
  suffices H : ∀ (l : List Nat) (a : State × Option (List Nat)),
      (l.foldl (fun a _ => accStep tag bytes a) a).1.kept = a.1.kept from H _ _
  intro l
  induction l with
  | nil => intro a; rfl
  | cons y l ih => intro a; simp [ih]

@[simp] theorem State.enableChan_kept (s : State) (c : Nat) : (s.enableChan c).1.kept = s.kept := by
  unfold State.enableChan
  dsimp only
  (repeat' split) <;> simp

@[simp] theorem State.freeChan_kept (s : State) (c : Nat) :
    (State.freeChan s c).kept = s.kept := by
  unfold State.freeChan
  (try dsimp only)
  (repeat' split) <;> simp [foldl_kept, apply_ite State.kept, *]

@[simp] theorem State.applyMap_kept (s : State) (k : Nat) :
    (State.applyMap s k).kept = s.kept := by
  unfold State.applyMap
  (try dsimp only)
  (repeat' split) <;> simp [foldl_kept, apply_ite State.kept, *]

@[simp] theorem State.portOffLatch_kept (s : State) (p : Nat) :
    (State.portOffLatch s p).kept = s.kept := by
  unfold State.portOffLatch
  (try dsimp only)
  (repeat' split) <;> simp [foldl_kept, apply_ite State.kept, *]

@[simp] theorem State.latchTelem_kept (s : State) (k : Nat) :
    (State.latchTelem s k).kept = s.kept := by
  unfold State.latchTelem
  (try dsimp only)
  (repeat' split) <;> simp [foldl_kept, apply_ite State.kept, *]

@[simp] theorem State.offActions_kept (s : State) (cls : Nat) (inst : Nat) :
    (State.offActions s cls inst).kept = s.kept := by
  unfold State.offActions
  (try dsimp only)
  (repeat' split) <;> simp [foldl_kept, apply_ite State.kept, *]

@[simp] theorem State.trimCell_kept (s : State) (keep : List Nat) (e : Nat × Nat) :
    (State.trimCell s keep e).kept = s.kept := by
  unfold State.trimCell
  (try dsimp only)
  (repeat' split) <;> simp [foldl_kept, apply_ite State.kept, *]

@[simp] theorem State.discardQueue_kept (s : State) (q : Nat) :
    (State.discardQueue s q).1.kept = s.kept := by
  unfold State.discardQueue
  (try dsimp only)
  (repeat' split) <;> simp [foldl_kept, apply_ite State.kept, *]

@[simp] theorem State.discardOwn_kept (s : State) (cls : Nat) (inst : Nat) :
    (State.discardOwn s cls inst).1.kept = s.kept := by
  unfold State.discardOwn
  (try dsimp only)
  (repeat' split) <;> simp [foldl_kept, apply_ite State.kept, *]

@[simp] theorem State.discardWork_kept (s : State) (cls inst : Nat) : (s.discardWork cls inst).1.kept = s.kept := by
  unfold State.discardWork
  suffices H : ∀ (l : List (Nat × Nat)) (a : State × Nat), (l.foldl (fun a f =>
      let r := a.1.discardOwn f.1 f.2
      (r.1, a.2 + r.2)) a).1.kept = a.1.kept by simp [H]
  intro l
  induction l with
  | nil => intro a; rfl
  | cons y l ih => intro a; simp [ih]

@[simp] theorem State.enterOff_kept (s : State) (cls : Nat) (inst : Nat) (outcome : Nat) :
    (State.enterOff s cls inst outcome).kept = s.kept := by
  unfold State.enterOff
  (try dsimp only)
  (repeat' split) <;> simp [foldl_kept, apply_ite State.kept, *]

@[simp] theorem State.addDiscards_kept (s : State) (cls : Nat) (inst : Nat) (n : Nat) :
    (State.addDiscards s cls inst n).kept = s.kept := by
  unfold State.addDiscards
  (try dsimp only)
  (repeat' split) <;> simp [foldl_kept, apply_ite State.kept, *]

@[simp] theorem State.timeOut_kept (s : State) (cls inst : Nat) : (s.timeOut cls inst).kept = s.kept := by
  unfold State.timeOut
  split <;> simp

@[simp] theorem State.drainEnds_kept (s : State) (cls : Nat) (inst : Nat) :
    (State.drainEnds s cls inst).kept = s.kept := by
  unfold State.drainEnds
  (try dsimp only)
  (repeat' split) <;> simp [foldl_kept, apply_ite State.kept, *]

@[simp] theorem State.beginDrain_kept (s : State) (cls : Nat) (inst : Nat) (timeout : Nat) (byPhase : Bool) :
    (State.beginDrain s cls inst timeout byPhase).kept = s.kept := by
  unfold State.beginDrain
  (try dsimp only)
  (repeat' split) <;> simp [foldl_kept, apply_ite State.kept, *]

@[simp] theorem State.disableFn_kept (s : State) (cls : Nat) (inst : Nat) (timeout : Nat) (byPhase : Bool) :
    (State.disableFn s cls inst timeout byPhase).1.kept = s.kept := by
  unfold State.disableFn
  (try dsimp only)
  (repeat' split) <;> simp [foldl_kept, apply_ite State.kept, *]

@[simp] theorem State.turnOn_kept (s : State) (cls : Nat) (inst : Nat) :
    (State.turnOn s cls inst).kept = s.kept := by
  unfold State.turnOn
  (try dsimp only)
  (repeat' split) <;> simp [foldl_kept, apply_ite State.kept, *]

@[simp] theorem State.enableOff_kept (s : State) (cls : Nat) (inst : Nat) (ctx : HostRead) (bc : Option BcCfg) :
    (State.enableOff s cls inst ctx bc).1.kept = s.kept := by
  unfold State.enableOff
  (try dsimp only)
  (repeat' split) <;> simp [foldl_kept, apply_ite State.kept, *]

@[simp] theorem State.raiseSetpoints_kept (s : State) :
    (State.raiseSetpoints s).kept = s.kept := by
  unfold State.raiseSetpoints
  (try dsimp only)
  (repeat' split) <;> simp [foldl_kept, apply_ite State.kept, *]

@[simp] theorem State.lowerSetpoints_kept (s : State) :
    (State.lowerSetpoints s).kept = s.kept := by
  unfold State.lowerSetpoints
  (try dsimp only)
  (repeat' split) <;> simp [foldl_kept, apply_ite State.kept, *]

@[simp] theorem State.tempoBoundary_kept (s : State) :
    (State.tempoBoundary s).kept = s.kept := by
  unfold State.tempoBoundary
  (try dsimp only)
  (repeat' split) <;> simp [foldl_kept, apply_ite State.kept, *]

@[simp] theorem State.phaseEngine_kept (s : State) (e : Nat) :
    (State.phaseEngine s e).kept = s.kept := by
  unfold State.phaseEngine
  (try dsimp only)
  (repeat' split) <;> simp [foldl_kept, apply_ite State.kept, *]

@[simp] theorem State.applyPhase_kept (s : State) (x : Nat × Nat × Option (Nat × BitVec 32)) :
    (State.applyPhase s x).kept = s.kept := by
  unfold State.applyPhase
  (try dsimp only)
  (repeat' split) <;> simp [foldl_kept, apply_ite State.kept, *]

@[simp] theorem State.phaseBoundary_kept (s : State) :
    (State.phaseBoundary s).kept = s.kept := by
  unfold State.phaseBoundary
  (try dsimp only)
  (repeat' split) <;> simp [foldl_kept, apply_ite State.kept, *]

@[simp] theorem State.askPhase_kept (s : State) (k : Nat) (origin : Nat) (cmd : Option (Nat × BitVec 32)) :
    (State.askPhase s k origin cmd).kept = s.kept := by
  unfold State.askPhase
  (try dsimp only)
  (repeat' split) <;> simp [foldl_kept, apply_ite State.kept, *]

@[simp] theorem State.schedApply_kept (s : State) :
    (State.schedApply s).kept = s.kept := by
  unfold State.schedApply
  (try dsimp only)
  (repeat' split) <;> simp [foldl_kept, apply_ite State.kept, *]

@[simp] theorem State.latchPower_kept (s : State) :
    (State.latchPower s).kept = s.kept := by
  unfold State.latchPower
  (try dsimp only)
  (repeat' split) <;> simp [foldl_kept, apply_ite State.kept, *]

@[simp] theorem State.jobRuns_kept (s : State) (job : Nat) :
    (State.jobRuns s job).kept = s.kept := by
  unfold State.jobRuns
  (try dsimp only)
  (repeat' split) <;> simp [foldl_kept, apply_ite State.kept, *]

theorem every_kept (job : Nat) (d : Tick) {f : State → State} (h : ∀ s, (f s).kept = s.kept) (s : State) :
    (every job d f s).kept = s.kept := by
  unfold every
  split <;> simp [h]

@[simp] theorem State.raiseBy_kept (s : State) (i : Nat) (n : Nat) :
    (State.raiseBy s i n).kept = s.kept := by
  unfold State.raiseBy
  (try dsimp only)
  (repeat' split) <;> simp [foldl_kept, apply_ite State.kept, *]

@[simp] theorem State.bootSetpoints_kept (s : State) :
    (State.bootSetpoints s).kept = s.kept := by
  unfold State.bootSetpoints
  (try dsimp only)
  (repeat' split) <;> simp [foldl_kept, apply_ite State.kept, *]

@[simp] theorem State.watchEst_kept (s : State) :
    (State.watchEst s).kept = s.kept := by
  unfold State.watchEst
  (try dsimp only)
  (repeat' split) <;> simp [foldl_kept, apply_ite State.kept, *]

@[simp] theorem State.stompTx_kept (s : State) (p : Nat) (fid : Nat) (c : Nat) :
    (State.stompTx s p fid c).kept = s.kept := by
  unfold State.stompTx
  (try dsimp only)
  (repeat' split) <;> simp [foldl_kept, apply_ite State.kept, *]

@[simp] theorem State.judgeFrame_kept (s : State) (q : Nat) (fid : Nat) :
    (State.judgeFrame s q fid).kept = s.kept := by
  unfold State.judgeFrame
  (try dsimp only)
  (repeat' split) <;> simp [foldl_kept, apply_ite State.kept, *]

@[simp] theorem State.cutLost_kept (s : State) (q : Nat) (fid : Nat) :
    (State.cutLost s q fid).kept = s.kept := by
  unfold State.cutLost
  (try dsimp only)
  (repeat' split) <;> simp [foldl_kept, apply_ite State.kept, *]

@[simp] theorem State.takePos_kept (s : State) (e : Nat) (port : Nat) (fids : List Nat) (r : CellRef) (skip : Bool) :
    (State.takePos s e port fids r skip).kept = s.kept := by
  unfold State.takePos
  (try dsimp only)
  (repeat' split) <;> simp [foldl_kept, apply_ite State.kept, *]

@[simp] theorem State.takeFrame'_kept (s : State) (e : Nat) (p : Nat) (fid : Nat) :
    (State.takeFrame' s e p fid).kept = s.kept := by
  unfold State.takeFrame'
  (try dsimp only)
  (repeat' split) <;> simp [foldl_kept, apply_ite State.kept, *]

@[simp] theorem State.takeAll_kept (s : State) (e : Nat) :
    (State.takeAll s e).kept = s.kept := by
  unfold State.takeAll
  (try dsimp only)
  (repeat' split) <;> simp [foldl_kept, apply_ite State.kept, *]

@[simp] theorem State.takeDiscards_kept (s : State) (e : Nat) :
    (State.takeDiscards s e).kept = s.kept := by
  unfold State.takeDiscards
  (try dsimp only)
  (repeat' split) <;> simp [foldl_kept, apply_ite State.kept, *]

@[simp] theorem State.markLate_kept (s : State) (q : Nat) (fids : List Nat) :
    (State.markLate s q fids).kept = s.kept := by
  unfold State.markLate
  (try dsimp only)
  (repeat' split) <;> simp [foldl_kept, apply_ite State.kept, *]

@[simp] theorem State.readPos_kept (s : State) (e : Nat) (p : PullPos) (c : Cell) :
    (State.readPos s e p c).1.kept = s.kept := by
  unfold State.readPos
  (try dsimp only)
  (repeat' split) <;> simp [foldl_kept, apply_ite State.kept, *]

@[simp] theorem State.passHead_kept (s : State) (e : Nat) :
    (State.passHead s e).kept = s.kept := by
  unfold State.passHead
  (try dsimp only)
  (repeat' split) <;> simp [foldl_kept, apply_ite State.kept, *]

@[simp] theorem passCells_kept (e n : Nat) (s : State) : (passCells e n s).kept = s.kept := by
  induction n generalizing s with
  | zero => rfl
  | succ n ih =>
    unfold passCells
    split
    · rfl
    · split
      · simp [ih]
      · rfl

@[simp] theorem State.moveCells_kept (s : State) (e : Nat) :
    (State.moveCells s e).kept = s.kept := by
  unfold State.moveCells
  (try dsimp only)
  (repeat' split) <;> simp [foldl_kept, apply_ite State.kept, *]

@[simp] theorem State.pullArrive_kept (s : State) (e : Nat) (pos : Nat) (c : Cell) :
    (State.pullArrive s e pos c).kept = s.kept := by
  unfold State.pullArrive
  (try dsimp only)
  (repeat' split) <;> simp [foldl_kept, apply_ite State.kept, *]

@[simp] theorem State.creditShapers_kept (s : State) (q : Nat) (n : Nat) :
    (State.creditShapers s q n).kept = s.kept := by
  unfold State.creditShapers
  (try dsimp only)
  (repeat' split) <;> simp [foldl_kept, apply_ite State.kept, *]

@[simp] theorem State.linkSeg_kept (s : State) (q : Nat) (c : Cell) (r : CellRef) (g : Seg) :
    (State.linkSeg s q c r g).kept = s.kept := by
  unfold State.linkSeg
  (try dsimp only)
  (repeat' split) <;> simp [foldl_kept, apply_ite State.kept, *]

@[simp] theorem State.noteDepth_kept (s : State) (e : Nat) (q : Nat) :
    (State.noteDepth s e q).kept = s.kept := by
  unfold State.noteDepth
  (try dsimp only)
  (repeat' split) <;> simp [foldl_kept, apply_ite State.kept, *]

@[simp] theorem State.linkCell_kept (s : State) (e : Nat) (c : Ctx) (r : CellRef) :
    (State.linkCell s e c r).1.kept = s.kept := by
  unfold State.linkCell
  (try dsimp only)
  (repeat' split) <;> simp [foldl_kept, apply_ite State.kept, *]

@[simp] theorem State.setCtxOut_kept (s : State) (e : Nat) (k : Nat) (x : CtxOut) :
    (State.setCtxOut s e k x).kept = s.kept := by
  unfold State.setCtxOut
  (try dsimp only)
  (repeat' split) <;> simp [foldl_kept, apply_ite State.kept, *]

@[simp] theorem State.gapFrame_kept (s : State) (q : Nat) (run : Option Nat) :
    (State.gapFrame s q run).kept = s.kept := by
  unfold State.gapFrame
  (try dsimp only)
  (repeat' split) <;> simp [foldl_kept, apply_ite State.kept, *]

@[simp] theorem State.linkNext_kept (s : State) (e : Nat) (k : Nat) (c : Ctx) (r : CellRef) :
    (State.linkNext s e k c r).kept = s.kept := by
  unfold State.linkNext
  (try dsimp only)
  (repeat' split) <;> simp [foldl_kept, apply_ite State.kept, *]

@[simp] theorem State.drainParked_kept (e k : Nat) (c : Ctx) (n : Nat) (s : State) :
    (State.drainParked e k c n s).kept = s.kept := by
  induction n generalizing s with
  | zero => rfl
  | succ n ih =>
    unfold State.drainParked
    dsimp only
    split
    · rfl
    · simp [ih]

@[simp] theorem State.drainAll_kept (s : State) (e : Nat) (k : Nat) (c : Ctx) :
    (State.drainAll s e k c).kept = s.kept := by
  unfold State.drainAll
  (try dsimp only)
  (repeat' split) <;> simp [foldl_kept, apply_ite State.kept, *]

@[simp] theorem State.declareGap_kept (s : State) (e : Nat) (k : Nat) (c : Ctx) (w : Nat) :
    (State.declareGap s e k c w).kept = s.kept := by
  unfold State.declareGap
  (try dsimp only)
  (repeat' split) <;> simp [foldl_kept, apply_ite State.kept, *]

@[simp] theorem State.park_kept (s : State) (e : Nat) (k : Nat) (seq : Nat) (slot : Nat) (r : CellRef) :
    (State.park s e k seq slot r).kept = s.kept := by
  unfold State.park
  (try dsimp only)
  (repeat' split) <;> simp [foldl_kept, apply_ite State.kept, *]

@[simp] theorem State.entry_kept (s : State) (e : Nat) (isq : Nat) (c : Ctx) (seq : Nat) (slot : Nat) (r : CellRef) :
    (State.entry s e isq c seq slot r).kept = s.kept := by
  unfold State.entry
  (try dsimp only)
  (repeat' split) <;> simp [foldl_kept, apply_ite State.kept, *]

@[simp] theorem State.settleCell_kept (s : State) (i : Nat) (k : Nat) :
    (State.settleCell s i k).kept = s.kept := by
  unfold State.settleCell
  (try dsimp only)
  (repeat' split) <;> simp [foldl_kept, apply_ite State.kept, *]

@[simp] theorem State.pushXing_kept (s : State) (i : Nat) (lane : Nat) (cs : List RawCell) :
    (State.pushXing s i lane cs).kept = s.kept := by
  unfold State.pushXing
  (try dsimp only)
  (repeat' split) <;> simp [foldl_kept, apply_ite State.kept, *]

@[simp] theorem State.closeCell_kept (s : State) (i : Nat) (lane : Nat) :
    (State.closeCell s i lane).kept = s.kept := by
  unfold State.closeCell
  (try dsimp only)
  (repeat' split) <;> simp [foldl_kept, apply_ite State.kept, *]

@[simp] theorem State.packFrame_kept (s : State) (i : Nat) (lane : Nat) (ctx : Option Ctx) (h : FrameHdr) (p : Parse) (bs : List Byte) (solo : Bool) :
    (State.packFrame s i lane ctx h p bs solo).kept = s.kept := by
  unfold State.packFrame
  (try dsimp only)
  (repeat' split) <;> simp [foldl_kept, apply_ite State.kept, *]

@[simp] theorem State.pfcReceived_kept (s : State) (p : Nat) (vec : Nat) (times : List Nat) :
    (State.pfcReceived s p vec times).kept = s.kept := by
  unfold State.pfcReceived
  (try dsimp only)
  (repeat' split) <;> simp [foldl_kept, apply_ite State.kept, *]

@[simp] theorem State.accept_kept (s : State) (i : Nat) (h : FrameHdr) (q : Nat) (need : Nat) :
    (State.accept s i h q need).kept = s.kept := by
  unfold State.accept
  (try dsimp only)
  (repeat' split) <;> simp [foldl_kept, apply_ite State.kept, *]

@[simp] theorem State.holdFrame_kept (s : State) (i : Nat) (typ : Nat) (h : FrameHdr) (q : Nat) (need : Nat) :
    (State.holdFrame s i typ h q need).1.kept = s.kept := by
  unfold State.holdFrame
  (try dsimp only)
  (repeat' split) <;> simp [foldl_kept, apply_ite State.kept, *]

@[simp] theorem State.takeIn_kept (s : State) (i : Nat) (lane : Nat) (typ : Nat) (owner : Nat) (h : FrameHdr) (c : Ctx) :
    (State.takeIn s i lane typ owner h c).1.kept = s.kept := by
  unfold State.takeIn
  (try dsimp only)
  (repeat' split) <;> simp [foldl_kept, apply_ite State.kept, *]

@[simp] theorem State.setCtxIn_kept (s : State) (i : Nat) (c : Ctx) (x : CtxIn) :
    (State.setCtxIn s i c x).kept = s.kept := by
  unfold State.setCtxIn
  (try dsimp only)
  (repeat' split) <;> simp [foldl_kept, apply_ite State.kept, *]

@[simp] theorem State.numberCell_kept (s : State) (i : Nat) (k : Nat) (c : Ctx) (held : Bool) (kept : Bool) :
    (State.numberCell s i k c held kept).kept = s.kept := by
  unfold State.numberCell
  (try dsimp only)
  (repeat' split) <;> simp [foldl_kept, apply_ite State.kept, *]

@[simp] theorem State.storePiece_kept (s : State) (i typ owner : Nat) (c : Ctx) (held : Bool) (epoch : Nat) (p : Piece) :
    (s.storePiece i typ owner c held epoch p).kept = s.kept := by
  unfold State.storePiece
  dsimp only
  split
  · next he =>
    have hk := congrArg (fun r => r.1.kept) he
    simp only [State.alloc_kept] at hk
    exact hk.symm
  · next he =>
    have hk := congrArg (fun r => r.1.kept) he
    simp only [State.alloc_kept] at hk
    rw [State.modSq_kept, hk]
    split <;> simp

@[simp] theorem State.storeGroup_kept (s : State) (i : Nat) (typ : Nat) (owner : Nat) (g : Group) :
    (State.storeGroup s i typ owner g).kept = s.kept := by
  unfold State.storeGroup
  (try dsimp only)
  (repeat' split) <;> simp [foldl_kept, apply_ite State.kept, *]

@[simp] theorem State.storeGroups_kept (s : State) (i : Nat) (typ : Nat) (owner : Nat) (gs : List Group) :
    (State.storeGroups s i typ owner gs).1.kept = s.kept := by
  unfold State.storeGroups
  (try dsimp only)
  (repeat' split) <;> simp [foldl_kept, apply_ite State.kept, *]

@[simp] theorem State.judge_kept (s : State) (i : Nat) (lane : Nat) (typ : Nat) (owner : Nat) (e : Nat) (h : FrameHdr) (p : Parse) (inj : Bool) :
    (State.judge s i lane typ owner e h p inj).1.kept = s.kept := by
  unfold State.judge
  (try dsimp only)
  (repeat' split) <;> simp [foldl_kept, apply_ite State.kept, *]

@[simp] theorem State.startFrame_kept (s : State) (i : Nat) (lane : Nat) (h : FrameHdr) (p : Parse) (ecc : Option EccErr) :
    (State.startFrame s i lane h p ecc).kept = s.kept := by
  unfold State.startFrame
  (try dsimp only)
  (repeat' split) <;> simp [foldl_kept, apply_ite State.kept, *]

@[simp] theorem State.enterCore_kept (s : State) (i : Nat) (lane : Nat) (ecc : Option EccErr) :
    (State.enterCore s i lane ecc).1.kept = s.kept := by
  unfold State.enterCore
  (try dsimp only)
  (repeat' split) <;> simp [foldl_kept, apply_ite State.kept, *]

@[simp] theorem State.coreTurned_kept (s : State) (i : Nat) (l : Nat) (c : RawCell) :
    (State.coreTurned s i l c).kept = s.kept := by
  unfold State.coreTurned
  (try dsimp only)
  (repeat' split) <;> simp [foldl_kept, apply_ite State.kept, *]

@[simp] theorem State.bwCount_kept (s : State) (p : Nat) (rx : Bool) (len : Nat) :
    (State.bwCount s p rx len).kept = s.kept := by
  unfold State.bwCount
  (try dsimp only)
  (repeat' split) <;> simp [foldl_kept, apply_ite State.kept, *]

@[simp] theorem State.blitzForward_kept (s : State) (port : Nat) (e : Nat) (out : Nat) (cls : Nat) (h : FrameHdr) (p : Parse) (data : List Byte) :
    (State.blitzForward s port e out cls h p data).kept = s.kept := by
  unfold State.blitzForward
  (try dsimp only)
  (repeat' split) <;> simp [foldl_kept, apply_ite State.kept, *]

@[simp] theorem State.noteRxStamp_kept (s : State) (port : Nat) (fid : Nat) (p : Parse) :
    (State.noteRxStamp s port fid p).kept = s.kept := by
  unfold State.noteRxStamp
  (try dsimp only)
  (repeat' split) <;> simp [foldl_kept, apply_ite State.kept, *]

@[simp] theorem State.takeFrame_kept (s : State) (port : Nat) (data : List Byte) (fcsBad : Bool) :
    (State.takeFrame s port data fcsBad).kept = s.kept := by
  unfold State.takeFrame
  (try dsimp only)
  (repeat' split) <;> simp [foldl_kept, apply_ite State.kept, *]

@[simp] theorem State.oversize_kept (s : State) (port : Nat) (data : List Byte) :
    (State.oversize s port data).kept = s.kept := by
  unfold State.oversize
  (try dsimp only)
  (repeat' split) <;> simp [foldl_kept, apply_ite State.kept, *]

@[simp] theorem State.storeWhole_kept (s : State) (i : Nat) (typ : Nat) (owner : Nat) (v : Verdict) (bs : List Byte) :
    (State.storeWhole s i typ owner v bs).kept = s.kept := by
  unfold State.storeWhole
  (try dsimp only)
  (repeat' split) <;> simp [foldl_kept, apply_ite State.kept, *]

@[simp] theorem State.injectTo_kept (s : State) (i : Nat) (typ : Nat) (owner : Nat) (c : Ctx) (h : FrameHdr) (bs : List Byte) :
    (State.injectTo s i typ owner c h bs).1.kept = s.kept := by
  unfold State.injectTo
  (try dsimp only)
  (repeat' split) <;> simp [foldl_kept, apply_ite State.kept, *]

@[simp] theorem State.takeTx_kept (s : State) (n : Nat) (key : Nat) (ch : List (List Byte)) (out : Option (Nat × Nat)) :
    (State.takeTx s n key ch out).kept = s.kept := by
  unfold State.takeTx
  (try dsimp only)
  (repeat' split) <;> simp [foldl_kept, apply_ite State.kept, *]

@[simp] theorem State.injectTx_kept (s : State) (n : Nat) (ch : List (List Byte)) (d : List Byte) (bs : List Byte) (ecc : Option EccErr) :
    (State.injectTx s n ch d bs ecc).kept = s.kept := by
  unfold State.injectTx
  (try dsimp only)
  (repeat' split) <;> simp [foldl_kept, apply_ite State.kept, *]

@[simp] theorem State.flushHostOut_kept (s : State) :
    (State.flushHostOut s).kept = s.kept := by
  unfold State.flushHostOut
  (try dsimp only)
  (repeat' split) <;> simp [foldl_kept, apply_ite State.kept, *]

@[simp] theorem State.flushRedOut_kept (s : State) :
    (State.flushRedOut s).kept = s.kept := by
  unfold State.flushRedOut
  (try dsimp only)
  (repeat' split) <;> simp [foldl_kept, apply_ite State.kept, *]

@[simp] theorem State.fillRx_kept (s : State) (n : Nat) (seg : List Byte) (meta_ : List Byte) (first : Bool) (last : Bool) :
    (State.fillRx s n seg meta_ first last).kept = s.kept := by
  unfold State.fillRx
  (try dsimp only)
  (repeat' split) <;> simp [foldl_kept, apply_ite State.kept, *]

@[simp] theorem State.deliverRx_kept (s : State) (n : Nat) (bs : List Byte) (meta_ : List Byte) :
    (State.deliverRx s n bs meta_).kept = s.kept := by
  unfold State.deliverRx
  (try dsimp only)
  (repeat' split) <;> simp [foldl_kept, apply_ite State.kept, *]

@[simp] theorem State.chargeShapers_kept (s : State) (q : Nat) :
    (State.chargeShapers s q).kept = s.kept := by
  unfold State.chargeShapers
  (try dsimp only)
  (repeat' split) <;> simp [foldl_kept, apply_ite State.kept, *]

@[simp] theorem State.select_kept (s : State) (q : Nat) :
    (State.select s q).kept = s.kept := by
  unfold State.select
  (try dsimp only)
  (repeat' split) <;> simp [foldl_kept, apply_ite State.kept, *]

@[simp] theorem State.readRewrite_kept (s : State) (e : Nat) (f : QFrame) :
    (State.readRewrite s e f).1.kept = s.kept := by
  unfold State.readRewrite
  (try dsimp only)
  (repeat' split) <;> simp [foldl_kept, apply_ite State.kept, *]

@[simp] theorem State.noteDelay_kept (s : State) (e : Nat) (q : Nat) (h : FrameHdr) :
    (State.noteDelay s e q h).kept = s.kept := by
  unfold State.noteDelay
  (try dsimp only)
  (repeat' split) <;> simp [foldl_kept, apply_ite State.kept, *]

@[simp] theorem State.startTx_kept (s : State) (e : Nat) (p : Nat) (q : Nat) (f : QFrame) :
    (State.startTx s e p q f).kept = s.kept := by
  unfold State.startTx
  (try dsimp only)
  (repeat' split) <;> simp [foldl_kept, apply_ite State.kept, *]

@[simp] theorem State.injectBuilt_kept (s : State) (c : Ctx) (h : FrameHdr) (bs : List Byte) :
    (State.injectBuilt s c h bs).kept = s.kept := by
  unfold State.injectBuilt
  (try dsimp only)
  (repeat' split) <;> simp [foldl_kept, apply_ite State.kept, *]

@[simp] theorem State.closePostcards_kept (s : State) (i : Nat) :
    (State.closePostcards s i).kept = s.kept := by
  unfold State.closePostcards
  (try dsimp only)
  (repeat' split) <;> simp [foldl_kept, apply_ite State.kept, *]

@[simp] theorem State.makePostcard_kept (s : State) (i : Nat) (port : Nat) (t : Tx) (len : Nat) (stomped : Bool) :
    (State.makePostcard s i port t len stomped).kept = s.kept := by
  unfold State.makePostcard
  (try dsimp only)
  (repeat' split) <;> simp [foldl_kept, apply_ite State.kept, *]

@[simp] theorem State.sampleHit_kept (s : State) (i : Nat) (port : Nat) :
    (State.sampleHit s i port).1.kept = s.kept := by
  unfold State.sampleHit
  (try dsimp only)
  (repeat' split) <;> simp [foldl_kept, apply_ite State.kept, *]

@[simp] theorem State.telemAt_kept (s : State) (port : Nat) (t : Tx) (len : Nat) (stomped : Bool) :
    (State.telemAt s port t len stomped).kept = s.kept := by
  unfold State.telemAt
  (try dsimp only)
  (repeat' split) <;> simp [foldl_kept, apply_ite State.kept, *]

@[simp] theorem State.blitzLook_kept (s : State) (i : Nat) (b : BlitzRec) (ecc : Option EccErr) :
    (State.blitzLook s i b ecc).1.kept = s.kept := by
  unfold State.blitzLook
  (try dsimp only)
  (repeat' split) <;> simp [foldl_kept, apply_ite State.kept, *]

@[simp] theorem State.countBlitz_kept (s : State) (b : BlitzRec) :
    (State.countBlitz s b).kept = s.kept := by
  unfold State.countBlitz
  (try dsimp only)
  (repeat' split) <;> simp [foldl_kept, apply_ite State.kept, *]

@[simp] theorem State.blitzTelem_kept (s : State) (b : BlitzRec) (telem : Nat) (good : Bool) :
    (State.blitzTelem s b telem good).kept = s.kept := by
  unfold State.blitzTelem
  (try dsimp only)
  (repeat' split) <;> simp [foldl_kept, apply_ite State.kept, *]

@[simp] theorem State.blitzEnded_kept (s : State) (p : Nat) (t : Tx) (len : Nat) (stomped : Bool) :
    (State.blitzEnded s p t len stomped).kept = s.kept := by
  unfold State.blitzEnded
  (try dsimp only)
  (repeat' split) <;> simp [foldl_kept, apply_ite State.kept, *]

@[simp] theorem State.addTrailer_kept (s : State) (port : Nat) (t : Tx) (bs : List Byte) :
    (State.addTrailer s port t bs).1.kept = s.kept := by
  unfold State.addTrailer
  (try dsimp only)
  (repeat' split) <;> simp [foldl_kept, apply_ite State.kept, *]

@[simp] theorem State.judgeGates_kept (s : State) (p : Nat) (ns : Nat) :
    (State.judgeGates s p ns).kept = s.kept := by
  unfold State.judgeGates
  (try dsimp only)
  (repeat' split) <;> simp [foldl_kept, apply_ite State.kept, *]

@[simp] theorem State.countOverrun_kept (s : State) (p : Nat) (t : Tx) :
    (State.countOverrun s p t).kept = s.kept := by
  unfold State.countOverrun
  (try dsimp only)
  (repeat' split) <;> simp [foldl_kept, apply_ite State.kept, *]

@[simp] theorem State.leavePort_kept (s : State) (p : Nat) (t : Tx) (bs : List Byte) (stomped : Bool) :
    (State.leavePort s p t bs stomped).kept = s.kept := by
  unfold State.leavePort
  (try dsimp only)
  (repeat' split) <;> simp [foldl_kept, apply_ite State.kept, *]

@[simp] theorem State.reportEnd_kept (s : State) (p : Nat) (t : Tx) (stomped : Bool) :
    (State.reportEnd s p t stomped).kept = s.kept := by
  unfold State.reportEnd
  (try dsimp only)
  (repeat' split) <;> simp [foldl_kept, apply_ite State.kept, *]

@[simp] theorem State.endTx_kept (s : State) (p : Nat) (t : Tx) :
    (State.endTx s p t).kept = s.kept := by
  unfold State.endTx
  (try dsimp only)
  (repeat' split) <;> simp [foldl_kept, apply_ite State.kept, *]

@[simp] theorem State.bwPort_kept (s : State) (p : Nat) (fin : Nat) :
    (State.bwPort s p fin).kept = s.kept := by
  unfold State.bwPort
  (try dsimp only)
  (repeat' split) <;> simp [foldl_kept, apply_ite State.kept, *]

@[simp] theorem State.bwWindow_kept (s : State) (fin : Nat) (now : Nat) :
    (State.bwWindow s fin now).kept = s.kept := by
  unfold State.bwWindow
  (try dsimp only)
  (repeat' split) <;> simp [foldl_kept, apply_ite State.kept, *]

@[simp] theorem tick_kept (s : State) :
    (tick s).kept = s.kept := by
  unfold tick
  (try dsimp only)
  (repeat' split) <;> simp [foldl_kept, apply_ite State.kept, *]

@[simp] theorem State.jump_kept (s : State) (new : Tick) (sub : Nat) :
    (State.jump s new sub).kept = s.kept := by
  unfold State.jump
  (try dsimp only)
  (repeat' split) <;> simp [foldl_kept, apply_ite State.kept, *]

@[simp] theorem State.setFreq_kept (s : State) (v : Int) :
    (State.setFreq s v).kept = s.kept := by
  unfold State.setFreq
  (try dsimp only)
  (repeat' split) <;> simp [foldl_kept, apply_ite State.kept, *]

@[simp] theorem State.startSlew_kept (s : State) (d : Int) :
    (State.startSlew s d).kept = s.kept := by
  unfold State.startSlew
  (try dsimp only)
  (repeat' split) <;> simp [foldl_kept, apply_ite State.kept, *]

@[simp] theorem State.chooseRef_kept (s : State) :
    (State.chooseRef s).kept = s.kept := by
  unfold State.chooseRef
  (try dsimp only)
  (repeat' split) <;> simp [foldl_kept, apply_ite State.kept, *]

@[simp] theorem State.useRef_kept (s : State) :
    (State.useRef s).kept = s.kept := by
  unfold State.useRef
  (try dsimp only)
  (repeat' split) <;> simp [foldl_kept, apply_ite State.kept, *]

@[simp] theorem State.setPresent_kept (s : State) (isTimeclk : Bool) (k : Nat) (b : Bool) :
    (State.setPresent s isTimeclk k b).kept = s.kept := by
  unfold State.setPresent
  (try dsimp only)
  (repeat' split) <;> simp [foldl_kept, apply_ite State.kept, *]

@[simp] theorem State.takeEdge_kept (s : State) (n : Nat) (falling : Bool) :
    (State.takeEdge s n falling).kept = s.kept := by
  unfold State.takeEdge
  (try dsimp only)
  (repeat' split) <;> simp [foldl_kept, apply_ite State.kept, *]

@[simp] theorem State.takePps_kept (s : State) (n : Nat) (falling : Bool) :
    (State.takePps s n falling).kept = s.kept := by
  unfold State.takePps
  (try dsimp only)
  (repeat' split) <;> simp [foldl_kept, apply_ite State.kept, *]

@[simp] theorem State.setPps_kept (s : State) (k : Nat) (x : Pps) :
    (State.setPps s k x).kept = s.kept := by
  unfold State.setPps
  (try dsimp only)
  (repeat' split) <;> simp [foldl_kept, apply_ite State.kept, *]

@[simp] theorem State.latchPps_kept (s : State) (k : Nat) :
    (State.latchPps s k).kept = s.kept := by
  unfold State.latchPps
  (try dsimp only)
  (repeat' split) <;> simp [foldl_kept, apply_ite State.kept, *]

@[simp] theorem State.steer_kept (s : State) (x : Steer) :
    (State.steer s x).kept = s.kept := by
  unfold State.steer
  (try dsimp only)
  (repeat' split) <;> simp [foldl_kept, apply_ite State.kept, *]

@[simp] theorem State.dropStamp_kept (s : State) (fid : Nat) :
    (State.dropStamp s fid).kept = s.kept := by
  unfold State.dropStamp
  (try dsimp only)
  (repeat' split) <;> simp [foldl_kept, apply_ite State.kept, *]

@[simp] theorem State.takePtp_kept (s : State) (f : WholeFrame) (newState : Nat) (clockClass : Nat) (x : Steer) :
    (State.takePtp s f newState clockClass x).kept = s.kept := by
  unfold State.takePtp
  (try dsimp only)
  (repeat' split) <;> simp [foldl_kept, apply_ite State.kept, *]

@[simp] theorem State.sendBc_kept (s : State) (m : BcDue) :
    (State.sendBc s m).kept = s.kept := by
  unfold State.sendBc
  (try dsimp only)
  (repeat' split) <;> simp [foldl_kept, apply_ite State.kept, *]

@[simp] theorem State.bcDue_kept (s : State) (m : BcDue) :
    (State.bcDue s m).kept = s.kept := by
  unfold State.bcDue
  (try dsimp only)
  (repeat' split) <;> simp [foldl_kept, apply_ite State.kept, *]

@[simp] theorem State.flushBc_kept (s : State) :
    (State.flushBc s).kept = s.kept := by
  unfold State.flushBc
  (try dsimp only)
  (repeat' split) <;> simp [foldl_kept, apply_ite State.kept, *]

@[simp] theorem State.modSlot_kept (s : State) (k : Nat) (f : SlotSt → SlotSt) :
    (State.modSlot s k f).kept = s.kept := by
  unfold State.modSlot
  (try dsimp only)
  (repeat' split) <;> simp [foldl_kept, apply_ite State.kept, *]

@[simp] theorem State.endCastle_kept (s : State) (k : Nat) (reason : Nat) (tlv : Nat) :
    (State.endCastle s k reason tlv).kept = s.kept := by
  unfold State.endCastle
  (try dsimp only)
  (repeat' split) <;> simp [foldl_kept, apply_ite State.kept, *]

@[simp] theorem State.declineCastle_kept (s : State) (reason : Nat) (tlv : Nat) :
    (State.declineCastle s reason tlv).kept = s.kept := by
  unfold State.declineCastle
  (try dsimp only)
  (repeat' split) <;> simp [foldl_kept, apply_ite State.kept, *]

@[simp] theorem State.freshServices_kept (s : State) (known : List Nat) :
    (State.freshServices s known).kept = s.kept := by
  unfold State.freshServices
  (try dsimp only)
  (repeat' split) <;> simp [foldl_kept, apply_ite State.kept, *]

@[simp] theorem State.castleOn_kept (s : State) :
    (State.castleOn s).kept = s.kept := by
  unfold State.castleOn
  (try dsimp only)
  (repeat' split) <;> simp [foldl_kept, apply_ite State.kept, *]

@[simp] theorem State.writeMap_kept (s : State) (k : Nat) (isRate : Bool) (v : Reg) :
    (State.writeMap s k isRate v).kept = s.kept := by
  unfold State.writeMap
  (try dsimp only)
  (repeat' split) <;> simp [foldl_kept, apply_ite State.kept, *]

@[simp] theorem State.afterSquare_kept (s : State) (k : Nat) (o : Nat) :
    (State.afterSquare s k o).kept = s.kept := by
  unfold State.afterSquare
  (try dsimp only)
  (repeat' split) <;> simp [foldl_kept, apply_ite State.kept, *]

@[simp] theorem State.afterGlobal_kept (s : State) (a : Nat) :
    (State.afterGlobal s a).kept = s.kept := by
  unfold State.afterGlobal
  (try dsimp only)
  (repeat' split) <;> simp [foldl_kept, apply_ite State.kept, *]

@[simp] theorem State.writeRow_kept (s : State) (r : RegRow) (a : Nat) (v : Reg) :
    (State.writeRow s r a v).kept = s.kept := by
  unfold State.writeRow
  (try dsimp only)
  (repeat' split) <;> simp [foldl_kept, apply_ite State.kept, *]

@[simp] theorem State.writeReg_kept (s : State) (a : Nat) (v : Reg) (h : a ≠ 0x20) :
    (s.writeReg a v).kept = s.kept := by
  unfold State.writeReg
  split
  · simp
  · rw [if_neg h]
    exact kept_ite (kept_ite (by simp) rfl) (kept_ite (kept_ite (by simp) rfl) (kept_ite rfl (kept_ite (by simp)
      (kept_ite (kept_ite (by simp) (kept_ite (by simp) (kept_ite (kept_ite (by simp) rfl)
        (kept_ite (kept_ite (by simp) rfl) (by simp))))) (by simp)))))

@[simp] theorem State.hostWriteReg_kept (s : State) (a : Nat) (v : Reg) (be : BitVec 4) (h : a ≠ 0x20) :
    (s.hostWriteReg a v be).kept = s.kept := by
  unfold State.hostWriteReg
  (repeat' split) <;> simp [h]

@[simp] theorem State.broadcast_kept (s : State) (o : Nat) (v : Reg) (be : BitVec 4) :
    (s.broadcast o v be).kept = s.kept := by
  unfold State.broadcast
  split
  · split <;> simp
  · refine foldl_kept (fun s k => State.hostWriteReg_kept s _ v be ?_) _ _
    simp only [A.sq]
    omega

@[simp] theorem State.loadRecov_kept (s : State) :
    (State.loadRecov s).kept = s.kept := by
  unfold State.loadRecov
  (try dsimp only)
  (repeat' split) <;> simp [foldl_kept, apply_ite State.kept, *]

@[simp] theorem State.startRef_kept (s : State) :
    (State.startRef s).kept = s.kept := by
  unfold State.startRef
  (try dsimp only)
  (repeat' split) <;> simp [foldl_kept, apply_ite State.kept, *]

@[simp] theorem Nv.setCopy_kept (n : Nv) (k : Nat) (x : Option Snap) : (n.setCopy k x).kept = n.kept := by
  unfold Nv.setCopy
  split <;> simp

@[simp] theorem State.restore_kept (s : State) (x : Snap) : (s.restore x).kept = s.kept := by
  unfold State.restore
  have h : ∀ (s : State) (e : Nat × Reg), (if savedReg e.1 then s.writeReg e.1 e.2 else s).kept = s.kept := by
    intro s e
    split
    · next hs =>
      refine State.writeReg_kept s e.1 e.2 fun he => ?_
      simp [he, savedReg] at hs
    · rfl
  simp [foldl_kept h]

@[simp] theorem State.restoreStep_kept (s : State) : s.restoreStep.kept = s.kept := by
  unfold State.restoreStep
  split
  · split
    · split <;> simp
    · simp
  · rfl

@[simp] theorem State.outvote_kept (s : State) (c : Nat) (detail : Nat) (boundary : Bool) :
    (State.outvote s c detail boundary).kept = s.kept := by
  unfold State.outvote
  (try dsimp only)
  (repeat' split) <;> simp [foldl_kept, apply_ite State.kept, *]

@[simp] theorem State.noMajority_kept (s : State) (k : HoldKind) :
    (State.noMajority s k).kept = s.kept := by
  unfold State.noMajority
  (try dsimp only)
  (repeat' split) <;> simp [foldl_kept, apply_ite State.kept, *]

@[simp] theorem drainLane_kept (i lane n : Nat) (s : State) : (drainLane i lane n s).kept = s.kept := by
  induction n generalizing s with
  | zero => rfl
  | succ n ih =>
    unfold drainLane
    dsimp only
    split <;> simp [ih]

@[simp] theorem State.closeIdle_kept (s : State) (rows : List (List (Option Nat))) (i : Nat) :
    (s.closeIdle rows i).kept = s.kept := by
  unfold State.closeIdle
  dsimp only
  split
  · exact foldl_kept (fun s l => by simp only [drainLane_kept, State.closeCell_kept]) _ _
  · rfl

@[simp] theorem State.offer_kept (s : State) (x : Send) (bad : Bool) :
    (State.offer s x bad).1.kept = s.kept := by
  unfold State.offer
  (try dsimp only)
  (repeat' split) <;> simp [foldl_kept, apply_ite State.kept, *]

@[simp] theorem State.serve_kept (bad : List (Nat × Nat)) (a : State × List Accepted) (q : Request) :
    (State.serve bad a q).1.kept = a.1.kept := by
  unfold State.serve
  split <;> simp

@[simp] theorem State.serveAll_kept (s : State) (qs : List Request) (bad : List (Nat × Nat)) :
    (s.serveAll qs bad).1.kept = s.kept := by
  unfold State.serveAll
  suffices H : ∀ (l : List Request) (a : State × List Accepted),
      (l.foldl (State.serve bad) a).1.kept = a.1.kept from H _ _
  intro l
  induction l with
  | nil => intro a; rfl
  | cons y l ih => intro a; simp [ih]

@[simp] theorem State.markEager_kept (s : State) (a : Accepted) :
    (State.markEager s a).kept = s.kept := by
  unfold State.markEager
  (try dsimp only)
  (repeat' split) <;> simp [foldl_kept, apply_ite State.kept, *]

@[simp] theorem State.retype_kept (s : State) (a : Accepted) :
    (State.retype s a).kept = s.kept := by
  unfold State.retype
  (try dsimp only)
  (repeat' split) <;> simp [foldl_kept, apply_ite State.kept, *]

@[simp] theorem State.noteEager_kept (s : State) (i : Nat) (c : Cell) :
    (State.noteEager s i c).kept = s.kept := by
  unfold State.noteEager
  (try dsimp only)
  (repeat' split) <;> simp [foldl_kept, apply_ite State.kept, *]

@[simp] theorem State.acked_kept (s : State) (a : Accepted) :
    (State.acked s a).kept = s.kept := by
  unfold State.acked
  (try dsimp only)
  (repeat' split) <;> simp [foldl_kept, apply_ite State.kept, *]

@[simp] theorem State.idleReport_kept (s : State) (i : Nat) (p : Nat) (v : Nat) :
    (State.idleReport s i p v).kept = s.kept := by
  unfold State.idleReport
  (try dsimp only)
  (repeat' split) <;> simp [foldl_kept, apply_ite State.kept, *]

@[simp] theorem State.pullReport_kept (s : State) (i : Nat) (p : Nat) (rs : List PullRec) :
    (State.pullReport s i p rs).kept = s.kept := by
  unfold State.pullReport
  (try dsimp only)
  (repeat' split) <;> simp [foldl_kept, apply_ite State.kept, *]

@[simp] theorem State.arriveReport_kept (s : State) (i : Nat) (p : Nat) (x : Nat × Cell) :
    (State.arriveReport s i p x).kept = s.kept := by
  unfold State.arriveReport
  (try dsimp only)
  (repeat' split) <;> simp [foldl_kept, apply_ite State.kept, *]

@[simp] theorem State.notice_kept (s : State) (idle : List Nat) (i : Nat) (p : Nat) :
    (State.notice s idle i p).kept = s.kept := by
  unfold State.notice
  (try dsimp only)
  (repeat' split) <;> simp [foldl_kept, apply_ite State.kept, *]

@[simp] theorem State.runSlot_kept (s : State) (stalled : List Nat) (crcBad memBad : List (Nat × Nat)) :
    (s.runSlot stalled crcBad memBad).kept = s.kept := by
  unfold State.runSlot
  extract_lets act s0 rows go idle s1 live r0 r pairs s2
  have h0 : s0.kept = s.kept :=
    (foldl_kept State.takeDiscards_kept _ _).trans (foldl_kept State.upsetCell_kept _ _)
  clear_value s0
  have h1 : s1.kept = s0.kept := foldl_kept (fun s i => State.closeIdle_kept s rows i) _ _
  clear_value s1
  have h2 : r0.1.kept = s1.kept := State.serveAll_kept _ _ _
  clear_value r0
  have h3 : r.1.kept = r0.1.kept := (foldl_kept State.retype_kept _ _).trans (foldl_kept State.markEager_kept _ _)
  clear_value r pairs idle
  have h4 : s2.kept = r.1.kept :=
    foldl_kept (f := fun s (e : Nat × Nat) => s.notice idle e.1 e.2) (fun s e => by simp only [State.notice_kept]) _ _
  clear_value s2
  exact (foldl_kept State.acked_kept _ _).trans (h4.trans (h3.trans (h2.trans (h1.trans h0))))

@[simp] theorem State.rotate_kept (s : State) :
    (State.rotate s).kept = s.kept := by
  unfold State.rotate
  (try dsimp only)
  (repeat' split) <;> simp [foldl_kept, apply_ite State.kept, *]

@[simp] theorem State.recordLast_kept (s : State) (i : Nat) :
    (State.recordLast s i).kept = s.kept := by
  unfold State.recordLast
  (try dsimp only)
  (repeat' split) <;> simp [foldl_kept, apply_ite State.kept, *]

@[simp] theorem State.bufLatch_kept (s : State) (m : SMap Reg) :
    (State.bufLatch s m).kept = s.kept := by
  unfold State.bufLatch
  (try dsimp only)
  (repeat' split) <;> simp [foldl_kept, apply_ite State.kept, *]

@[simp] theorem State.toBufState_kept (s : State) (t : Nat) :
    (State.toBufState s t).kept = s.kept := by
  unfold State.toBufState
  (try dsimp only)
  (repeat' split) <;> simp [foldl_kept, apply_ite State.kept, *]

@[simp] theorem State.bufCommand_kept (s : State) (c : BufChange) :
    (State.bufCommand s c).kept = s.kept := by
  unfold State.bufCommand
  (try dsimp only)
  (repeat' split) <;> simp [foldl_kept, apply_ite State.kept, *]

@[simp] theorem State.bufAuto_kept (s : State) (t : Nat) :
    (State.bufAuto s t).kept = s.kept := by
  unfold State.bufAuto
  (try dsimp only)
  (repeat' split) <;> simp [foldl_kept, apply_ite State.kept, *]

@[simp] theorem State.recoveryTrigger_kept (s : State) :
    (State.recoveryTrigger s).kept = s.kept := by
  unfold State.recoveryTrigger
  (try dsimp only)
  (repeat' split) <;> simp [foldl_kept, apply_ite State.kept, *]

@[simp] theorem State.bufAccept_kept (s : State) (t : Nat) :
    (State.bufAccept s t).kept = s.kept := by
  unfold State.bufAccept
  (try dsimp only)
  (repeat' split) <;> simp [foldl_kept, apply_ite State.kept, *]

@[simp] theorem bufStateCmd_kept (v : Nat) (c : Cmd) (s : State) : (bufStateCmd v c s).kept = s.kept := by
  unfold bufStateCmd
  refine runCmd_kept _ _ _ (fun s => ?_) s
  (repeat' split) <;> simp

@[simp] theorem State.bufEndRecovery_kept (s : State) (trigger : Bool) :
    (State.bufEndRecovery s trigger).kept = s.kept := by
  unfold State.bufEndRecovery
  (try dsimp only)
  (repeat' split) <;> simp [foldl_kept, apply_ite State.kept, *]

@[simp] theorem State.bufNextCommand_kept (s : State) :
    (State.bufNextCommand s).kept = s.kept := by
  unfold State.bufNextCommand
  (try dsimp only)
  (repeat' split) <;> simp [foldl_kept, apply_ite State.kept, *]

@[simp] theorem State.bufBoundary_kept (s : State) (trigger : Bool) :
    (State.bufBoundary s trigger).kept = s.kept := by
  unfold State.bufBoundary
  (try dsimp only)
  (repeat' split) <;> simp [foldl_kept, apply_ite State.kept, *]

@[simp] theorem State.capture_kept (s : State) (e : Nat) (c : Claim) :
    (State.capture s e c).kept = s.kept := by
  unfold State.capture
  (try dsimp only)
  (repeat' split) <;> simp [foldl_kept, apply_ite State.kept, *]

@[simp] theorem State.freeLeaked_kept (s : State) (i : Nat) (x : Nat × Cell) :
    (State.freeLeaked s i x).kept = s.kept := by
  unfold State.freeLeaked
  (try dsimp only)
  (repeat' split) <;> simp [foldl_kept, apply_ite State.kept, *]

@[simp] theorem State.audit_kept (s : State) (sq : Nat) (age : Nat) :
    (State.audit s sq age).kept = s.kept := by
  unfold State.audit
  (try dsimp only)
  (repeat' split) <;> simp [foldl_kept, apply_ite State.kept, *]

@[simp] theorem State.moveAttachments_kept (s : State) :
    (State.moveAttachments s).kept = s.kept := by
  unfold State.moveAttachments
  (try dsimp only)
  (repeat' split) <;> simp [foldl_kept, apply_ite State.kept, *]

@[simp] theorem State.loseQueue_kept (s : State) (i : Nat) (q : Nat) :
    (State.loseQueue s i q).kept = s.kept := by
  unfold State.loseQueue
  (try dsimp only)
  (repeat' split) <;> simp [foldl_kept, apply_ite State.kept, *]

@[simp] theorem State.removedPort_kept (s : State) (p : Nat) :
    (State.removedPort s p).kept = s.kept := by
  unfold State.removedPort
  (try dsimp only)
  (repeat' split) <;> simp [foldl_kept, apply_ite State.kept, *]

@[simp] theorem State.chargeRemoval_kept (s : State) (i : Nat) (ports : List Nat) :
    (State.chargeRemoval s i ports).kept = s.kept := by
  unfold State.chargeRemoval
  (try dsimp only)
  (repeat' split) <;> simp [foldl_kept, apply_ite State.kept, *]

@[simp] theorem State.removedFn_kept (s : State) (f : Nat × Nat) (units : Nat) :
    (State.removedFn s f units).kept = s.kept := by
  unfold State.removedFn
  (try dsimp only)
  (repeat' split) <;> simp [foldl_kept, apply_ite State.kept, *]

@[simp] theorem State.clearPort_kept (s : State) (p : Nat) :
    (State.clearPort s p).kept = s.kept := by
  unfold State.clearPort
  (try dsimp only)
  (repeat' split) <;> simp [foldl_kept, apply_ite State.kept, *]

@[simp] theorem State.isoRecord_kept (s : State) (i : Nat) (lost : Nat) (inner : Nat) :
    (State.isoRecord s i lost inner).kept = s.kept := by
  unfold State.isoRecord
  (try dsimp only)
  (repeat' split) <;> simp [foldl_kept, apply_ite State.kept, *]

@[simp] theorem State.removeSquare_kept (s : State) (i : Nat) :
    (State.removeSquare s i).kept = s.kept := by
  unfold State.removeSquare
  (try dsimp only)
  (repeat' split) <;> simp [foldl_kept, apply_ite State.kept, *]

@[simp] theorem State.startOff_kept (s : State) (f : Nat × Nat) :
    (State.startOff s f).kept = s.kept := by
  unfold State.startOff
  (try dsimp only)
  (repeat' split) <;> simp [foldl_kept, apply_ite State.kept, *]

@[simp] theorem State.rejoinSquare_kept (s : State) (i : Nat) :
    (State.rejoinSquare s i).kept = s.kept := by
  unfold State.rejoinSquare
  (try dsimp only)
  (repeat' split) <;> simp [foldl_kept, apply_ite State.kept, *]

@[simp] theorem State.rejoinDue_kept (s : State) :
    (State.rejoinDue s).kept = s.kept := by
  unfold State.rejoinDue
  (try dsimp only)
  (repeat' split) <;> simp [foldl_kept, apply_ite State.kept, *]

@[simp] theorem State.applyX_kept (s : State) :
    (State.applyX s).kept = s.kept := by
  unfold State.applyX
  (try dsimp only)
  (repeat' split) <;> simp [foldl_kept, apply_ite State.kept, *]

@[simp] theorem State.dropBase_kept (s : State) :
    (State.dropBase s).kept = s.kept := by
  unfold State.dropBase
  (try dsimp only)
  (repeat' split) <;> simp [foldl_kept, apply_ite State.kept, *]

@[simp] theorem State.reseed_kept (s : State) (bad : List Nat) (c : Nat) :
    (State.reseed s bad c).kept = s.kept := by
  unfold State.reseed
  (try dsimp only)
  (repeat' split) <;> simp [foldl_kept, apply_ite State.kept, *]

@[simp] theorem State.endSimplex_kept (s : State) :
    (State.endSimplex s).kept = s.kept := by
  unfold State.endSimplex
  (try dsimp only)
  (repeat' split) <;> simp [foldl_kept, apply_ite State.kept, *]

@[simp] theorem State.gapBoundary_kept (s : State) :
    (State.gapBoundary s).kept = s.kept := by
  unfold State.gapBoundary
  (try dsimp only)
  (repeat' split) <;> simp [foldl_kept, apply_ite State.kept, *]

@[simp] theorem State.endDrains_kept (s : State) (i : Nat) :
    (State.endDrains s i).kept = s.kept := by
  unfold State.endDrains
  (try dsimp only)
  (repeat' split) <;> simp [foldl_kept, apply_ite State.kept, *]

@[simp] theorem State.roReset_kept (s : State) (i : Nat) :
    (State.roReset s i).kept = s.kept := by
  unfold State.roReset
  (try dsimp only)
  (repeat' split) <;> simp [foldl_kept, apply_ite State.kept, *]

@[simp] theorem State.zeroCounters_kept (s : State) (i : Nat) :
    (State.zeroCounters s i).kept = s.kept := by
  unfold State.zeroCounters
  (try dsimp only)
  (repeat' split) <;> simp [foldl_kept, apply_ite State.kept, *]

@[simp] theorem State.startMesh_kept (s : State) :
    (State.startMesh s).kept = s.kept := by
  unfold State.startMesh
  (try dsimp only)
  (repeat' split) <;> simp [foldl_kept, apply_ite State.kept, *]

@[simp] theorem State.restartCopied_kept (s : State) (rs : List (Nat × Nat)) :
    (State.restartCopied s rs).kept = s.kept := by
  unfold State.restartCopied
  (try dsimp only)
  (repeat' split) <;> simp [foldl_kept, apply_ite State.kept, *]

@[simp] theorem State.takeSnapshot_kept (s : State) (n : Nat) (set : Nat) (rs : List (Nat × Nat)) (d : List Byte) :
    (State.takeSnapshot s n set rs d).1.kept = s.kept := by
  unfold State.takeSnapshot
  (try dsimp only)
  (repeat' split) <;> simp [foldl_kept, apply_ite State.kept, *]

@[simp] theorem State.startRoutine_kept (s : State) (e : Nat) :
    (State.startRoutine s e).kept = s.kept := by
  unfold State.startRoutine
  (try dsimp only)
  (repeat' split) <;> simp [foldl_kept, apply_ite State.kept, *]

@[simp] theorem State.served_kept (s : State) (c : Nat) :
    (State.served s c).kept = s.kept := by
  unfold State.served
  (try dsimp only)
  (repeat' split) <;> simp [foldl_kept, apply_ite State.kept, *]

@[simp] theorem State.abandon_kept (s : State) (e : Nat) (c : Nat) :
    (State.abandon s e c).kept = s.kept := by
  unfold State.abandon
  (try dsimp only)
  (repeat' split) <;> simp [foldl_kept, apply_ite State.kept, *]

@[simp] theorem State.preempt_kept (s : State) (e : Nat) :
    (State.preempt s e).kept = s.kept := by
  unfold State.preempt
  (try dsimp only)
  (repeat' split) <;> simp [foldl_kept, apply_ite State.kept, *]

@[simp] theorem State.arrived_kept (s : State) (c : Nat) :
    (State.arrived s c).kept = s.kept := by
  unfold State.arrived
  (try dsimp only)
  (repeat' split) <;> simp [foldl_kept, apply_ite State.kept, *]

@[simp] theorem State.ended_kept (s : State) (e : Nat) (c : Nat) :
    (State.ended s e c).kept = s.kept := by
  unfold State.ended
  (try dsimp only)
  (repeat' split) <;> simp [foldl_kept, apply_ite State.kept, *]

@[simp] theorem State.retire_kept (s : State) (e : Nat) (c : Nat) (d : InDesc) :
    (State.retire s e c d).kept = s.kept := by
  unfold State.retire
  (try dsimp only)
  (repeat' split) <;> simp [foldl_kept, apply_ite State.kept, *]

@[simp] theorem State.redDeliver_kept (s : State) (f : WholeFrame) : (s.redDeliver f).kept = s.kept := by
  unfold State.redDeliver
  dsimp only
  split
  · simp
  · split
    · simp
    · next he =>
      have hk := congrArg (fun r => r.1.kept) he
      simp at hk
      simp [← hk]

@[simp] theorem State.commitSlot_kept (s : State) (c : Nat) (i : Nat) (x : Slot) :
    (State.commitSlot s c i x).kept = s.kept := by
  unfold State.commitSlot
  (try dsimp only)
  (repeat' split) <;> simp [foldl_kept, apply_ite State.kept, *]

@[simp] theorem State.redSend_kept (s : State) (c : Nat) (nh : Nat) (da : Nat) (dport : Nat) (hdr : List Byte) (body : List Byte) :
    (State.redSend s c nh da dport hdr body).kept = s.kept := by
  unfold State.redSend
  (try dsimp only)
  (repeat' split) <;> simp [foldl_kept, apply_ite State.kept, *]

@[simp] theorem State.releaseOut_kept (s : State) (e : Nat) :
    (State.releaseOut s e).kept = s.kept := by
  unfold State.releaseOut
  (try dsimp only)
  (repeat' split) <;> simp [foldl_kept, apply_ite State.kept, *]

@[simp] theorem State.sendResult_kept (s : State) (c : Nat) (sl : Slot) (i : Nat) :
    (State.sendResult s c sl i).kept = s.kept := by
  unfold State.sendResult
  (try dsimp only)
  (repeat' split) <;> simp [foldl_kept, apply_ite State.kept, *]

@[simp] theorem State.sendAborts_kept (s : State) (c : Nat) (sl : Slot) :
    (State.sendAborts s c sl).kept = s.kept := by
  unfold State.sendAborts
  (try dsimp only)
  (repeat' split) <;> simp [foldl_kept, apply_ite State.kept, *]

@[simp] theorem State.sendParent_kept (s : State) (c : Nat) (kind : Nat) (sl : Slot) (body : List Byte) :
    (State.sendParent s c kind sl body).kept = s.kept := by
  unfold State.sendParent
  (try dsimp only)
  (repeat' split) <;> simp [foldl_kept, apply_ite State.kept, *]

@[simp] theorem State.finishBlock_kept (s : State) (c : Nat) (i : Nat) (sl : Slot) :
    (State.finishBlock s c i sl).kept = s.kept := by
  unfold State.finishBlock
  (try dsimp only)
  (repeat' split) <;> simp [foldl_kept, apply_ite State.kept, *]

@[simp] theorem State.commitOpen_kept (s : State) (c : Nat) (i : Nat) (sl : Slot) :
    (State.commitOpen s c i sl).kept = s.kept := by
  unfold State.commitOpen
  (try dsimp only)
  (repeat' split) <;> simp [foldl_kept, apply_ite State.kept, *]

@[simp] theorem State.accLost_kept (s : State) (c : Nat) (i : Nat) (sl : Slot) :
    (State.accLost s c i sl).kept = s.kept := by
  unfold State.accLost
  (try dsimp only)
  (repeat' split) <;> simp [foldl_kept, apply_ite State.kept, *]

@[simp] theorem State.contribute_kept (s : State) (c : Nat) (d : InDesc) (accError : Bool) :
    (State.contribute s c d accError).1.kept = s.kept := by
  unfold State.contribute
  (try dsimp only)
  (repeat' split) <;> simp [foldl_kept, apply_ite State.kept, *]

@[simp] theorem State.parentResult_kept (s : State) (c : Nat) (d : InDesc) :
    (State.parentResult s c d).kept = s.kept := by
  unfold State.parentResult
  (try dsimp only)
  (repeat' split) <;> simp [foldl_kept, apply_ite State.kept, *]

@[simp] theorem State.parentAbort_kept (s : State) (c : Nat) (d : InDesc) :
    (State.parentAbort s c d).kept = s.kept := by
  unfold State.parentAbort
  (try dsimp only)
  (repeat' split) <;> simp [foldl_kept, apply_ite State.kept, *]

@[simp] theorem State.routine_kept (s : State) (c : Nat) (d : InDesc) (accError : Bool) :
    (State.routine s c d accError).1.kept = s.kept := by
  unfold State.routine
  (try dsimp only)
  (repeat' split) <;> simp [foldl_kept, apply_ite State.kept, *]

@[simp] theorem State.postTimeout_kept (s : State) (c : Nat) (sl : Slot) (sub : Nat) (missing : Nat) :
    (State.postTimeout s c sl sub missing).kept = s.kept := by
  unfold State.postTimeout
  (try dsimp only)
  (repeat' split) <;> simp [foldl_kept, apply_ite State.kept, *]

@[simp] theorem State.slotTimeout_kept (s : State) (c : Nat) (i : Nat) (accError : Bool) :
    (State.slotTimeout s c i accError).kept = s.kept := by
  unfold State.slotTimeout
  (try dsimp only)
  (repeat' split) <;> simp [foldl_kept, apply_ite State.kept, *]

@[simp] theorem State.runRoutine_kept (s : State) (e : Nat) (c : Nat) (accError : Bool) :
    (State.runRoutine s e c accError).kept = s.kept := by
  unfold State.runRoutine
  (try dsimp only)
  (repeat' split) <;> simp [foldl_kept, apply_ite State.kept, *]

@[simp] theorem State.reloadWord_kept (s : State) (e : Nat) (w : Nat) :
    (State.reloadWord s e w).kept = s.kept := by
  unfold State.reloadWord
  (try dsimp only)
  (repeat' split) <;> simp [foldl_kept, apply_ite State.kept, *]

@[simp] theorem State.clearStore_kept (s : State) :
    (State.clearStore s).kept = s.kept := by
  unfold State.clearStore
  (try dsimp only)
  (repeat' split) <;> simp [foldl_kept, apply_ite State.kept, *]

@[simp] theorem State.nextStore_kept (s : State) :
    (State.nextStore s).kept = s.kept := by
  unfold State.nextStore
  (try dsimp only)
  (repeat' split) <;> simp [foldl_kept, apply_ite State.kept, *]

@[simp] theorem State.judgeStores_kept (s : State) (v : StoreVal) : (s.judgeStores v).kept = s.kept := by
  unfold State.judgeStores
  refine foldl_kept (fun s c => ?_) _ _
  (repeat' split) <;> simp

@[simp] theorem State.storeHold_kept (s : State) :
    (State.storeHold s).kept = s.kept := by
  unfold State.storeHold
  (try dsimp only)
  (repeat' split) <;> simp [foldl_kept, apply_ite State.kept, *]

@[simp] theorem State.voteStore_kept (s : State) :
    (State.voteStore s).kept = s.kept := by
  unfold State.voteStore
  (try dsimp only)
  (repeat' split) <;> simp [foldl_kept, apply_ite State.kept, *]

@[simp] theorem State.voteStores_kept (s : State) :
    (State.voteStores s).kept = s.kept := by
  unfold State.voteStores
  (try dsimp only)
  (repeat' split) <;> simp [foldl_kept, apply_ite State.kept, *]

@[simp] theorem State.goOn_kept (s : State) :
    (State.goOn s).kept = s.kept := by
  unfold State.goOn
  (try dsimp only)
  (repeat' split) <;> simp [foldl_kept, apply_ite State.kept, *]

@[simp] theorem State.reseedAll_kept (s : State) :
    (State.reseedAll s).kept = s.kept := by
  unfold State.reseedAll
  (try dsimp only)
  (repeat' split) <;> simp [foldl_kept, apply_ite State.kept, *]

@[simp] theorem State.postCleared_kept (s : State) (n : Nat) (sub : Nat) :
    (State.postCleared s n sub).kept = s.kept := by
  unfold State.postCleared
  (try dsimp only)
  (repeat' split) <;> simp [foldl_kept, apply_ite State.kept, *]

@[simp] theorem State.noteClear_kept (s : State) (n : Nat) :
    (State.noteClear s n).kept = s.kept := by
  unfold State.noteClear
  (try dsimp only)
  (repeat' split) <;> simp [foldl_kept, apply_ite State.kept, *]

end Sys2Proof.Machine
end

