-- ==== Sys2Proof/Laws/KeptExec.lean ====
section
/-!
SUPPORT. What the commands leave alone: every command that is no reset, no step of boot, no flash command, no Book
write, load or turn, and no boundary at which a turn swaps, keeps the queue, the pins, the boot stage, flash and OTP and
the Book's words.
-/

set_option linter.unusedSimpArgs false
set_option linter.unnecessarySeqFocus false
set_option linter.unusedTactic false
set_option linter.unreachableTactic false

namespace Sys2Proof.Machine
theorem execNop_kept {c : Cmd} {s t : State}
    (h : execNop c s = .next t) : t.kept = s.kept := by
  unfold execNop at h
  refine gated_kept (runCmd_kept _ _ _ fun s => ?_) h
  simp

theorem execEnable_kept {c : Cmd} {ctx : HostRead} {bc : Option BcCfg} {s t : State}
    (h : execEnable c ctx bc s = .next t) : t.kept = s.kept := by
  unfold execEnable at h
  refine gated_kept (runCmd_kept _ _ _ fun s => ?_) h
  (try dsimp only)
  (repeat' split) <;> simp [foldl_kept, apply_ite State.kept]

theorem execDisable_kept {c : Cmd} {s t : State}
    (h : execDisable c s = .next t) : t.kept = s.kept := by
  unfold execDisable at h
  refine gated_kept (runCmd_kept _ _ _ fun s => ?_) h
  dsimp only
  (repeat' split) <;> simp [foldl_kept, apply_ite State.kept]

theorem execLearnInsert_kept {c : Cmd} {s t : State}
    (h : execLearnInsert c s = .next t) : t.kept = s.kept := by
  unfold execLearnInsert at h
  refine gated_kept (fun s => ?_) h
  simp

theorem execLearnDelete_kept {c : Cmd} {s t : State}
    (h : execLearnDelete c s = .next t) : t.kept = s.kept := by
  unfold execLearnDelete at h
  refine gated_kept (fun s => ?_) h
  simp

theorem execLearnFlushAll_kept {c : Cmd} {s t : State}
    (h : execLearnFlushAll c s = .next t) : t.kept = s.kept := by
  unfold execLearnFlushAll at h
  refine gated_kept (fun s => ?_) h
  simp

theorem execLearnFlushPort_kept {c : Cmd} {s t : State}
    (h : execLearnFlushPort c s = .next t) : t.kept = s.kept := by
  unfold execLearnFlushPort at h
  refine gated_kept (fun s => ?_) h
  simp

theorem execTimeSet_kept {c : Cmd} {s t : State}
    (h : execTimeSet c s = .next t) : t.kept = s.kept := by
  unfold execTimeSet at h
  refine gated_kept (runCmd_kept _ _ _ fun s => ?_) h
  (repeat' split) <;> simp [foldl_kept, apply_ite State.kept]

theorem execTimeStep_kept {c : Cmd} {s t : State}
    (h : execTimeStep c s = .next t) : t.kept = s.kept := by
  unfold execTimeStep at h
  refine gated_kept (runCmd_kept _ _ _ fun s => ?_) h
  (repeat' split) <;> simp [foldl_kept, apply_ite State.kept]

theorem execTimeFreq_kept {c : Cmd} {s t : State}
    (h : execTimeFreq c s = .next t) : t.kept = s.kept := by
  unfold execTimeFreq at h
  refine gated_kept (runCmd_kept _ _ _ fun s => ?_) h
  (repeat' split) <;> simp [foldl_kept, apply_ite State.kept]

theorem execTimeSlew_kept {c : Cmd} {s t : State}
    (h : execTimeSlew c s = .next t) : t.kept = s.kept := by
  unfold execTimeSlew at h
  refine gated_kept (runCmd_kept _ _ _ fun s => ?_) h
  (repeat' split) <;> simp [foldl_kept, apply_ite State.kept]

theorem execPhase_kept {c : Cmd} {s t : State}
    (h : execPhase c s = .next t) : t.kept = s.kept := by
  unfold execPhase at h
  refine gated_kept (runCmd_kept _ _ _ fun s => ?_) h
  (repeat' split) <;> simp [foldl_kept, apply_ite State.kept]

theorem execPhaseDef_kept {c : Cmd} {record : HostRead} {s t : State}
    (h : execPhaseDef c record s = .next t) : t.kept = s.kept := by
  unfold execPhaseDef at h
  refine gated_kept (runCmd_kept _ _ _ fun s => ?_) h
  refine withBlock_kept _ _ (fun b s => ?_) _
  (repeat' split) <;> simp [foldl_kept, apply_ite State.kept]

theorem execPowerCap_kept {c : Cmd} {s t : State}
    (h : execPowerCap c s = .next t) : t.kept = s.kept := by
  unfold execPowerCap at h
  refine gated_kept (runCmd_kept _ _ _ fun s => ?_) h
  (repeat' split) <;> simp [foldl_kept, apply_ite State.kept]

theorem execBufStateNormal_kept {c : Cmd} {s t : State}
    (h : execBufStateNormal c s = .next t) : t.kept = s.kept := by
  unfold execBufStateNormal at h
  refine gated_kept (fun s => ?_) h
  simp

theorem execBufStateTest_kept {c : Cmd} {s t : State}
    (h : execBufStateTest c s = .next t) : t.kept = s.kept := by
  unfold execBufStateTest at h
  refine gated_kept (fun s => ?_) h
  simp

theorem execSvcFree_kept {c : Cmd} {s t : State}
    (h : execSvcFree c s = .next t) : t.kept = s.kept := by
  unfold execSvcFree at h
  refine gated_kept (runCmd_kept _ _ _ fun s => ?_) h
  (repeat' split) <;> simp [foldl_kept, apply_ite State.kept]

theorem execIsolate_kept {c : Cmd} {s t : State}
    (h : execIsolate c s = .next t) : t.kept = s.kept := by
  unfold execIsolate at h
  refine gated_kept (runCmd_kept _ _ _ fun s => ?_) h
  dsimp only
  (repeat' split) <;> simp [foldl_kept, apply_ite State.kept]

theorem execRejoin_kept {c : Cmd} {s t : State}
    (h : execRejoin c s = .next t) : t.kept = s.kept := by
  unfold execRejoin at h
  refine gated_kept (runCmd_kept _ _ _ fun s => ?_) h
  dsimp only
  (repeat' split) <;> simp [foldl_kept, apply_ite State.kept]

theorem execSqReset_kept {c : Cmd} {s t : State}
    (h : execSqReset c s = .next t) : t.kept = s.kept := by
  unfold execSqReset at h
  refine gated_kept (runCmd_kept _ _ _ fun s => ?_) h
  dsimp only
  (repeat' split) <;> simp [foldl_kept, apply_ite State.kept]

theorem execImageVerify_kept {c : Cmd} {k : Crypto} {s t : State}
    (h : execImageVerify c k s = .next t) : t.kept = s.kept := by
  unfold execImageVerify at h
  refine gated_kept (runCmd_kept _ _ _ fun s => ?_) h
  dsimp only
  (repeat' split) <;> simp [foldl_kept, apply_ite State.kept]

theorem execCastle_kept {c : Cmd} {s t : State}
    (h : execCastle c s = .next t) : t.kept = s.kept := by
  unfold execCastle at h
  refine gated_kept (runCmd_kept _ _ _ fun s => ?_) h
  (repeat' split) <;> simp [foldl_kept, apply_ite State.kept]

theorem execSettingsSave_kept {c : Cmd} {readBackOk : Bool} {s t : State}
    (h : execSettingsSave c readBackOk s = .next t) : t.kept = s.kept := by
  unfold execSettingsSave at h
  refine gated_kept (runCmd_kept _ _ _ fun s => ?_) h
  dsimp only
  (repeat' split) <;> simp [foldl_kept, apply_ite State.kept]

theorem execSnapshot_kept {c : Cmd} {s t : State}
    (h : execSnapshot c s = .next t) : t.kept = s.kept := by
  unfold execSnapshot at h
  refine gated_kept (runCmd_kept _ _ _ fun s => ?_) h
  dsimp only
  (repeat' split) <;> simp [foldl_kept, apply_ite State.kept]

theorem execFaultClear_kept {c : Cmd} {s t : State}
    (h : execFaultClear c s = .next t) : t.kept = s.kept := by
  unfold execFaultClear at h
  refine gated_kept (runCmd_kept _ _ _ fun s => ?_) h
  dsimp only
  (repeat' split) <;> simp [foldl_kept, apply_ite State.kept]

theorem execUnsupportedOpcode_kept {opcode : BitVec 16} {c : Cmd} {s t : State}
    (h : execUnsupportedOpcode opcode c s = .next t) : t.kept = s.kept := by
  unfold execUnsupportedOpcode at h
  refine gated_kept (runCmd_kept _ _ _ fun s => ?_) h
  simp

theorem execHostCfgBoot_kept {value : Reg} {ctx0 : HostRead} {ctx1 : HostRead} {s t : State}
    (h : execHostCfgBoot value ctx0 ctx1 s = .next t) : t.kept = s.kept := by
  unfold execHostCfgBoot at h
  refine atPins_kept (fun s => ?_) h
  (repeat' split) <;> simp [foldl_kept, apply_ite State.kept]

theorem execTimeNowLoRead_kept  {s t : State}
    (h : execTimeNowLoRead  s = .next t) : t.kept = s.kept := by
  unfold execTimeNowLoRead at h
  refine atPins_kept (fun s => ?_) h
  simp

theorem execTourExclLoRead_kept  {s t : State}
    (h : execTourExclLoRead  s = .next t) : t.kept = s.kept := by
  unfold execTourExclLoRead at h
  refine atPins_kept (fun s => ?_) h
  simp

theorem execFaultFirstTLoRead_kept  {s t : State}
    (h : execFaultFirstTLoRead  s = .next t) : t.kept = s.kept := by
  unfold execFaultFirstTLoRead at h
  refine atPins_kept (fun s => ?_) h
  simp

theorem execFirstClr_kept {value : Reg} {s t : State}
    (h : execFirstClr value s = .next t) : t.kept = s.kept := by
  unfold execFirstClr at h
  refine atPins_kept (fun s => ?_) h
  (repeat' split) <;> simp [foldl_kept, apply_ite State.kept]

theorem execFomMinRst_kept {sq : Nat} {j : Nat} {value : Reg} {s t : State}
    (h : execFomMinRst sq j value s = .next t) : t.kept = s.kept := by
  unfold execFomMinRst at h
  refine atPins_kept (fun s => ?_) h
  (repeat' split) <;> simp [foldl_kept, apply_ite State.kept]

theorem execHwmRst_kept {sq : Nat} {value : Reg} {s t : State}
    (h : execHwmRst sq value s = .next t) : t.kept = s.kept := by
  unfold execHwmRst at h
  refine atPins_kept (fun s => ?_) h
  (repeat' split) <;> simp [foldl_kept, apply_ite State.kept]

theorem execSquareBroadcastWrite_kept {offset : Nat} {value : Reg} {be : BitVec 4} {s t : State}
    (h : execSquareBroadcastWrite offset value be s = .next t) : t.kept = s.kept := by
  unfold execSquareBroadcastWrite at h
  refine atPins_kept (fun s => ?_) h
  simp

theorem execBar2Write_kept {_offset : Nat} {fn : Nat} {s t : State}
    (h : execBar2Write _offset fn s = .next t) : t.kept = s.kept := by
  unfold execBar2Write at h
  refine atPins_kept (fun s => ?_) h
  simp

theorem execMsixUnmask_kept {fn : Nat} {vec : Nat} {entry : Option MsixEntry} {s t : State}
    (h : execMsixUnmask fn vec entry s = .next t) : t.kept = s.kept := by
  unfold execMsixUnmask at h
  refine atPins_kept (fun s => ?_) h
  (try dsimp only)
  (repeat' split) <;> simp [foldl_kept, apply_ite State.kept]

theorem execPerst_kept {kind : LinkReset} {s t : State}
    (h : execPerst kind s = .next t) : t.kept = s.kept := by
  unfold execPerst at h
  refine atPins_kept (fun s => ?_) h
  (repeat' split) <;> simp [foldl_kept, apply_ite State.kept]

theorem execVfFlr_kept {v : Nat} {s t : State}
    (h : execVfFlr v s = .next t) : t.kept = s.kept := by
  unfold execVfFlr at h
  refine atPins_kept (fun s => ?_) h
  (repeat' split) <;> simp [foldl_kept, apply_ite State.kept]

theorem execBusMasterEnableChange_kept {fn : Nat} {on : Bool} {ctl : Option FnCtl} {s t : State}
    (h : execBusMasterEnableChange fn on ctl s = .next t) : t.kept = s.kept := by
  unfold execBusMasterEnableChange at h
  refine atPins_kept (fun s => ?_) h
  (try dsimp only)
  (repeat' split) <;> simp [foldl_kept, apply_ite State.kept]

theorem execHostLinkUp_kept {speed : Nat} {width : Nat} {s t : State}
    (h : execHostLinkUp speed width s = .next t) : t.kept = s.kept := by
  unfold execHostLinkUp at h
  refine atPins_kept (fun s => ?_) h
  (repeat' split) <;> simp [foldl_kept, apply_ite State.kept]

theorem execHostReadError_kept {kind : ReadFail} {fn : Nat} {ring : Nat} {addr : W64} {s t : State}
    (h : execHostReadError kind fn ring addr s = .next t) : t.kept = s.kept := by
  unfold execHostReadError at h
  refine gated_kept (fun s => ?_) h
  (repeat' split) <;> simp [foldl_kept, apply_ite State.kept]

theorem execDoorbellPollRound_kept  {s t : State}
    (h : execDoorbellPollRound  s = .next t) : t.kept = s.kept := by
  unfold execDoorbellPollRound at h
  refine gated_kept (fun s => ?_) h
  (repeat' split) <;> simp [foldl_kept, apply_ite State.kept]

theorem execProducerReadComplete_kept {ring : Nat} {p : BitVec 32} {s t : State}
    (h : execProducerReadComplete ring p s = .next t) : t.kept = s.kept := by
  unfold execProducerReadComplete at h
  refine atPins_kept (fun s => ?_) h
  (repeat' split) <;> simp [foldl_kept, apply_ite State.kept]

theorem execDescriptorFetchComplete_kept {ring : Nat} {descs : List (List Byte)} {s t : State}
    (h : execDescriptorFetchComplete ring descs s = .next t) : t.kept = s.kept := by
  unfold execDescriptorFetchComplete at h
  refine atPins_kept (fun s => ?_) h
  (repeat' split) <;> simp [foldl_kept, apply_ite State.kept]

theorem execTxFrameInject_kept {ring : Nat} {bufs : List HostRead} {ecc : Option EccErr} {s t : State}
    (h : execTxFrameInject ring bufs ecc s = .next t) : t.kept = s.kept := by
  unfold execTxFrameInject at h
  refine atPins_kept (fun s => ?_) h
  (try dsimp only)
  (repeat' split) <;> simp [foldl_kept, apply_ite State.kept]

theorem execRxFrameDeliver_kept  {s t : State}
    (h : execRxFrameDeliver  s = .next t) : t.kept = s.kept := by
  unfold execRxFrameDeliver at h
  refine gated_kept (fun s => ?_) h
  (repeat' split) <;> simp [foldl_kept, apply_ite State.kept]

theorem execMsixModTimeout_kept {ring : Nat} {s t : State}
    (h : execMsixModTimeout ring s = .next t) : t.kept = s.kept := by
  unfold execMsixModTimeout at h
  refine gated_kept (fun s => ?_) h
  (repeat' split) <;> simp [foldl_kept, apply_ite State.kept]

theorem execFrameReceive_kept {port : Nat} {data : List Byte} {fcsBad : Bool} {errored : Bool} {s t : State}
    (h : execFrameReceive port data fcsBad errored s = .next t) : t.kept = s.kept := by
  unfold execFrameReceive at h
  refine atPins_kept (fun s => ?_) h
  (try dsimp only)
  (repeat' split) <;> simp [foldl_kept, apply_ite State.kept]

theorem execPfcReceive_kept {port : Nat} {vec : BitVec 8} {times : List Nat} {s t : State}
    (h : execPfcReceive port vec times s = .next t) : t.kept = s.kept := by
  unfold execPfcReceive at h
  refine atPins_kept (fun s => ?_) h
  (repeat' split) <;> simp [foldl_kept, apply_ite State.kept]

theorem execPfcPauseExpire_kept {port : Nat} {pri : Nat} {s t : State}
    (h : execPfcPauseExpire port pri s = .next t) : t.kept = s.kept := by
  unfold execPfcPauseExpire at h
  refine gated_kept (fun s => ?_) h
  (repeat' split) <;> simp [foldl_kept, apply_ite State.kept]

theorem execPackHoldExpire_kept {sq : Nat} {lane : Nat} {s t : State}
    (h : execPackHoldExpire sq lane s = .next t) : t.kept = s.kept := by
  unfold execPackHoldExpire at h
  refine gated_kept (fun s => ?_) h
  (repeat' split) <;> simp [foldl_kept, apply_ite State.kept]

theorem execRecircParse_kept {sq : Nat} {s t : State}
    (h : execRecircParse sq s = .next t) : t.kept = s.kept := by
  unfold execRecircParse at h
  refine gated_kept (fun s => ?_) h
  (repeat' split) <;> simp [foldl_kept, apply_ite State.kept]

theorem execCellEnterCore_kept {sq : Nat} {lane : Nat} {ecc : Option EccErr} {s t : State}
    (h : execCellEnterCore sq lane ecc s = .next t) : t.kept = s.kept := by
  unfold execCellEnterCore at h
  refine gated_kept (fun s => ?_) h
  (try dsimp only)
  (repeat' split) <;> simp [foldl_kept, apply_ite State.kept]

theorem execDeferredFrameNumber_kept {sq : Nat} {eport : Nat} {cls : Nat} {s t : State}
    (h : execDeferredFrameNumber sq eport cls s = .next t) : t.kept = s.kept := by
  unfold execDeferredFrameNumber at h
  refine gated_kept (fun s => ?_) h
  dsimp only
  (repeat' split) <;> simp [foldl_kept, apply_ite State.kept]

theorem execHeldFrameRelease_kept {sq : Nat} {q : Nat} {s t : State}
    (h : execHeldFrameRelease sq q s = .next t) : t.kept = s.kept := by
  unfold execHeldFrameRelease at h
  refine gated_kept (fun s => ?_) h
  (repeat' split) <;> simp [foldl_kept, apply_ite State.kept]

theorem execPfcRefresh_kept {port : Nat} {pri : Nat} {s t : State}
    (h : execPfcRefresh port pri s = .next t) : t.kept = s.kept := by
  unfold execPfcRefresh at h
  refine gated_kept (fun s => ?_) h
  (repeat' split) <;> simp [foldl_kept, apply_ite State.kept]

theorem execBlitzRecordLookup_kept {sq : Nat} {ecc : Option EccErr} {s t : State}
    (h : execBlitzRecordLookup sq ecc s = .next t) : t.kept = s.kept := by
  unfold execBlitzRecordLookup at h
  refine gated_kept (fun s => ?_) h
  (try dsimp only)
  (repeat' split) <;> simp [foldl_kept, apply_ite State.kept]

theorem execSlotRelease_kept {d0 : Nat} {d1 : Nat} {d2 : Nat} {stalled : List Nat} {crcBad : List (Nat × Nat)} {memBad : List (Nat × Nat)} {s t : State}
    (h : execSlotRelease d0 d1 d2 stalled crcBad memBad s = .next t) : t.kept = s.kept := by
  unfold execSlotRelease at h
  refine gated_kept (fun s => ?_) h
  (try dsimp only)
  (repeat' split) <;> simp [foldl_kept, apply_ite State.kept]

theorem execSlotComplete_kept {last : Nat} {s t : State}
    (h : execSlotComplete last s = .next t) : t.kept = s.kept := by
  unfold execSlotComplete at h
  refine gated_kept (fun s => ?_) h
  (try dsimp only)
  (repeat' split) <;> simp [foldl_kept, apply_ite State.kept]

theorem execSlotStallTimeout_kept  {s t : State}
    (h : execSlotStallTimeout  s = .next t) : t.kept = s.kept := by
  unfold execSlotStallTimeout at h
  refine gated_kept (fun s => ?_) h
  (repeat' split) <;> simp [foldl_kept, apply_ite State.kept]

theorem execDirectReserveExpire_kept {sq : Nat} {cell : Nat} {s t : State}
    (h : execDirectReserveExpire sq cell s = .next t) : t.kept = s.kept := by
  unfold execDirectReserveExpire at h
  refine gated_kept (fun s => ?_) h
  simp

theorem execGapDeclare_kept {e : Nat} {isq : Nat} {eport : Nat} {cls : Nat} {s t : State}
    (h : execGapDeclare e isq eport cls s = .next t) : t.kept = s.kept := by
  unfold execGapDeclare at h
  refine gated_kept (fun s => ?_) h
  (repeat' split) <;> simp [foldl_kept, apply_ite State.kept]

theorem execEpochRetire_kept  {s t : State}
    (h : execEpochRetire  s = .next t) : t.kept = s.kept := by
  unfold execEpochRetire at h
  refine gated_kept (fun s => ?_) h
  (repeat' split) <;> simp [foldl_kept, apply_ite State.kept]

theorem execAccountUpdate_kept {dst : Nat} {queue : Option Nat} {s t : State}
    (h : execAccountUpdate dst queue s = .next t) : t.kept = s.kept := by
  unfold execAccountUpdate at h
  refine gated_kept (fun s => ?_) h
  (repeat' split) <;> simp [foldl_kept, apply_ite State.kept]

theorem execCaptureClaim_kept {e : Nat} {s t : State}
    (h : execCaptureClaim e s = .next t) : t.kept = s.kept := by
  unfold execCaptureClaim at h
  refine gated_kept (fun s => ?_) h
  (repeat' split) <;> simp [foldl_kept, apply_ite State.kept]

theorem execEgressSelect_kept {port : Nat} {s t : State}
    (h : execEgressSelect port s = .next t) : t.kept = s.kept := by
  unfold execEgressSelect at h
  refine gated_kept (fun s => ?_) h
  dsimp only
  (repeat' split) <;> simp [foldl_kept, apply_ite State.kept]

theorem execFrameTransmitStart_kept {port : Nat} {s t : State}
    (h : execFrameTransmitStart port s = .next t) : t.kept = s.kept := by
  unfold execFrameTransmitStart at h
  refine gated_kept (fun s => ?_) h
  (repeat' split) <;> simp [foldl_kept, apply_ite State.kept]

theorem execFrameTransmitEnd_kept {port : Nat} {s t : State}
    (h : execFrameTransmitEnd port s = .next t) : t.kept = s.kept := by
  unfold execFrameTransmitEnd at h
  refine gated_kept (fun s => ?_) h
  (repeat' split) <;> simp [foldl_kept, apply_ite State.kept]

theorem execPostcardFrameClose_kept {sq : Nat} {s t : State}
    (h : execPostcardFrameClose sq s = .next t) : t.kept = s.kept := by
  unfold execPostcardFrameClose at h
  refine gated_kept (fun s => ?_) h
  (repeat' split) <;> simp [foldl_kept, apply_ite State.kept]

theorem execGclLoadComplete_kept {port : Nat} {s t : State}
    (h : execGclLoadComplete port s = .next t) : t.kept = s.kept := by
  unfold execGclLoadComplete at h
  refine gated_kept (fun s => ?_) h
  (repeat' split) <;> simp [foldl_kept, apply_ite State.kept]

theorem execGclStart_kept {port : Nat} {s t : State}
    (h : execGclStart port s = .next t) : t.kept = s.kept := by
  unfold execGclStart at h
  refine gated_kept (fun s => ?_) h
  (repeat' split) <;> simp [foldl_kept, apply_ite State.kept]

theorem execGateEntryChange_kept {port : Nat} {s t : State}
    (h : execGateEntryChange port s = .next t) : t.kept = s.kept := by
  unfold execGateEntryChange at h
  refine gated_kept (fun s => ?_) h
  (repeat' split) <;> simp [foldl_kept, apply_ite State.kept]

theorem execQsampPeriod_kept {sq : Nat} {s t : State}
    (h : execQsampPeriod sq s = .next t) : t.kept = s.kept := by
  unfold execQsampPeriod at h
  refine gated_kept (fun s => ?_) h
  (repeat' split) <;> simp [foldl_kept, apply_ite State.kept]

theorem execBwWindowEnd_kept {s t : State}
    (h : execBwWindowEnd s = .next t) : t.kept = s.kept := by
  unfold execBwWindowEnd at h
  refine gated_kept (fun s => ?_) h
  (try dsimp only)
  (repeat' split) <;> simp [foldl_kept, apply_ite State.kept]

theorem execLinkDown_kept {port : Nat} {seen : List Sight} {s t : State}
    (h : execLinkDown port seen s = .next t) : t.kept = s.kept := by
  unfold execLinkDown at h
  refine gated_kept (fun s => ?_) h
  (try dsimp only)
  (repeat' split) <;> simp [foldl_kept, apply_ite State.kept]

theorem execLinkHoldExpire_kept {port : Nat} {s t : State}
    (h : execLinkHoldExpire port s = .next t) : t.kept = s.kept := by
  unfold execLinkHoldExpire at h
  refine gated_kept (fun s => ?_) h
  (repeat' split) <;> simp [foldl_kept, apply_ite State.kept]

theorem execLinkUp_kept {port : Nat} {s t : State}
    (h : execLinkUp port s = .next t) : t.kept = s.kept := by
  unfold execLinkUp at h
  refine gated_kept (fun s => ?_) h
  (repeat' split) <;> simp [foldl_kept, apply_ite State.kept]

theorem execFomBlock_kept {lane : Nat} {symbolErrors : Nat} {cws : List CwRun} {s t : State}
    (h : execFomBlock lane symbolErrors cws s = .next t) : t.kept = s.kept := by
  unfold execFomBlock at h
  refine gated_kept (fun s => ?_) h
  (try dsimp only)
  (repeat' split) <;> simp [foldl_kept, apply_ite State.kept]

theorem execRefclkLoss_kept {k : Nat} {s t : State}
    (h : execRefclkLoss k s = .next t) : t.kept = s.kept := by
  unfold execRefclkLoss at h
  refine gated_kept (fun s => ?_) h
  (repeat' split) <;> simp [foldl_kept, apply_ite State.kept]

theorem execRefclkReturn_kept {k : Nat} {s t : State}
    (h : execRefclkReturn k s = .next t) : t.kept = s.kept := by
  unfold execRefclkReturn at h
  refine atPins_kept (fun s => ?_) h
  simp

theorem execErrorSecond_kept {s t : State}
    (h : execErrorSecond s = .next t) : t.kept = s.kept := by
  unfold execErrorSecond at h
  refine gated_kept (fun s => ?_) h
  (try dsimp only)
  (repeat' split) <;> simp [foldl_kept, apply_ite State.kept]

theorem execMgmtSyncLoss_kept  {s t : State}
    (h : execMgmtSyncLoss  s = .next t) : t.kept = s.kept := by
  unfold execMgmtSyncLoss at h
  refine gated_kept (fun s => ?_) h
  simp

theorem execDrainComplete_kept {cls : Nat} {inst : Nat} {s t : State}
    (h : execDrainComplete cls inst s = .next t) : t.kept = s.kept := by
  unfold execDrainComplete at h
  refine gated_kept (fun s => ?_) h
  (repeat' split) <;> simp [foldl_kept, apply_ite State.kept]

theorem execDrainTimeout_kept {cls : Nat} {inst : Nat} {s t : State}
    (h : execDrainTimeout cls inst s = .next t) : t.kept = s.kept := by
  unfold execDrainTimeout at h
  refine gated_kept (fun s => ?_) h
  (repeat' split) <;> simp [foldl_kept, apply_ite State.kept]

theorem execLearnEventApply_kept  {s t : State}
    (h : execLearnEventApply  s = .next t) : t.kept = s.kept := by
  unfold execLearnEventApply at h
  refine gated_kept (fun s => ?_) h
  (repeat' split) <;> simp [foldl_kept, apply_ite State.kept]

theorem execAgeSweepVisit_kept {entry : Nat} {s t : State}
    (h : execAgeSweepVisit entry s = .next t) : t.kept = s.kept := by
  unfold execAgeSweepVisit at h
  refine gated_kept (fun s => ?_) h
  (try dsimp only)
  (repeat' split) <;> simp [foldl_kept, apply_ite State.kept]

theorem execFragSweep_kept {sq : Nat} {s t : State}
    (h : execFragSweep sq s = .next t) : t.kept = s.kept := by
  unfold execFragSweep at h
  refine gated_kept (fun s => ?_) h
  simp

theorem execBookEccRepair_kept {hit : EccHit} {source : Option Nat} {s t : State}
    (h : execBookEccRepair hit source s = .next t) : t.kept = s.kept := by
  unfold execBookEccRepair at h
  refine gated_kept (fun s => ?_) h
  (repeat' split) <;> simp [foldl_kept, apply_ite State.kept]

theorem execBookScrub_kept {hit : EccHit} {bits : Nat} {s t : State}
    (h : execBookScrub hit bits s = .next t) : t.kept = s.kept := by
  unfold execBookScrub at h
  refine gated_kept (fun s => ?_) h
  (repeat' split) <;> simp [foldl_kept, apply_ite State.kept]

theorem execBufRecoveryEnd_kept  {s t : State}
    (h : execBufRecoveryEnd  s = .next t) : t.kept = s.kept := by
  unfold execBufRecoveryEnd at h
  refine gated_kept (fun s => ?_) h
  (repeat' split) <;> simp [foldl_kept, apply_ite State.kept]

theorem execBufAuditPeriod_kept {sq : Nat} {s t : State}
    (h : execBufAuditPeriod sq s = .next t) : t.kept = s.kept := by
  unfold execBufAuditPeriod at h
  refine gated_kept (fun s => ?_) h
  (repeat' split) <;> simp [foldl_kept, apply_ite State.kept]

theorem execSqResetDone_kept {sq : Nat} {passed : Bool} {s t : State}
    (h : execSqResetDone sq passed s = .next t) : t.kept = s.kept := by
  unfold execSqResetDone at h
  refine gated_kept (fun s => ?_) h
  dsimp only
  (repeat' split) <;> simp [foldl_kept, apply_ite State.kept]

theorem execRedFrameDeliver_kept  {s t : State}
    (h : execRedFrameDeliver  s = .next t) : t.kept = s.kept := by
  unfold execRedFrameDeliver at h
  refine gated_kept (fun s => ?_) h
  (repeat' split) <;> simp [foldl_kept, apply_ite State.kept]

theorem execRedRoutineRun_kept {e : Nat} {accError : Bool} {s t : State}
    (h : execRedRoutineRun e accError s = .next t) : t.kept = s.kept := by
  unfold execRedRoutineRun at h
  refine gated_kept (fun s => ?_) h
  (repeat' split) <;> simp [foldl_kept, apply_ite State.kept]

theorem execRedSlotTimeout_kept {c : Nat} {slot : Nat} {accError : Bool} {s t : State}
    (h : execRedSlotTimeout c slot accError s = .next t) : t.kept = s.kept := by
  unfold execRedSlotTimeout at h
  refine gated_kept (fun s => ?_) h
  (try dsimp only)
  (repeat' split) <;> simp [foldl_kept, apply_ite State.kept]

theorem execRedCstoreError_kept {e : Nat} {word : Nat} {s t : State}
    (h : execRedCstoreError e word s = .next t) : t.kept = s.kept := by
  unfold execRedCstoreError at h
  refine gated_kept (fun s => ?_) h
  dsimp only
  (repeat' split) <;> simp [foldl_kept, apply_ite State.kept]

theorem execEnginePowerUp_kept {e : Nat} {s t : State}
    (h : execEnginePowerUp e s = .next t) : t.kept = s.kept := by
  unfold execEnginePowerUp at h
  refine gated_kept (fun s => ?_) h
  (repeat' split) <;> simp [foldl_kept, apply_ite State.kept]

theorem execTimeVote_kept {o0 : ℤ} {o1 : ℤ} {o2 : ℤ} {s t : State}
    (h : execTimeVote o0 o1 o2 s = .next t) : t.kept = s.kept := by
  unfold execTimeVote at h
  refine gated_kept (fun s => ?_) h
  (repeat' split) <;> simp [foldl_kept, apply_ite State.kept]

theorem execSlewComplete_kept  {s t : State}
    (h : execSlewComplete  s = .next t) : t.kept = s.kept := by
  unfold execSlewComplete at h
  refine gated_kept (fun s => ?_) h
  (repeat' split) <;> simp [foldl_kept, apply_ite State.kept]

theorem execTimeRefLoss_kept {isTimeclk : Bool} {k : Nat} {s t : State}
    (h : execTimeRefLoss isTimeclk k s = .next t) : t.kept = s.kept := by
  unfold execTimeRefLoss at h
  refine gated_kept (fun s => ?_) h
  (repeat' split) <;> simp [foldl_kept, apply_ite State.kept]

theorem execTimeRefReturn_kept {isTimeclk : Bool} {k : Nat} {ns : Nat} {s t : State}
    (h : execTimeRefReturn isTimeclk k ns s = .next t) : t.kept = s.kept := by
  unfold execTimeRefReturn at h
  refine atPins_kept (fun s => ?_) h
  (try dsimp only)
  (repeat' split) <;> simp [foldl_kept, apply_ite State.kept]

theorem execEvtInEdge_kept {edges : List (Nat × Bool)} {s t : State}
    (h : execEvtInEdge edges s = .next t) : t.kept = s.kept := by
  unfold execEvtInEdge at h
  refine atPins_kept (fun s => ?_) h
  (try dsimp only)
  (repeat' split) <;> simp [foldl_kept, apply_ite State.kept]

theorem execPpsLeadingEdge_kept {k : Nat} {s t : State}
    (h : execPpsLeadingEdge k s = .next t) : t.kept = s.kept := by
  unfold execPpsLeadingEdge at h
  refine gated_kept (fun s => ?_) h
  (repeat' split) <;> simp [foldl_kept, apply_ite State.kept]

theorem execPpsWidthEnd_kept {k : Nat} {s t : State}
    (h : execPpsWidthEnd k s = .next t) : t.kept = s.kept := by
  unfold execPpsWidthEnd at h
  refine gated_kept (fun s => ?_) h
  (repeat' split) <;> simp [foldl_kept, apply_ite State.kept]

theorem execBcMessageReceive_kept {newState : Nat} {clockClass : Nat} {steer : Steer} {s t : State}
    (h : execBcMessageReceive newState clockClass steer s = .next t) : t.kept = s.kept := by
  unfold execBcMessageReceive at h
  refine gated_kept (fun s => ?_) h
  (repeat' split) <;> simp [foldl_kept, apply_ite State.kept]

theorem execBcMessageDue_kept {m : BcDue} {s t : State}
    (h : execBcMessageDue m s = .next t) : t.kept = s.kept := by
  unfold execBcMessageDue at h
  refine gated_kept (fun s => ?_) h
  (try dsimp only)
  (repeat' split) <;> simp [foldl_kept, apply_ite State.kept]

theorem execCoreStoreVote_kept {c : Nat} {addr : W64} {data : W64} {be : BitVec 8} {s t : State}
    (h : execCoreStoreVote c addr data be s = .next t) : t.kept = s.kept := by
  unfold execCoreStoreVote at h
  refine gated_kept (fun s => ?_) h
  (repeat' split) <;> simp [foldl_kept, apply_ite State.kept]

theorem execStoreVoteTimeout_kept  {s t : State}
    (h : execStoreVoteTimeout  s = .next t) : t.kept = s.kept := by
  unfold execStoreVoteTimeout at h
  refine gated_kept (fun s => ?_) h
  (repeat' split) <;> simp [foldl_kept, apply_ite State.kept]

theorem execHoldEnd_kept {d0 : Nat} {d1 : Nat} {d2 : Nat} {s t : State}
    (h : execHoldEnd d0 d1 d2 s = .next t) : t.kept = s.kept := by
  unfold execHoldEnd at h
  refine gated_kept (fun s => ?_) h
  dsimp only
  (repeat' split) <;> simp [foldl_kept, apply_ite State.kept]

theorem execCheckpoint_kept {diverged : List Nat} {s t : State}
    (h : execCheckpoint diverged s = .next t) : t.kept = s.kept := by
  unfold execCheckpoint at h
  refine gated_kept (fun s => ?_) h
  dsimp only
  (repeat' split) <;> simp [foldl_kept, apply_ite State.kept]

theorem execWatchdogTimeout_kept  {s t : State}
    (h : execWatchdogTimeout  s = .next t) : t.kept = s.kept := by
  unfold execWatchdogTimeout at h
  refine gated_kept (fun s => ?_) h
  dsimp only
  (repeat' split) <;> simp [foldl_kept, apply_ite State.kept]

theorem execSelftestInterval_kept {c : Nat} {tests : BitVec 5} {failId : Nat} {s t : State}
    (h : execSelftestInterval c tests failId s = .next t) : t.kept = s.kept := by
  unfold execSelftestInterval at h
  refine gated_kept (fun s => ?_) h
  dsimp only
  (repeat' split) <;> simp [foldl_kept, apply_ite State.kept]

theorem execChannelRejoinTestDone_kept {c : Nat} {passed : Bool} {s t : State}
    (h : execChannelRejoinTestDone c passed s = .next t) : t.kept = s.kept := by
  unfold execChannelRejoinTestDone at h
  refine gated_kept (fun s => ?_) h
  (repeat' split) <;> simp [foldl_kept, apply_ite State.kept]

theorem execFaultQuietExpire_kept {n : Nat} {s t : State}
    (h : execFaultQuietExpire n s = .next t) : t.kept = s.kept := by
  unfold execFaultQuietExpire at h
  refine gated_kept (fun s => ?_) h
  dsimp only
  (repeat' split) <;> simp [foldl_kept, apply_ite State.kept]

theorem execAliveEdge_kept  {s t : State}
    (h : execAliveEdge  s = .next t) : t.kept = s.kept := by
  unfold execAliveEdge at h
  refine gated_kept (fun s => ?_) h
  dsimp only
  (repeat' split) <;> simp [foldl_kept, apply_ite State.kept]

theorem execSlowSquareReport_kept {sq : Nat} {s t : State}
    (h : execSlowSquareReport sq s = .next t) : t.kept = s.kept := by
  unfold execSlowSquareReport at h
  refine gated_kept (fun s => ?_) h
  dsimp only
  (repeat' split) <;> simp [foldl_kept, apply_ite State.kept]

theorem execCanaryReport_kept {sq : Nat} {margin : Int} {s t : State}
    (h : execCanaryReport sq margin s = .next t) : t.kept = s.kept := by
  unfold execCanaryReport at h
  refine gated_kept (every_kept _ _ fun s => ?_) h
  (try dsimp only)
  (repeat' split) <;> simp [foldl_kept, apply_ite State.kept]

theorem execGovernorTrim_kept {sq : Nat} {s t : State}
    (h : execGovernorTrim sq s = .next t) : t.kept = s.kept := by
  unfold execGovernorTrim at h
  refine gated_kept (fun s => ?_) h
  dsimp only
  (repeat' split) <;> simp [foldl_kept, apply_ite State.kept]

theorem execSetpointSave_kept {s t : State}
    (h : execSetpointSave s = .next t) : t.kept = s.kept := by
  unfold execSetpointSave at h
  refine gated_kept (every_kept _ _ fun s => ?_) h
  (try dsimp only)
  (repeat' split) <;> simp [foldl_kept, apply_ite State.kept]

theorem execPowerEstimate_kept {est : Nat} {s t : State}
    (h : execPowerEstimate est s = .next t) : t.kept = s.kept := by
  unfold execPowerEstimate at h
  refine gated_kept (every_kept _ _ fun s => ?_) h
  (try dsimp only)
  (repeat' split) <;> simp [foldl_kept, apply_ite State.kept]

theorem execPmbusCorrection_kept {pmb : Nat} {est : Nat} {s t : State}
    (h : execPmbusCorrection pmb est s = .next t) : t.kept = s.kept := by
  unfold execPmbusCorrection at h
  refine gated_kept (every_kept _ _ fun s => ?_) h
  (try dsimp only)
  (repeat' split) <;> simp [foldl_kept, apply_ite State.kept]

theorem execPowerLimiterAct_kept {s t : State}
    (h : execPowerLimiterAct s = .next t) : t.kept = s.kept := by
  unfold execPowerLimiterAct at h
  refine gated_kept (every_kept _ _ fun s => ?_) h
  (try dsimp only)
  (repeat' split) <;> simp [foldl_kept, apply_ite State.kept]

theorem execCapUnattainable_kept  {s t : State}
    (h : execCapUnattainable  s = .next t) : t.kept = s.kept := by
  unfold execCapUnattainable at h
  refine gated_kept (fun s => ?_) h
  dsimp only
  (repeat' split) <;> simp [foldl_kept, apply_ite State.kept]

theorem execThermalSensorUpdate_kept {temps : List Int} {s t : State}
    (h : execThermalSensorUpdate temps s = .next t) : t.kept = s.kept := by
  unfold execThermalSensorUpdate at h
  refine gated_kept (every_kept _ _ fun s => ?_) h
  (try dsimp only)
  (repeat' split) <;> simp [foldl_kept, apply_ite State.kept]

theorem execThermalLimiterAct_kept {s t : State}
    (h : execThermalLimiterAct s = .next t) : t.kept = s.kept := by
  unfold execThermalLimiterAct at h
  refine gated_kept (every_kept _ _ fun s => ?_) h
  (try dsimp only)
  (repeat' split) <;> simp [foldl_kept, apply_ite State.kept]

theorem execPhaseScheduleEntry_kept  {s t : State}
    (h : execPhaseScheduleEntry  s = .next t) : t.kept = s.kept := by
  unfold execPhaseScheduleEntry at h
  refine gated_kept (fun s => ?_) h
  simp

theorem execRegulatorAlert_kept  {s t : State}
    (h : execRegulatorAlert  s = .next t) : t.kept = s.kept := by
  unfold execRegulatorAlert at h
  refine gated_kept (fun s => ?_) h
  simp

theorem execCastleHandover_kept {h : Handover} {s t : State}
    (h : execCastleHandover h s = .next t) : t.kept = s.kept := by
  unfold execCastleHandover at h
  refine gated_kept (fun s => ?_) h
  (try dsimp only)
  (repeat' split) <;> simp [foldl_kept, apply_ite State.kept]

theorem execScoresheetCounterWrite_kept {ok : Bool} {s t : State}
    (h : execScoresheetCounterWrite ok s = .next t) : t.kept = s.kept := by
  unfold execScoresheetCounterWrite at h
  refine gated_kept (fun s => ?_) h
  dsimp only
  (repeat' split) <;> simp [foldl_kept, apply_ite State.kept]

theorem execLosClear_kept {lane : Nat} {ns : Nat} {s t : State}
    (h : execLosClear lane ns s = .next t) : t.kept = s.kept := by
  unfold execLosClear at h
  refine atPins_kept (fun s => ?_) h
  (try dsimp only)
  (repeat' split) <;> simp [foldl_kept, apply_ite State.kept]

theorem execLolClear_kept {lane : Nat} {ppm0 : Nat} {ppm1 : Nat} {s t : State}
    (h : execLolClear lane ppm0 ppm1 s = .next t) : t.kept = s.kept := by
  unfold execLolClear at h
  refine atPins_kept (fun s => ?_) h
  (try dsimp only)
  (repeat' split) <;> simp [foldl_kept, apply_ite State.kept]

theorem execAdaptOk_kept {port : Nat} {s t : State}
    (h : execAdaptOk port s = .next t) : t.kept = s.kept := by
  unfold execAdaptOk at h
  refine gated_kept (fun s => ?_) h
  (repeat' split) <;> simp [foldl_kept, apply_ite State.kept]

theorem execAmLock_kept {lane : Nat} {pos : Nat} {aligned : Bool} {s t : State}
    (h : execAmLock lane pos aligned s = .next t) : t.kept = s.kept := by
  unfold execAmLock at h
  refine atPins_kept (fun s => ?_) h
  (try dsimp only)
  (repeat' split) <;> simp [foldl_kept, apply_ite State.kept]

theorem execFecCodewordLock_kept {port : Nat} {s t : State}
    (h : execFecCodewordLock port s = .next t) : t.kept = s.kept := by
  unfold execFecCodewordLock at h
  refine atPins_kept (fun s => ?_) h
  (repeat' split) <;> simp [foldl_kept, apply_ite State.kept]

theorem execFaultSequenceClear_kept {port : Nat} {localFault : Bool} {remoteFault : Bool} {s t : State}
    (h : execFaultSequenceClear port localFault remoteFault s = .next t) : t.kept = s.kept := by
  unfold execFaultSequenceClear at h
  refine atPins_kept (fun s => ?_) h
  (repeat' split) <;> simp [foldl_kept, apply_ite State.kept]

theorem execAutonegComplete_kept {port : Nat} {partner : List Ability} {s t : State}
    (h : execAutonegComplete port partner s = .next t) : t.kept = s.kept := by
  unfold execAutonegComplete at h
  refine atPins_kept (fun s => ?_) h
  (try dsimp only)
  (repeat' split) <;> simp [foldl_kept, apply_ite State.kept]

theorem execLinkTrainingComplete_kept {lane : Nat} {ok : Bool} {s t : State}
    (h : execLinkTrainingComplete lane ok s = .next t) : t.kept = s.kept := by
  unfold execLinkTrainingComplete at h
  refine atPins_kept (fun s => ?_) h
  dsimp only
  (repeat' split) <;> simp [foldl_kept, apply_ite State.kept]

theorem execMgmtSyncAcquire_kept  {s t : State}
    (h : execMgmtSyncAcquire  s = .next t) : t.kept = s.kept := by
  unfold execMgmtSyncAcquire at h
  refine atPins_kept (fun s => ?_) h
  simp

theorem execMgmtAutonegComplete_kept {speed : Nat} {fullDuplex : Bool} {linkOk : Bool} {remoteFault : Bool} {drift : List Int} {s t : State}
    (h : execMgmtAutonegComplete speed fullDuplex linkOk remoteFault drift s = .next t) : t.kept = s.kept := by
  unfold execMgmtAutonegComplete at h
  refine atPins_kept (fun s => ?_) h
  (try dsimp only)
  (repeat' split) <;> simp [foldl_kept, apply_ite State.kept]

theorem execMgmtFrameReceive_kept {data : List Byte} {errored : Bool} {gap : List Int} {drift : Int} {s t : State}
    (h : execMgmtFrameReceive data errored gap drift s = .next t) : t.kept = s.kept := by
  unfold execMgmtFrameReceive at h
  refine atPins_kept (fun s => ?_) h
  (try dsimp only)
  (repeat' split) <;> simp [foldl_kept, apply_ite State.kept]

theorem execSummaryReadComplete_kept {fn : Nat} {words : List W64} {s t : State}
    (h : execSummaryReadComplete fn words s = .next t) : t.kept = s.kept := by
  unfold execSummaryReadComplete at h
  refine atPins_kept (fun s => ?_) h
  dsimp only
  (repeat' split) <;> simp [foldl_kept, apply_ite State.kept]

theorem execSwapComplete_kept {fn : Nat} {word : Nat} {bits : W64} {s t : State}
    (h : execSwapComplete fn word bits s = .next t) : t.kept = s.kept := by
  unfold execSwapComplete at h
  refine atPins_kept (fun s => ?_) h
  (try dsimp only)
  (repeat' split) <;> simp [foldl_kept, apply_ite State.kept]

theorem execCastleLoadComplete_kept {sigOk : Bool} {s t : State}
    (h : execCastleLoadComplete sigOk s = .next t) : t.kept = s.kept := by
  unfold execCastleLoadComplete at h
  refine gated_kept (fun s => ?_) h
  dsimp only
  (repeat' split) <;> simp [foldl_kept, apply_ite State.kept]

theorem execSriovVfEnable_kept {on : Bool} {numVfs : Nat} {s t : State}
    (h : execSriovVfEnable on numVfs s = .next t) : t.kept = s.kept := by
  unfold execSriovVfEnable at h
  refine atPins_kept (fun s => ?_) h
  dsimp only
  (repeat' split) <;> simp [foldl_kept, apply_ite State.kept]

theorem execPortMapWrite_kept {sq : Nat} {isRate : Bool} {value : Reg} {s t : State}
    (h : execPortMapWrite sq isRate value s = .next t) : t.kept = s.kept := by
  unfold execPortMapWrite at h
  refine atPins_kept (fun s => State.hostWriteReg_kept s _ _ _ ?_) h
  split <;> simp only [A.laneRate, A.portMap, A.sq] <;> omega

theorem execSvcAlloc_kept {c : Cmd} {s t : State} (h : execSvcAlloc c s = .next t) : t.kept = s.kept := by
  unfold execSvcAlloc at h
  refine gated_kept (runCmd_kept _ _ _ fun s => ?_) h
  dsimp only
  split
  · simp
  · split
    all_goals
      next he =>
      have hk := State.svcTake_kept s 5 c.p2.toNat
      rw [he] at hk
      simpa using hk

end Sys2Proof.Machine
end

