-- ==== Sys2Proof/Laws/Map.lean ====
section
/-!
SUPPORT. Laws of sparse maps: read after write, and the canonical form that every write keeps.
-/

namespace Sys2Proof.Machine

variable {α : Type}

/-! ### Read after write -/

theorem SMap.get_erase (d : Nat → α) (m : SMap α) (k j : Nat) :
    SMap.get d (SMap.erase m k) j = if j = k then d j else SMap.get d m j := by
  induction m with
  | nil => simp [SMap.erase, SMap.get]
  | cons e m ih =>
    obtain ⟨i, v⟩ := e
    simp only [SMap.erase, SMap.get]
    by_cases h : k = i
    · subst h
      simp only [if_true, ih]
      split <;> simp_all
    · simp only [h, if_false, SMap.get]
      by_cases hj : j = i
      · subst hj
        simp [Ne.symm h]
      · simp [hj, ih]

theorem SMap.get_insert (d : Nat → α) (m : SMap α) (k j : Nat) (x : α) :
    SMap.get d (SMap.insert m k x) j = if j = k then x else SMap.get d m j := by
  induction m with
  | nil => simp [SMap.insert, SMap.get]
  | cons e m ih =>
    obtain ⟨i, v⟩ := e
    simp only [SMap.insert]
    split
    · simp [SMap.get]
    · split
      · next h => subst h; by_cases hj : j = k <;> simp [SMap.get, hj]
      · next h =>
        simp only [SMap.get, ih]
        by_cases hj : j = i
        · subst hj; simp [Ne.symm h]
        · simp [hj]

theorem SMap.get_set [DecidableEq α] (d : Nat → α) (m : SMap α) (k j : Nat) (x : α) :
    SMap.get d (SMap.set d m k x) j = if j = k then x else SMap.get d m j := by
  unfold SMap.set
  split
  · next h => rw [SMap.get_erase, h]; split <;> simp_all
  · rw [SMap.get_insert]

@[simp] theorem SMap.get_set_same [DecidableEq α] (d : Nat → α) (m : SMap α) (k : Nat) (x : α) :
    SMap.get d (SMap.set d m k x) k = x := by simp [SMap.get_set]

theorem SMap.get_set_ne [DecidableEq α] (d : Nat → α) (m : SMap α) {k j : Nat} (x : α) (h : j ≠ k) :
    SMap.get d (SMap.set d m k x) j = SMap.get d m j := by simp [SMap.get_set, h]

theorem SMap.get_upd [DecidableEq α] (d : Nat → α) (m : SMap α) (k j : Nat) (f : α → α) :
    SMap.get d (SMap.upd d m k f) j = if j = k then f (SMap.get d m k) else SMap.get d m j := by
  rw [SMap.upd, SMap.get_set]

/-! ### The canonical form -/

/-- Every key listed lies above `b`. -/
def SMap.above (b : Nat) (m : SMap α) : Prop := ∀ e ∈ m, b < e.1

theorem SMap.sorted_cons (e : Nat × α) (m : SMap α) :
    SMap.sorted (e :: m) = true ↔ SMap.above e.1 m ∧ SMap.sorted m = true := by
  induction m generalizing e with
  | nil => simp [SMap.sorted, SMap.above]
  | cons f m ih =>
    obtain ⟨i, v⟩ := e
    obtain ⟨j, w⟩ := f
    simp only [SMap.sorted, Bool.and_eq_true, decide_eq_true_eq]
    constructor
    · rintro ⟨h, hs⟩
      refine ⟨?_, hs⟩
      intro x hx
      rcases List.mem_cons.mp hx with rfl | hx
      · exact h
      · exact h.trans (((ih (j, w)).mp hs).1 x hx)
    · rintro ⟨h, hs⟩
      exact ⟨h (j, w) (by simp), hs⟩

theorem SMap.mem_insert {m : SMap α} {k : Nat} {x : α} {e : Nat × α} (h : e ∈ SMap.insert m k x) :
    e = (k, x) ∨ e ∈ m := by
  induction m with
  | nil => simpa [SMap.insert] using h
  | cons f m ih =>
    obtain ⟨i, v⟩ := f
    simp only [SMap.insert] at h
    split at h
    · exact (List.mem_cons.mp h).imp_right id
    · split at h
      · exact (List.mem_cons.mp h).imp_right (List.mem_cons_of_mem _)
      · rcases List.mem_cons.mp h with rfl | h
        · exact .inr (by simp)
        · exact (ih h).imp_right (List.mem_cons_of_mem _)

theorem SMap.mem_erase {m : SMap α} {k : Nat} {e : Nat × α} (h : e ∈ SMap.erase m k) : e ∈ m := by
  induction m with
  | nil => exact h
  | cons f m ih =>
    obtain ⟨i, v⟩ := f
    simp only [SMap.erase] at h
    split at h
    · exact List.mem_cons_of_mem _ (ih h)
    · rcases List.mem_cons.mp h with rfl | h
      · simp
      · exact List.mem_cons_of_mem _ (ih h)

theorem SMap.sorted_insert {m : SMap α} (h : SMap.sorted m = true) (k : Nat) (x : α) :
    SMap.sorted (SMap.insert m k x) = true := by
  induction m with
  | nil => rfl
  | cons f m ih =>
    obtain ⟨i, v⟩ := f
    obtain ⟨ha, hs⟩ := (SMap.sorted_cons _ _).mp h
    simp only [SMap.insert]
    split
    · next hk =>
      refine (SMap.sorted_cons _ _).mpr ⟨?_, h⟩
      intro e he
      rcases List.mem_cons.mp he with rfl | he
      · exact hk
      · exact hk.trans (ha e he)
    · split
      · next hk => subst hk; exact (SMap.sorted_cons _ _).mpr ⟨ha, hs⟩
      · refine (SMap.sorted_cons _ _).mpr ⟨?_, ih hs⟩
        intro e he
        rcases SMap.mem_insert he with rfl | he
        · dsimp only; omega
        · exact ha e he

theorem SMap.sorted_erase {m : SMap α} (h : SMap.sorted m = true) (k : Nat) :
    SMap.sorted (SMap.erase m k) = true := by
  induction m with
  | nil => rfl
  | cons f m ih =>
    obtain ⟨i, v⟩ := f
    obtain ⟨ha, hs⟩ := (SMap.sorted_cons _ _).mp h
    simp only [SMap.erase]
    split
    · exact ih hs
    · exact (SMap.sorted_cons _ _).mpr ⟨fun e he => ha e (SMap.mem_erase he), ih hs⟩

theorem SMap.wf_iff [DecidableEq α] (d : Nat → α) (m : SMap α) :
    SMap.wf d m = true ↔ SMap.sorted m = true ∧ ∀ e ∈ m, e.2 ≠ d e.1 := by
  simp [SMap.wf, SMap.noDefault]

/-- Every write keeps the canonical form. -/
theorem SMap.wf_set [DecidableEq α] {d : Nat → α} {m : SMap α} (h : SMap.wf d m = true) (k : Nat) (x : α) :
    SMap.wf d (SMap.set d m k x) = true := by
  obtain ⟨hs, hd⟩ := (SMap.wf_iff d m).mp h
  refine (SMap.wf_iff d _).mpr ?_
  unfold SMap.set
  split
  · exact ⟨SMap.sorted_erase hs k, fun e he => hd e (SMap.mem_erase he)⟩
  · next hx =>
    refine ⟨SMap.sorted_insert hs k x, fun e he => ?_⟩
    rcases SMap.mem_insert he with rfl | he
    · exact hx
    · exact hd e he

theorem SMap.wf_upd [DecidableEq α] {d : Nat → α} {m : SMap α} (h : SMap.wf d m = true) (k : Nat) (f : α → α) :
    SMap.wf d (SMap.upd d m k f) = true := SMap.wf_set h k _

theorem SMap.sorted_filter {m : SMap α} (h : SMap.sorted m = true) (p : Nat × α → Bool) :
    SMap.sorted (m.filter p) = true := by
  induction m with
  | nil => rfl
  | cons e m ih =>
    obtain ⟨ha, hs⟩ := (SMap.sorted_cons _ _).mp h
    simp only [List.filter_cons]
    split
    · exact (SMap.sorted_cons _ _).mpr ⟨fun x hx => ha x (List.mem_filter.mp hx).1, ih hs⟩
    · exact ih hs

/-- Dropping entries keeps the canonical form. -/
theorem SMap.wf_filter [DecidableEq α] {d : Nat → α} {m : SMap α} (h : SMap.wf d m = true) (p : Nat × α → Bool) :
    SMap.wf d (m.filter p) = true := by
  obtain ⟨hs, hd⟩ := (SMap.wf_iff d m).mp h
  exact (SMap.wf_iff d _).mpr ⟨SMap.sorted_filter hs p, fun e he => hd e (List.mem_filter.mp he).1⟩

/-- Writes in a fold keep the canonical form. -/
theorem SMap.wf_foldl [DecidableEq α] {β : Type} {d : Nat → α} {f : SMap α → β → SMap α}
    (hf : ∀ m b, SMap.wf d m = true → SMap.wf d (f m b) = true) (l : List β) {m : SMap α} (h : SMap.wf d m = true) :
    SMap.wf d (l.foldl f m) = true := by
  induction l generalizing m with
  | nil => exact h
  | cons b l ih => exact ih (hf m b h)

/-! ### Tables without a default -/

theorem tget_nil (k : Nat) : tget ([] : List (Nat × α)) k = none := rfl

theorem tget_cons (e : Nat × α) (m : List (Nat × α)) (k : Nat) :
    tget (e :: m) k = if k = e.1 then some e.2 else tget m k := rfl

theorem tget_insert (m : SMap α) (k j : Nat) (x : α) :
    tget (SMap.insert m k x) j = if j = k then some x else tget m j := by
  induction m with
  | nil => simp [SMap.insert, tget_cons]
  | cons e m ih =>
    obtain ⟨i, v⟩ := e
    simp only [SMap.insert]
    split
    · simp [tget_cons]
    · split
      · next h => subst h; by_cases hj : j = k <;> simp [tget_cons, hj]
      · next h =>
        simp only [tget_cons, ih]
        by_cases hj : j = i
        · subst hj; simp [Ne.symm h]
        · simp [hj]

theorem tget_erase (m : SMap α) (k j : Nat) : tget (SMap.erase m k) j = if j = k then none else tget m j := by
  induction m with
  | nil => simp [SMap.erase, tget_nil]
  | cons e m ih =>
    obtain ⟨i, v⟩ := e
    simp only [SMap.erase]
    by_cases h : k = i
    · subst h
      simp only [if_true, ih, tget_cons]
      split <;> simp_all
    · simp only [h, if_false, tget_cons, ih]
      by_cases hj : j = i
      · subst hj; simp [Ne.symm h]
      · simp [hj]

theorem tget_tmod (m : List (Nat × α)) (k j : Nat) (f : α → α) :
    tget (tmod m k f) j = if j = k then (tget m j).map f else tget m j := by
  induction m with
  | nil => simp [tmod, tget_nil]
  | cons e m ih =>
    simp only [tmod, List.map_cons] at ih ⊢
    split <;> simp only [tget_cons] <;> split <;> simp_all

end Sys2Proof.Machine
end

