-- ==== Sys2Proof/Laws/State.lean ====
section
/-!
SUPPORT. The parts of the state after each basic update: the field it names is read back, every other field is as
before.
-/

namespace Sys2Proof.Machine

/-! ### Read after write -/

theorem State.reg_setReg (s : State) (a b : Nat) (v : Reg) :
    (s.setReg a v).reg b = if b = a then v else s.reg b := SMap.get_set _ _ _ _ _

theorem State.inForce_setForce (s : State) (a b : Nat) (v : Reg) :
    (s.setForce a v).inForce b = if b = a then v else s.inForce b := SMap.get_set _ _ _ _ _

theorem State.fn_setFn (s : State) (c i d j : Nat) (x : Fn) :
    (s.setFn c i x).fn d j = if fnKey d j = fnKey c i then x else s.fn d j := SMap.get_set _ _ _ _ _

theorem State.sq_setSq (s : State) (i j : Nat) (x : Sq) :
    (s.setSq i x).sq j = if j = i then x else s.sq j := SMap.get_set _ _ _ _ _

theorem State.sq_modSq (s : State) (i j : Nat) (f : Sq → Sq) :
    (s.modSq i f).sq j = if j = i then f (s.sq i) else s.sq j := SMap.get_set _ _ _ _ _

theorem State.lane_modLane (s : State) (i j : Nat) (f : Lane → Lane) :
    (s.modLane i f).lane j = if j = i then f (s.lane i) else s.lane j := SMap.get_upd _ _ _ _ _

theorem State.link_modLink (s : State) (i j : Nat) (f : Link → Link) :
    (s.modLink i f).link j = if j = i then f (s.link i) else s.link j := SMap.get_upd _ _ _ _ _

theorem State.queue_modQueue (s : State) (i j : Nat) (f : Queue → Queue) :
    (s.modQueue i f).queue j = if j = i then f (s.queue i) else s.queue j := SMap.get_upd _ _ _ _ _

theorem State.eport_modEport (s : State) (i j : Nat) (f : EPort → EPort) :
    (s.modEport i f).eport j = if j = i then f (s.eport i) else s.eport j := SMap.get_upd _ _ _ _ _

theorem State.ring_modRing (s : State) (i j : Nat) (f : Ring → Ring) :
    (s.modRing i f).ring j = if j = i then f (s.ring i) else s.ring j := SMap.get_upd _ _ _ _ _

theorem State.chan_modChan (s : State) (i j : Nat) (f : Chan → Chan) :
    (s.modChan i f).chan j = if j = i then f (s.chan i) else s.chan j := SMap.get_upd _ _ _ _ _

theorem State.engine_modEngine (s : State) (i j : Nat) (f : Engine → Engine) :
    (s.modEngine i f).engine j = if j = i then f (s.engine i) else s.engine j := SMap.get_upd _ _ _ _ _

theorem State.chn_modChn (s : State) (i j : Nat) (f : Chn → Chn) :
    (s.modChn i f).chn j = if j = i then f (s.chn i) else s.chn j := SMap.get_upd _ _ _ _ _

theorem State.src_modSrc (s : State) (i j : Nat) (f : Src → Src) :
    (s.modSrc i f).src j = if j = i then f (s.src i) else s.src j := SMap.get_upd _ _ _ _ _

theorem State.vsq_modVsq (s : State) (i j : Nat) (f : Vsq → Vsq) :
    (s.modVsq i f).vsq j = if j = i then f (s.vsq i) else s.vsq j := SMap.get_upd _ _ _ _ _

theorem State.counter_setCounter (s : State) (o p v : Nat) :
    (s.setCounter o v).counter p = if p = o then v else s.counter p := SMap.get_set _ _ _ _ _

@[simp] theorem votedTick_same (t : Tick) : votedTick t t t = t := by simp [votedTick]

@[simp] theorem State.now_loadTime (s : State) (t : Tick) : (s.loadTime t).now = t := by
  simp [State.now, State.loadTime]

/-! ### Everything else -/


@[simp] theorem State.setReg_pending (s : State) (a : Nat) (v : Reg) : (s.setReg a v).pending = s.pending := rfl
@[simp] theorem State.setReg_force (s : State) (a : Nat) (v : Reg) : (s.setReg a v).force = s.force := rfl
@[simp] theorem State.setReg_fns (s : State) (a : Nat) (v : Reg) : (s.setReg a v).fns = s.fns := rfl
@[simp] theorem State.setReg_links (s : State) (a : Nat) (v : Reg) : (s.setReg a v).links = s.links := rfl
@[simp] theorem State.setReg_lanes (s : State) (a : Nat) (v : Reg) : (s.setReg a v).lanes = s.lanes := rfl
@[simp] theorem State.setReg_sqs (s : State) (a : Nat) (v : Reg) : (s.setReg a v).sqs = s.sqs := rfl
@[simp] theorem State.setReg_book (s : State) (a : Nat) (v : Reg) : (s.setReg a v).book = s.book := rfl
@[simp] theorem State.setReg_tour (s : State) (a : Nat) (v : Reg) : (s.setReg a v).tour = s.tour := rfl
@[simp] theorem State.setReg_buf (s : State) (a : Nat) (v : Reg) : (s.setReg a v).buf = s.buf := rfl
@[simp] theorem State.setReg_queues (s : State) (a : Nat) (v : Reg) : (s.setReg a v).queues = s.queues := rfl
@[simp] theorem State.setReg_eports (s : State) (a : Nat) (v : Reg) : (s.setReg a v).eports = s.eports := rfl
@[simp] theorem State.setReg_red (s : State) (a : Nat) (v : Reg) : (s.setReg a v).red = s.red := rfl
@[simp] theorem State.setReg_time (s : State) (a : Nat) (v : Reg) : (s.setReg a v).time = s.time := rfl
@[simp] theorem State.setReg_host (s : State) (a : Nat) (v : Reg) : (s.setReg a v).host = s.host := rfl
@[simp] theorem State.setReg_triad (s : State) (a : Nat) (v : Reg) : (s.setReg a v).triad = s.triad := rfl
@[simp] theorem State.setReg_fault (s : State) (a : Nat) (v : Reg) : (s.setReg a v).fault = s.fault := rfl
@[simp] theorem State.setReg_power (s : State) (a : Nat) (v : Reg) : (s.setReg a v).power = s.power := rfl
@[simp] theorem State.setReg_boot (s : State) (a : Nat) (v : Reg) : (s.setReg a v).boot = s.boot := rfl
@[simp] theorem State.setReg_nv (s : State) (a : Nat) (v : Reg) : (s.setReg a v).nv = s.nv := rfl
@[simp] theorem State.setReg_pins (s : State) (a : Nat) (v : Reg) : (s.setReg a v).pins = s.pins := rfl
@[simp] theorem State.setReg_cnt (s : State) (a : Nat) (v : Reg) : (s.setReg a v).cnt = s.cnt := rfl
@[simp] theorem State.setReg_nextFid (s : State) (a : Nat) (v : Reg) : (s.setReg a v).nextFid = s.nextFid := rfl
@[simp] theorem State.setReg_io (s : State) (a : Nat) (v : Reg) : (s.setReg a v).io = s.io := rfl

@[simp] theorem State.setForce_pending (s : State) (a : Nat) (v : Reg) : (s.setForce a v).pending = s.pending := rfl
@[simp] theorem State.setForce_regs (s : State) (a : Nat) (v : Reg) : (s.setForce a v).regs = s.regs := rfl
@[simp] theorem State.setForce_fns (s : State) (a : Nat) (v : Reg) : (s.setForce a v).fns = s.fns := rfl
@[simp] theorem State.setForce_links (s : State) (a : Nat) (v : Reg) : (s.setForce a v).links = s.links := rfl
@[simp] theorem State.setForce_lanes (s : State) (a : Nat) (v : Reg) : (s.setForce a v).lanes = s.lanes := rfl
@[simp] theorem State.setForce_sqs (s : State) (a : Nat) (v : Reg) : (s.setForce a v).sqs = s.sqs := rfl
@[simp] theorem State.setForce_book (s : State) (a : Nat) (v : Reg) : (s.setForce a v).book = s.book := rfl
@[simp] theorem State.setForce_tour (s : State) (a : Nat) (v : Reg) : (s.setForce a v).tour = s.tour := rfl
@[simp] theorem State.setForce_buf (s : State) (a : Nat) (v : Reg) : (s.setForce a v).buf = s.buf := rfl
@[simp] theorem State.setForce_queues (s : State) (a : Nat) (v : Reg) : (s.setForce a v).queues = s.queues := rfl
@[simp] theorem State.setForce_eports (s : State) (a : Nat) (v : Reg) : (s.setForce a v).eports = s.eports := rfl
@[simp] theorem State.setForce_red (s : State) (a : Nat) (v : Reg) : (s.setForce a v).red = s.red := rfl
@[simp] theorem State.setForce_time (s : State) (a : Nat) (v : Reg) : (s.setForce a v).time = s.time := rfl
@[simp] theorem State.setForce_host (s : State) (a : Nat) (v : Reg) : (s.setForce a v).host = s.host := rfl
@[simp] theorem State.setForce_triad (s : State) (a : Nat) (v : Reg) : (s.setForce a v).triad = s.triad := rfl
@[simp] theorem State.setForce_fault (s : State) (a : Nat) (v : Reg) : (s.setForce a v).fault = s.fault := rfl
@[simp] theorem State.setForce_power (s : State) (a : Nat) (v : Reg) : (s.setForce a v).power = s.power := rfl
@[simp] theorem State.setForce_boot (s : State) (a : Nat) (v : Reg) : (s.setForce a v).boot = s.boot := rfl
@[simp] theorem State.setForce_nv (s : State) (a : Nat) (v : Reg) : (s.setForce a v).nv = s.nv := rfl
@[simp] theorem State.setForce_pins (s : State) (a : Nat) (v : Reg) : (s.setForce a v).pins = s.pins := rfl
@[simp] theorem State.setForce_cnt (s : State) (a : Nat) (v : Reg) : (s.setForce a v).cnt = s.cnt := rfl
@[simp] theorem State.setForce_nextFid (s : State) (a : Nat) (v : Reg) : (s.setForce a v).nextFid = s.nextFid := rfl
@[simp] theorem State.setForce_io (s : State) (a : Nat) (v : Reg) : (s.setForce a v).io = s.io := rfl

@[simp] theorem State.latch_pending (s : State) (as : List Nat) : (s.latch as).pending = s.pending := rfl
@[simp] theorem State.latch_regs (s : State) (as : List Nat) : (s.latch as).regs = s.regs := rfl
@[simp] theorem State.latch_fns (s : State) (as : List Nat) : (s.latch as).fns = s.fns := rfl
@[simp] theorem State.latch_links (s : State) (as : List Nat) : (s.latch as).links = s.links := rfl
@[simp] theorem State.latch_lanes (s : State) (as : List Nat) : (s.latch as).lanes = s.lanes := rfl
@[simp] theorem State.latch_sqs (s : State) (as : List Nat) : (s.latch as).sqs = s.sqs := rfl
@[simp] theorem State.latch_book (s : State) (as : List Nat) : (s.latch as).book = s.book := rfl
@[simp] theorem State.latch_tour (s : State) (as : List Nat) : (s.latch as).tour = s.tour := rfl
@[simp] theorem State.latch_buf (s : State) (as : List Nat) : (s.latch as).buf = s.buf := rfl
@[simp] theorem State.latch_queues (s : State) (as : List Nat) : (s.latch as).queues = s.queues := rfl
@[simp] theorem State.latch_eports (s : State) (as : List Nat) : (s.latch as).eports = s.eports := rfl
@[simp] theorem State.latch_red (s : State) (as : List Nat) : (s.latch as).red = s.red := rfl
@[simp] theorem State.latch_time (s : State) (as : List Nat) : (s.latch as).time = s.time := rfl
@[simp] theorem State.latch_host (s : State) (as : List Nat) : (s.latch as).host = s.host := rfl
@[simp] theorem State.latch_triad (s : State) (as : List Nat) : (s.latch as).triad = s.triad := rfl
@[simp] theorem State.latch_fault (s : State) (as : List Nat) : (s.latch as).fault = s.fault := rfl
@[simp] theorem State.latch_power (s : State) (as : List Nat) : (s.latch as).power = s.power := rfl
@[simp] theorem State.latch_boot (s : State) (as : List Nat) : (s.latch as).boot = s.boot := rfl
@[simp] theorem State.latch_nv (s : State) (as : List Nat) : (s.latch as).nv = s.nv := rfl
@[simp] theorem State.latch_pins (s : State) (as : List Nat) : (s.latch as).pins = s.pins := rfl
@[simp] theorem State.latch_cnt (s : State) (as : List Nat) : (s.latch as).cnt = s.cnt := rfl
@[simp] theorem State.latch_nextFid (s : State) (as : List Nat) : (s.latch as).nextFid = s.nextFid := rfl
@[simp] theorem State.latch_io (s : State) (as : List Nat) : (s.latch as).io = s.io := rfl

@[simp] theorem State.setFn_pending (s : State) (cls inst : Nat) (x : Fn) : (s.setFn cls inst x).pending = s.pending := rfl
@[simp] theorem State.setFn_regs (s : State) (cls inst : Nat) (x : Fn) : (s.setFn cls inst x).regs = s.regs := rfl
@[simp] theorem State.setFn_force (s : State) (cls inst : Nat) (x : Fn) : (s.setFn cls inst x).force = s.force := rfl
@[simp] theorem State.setFn_links (s : State) (cls inst : Nat) (x : Fn) : (s.setFn cls inst x).links = s.links := rfl
@[simp] theorem State.setFn_lanes (s : State) (cls inst : Nat) (x : Fn) : (s.setFn cls inst x).lanes = s.lanes := rfl
@[simp] theorem State.setFn_sqs (s : State) (cls inst : Nat) (x : Fn) : (s.setFn cls inst x).sqs = s.sqs := rfl
@[simp] theorem State.setFn_book (s : State) (cls inst : Nat) (x : Fn) : (s.setFn cls inst x).book = s.book := rfl
@[simp] theorem State.setFn_tour (s : State) (cls inst : Nat) (x : Fn) : (s.setFn cls inst x).tour = s.tour := rfl
@[simp] theorem State.setFn_buf (s : State) (cls inst : Nat) (x : Fn) : (s.setFn cls inst x).buf = s.buf := rfl
@[simp] theorem State.setFn_queues (s : State) (cls inst : Nat) (x : Fn) : (s.setFn cls inst x).queues = s.queues := rfl
@[simp] theorem State.setFn_eports (s : State) (cls inst : Nat) (x : Fn) : (s.setFn cls inst x).eports = s.eports := rfl
@[simp] theorem State.setFn_red (s : State) (cls inst : Nat) (x : Fn) : (s.setFn cls inst x).red = s.red := rfl
@[simp] theorem State.setFn_time (s : State) (cls inst : Nat) (x : Fn) : (s.setFn cls inst x).time = s.time := rfl
@[simp] theorem State.setFn_host (s : State) (cls inst : Nat) (x : Fn) : (s.setFn cls inst x).host = s.host := rfl
@[simp] theorem State.setFn_triad (s : State) (cls inst : Nat) (x : Fn) : (s.setFn cls inst x).triad = s.triad := rfl
@[simp] theorem State.setFn_fault (s : State) (cls inst : Nat) (x : Fn) : (s.setFn cls inst x).fault = s.fault := rfl
@[simp] theorem State.setFn_power (s : State) (cls inst : Nat) (x : Fn) : (s.setFn cls inst x).power = s.power := rfl
@[simp] theorem State.setFn_boot (s : State) (cls inst : Nat) (x : Fn) : (s.setFn cls inst x).boot = s.boot := rfl
@[simp] theorem State.setFn_nv (s : State) (cls inst : Nat) (x : Fn) : (s.setFn cls inst x).nv = s.nv := rfl
@[simp] theorem State.setFn_pins (s : State) (cls inst : Nat) (x : Fn) : (s.setFn cls inst x).pins = s.pins := rfl
@[simp] theorem State.setFn_cnt (s : State) (cls inst : Nat) (x : Fn) : (s.setFn cls inst x).cnt = s.cnt := rfl
@[simp] theorem State.setFn_nextFid (s : State) (cls inst : Nat) (x : Fn) : (s.setFn cls inst x).nextFid = s.nextFid := rfl
@[simp] theorem State.setFn_io (s : State) (cls inst : Nat) (x : Fn) : (s.setFn cls inst x).io = s.io := rfl

@[simp] theorem State.modFn_pending (s : State) (cls inst : Nat) (f : Fn → Fn) : (s.modFn cls inst f).pending = s.pending := rfl
@[simp] theorem State.modFn_regs (s : State) (cls inst : Nat) (f : Fn → Fn) : (s.modFn cls inst f).regs = s.regs := rfl
@[simp] theorem State.modFn_force (s : State) (cls inst : Nat) (f : Fn → Fn) : (s.modFn cls inst f).force = s.force := rfl
@[simp] theorem State.modFn_links (s : State) (cls inst : Nat) (f : Fn → Fn) : (s.modFn cls inst f).links = s.links := rfl
@[simp] theorem State.modFn_lanes (s : State) (cls inst : Nat) (f : Fn → Fn) : (s.modFn cls inst f).lanes = s.lanes := rfl
@[simp] theorem State.modFn_sqs (s : State) (cls inst : Nat) (f : Fn → Fn) : (s.modFn cls inst f).sqs = s.sqs := rfl
@[simp] theorem State.modFn_book (s : State) (cls inst : Nat) (f : Fn → Fn) : (s.modFn cls inst f).book = s.book := rfl
@[simp] theorem State.modFn_tour (s : State) (cls inst : Nat) (f : Fn → Fn) : (s.modFn cls inst f).tour = s.tour := rfl
@[simp] theorem State.modFn_buf (s : State) (cls inst : Nat) (f : Fn → Fn) : (s.modFn cls inst f).buf = s.buf := rfl
@[simp] theorem State.modFn_queues (s : State) (cls inst : Nat) (f : Fn → Fn) : (s.modFn cls inst f).queues = s.queues := rfl
@[simp] theorem State.modFn_eports (s : State) (cls inst : Nat) (f : Fn → Fn) : (s.modFn cls inst f).eports = s.eports := rfl
@[simp] theorem State.modFn_red (s : State) (cls inst : Nat) (f : Fn → Fn) : (s.modFn cls inst f).red = s.red := rfl
@[simp] theorem State.modFn_time (s : State) (cls inst : Nat) (f : Fn → Fn) : (s.modFn cls inst f).time = s.time := rfl
@[simp] theorem State.modFn_host (s : State) (cls inst : Nat) (f : Fn → Fn) : (s.modFn cls inst f).host = s.host := rfl
@[simp] theorem State.modFn_triad (s : State) (cls inst : Nat) (f : Fn → Fn) : (s.modFn cls inst f).triad = s.triad := rfl
@[simp] theorem State.modFn_fault (s : State) (cls inst : Nat) (f : Fn → Fn) : (s.modFn cls inst f).fault = s.fault := rfl
@[simp] theorem State.modFn_power (s : State) (cls inst : Nat) (f : Fn → Fn) : (s.modFn cls inst f).power = s.power := rfl
@[simp] theorem State.modFn_boot (s : State) (cls inst : Nat) (f : Fn → Fn) : (s.modFn cls inst f).boot = s.boot := rfl
@[simp] theorem State.modFn_nv (s : State) (cls inst : Nat) (f : Fn → Fn) : (s.modFn cls inst f).nv = s.nv := rfl
@[simp] theorem State.modFn_pins (s : State) (cls inst : Nat) (f : Fn → Fn) : (s.modFn cls inst f).pins = s.pins := rfl
@[simp] theorem State.modFn_cnt (s : State) (cls inst : Nat) (f : Fn → Fn) : (s.modFn cls inst f).cnt = s.cnt := rfl
@[simp] theorem State.modFn_nextFid (s : State) (cls inst : Nat) (f : Fn → Fn) : (s.modFn cls inst f).nextFid = s.nextFid := rfl
@[simp] theorem State.modFn_io (s : State) (cls inst : Nat) (f : Fn → Fn) : (s.modFn cls inst f).io = s.io := rfl

@[simp] theorem State.modLink_pending (s : State) (p : Nat) (f : Link → Link) : (s.modLink p f).pending = s.pending := rfl
@[simp] theorem State.modLink_regs (s : State) (p : Nat) (f : Link → Link) : (s.modLink p f).regs = s.regs := rfl
@[simp] theorem State.modLink_force (s : State) (p : Nat) (f : Link → Link) : (s.modLink p f).force = s.force := rfl
@[simp] theorem State.modLink_fns (s : State) (p : Nat) (f : Link → Link) : (s.modLink p f).fns = s.fns := rfl
@[simp] theorem State.modLink_lanes (s : State) (p : Nat) (f : Link → Link) : (s.modLink p f).lanes = s.lanes := rfl
@[simp] theorem State.modLink_sqs (s : State) (p : Nat) (f : Link → Link) : (s.modLink p f).sqs = s.sqs := rfl
@[simp] theorem State.modLink_book (s : State) (p : Nat) (f : Link → Link) : (s.modLink p f).book = s.book := rfl
@[simp] theorem State.modLink_tour (s : State) (p : Nat) (f : Link → Link) : (s.modLink p f).tour = s.tour := rfl
@[simp] theorem State.modLink_buf (s : State) (p : Nat) (f : Link → Link) : (s.modLink p f).buf = s.buf := rfl
@[simp] theorem State.modLink_queues (s : State) (p : Nat) (f : Link → Link) : (s.modLink p f).queues = s.queues := rfl
@[simp] theorem State.modLink_eports (s : State) (p : Nat) (f : Link → Link) : (s.modLink p f).eports = s.eports := rfl
@[simp] theorem State.modLink_red (s : State) (p : Nat) (f : Link → Link) : (s.modLink p f).red = s.red := rfl
@[simp] theorem State.modLink_time (s : State) (p : Nat) (f : Link → Link) : (s.modLink p f).time = s.time := rfl
@[simp] theorem State.modLink_host (s : State) (p : Nat) (f : Link → Link) : (s.modLink p f).host = s.host := rfl
@[simp] theorem State.modLink_triad (s : State) (p : Nat) (f : Link → Link) : (s.modLink p f).triad = s.triad := rfl
@[simp] theorem State.modLink_fault (s : State) (p : Nat) (f : Link → Link) : (s.modLink p f).fault = s.fault := rfl
@[simp] theorem State.modLink_power (s : State) (p : Nat) (f : Link → Link) : (s.modLink p f).power = s.power := rfl
@[simp] theorem State.modLink_boot (s : State) (p : Nat) (f : Link → Link) : (s.modLink p f).boot = s.boot := rfl
@[simp] theorem State.modLink_nv (s : State) (p : Nat) (f : Link → Link) : (s.modLink p f).nv = s.nv := rfl
@[simp] theorem State.modLink_pins (s : State) (p : Nat) (f : Link → Link) : (s.modLink p f).pins = s.pins := rfl
@[simp] theorem State.modLink_cnt (s : State) (p : Nat) (f : Link → Link) : (s.modLink p f).cnt = s.cnt := rfl
@[simp] theorem State.modLink_nextFid (s : State) (p : Nat) (f : Link → Link) : (s.modLink p f).nextFid = s.nextFid := rfl
@[simp] theorem State.modLink_io (s : State) (p : Nat) (f : Link → Link) : (s.modLink p f).io = s.io := rfl

@[simp] theorem State.modLane_pending (s : State) (i : Nat) (f : Lane → Lane) : (s.modLane i f).pending = s.pending := rfl
@[simp] theorem State.modLane_regs (s : State) (i : Nat) (f : Lane → Lane) : (s.modLane i f).regs = s.regs := rfl
@[simp] theorem State.modLane_force (s : State) (i : Nat) (f : Lane → Lane) : (s.modLane i f).force = s.force := rfl
@[simp] theorem State.modLane_fns (s : State) (i : Nat) (f : Lane → Lane) : (s.modLane i f).fns = s.fns := rfl
@[simp] theorem State.modLane_links (s : State) (i : Nat) (f : Lane → Lane) : (s.modLane i f).links = s.links := rfl
@[simp] theorem State.modLane_sqs (s : State) (i : Nat) (f : Lane → Lane) : (s.modLane i f).sqs = s.sqs := rfl
@[simp] theorem State.modLane_book (s : State) (i : Nat) (f : Lane → Lane) : (s.modLane i f).book = s.book := rfl
@[simp] theorem State.modLane_tour (s : State) (i : Nat) (f : Lane → Lane) : (s.modLane i f).tour = s.tour := rfl
@[simp] theorem State.modLane_buf (s : State) (i : Nat) (f : Lane → Lane) : (s.modLane i f).buf = s.buf := rfl
@[simp] theorem State.modLane_queues (s : State) (i : Nat) (f : Lane → Lane) : (s.modLane i f).queues = s.queues := rfl
@[simp] theorem State.modLane_eports (s : State) (i : Nat) (f : Lane → Lane) : (s.modLane i f).eports = s.eports := rfl
@[simp] theorem State.modLane_red (s : State) (i : Nat) (f : Lane → Lane) : (s.modLane i f).red = s.red := rfl
@[simp] theorem State.modLane_time (s : State) (i : Nat) (f : Lane → Lane) : (s.modLane i f).time = s.time := rfl
@[simp] theorem State.modLane_host (s : State) (i : Nat) (f : Lane → Lane) : (s.modLane i f).host = s.host := rfl
@[simp] theorem State.modLane_triad (s : State) (i : Nat) (f : Lane → Lane) : (s.modLane i f).triad = s.triad := rfl
@[simp] theorem State.modLane_fault (s : State) (i : Nat) (f : Lane → Lane) : (s.modLane i f).fault = s.fault := rfl
@[simp] theorem State.modLane_power (s : State) (i : Nat) (f : Lane → Lane) : (s.modLane i f).power = s.power := rfl
@[simp] theorem State.modLane_boot (s : State) (i : Nat) (f : Lane → Lane) : (s.modLane i f).boot = s.boot := rfl
@[simp] theorem State.modLane_nv (s : State) (i : Nat) (f : Lane → Lane) : (s.modLane i f).nv = s.nv := rfl
@[simp] theorem State.modLane_pins (s : State) (i : Nat) (f : Lane → Lane) : (s.modLane i f).pins = s.pins := rfl
@[simp] theorem State.modLane_cnt (s : State) (i : Nat) (f : Lane → Lane) : (s.modLane i f).cnt = s.cnt := rfl
@[simp] theorem State.modLane_nextFid (s : State) (i : Nat) (f : Lane → Lane) : (s.modLane i f).nextFid = s.nextFid := rfl
@[simp] theorem State.modLane_io (s : State) (i : Nat) (f : Lane → Lane) : (s.modLane i f).io = s.io := rfl

@[simp] theorem State.setSq_pending (s : State) (i : Nat) (x : Sq) : (s.setSq i x).pending = s.pending := rfl
@[simp] theorem State.setSq_regs (s : State) (i : Nat) (x : Sq) : (s.setSq i x).regs = s.regs := rfl
@[simp] theorem State.setSq_force (s : State) (i : Nat) (x : Sq) : (s.setSq i x).force = s.force := rfl
@[simp] theorem State.setSq_fns (s : State) (i : Nat) (x : Sq) : (s.setSq i x).fns = s.fns := rfl
@[simp] theorem State.setSq_links (s : State) (i : Nat) (x : Sq) : (s.setSq i x).links = s.links := rfl
@[simp] theorem State.setSq_lanes (s : State) (i : Nat) (x : Sq) : (s.setSq i x).lanes = s.lanes := rfl
@[simp] theorem State.setSq_book (s : State) (i : Nat) (x : Sq) : (s.setSq i x).book = s.book := rfl
@[simp] theorem State.setSq_tour (s : State) (i : Nat) (x : Sq) : (s.setSq i x).tour = s.tour := rfl
@[simp] theorem State.setSq_buf (s : State) (i : Nat) (x : Sq) : (s.setSq i x).buf = s.buf := rfl
@[simp] theorem State.setSq_queues (s : State) (i : Nat) (x : Sq) : (s.setSq i x).queues = s.queues := rfl
@[simp] theorem State.setSq_eports (s : State) (i : Nat) (x : Sq) : (s.setSq i x).eports = s.eports := rfl
@[simp] theorem State.setSq_red (s : State) (i : Nat) (x : Sq) : (s.setSq i x).red = s.red := rfl
@[simp] theorem State.setSq_time (s : State) (i : Nat) (x : Sq) : (s.setSq i x).time = s.time := rfl
@[simp] theorem State.setSq_host (s : State) (i : Nat) (x : Sq) : (s.setSq i x).host = s.host := rfl
@[simp] theorem State.setSq_triad (s : State) (i : Nat) (x : Sq) : (s.setSq i x).triad = s.triad := rfl
@[simp] theorem State.setSq_fault (s : State) (i : Nat) (x : Sq) : (s.setSq i x).fault = s.fault := rfl
@[simp] theorem State.setSq_power (s : State) (i : Nat) (x : Sq) : (s.setSq i x).power = s.power := rfl
@[simp] theorem State.setSq_boot (s : State) (i : Nat) (x : Sq) : (s.setSq i x).boot = s.boot := rfl
@[simp] theorem State.setSq_nv (s : State) (i : Nat) (x : Sq) : (s.setSq i x).nv = s.nv := rfl
@[simp] theorem State.setSq_pins (s : State) (i : Nat) (x : Sq) : (s.setSq i x).pins = s.pins := rfl
@[simp] theorem State.setSq_cnt (s : State) (i : Nat) (x : Sq) : (s.setSq i x).cnt = s.cnt := rfl
@[simp] theorem State.setSq_nextFid (s : State) (i : Nat) (x : Sq) : (s.setSq i x).nextFid = s.nextFid := rfl
@[simp] theorem State.setSq_io (s : State) (i : Nat) (x : Sq) : (s.setSq i x).io = s.io := rfl

@[simp] theorem State.modSq_pending (s : State) (i : Nat) (f : Sq → Sq) : (s.modSq i f).pending = s.pending := rfl
@[simp] theorem State.modSq_regs (s : State) (i : Nat) (f : Sq → Sq) : (s.modSq i f).regs = s.regs := rfl
@[simp] theorem State.modSq_force (s : State) (i : Nat) (f : Sq → Sq) : (s.modSq i f).force = s.force := rfl
@[simp] theorem State.modSq_fns (s : State) (i : Nat) (f : Sq → Sq) : (s.modSq i f).fns = s.fns := rfl
@[simp] theorem State.modSq_links (s : State) (i : Nat) (f : Sq → Sq) : (s.modSq i f).links = s.links := rfl
@[simp] theorem State.modSq_lanes (s : State) (i : Nat) (f : Sq → Sq) : (s.modSq i f).lanes = s.lanes := rfl
@[simp] theorem State.modSq_book (s : State) (i : Nat) (f : Sq → Sq) : (s.modSq i f).book = s.book := rfl
@[simp] theorem State.modSq_tour (s : State) (i : Nat) (f : Sq → Sq) : (s.modSq i f).tour = s.tour := rfl
@[simp] theorem State.modSq_buf (s : State) (i : Nat) (f : Sq → Sq) : (s.modSq i f).buf = s.buf := rfl
@[simp] theorem State.modSq_queues (s : State) (i : Nat) (f : Sq → Sq) : (s.modSq i f).queues = s.queues := rfl
@[simp] theorem State.modSq_eports (s : State) (i : Nat) (f : Sq → Sq) : (s.modSq i f).eports = s.eports := rfl
@[simp] theorem State.modSq_red (s : State) (i : Nat) (f : Sq → Sq) : (s.modSq i f).red = s.red := rfl
@[simp] theorem State.modSq_time (s : State) (i : Nat) (f : Sq → Sq) : (s.modSq i f).time = s.time := rfl
@[simp] theorem State.modSq_host (s : State) (i : Nat) (f : Sq → Sq) : (s.modSq i f).host = s.host := rfl
@[simp] theorem State.modSq_triad (s : State) (i : Nat) (f : Sq → Sq) : (s.modSq i f).triad = s.triad := rfl
@[simp] theorem State.modSq_fault (s : State) (i : Nat) (f : Sq → Sq) : (s.modSq i f).fault = s.fault := rfl
@[simp] theorem State.modSq_power (s : State) (i : Nat) (f : Sq → Sq) : (s.modSq i f).power = s.power := rfl
@[simp] theorem State.modSq_boot (s : State) (i : Nat) (f : Sq → Sq) : (s.modSq i f).boot = s.boot := rfl
@[simp] theorem State.modSq_nv (s : State) (i : Nat) (f : Sq → Sq) : (s.modSq i f).nv = s.nv := rfl
@[simp] theorem State.modSq_pins (s : State) (i : Nat) (f : Sq → Sq) : (s.modSq i f).pins = s.pins := rfl
@[simp] theorem State.modSq_cnt (s : State) (i : Nat) (f : Sq → Sq) : (s.modSq i f).cnt = s.cnt := rfl
@[simp] theorem State.modSq_nextFid (s : State) (i : Nat) (f : Sq → Sq) : (s.modSq i f).nextFid = s.nextFid := rfl
@[simp] theorem State.modSq_io (s : State) (i : Nat) (f : Sq → Sq) : (s.modSq i f).io = s.io := rfl

@[simp] theorem State.modQueue_pending (s : State) (q : Nat) (f : Queue → Queue) : (s.modQueue q f).pending = s.pending := rfl
@[simp] theorem State.modQueue_regs (s : State) (q : Nat) (f : Queue → Queue) : (s.modQueue q f).regs = s.regs := rfl
@[simp] theorem State.modQueue_force (s : State) (q : Nat) (f : Queue → Queue) : (s.modQueue q f).force = s.force := rfl
@[simp] theorem State.modQueue_fns (s : State) (q : Nat) (f : Queue → Queue) : (s.modQueue q f).fns = s.fns := rfl
@[simp] theorem State.modQueue_links (s : State) (q : Nat) (f : Queue → Queue) : (s.modQueue q f).links = s.links := rfl
@[simp] theorem State.modQueue_lanes (s : State) (q : Nat) (f : Queue → Queue) : (s.modQueue q f).lanes = s.lanes := rfl
@[simp] theorem State.modQueue_sqs (s : State) (q : Nat) (f : Queue → Queue) : (s.modQueue q f).sqs = s.sqs := rfl
@[simp] theorem State.modQueue_book (s : State) (q : Nat) (f : Queue → Queue) : (s.modQueue q f).book = s.book := rfl
@[simp] theorem State.modQueue_tour (s : State) (q : Nat) (f : Queue → Queue) : (s.modQueue q f).tour = s.tour := rfl
@[simp] theorem State.modQueue_buf (s : State) (q : Nat) (f : Queue → Queue) : (s.modQueue q f).buf = s.buf := rfl
@[simp] theorem State.modQueue_eports (s : State) (q : Nat) (f : Queue → Queue) : (s.modQueue q f).eports = s.eports := rfl
@[simp] theorem State.modQueue_red (s : State) (q : Nat) (f : Queue → Queue) : (s.modQueue q f).red = s.red := rfl
@[simp] theorem State.modQueue_time (s : State) (q : Nat) (f : Queue → Queue) : (s.modQueue q f).time = s.time := rfl
@[simp] theorem State.modQueue_host (s : State) (q : Nat) (f : Queue → Queue) : (s.modQueue q f).host = s.host := rfl
@[simp] theorem State.modQueue_triad (s : State) (q : Nat) (f : Queue → Queue) : (s.modQueue q f).triad = s.triad := rfl
@[simp] theorem State.modQueue_fault (s : State) (q : Nat) (f : Queue → Queue) : (s.modQueue q f).fault = s.fault := rfl
@[simp] theorem State.modQueue_power (s : State) (q : Nat) (f : Queue → Queue) : (s.modQueue q f).power = s.power := rfl
@[simp] theorem State.modQueue_boot (s : State) (q : Nat) (f : Queue → Queue) : (s.modQueue q f).boot = s.boot := rfl
@[simp] theorem State.modQueue_nv (s : State) (q : Nat) (f : Queue → Queue) : (s.modQueue q f).nv = s.nv := rfl
@[simp] theorem State.modQueue_pins (s : State) (q : Nat) (f : Queue → Queue) : (s.modQueue q f).pins = s.pins := rfl
@[simp] theorem State.modQueue_cnt (s : State) (q : Nat) (f : Queue → Queue) : (s.modQueue q f).cnt = s.cnt := rfl
@[simp] theorem State.modQueue_nextFid (s : State) (q : Nat) (f : Queue → Queue) : (s.modQueue q f).nextFid = s.nextFid := rfl
@[simp] theorem State.modQueue_io (s : State) (q : Nat) (f : Queue → Queue) : (s.modQueue q f).io = s.io := rfl

@[simp] theorem State.modEport_pending (s : State) (p : Nat) (f : EPort → EPort) : (s.modEport p f).pending = s.pending := rfl
@[simp] theorem State.modEport_regs (s : State) (p : Nat) (f : EPort → EPort) : (s.modEport p f).regs = s.regs := rfl
@[simp] theorem State.modEport_force (s : State) (p : Nat) (f : EPort → EPort) : (s.modEport p f).force = s.force := rfl
@[simp] theorem State.modEport_fns (s : State) (p : Nat) (f : EPort → EPort) : (s.modEport p f).fns = s.fns := rfl
@[simp] theorem State.modEport_links (s : State) (p : Nat) (f : EPort → EPort) : (s.modEport p f).links = s.links := rfl
@[simp] theorem State.modEport_lanes (s : State) (p : Nat) (f : EPort → EPort) : (s.modEport p f).lanes = s.lanes := rfl
@[simp] theorem State.modEport_sqs (s : State) (p : Nat) (f : EPort → EPort) : (s.modEport p f).sqs = s.sqs := rfl
@[simp] theorem State.modEport_book (s : State) (p : Nat) (f : EPort → EPort) : (s.modEport p f).book = s.book := rfl
@[simp] theorem State.modEport_tour (s : State) (p : Nat) (f : EPort → EPort) : (s.modEport p f).tour = s.tour := rfl
@[simp] theorem State.modEport_buf (s : State) (p : Nat) (f : EPort → EPort) : (s.modEport p f).buf = s.buf := rfl
@[simp] theorem State.modEport_queues (s : State) (p : Nat) (f : EPort → EPort) : (s.modEport p f).queues = s.queues := rfl
@[simp] theorem State.modEport_red (s : State) (p : Nat) (f : EPort → EPort) : (s.modEport p f).red = s.red := rfl
@[simp] theorem State.modEport_time (s : State) (p : Nat) (f : EPort → EPort) : (s.modEport p f).time = s.time := rfl
@[simp] theorem State.modEport_host (s : State) (p : Nat) (f : EPort → EPort) : (s.modEport p f).host = s.host := rfl
@[simp] theorem State.modEport_triad (s : State) (p : Nat) (f : EPort → EPort) : (s.modEport p f).triad = s.triad := rfl
@[simp] theorem State.modEport_fault (s : State) (p : Nat) (f : EPort → EPort) : (s.modEport p f).fault = s.fault := rfl
@[simp] theorem State.modEport_power (s : State) (p : Nat) (f : EPort → EPort) : (s.modEport p f).power = s.power := rfl
@[simp] theorem State.modEport_boot (s : State) (p : Nat) (f : EPort → EPort) : (s.modEport p f).boot = s.boot := rfl
@[simp] theorem State.modEport_nv (s : State) (p : Nat) (f : EPort → EPort) : (s.modEport p f).nv = s.nv := rfl
@[simp] theorem State.modEport_pins (s : State) (p : Nat) (f : EPort → EPort) : (s.modEport p f).pins = s.pins := rfl
@[simp] theorem State.modEport_cnt (s : State) (p : Nat) (f : EPort → EPort) : (s.modEport p f).cnt = s.cnt := rfl
@[simp] theorem State.modEport_nextFid (s : State) (p : Nat) (f : EPort → EPort) : (s.modEport p f).nextFid = s.nextFid := rfl
@[simp] theorem State.modEport_io (s : State) (p : Nat) (f : EPort → EPort) : (s.modEport p f).io = s.io := rfl

@[simp] theorem State.modChan_pending (s : State) (c : Nat) (f : Chan → Chan) : (s.modChan c f).pending = s.pending := rfl
@[simp] theorem State.modChan_regs (s : State) (c : Nat) (f : Chan → Chan) : (s.modChan c f).regs = s.regs := rfl
@[simp] theorem State.modChan_force (s : State) (c : Nat) (f : Chan → Chan) : (s.modChan c f).force = s.force := rfl
@[simp] theorem State.modChan_fns (s : State) (c : Nat) (f : Chan → Chan) : (s.modChan c f).fns = s.fns := rfl
@[simp] theorem State.modChan_links (s : State) (c : Nat) (f : Chan → Chan) : (s.modChan c f).links = s.links := rfl
@[simp] theorem State.modChan_lanes (s : State) (c : Nat) (f : Chan → Chan) : (s.modChan c f).lanes = s.lanes := rfl
@[simp] theorem State.modChan_sqs (s : State) (c : Nat) (f : Chan → Chan) : (s.modChan c f).sqs = s.sqs := rfl
@[simp] theorem State.modChan_book (s : State) (c : Nat) (f : Chan → Chan) : (s.modChan c f).book = s.book := rfl
@[simp] theorem State.modChan_tour (s : State) (c : Nat) (f : Chan → Chan) : (s.modChan c f).tour = s.tour := rfl
@[simp] theorem State.modChan_buf (s : State) (c : Nat) (f : Chan → Chan) : (s.modChan c f).buf = s.buf := rfl
@[simp] theorem State.modChan_queues (s : State) (c : Nat) (f : Chan → Chan) : (s.modChan c f).queues = s.queues := rfl
@[simp] theorem State.modChan_eports (s : State) (c : Nat) (f : Chan → Chan) : (s.modChan c f).eports = s.eports := rfl
@[simp] theorem State.modChan_time (s : State) (c : Nat) (f : Chan → Chan) : (s.modChan c f).time = s.time := rfl
@[simp] theorem State.modChan_host (s : State) (c : Nat) (f : Chan → Chan) : (s.modChan c f).host = s.host := rfl
@[simp] theorem State.modChan_triad (s : State) (c : Nat) (f : Chan → Chan) : (s.modChan c f).triad = s.triad := rfl
@[simp] theorem State.modChan_fault (s : State) (c : Nat) (f : Chan → Chan) : (s.modChan c f).fault = s.fault := rfl
@[simp] theorem State.modChan_power (s : State) (c : Nat) (f : Chan → Chan) : (s.modChan c f).power = s.power := rfl
@[simp] theorem State.modChan_boot (s : State) (c : Nat) (f : Chan → Chan) : (s.modChan c f).boot = s.boot := rfl
@[simp] theorem State.modChan_nv (s : State) (c : Nat) (f : Chan → Chan) : (s.modChan c f).nv = s.nv := rfl
@[simp] theorem State.modChan_pins (s : State) (c : Nat) (f : Chan → Chan) : (s.modChan c f).pins = s.pins := rfl
@[simp] theorem State.modChan_cnt (s : State) (c : Nat) (f : Chan → Chan) : (s.modChan c f).cnt = s.cnt := rfl
@[simp] theorem State.modChan_nextFid (s : State) (c : Nat) (f : Chan → Chan) : (s.modChan c f).nextFid = s.nextFid := rfl
@[simp] theorem State.modChan_io (s : State) (c : Nat) (f : Chan → Chan) : (s.modChan c f).io = s.io := rfl

@[simp] theorem State.modEngine_pending (s : State) (e : Nat) (f : Engine → Engine) : (s.modEngine e f).pending = s.pending := rfl
@[simp] theorem State.modEngine_regs (s : State) (e : Nat) (f : Engine → Engine) : (s.modEngine e f).regs = s.regs := rfl
@[simp] theorem State.modEngine_force (s : State) (e : Nat) (f : Engine → Engine) : (s.modEngine e f).force = s.force := rfl
@[simp] theorem State.modEngine_fns (s : State) (e : Nat) (f : Engine → Engine) : (s.modEngine e f).fns = s.fns := rfl
@[simp] theorem State.modEngine_links (s : State) (e : Nat) (f : Engine → Engine) : (s.modEngine e f).links = s.links := rfl
@[simp] theorem State.modEngine_lanes (s : State) (e : Nat) (f : Engine → Engine) : (s.modEngine e f).lanes = s.lanes := rfl
@[simp] theorem State.modEngine_sqs (s : State) (e : Nat) (f : Engine → Engine) : (s.modEngine e f).sqs = s.sqs := rfl
@[simp] theorem State.modEngine_book (s : State) (e : Nat) (f : Engine → Engine) : (s.modEngine e f).book = s.book := rfl
@[simp] theorem State.modEngine_tour (s : State) (e : Nat) (f : Engine → Engine) : (s.modEngine e f).tour = s.tour := rfl
@[simp] theorem State.modEngine_buf (s : State) (e : Nat) (f : Engine → Engine) : (s.modEngine e f).buf = s.buf := rfl
@[simp] theorem State.modEngine_queues (s : State) (e : Nat) (f : Engine → Engine) : (s.modEngine e f).queues = s.queues := rfl
@[simp] theorem State.modEngine_eports (s : State) (e : Nat) (f : Engine → Engine) : (s.modEngine e f).eports = s.eports := rfl
@[simp] theorem State.modEngine_time (s : State) (e : Nat) (f : Engine → Engine) : (s.modEngine e f).time = s.time := rfl
@[simp] theorem State.modEngine_host (s : State) (e : Nat) (f : Engine → Engine) : (s.modEngine e f).host = s.host := rfl
@[simp] theorem State.modEngine_triad (s : State) (e : Nat) (f : Engine → Engine) : (s.modEngine e f).triad = s.triad := rfl
@[simp] theorem State.modEngine_fault (s : State) (e : Nat) (f : Engine → Engine) : (s.modEngine e f).fault = s.fault := rfl
@[simp] theorem State.modEngine_power (s : State) (e : Nat) (f : Engine → Engine) : (s.modEngine e f).power = s.power := rfl
@[simp] theorem State.modEngine_boot (s : State) (e : Nat) (f : Engine → Engine) : (s.modEngine e f).boot = s.boot := rfl
@[simp] theorem State.modEngine_nv (s : State) (e : Nat) (f : Engine → Engine) : (s.modEngine e f).nv = s.nv := rfl
@[simp] theorem State.modEngine_pins (s : State) (e : Nat) (f : Engine → Engine) : (s.modEngine e f).pins = s.pins := rfl
@[simp] theorem State.modEngine_cnt (s : State) (e : Nat) (f : Engine → Engine) : (s.modEngine e f).cnt = s.cnt := rfl
@[simp] theorem State.modEngine_nextFid (s : State) (e : Nat) (f : Engine → Engine) : (s.modEngine e f).nextFid = s.nextFid := rfl
@[simp] theorem State.modEngine_io (s : State) (e : Nat) (f : Engine → Engine) : (s.modEngine e f).io = s.io := rfl

@[simp] theorem State.modRing_pending (s : State) (n : Nat) (f : Ring → Ring) : (s.modRing n f).pending = s.pending := rfl
@[simp] theorem State.modRing_regs (s : State) (n : Nat) (f : Ring → Ring) : (s.modRing n f).regs = s.regs := rfl
@[simp] theorem State.modRing_force (s : State) (n : Nat) (f : Ring → Ring) : (s.modRing n f).force = s.force := rfl
@[simp] theorem State.modRing_fns (s : State) (n : Nat) (f : Ring → Ring) : (s.modRing n f).fns = s.fns := rfl
@[simp] theorem State.modRing_links (s : State) (n : Nat) (f : Ring → Ring) : (s.modRing n f).links = s.links := rfl
@[simp] theorem State.modRing_lanes (s : State) (n : Nat) (f : Ring → Ring) : (s.modRing n f).lanes = s.lanes := rfl
@[simp] theorem State.modRing_sqs (s : State) (n : Nat) (f : Ring → Ring) : (s.modRing n f).sqs = s.sqs := rfl
@[simp] theorem State.modRing_book (s : State) (n : Nat) (f : Ring → Ring) : (s.modRing n f).book = s.book := rfl
@[simp] theorem State.modRing_tour (s : State) (n : Nat) (f : Ring → Ring) : (s.modRing n f).tour = s.tour := rfl
@[simp] theorem State.modRing_buf (s : State) (n : Nat) (f : Ring → Ring) : (s.modRing n f).buf = s.buf := rfl
@[simp] theorem State.modRing_queues (s : State) (n : Nat) (f : Ring → Ring) : (s.modRing n f).queues = s.queues := rfl
@[simp] theorem State.modRing_eports (s : State) (n : Nat) (f : Ring → Ring) : (s.modRing n f).eports = s.eports := rfl
@[simp] theorem State.modRing_red (s : State) (n : Nat) (f : Ring → Ring) : (s.modRing n f).red = s.red := rfl
@[simp] theorem State.modRing_time (s : State) (n : Nat) (f : Ring → Ring) : (s.modRing n f).time = s.time := rfl
@[simp] theorem State.modRing_triad (s : State) (n : Nat) (f : Ring → Ring) : (s.modRing n f).triad = s.triad := rfl
@[simp] theorem State.modRing_fault (s : State) (n : Nat) (f : Ring → Ring) : (s.modRing n f).fault = s.fault := rfl
@[simp] theorem State.modRing_power (s : State) (n : Nat) (f : Ring → Ring) : (s.modRing n f).power = s.power := rfl
@[simp] theorem State.modRing_boot (s : State) (n : Nat) (f : Ring → Ring) : (s.modRing n f).boot = s.boot := rfl
@[simp] theorem State.modRing_nv (s : State) (n : Nat) (f : Ring → Ring) : (s.modRing n f).nv = s.nv := rfl
@[simp] theorem State.modRing_pins (s : State) (n : Nat) (f : Ring → Ring) : (s.modRing n f).pins = s.pins := rfl
@[simp] theorem State.modRing_cnt (s : State) (n : Nat) (f : Ring → Ring) : (s.modRing n f).cnt = s.cnt := rfl
@[simp] theorem State.modRing_nextFid (s : State) (n : Nat) (f : Ring → Ring) : (s.modRing n f).nextFid = s.nextFid := rfl
@[simp] theorem State.modRing_io (s : State) (n : Nat) (f : Ring → Ring) : (s.modRing n f).io = s.io := rfl

@[simp] theorem State.modChn_pending (s : State) (c : Nat) (f : Chn → Chn) : (s.modChn c f).pending = s.pending := rfl
@[simp] theorem State.modChn_regs (s : State) (c : Nat) (f : Chn → Chn) : (s.modChn c f).regs = s.regs := rfl
@[simp] theorem State.modChn_force (s : State) (c : Nat) (f : Chn → Chn) : (s.modChn c f).force = s.force := rfl
@[simp] theorem State.modChn_fns (s : State) (c : Nat) (f : Chn → Chn) : (s.modChn c f).fns = s.fns := rfl
@[simp] theorem State.modChn_links (s : State) (c : Nat) (f : Chn → Chn) : (s.modChn c f).links = s.links := rfl
@[simp] theorem State.modChn_lanes (s : State) (c : Nat) (f : Chn → Chn) : (s.modChn c f).lanes = s.lanes := rfl
@[simp] theorem State.modChn_sqs (s : State) (c : Nat) (f : Chn → Chn) : (s.modChn c f).sqs = s.sqs := rfl
@[simp] theorem State.modChn_book (s : State) (c : Nat) (f : Chn → Chn) : (s.modChn c f).book = s.book := rfl
@[simp] theorem State.modChn_tour (s : State) (c : Nat) (f : Chn → Chn) : (s.modChn c f).tour = s.tour := rfl
@[simp] theorem State.modChn_buf (s : State) (c : Nat) (f : Chn → Chn) : (s.modChn c f).buf = s.buf := rfl
@[simp] theorem State.modChn_queues (s : State) (c : Nat) (f : Chn → Chn) : (s.modChn c f).queues = s.queues := rfl
@[simp] theorem State.modChn_eports (s : State) (c : Nat) (f : Chn → Chn) : (s.modChn c f).eports = s.eports := rfl
@[simp] theorem State.modChn_red (s : State) (c : Nat) (f : Chn → Chn) : (s.modChn c f).red = s.red := rfl
@[simp] theorem State.modChn_time (s : State) (c : Nat) (f : Chn → Chn) : (s.modChn c f).time = s.time := rfl
@[simp] theorem State.modChn_host (s : State) (c : Nat) (f : Chn → Chn) : (s.modChn c f).host = s.host := rfl
@[simp] theorem State.modChn_fault (s : State) (c : Nat) (f : Chn → Chn) : (s.modChn c f).fault = s.fault := rfl
@[simp] theorem State.modChn_power (s : State) (c : Nat) (f : Chn → Chn) : (s.modChn c f).power = s.power := rfl
@[simp] theorem State.modChn_boot (s : State) (c : Nat) (f : Chn → Chn) : (s.modChn c f).boot = s.boot := rfl
@[simp] theorem State.modChn_nv (s : State) (c : Nat) (f : Chn → Chn) : (s.modChn c f).nv = s.nv := rfl
@[simp] theorem State.modChn_pins (s : State) (c : Nat) (f : Chn → Chn) : (s.modChn c f).pins = s.pins := rfl
@[simp] theorem State.modChn_cnt (s : State) (c : Nat) (f : Chn → Chn) : (s.modChn c f).cnt = s.cnt := rfl
@[simp] theorem State.modChn_nextFid (s : State) (c : Nat) (f : Chn → Chn) : (s.modChn c f).nextFid = s.nextFid := rfl
@[simp] theorem State.modChn_io (s : State) (c : Nat) (f : Chn → Chn) : (s.modChn c f).io = s.io := rfl

@[simp] theorem State.modSrc_pending (s : State) (n : Nat) (f : Src → Src) : (s.modSrc n f).pending = s.pending := rfl
@[simp] theorem State.modSrc_regs (s : State) (n : Nat) (f : Src → Src) : (s.modSrc n f).regs = s.regs := rfl
@[simp] theorem State.modSrc_force (s : State) (n : Nat) (f : Src → Src) : (s.modSrc n f).force = s.force := rfl
@[simp] theorem State.modSrc_fns (s : State) (n : Nat) (f : Src → Src) : (s.modSrc n f).fns = s.fns := rfl
@[simp] theorem State.modSrc_links (s : State) (n : Nat) (f : Src → Src) : (s.modSrc n f).links = s.links := rfl
@[simp] theorem State.modSrc_lanes (s : State) (n : Nat) (f : Src → Src) : (s.modSrc n f).lanes = s.lanes := rfl
@[simp] theorem State.modSrc_sqs (s : State) (n : Nat) (f : Src → Src) : (s.modSrc n f).sqs = s.sqs := rfl
@[simp] theorem State.modSrc_book (s : State) (n : Nat) (f : Src → Src) : (s.modSrc n f).book = s.book := rfl
@[simp] theorem State.modSrc_tour (s : State) (n : Nat) (f : Src → Src) : (s.modSrc n f).tour = s.tour := rfl
@[simp] theorem State.modSrc_buf (s : State) (n : Nat) (f : Src → Src) : (s.modSrc n f).buf = s.buf := rfl
@[simp] theorem State.modSrc_queues (s : State) (n : Nat) (f : Src → Src) : (s.modSrc n f).queues = s.queues := rfl
@[simp] theorem State.modSrc_eports (s : State) (n : Nat) (f : Src → Src) : (s.modSrc n f).eports = s.eports := rfl
@[simp] theorem State.modSrc_red (s : State) (n : Nat) (f : Src → Src) : (s.modSrc n f).red = s.red := rfl
@[simp] theorem State.modSrc_time (s : State) (n : Nat) (f : Src → Src) : (s.modSrc n f).time = s.time := rfl
@[simp] theorem State.modSrc_host (s : State) (n : Nat) (f : Src → Src) : (s.modSrc n f).host = s.host := rfl
@[simp] theorem State.modSrc_triad (s : State) (n : Nat) (f : Src → Src) : (s.modSrc n f).triad = s.triad := rfl
@[simp] theorem State.modSrc_power (s : State) (n : Nat) (f : Src → Src) : (s.modSrc n f).power = s.power := rfl
@[simp] theorem State.modSrc_boot (s : State) (n : Nat) (f : Src → Src) : (s.modSrc n f).boot = s.boot := rfl
@[simp] theorem State.modSrc_nv (s : State) (n : Nat) (f : Src → Src) : (s.modSrc n f).nv = s.nv := rfl
@[simp] theorem State.modSrc_pins (s : State) (n : Nat) (f : Src → Src) : (s.modSrc n f).pins = s.pins := rfl
@[simp] theorem State.modSrc_cnt (s : State) (n : Nat) (f : Src → Src) : (s.modSrc n f).cnt = s.cnt := rfl
@[simp] theorem State.modSrc_nextFid (s : State) (n : Nat) (f : Src → Src) : (s.modSrc n f).nextFid = s.nextFid := rfl
@[simp] theorem State.modSrc_io (s : State) (n : Nat) (f : Src → Src) : (s.modSrc n f).io = s.io := rfl

@[simp] theorem State.modVsq_pending (s : State) (i : Nat) (f : Vsq → Vsq) : (s.modVsq i f).pending = s.pending := rfl
@[simp] theorem State.modVsq_regs (s : State) (i : Nat) (f : Vsq → Vsq) : (s.modVsq i f).regs = s.regs := rfl
@[simp] theorem State.modVsq_force (s : State) (i : Nat) (f : Vsq → Vsq) : (s.modVsq i f).force = s.force := rfl
@[simp] theorem State.modVsq_fns (s : State) (i : Nat) (f : Vsq → Vsq) : (s.modVsq i f).fns = s.fns := rfl
@[simp] theorem State.modVsq_links (s : State) (i : Nat) (f : Vsq → Vsq) : (s.modVsq i f).links = s.links := rfl
@[simp] theorem State.modVsq_lanes (s : State) (i : Nat) (f : Vsq → Vsq) : (s.modVsq i f).lanes = s.lanes := rfl
@[simp] theorem State.modVsq_sqs (s : State) (i : Nat) (f : Vsq → Vsq) : (s.modVsq i f).sqs = s.sqs := rfl
@[simp] theorem State.modVsq_book (s : State) (i : Nat) (f : Vsq → Vsq) : (s.modVsq i f).book = s.book := rfl
@[simp] theorem State.modVsq_tour (s : State) (i : Nat) (f : Vsq → Vsq) : (s.modVsq i f).tour = s.tour := rfl
@[simp] theorem State.modVsq_buf (s : State) (i : Nat) (f : Vsq → Vsq) : (s.modVsq i f).buf = s.buf := rfl
@[simp] theorem State.modVsq_queues (s : State) (i : Nat) (f : Vsq → Vsq) : (s.modVsq i f).queues = s.queues := rfl
@[simp] theorem State.modVsq_eports (s : State) (i : Nat) (f : Vsq → Vsq) : (s.modVsq i f).eports = s.eports := rfl
@[simp] theorem State.modVsq_red (s : State) (i : Nat) (f : Vsq → Vsq) : (s.modVsq i f).red = s.red := rfl
@[simp] theorem State.modVsq_time (s : State) (i : Nat) (f : Vsq → Vsq) : (s.modVsq i f).time = s.time := rfl
@[simp] theorem State.modVsq_host (s : State) (i : Nat) (f : Vsq → Vsq) : (s.modVsq i f).host = s.host := rfl
@[simp] theorem State.modVsq_triad (s : State) (i : Nat) (f : Vsq → Vsq) : (s.modVsq i f).triad = s.triad := rfl
@[simp] theorem State.modVsq_fault (s : State) (i : Nat) (f : Vsq → Vsq) : (s.modVsq i f).fault = s.fault := rfl
@[simp] theorem State.modVsq_boot (s : State) (i : Nat) (f : Vsq → Vsq) : (s.modVsq i f).boot = s.boot := rfl
@[simp] theorem State.modVsq_nv (s : State) (i : Nat) (f : Vsq → Vsq) : (s.modVsq i f).nv = s.nv := rfl
@[simp] theorem State.modVsq_pins (s : State) (i : Nat) (f : Vsq → Vsq) : (s.modVsq i f).pins = s.pins := rfl
@[simp] theorem State.modVsq_cnt (s : State) (i : Nat) (f : Vsq → Vsq) : (s.modVsq i f).cnt = s.cnt := rfl
@[simp] theorem State.modVsq_nextFid (s : State) (i : Nat) (f : Vsq → Vsq) : (s.modVsq i f).nextFid = s.nextFid := rfl
@[simp] theorem State.modVsq_io (s : State) (i : Nat) (f : Vsq → Vsq) : (s.modVsq i f).io = s.io := rfl

@[simp] theorem State.loadTime_pending (s : State) (t : Tick) : (s.loadTime t).pending = s.pending := rfl
@[simp] theorem State.loadTime_regs (s : State) (t : Tick) : (s.loadTime t).regs = s.regs := rfl
@[simp] theorem State.loadTime_force (s : State) (t : Tick) : (s.loadTime t).force = s.force := rfl
@[simp] theorem State.loadTime_fns (s : State) (t : Tick) : (s.loadTime t).fns = s.fns := rfl
@[simp] theorem State.loadTime_links (s : State) (t : Tick) : (s.loadTime t).links = s.links := rfl
@[simp] theorem State.loadTime_lanes (s : State) (t : Tick) : (s.loadTime t).lanes = s.lanes := rfl
@[simp] theorem State.loadTime_sqs (s : State) (t : Tick) : (s.loadTime t).sqs = s.sqs := rfl
@[simp] theorem State.loadTime_book (s : State) (t : Tick) : (s.loadTime t).book = s.book := rfl
@[simp] theorem State.loadTime_tour (s : State) (t : Tick) : (s.loadTime t).tour = s.tour := rfl
@[simp] theorem State.loadTime_buf (s : State) (t : Tick) : (s.loadTime t).buf = s.buf := rfl
@[simp] theorem State.loadTime_queues (s : State) (t : Tick) : (s.loadTime t).queues = s.queues := rfl
@[simp] theorem State.loadTime_eports (s : State) (t : Tick) : (s.loadTime t).eports = s.eports := rfl
@[simp] theorem State.loadTime_red (s : State) (t : Tick) : (s.loadTime t).red = s.red := rfl
@[simp] theorem State.loadTime_host (s : State) (t : Tick) : (s.loadTime t).host = s.host := rfl
@[simp] theorem State.loadTime_triad (s : State) (t : Tick) : (s.loadTime t).triad = s.triad := rfl
@[simp] theorem State.loadTime_fault (s : State) (t : Tick) : (s.loadTime t).fault = s.fault := rfl
@[simp] theorem State.loadTime_power (s : State) (t : Tick) : (s.loadTime t).power = s.power := rfl
@[simp] theorem State.loadTime_boot (s : State) (t : Tick) : (s.loadTime t).boot = s.boot := rfl
@[simp] theorem State.loadTime_nv (s : State) (t : Tick) : (s.loadTime t).nv = s.nv := rfl
@[simp] theorem State.loadTime_pins (s : State) (t : Tick) : (s.loadTime t).pins = s.pins := rfl
@[simp] theorem State.loadTime_cnt (s : State) (t : Tick) : (s.loadTime t).cnt = s.cnt := rfl
@[simp] theorem State.loadTime_nextFid (s : State) (t : Tick) : (s.loadTime t).nextFid = s.nextFid := rfl
@[simp] theorem State.loadTime_io (s : State) (t : Tick) : (s.loadTime t).io = s.io := rfl

@[simp] theorem State.setCounter_pending (s : State) (o v : Nat) : (s.setCounter o v).pending = s.pending := rfl
@[simp] theorem State.setCounter_regs (s : State) (o v : Nat) : (s.setCounter o v).regs = s.regs := rfl
@[simp] theorem State.setCounter_force (s : State) (o v : Nat) : (s.setCounter o v).force = s.force := rfl
@[simp] theorem State.setCounter_fns (s : State) (o v : Nat) : (s.setCounter o v).fns = s.fns := rfl
@[simp] theorem State.setCounter_links (s : State) (o v : Nat) : (s.setCounter o v).links = s.links := rfl
@[simp] theorem State.setCounter_lanes (s : State) (o v : Nat) : (s.setCounter o v).lanes = s.lanes := rfl
@[simp] theorem State.setCounter_sqs (s : State) (o v : Nat) : (s.setCounter o v).sqs = s.sqs := rfl
@[simp] theorem State.setCounter_book (s : State) (o v : Nat) : (s.setCounter o v).book = s.book := rfl
@[simp] theorem State.setCounter_tour (s : State) (o v : Nat) : (s.setCounter o v).tour = s.tour := rfl
@[simp] theorem State.setCounter_buf (s : State) (o v : Nat) : (s.setCounter o v).buf = s.buf := rfl
@[simp] theorem State.setCounter_queues (s : State) (o v : Nat) : (s.setCounter o v).queues = s.queues := rfl
@[simp] theorem State.setCounter_eports (s : State) (o v : Nat) : (s.setCounter o v).eports = s.eports := rfl
@[simp] theorem State.setCounter_red (s : State) (o v : Nat) : (s.setCounter o v).red = s.red := rfl
@[simp] theorem State.setCounter_time (s : State) (o v : Nat) : (s.setCounter o v).time = s.time := rfl
@[simp] theorem State.setCounter_host (s : State) (o v : Nat) : (s.setCounter o v).host = s.host := rfl
@[simp] theorem State.setCounter_triad (s : State) (o v : Nat) : (s.setCounter o v).triad = s.triad := rfl
@[simp] theorem State.setCounter_fault (s : State) (o v : Nat) : (s.setCounter o v).fault = s.fault := rfl
@[simp] theorem State.setCounter_power (s : State) (o v : Nat) : (s.setCounter o v).power = s.power := rfl
@[simp] theorem State.setCounter_boot (s : State) (o v : Nat) : (s.setCounter o v).boot = s.boot := rfl
@[simp] theorem State.setCounter_nv (s : State) (o v : Nat) : (s.setCounter o v).nv = s.nv := rfl
@[simp] theorem State.setCounter_pins (s : State) (o v : Nat) : (s.setCounter o v).pins = s.pins := rfl
@[simp] theorem State.setCounter_nextFid (s : State) (o v : Nat) : (s.setCounter o v).nextFid = s.nextFid := rfl
@[simp] theorem State.setCounter_io (s : State) (o v : Nat) : (s.setCounter o v).io = s.io := rfl

@[simp] theorem State.hostWrite_pending (s : State) (fn addr : Nat) (relaxed : Bool) (bs : List Byte) : (s.hostWrite fn addr relaxed bs).pending = s.pending := rfl
@[simp] theorem State.hostWrite_regs (s : State) (fn addr : Nat) (relaxed : Bool) (bs : List Byte) : (s.hostWrite fn addr relaxed bs).regs = s.regs := rfl
@[simp] theorem State.hostWrite_force (s : State) (fn addr : Nat) (relaxed : Bool) (bs : List Byte) : (s.hostWrite fn addr relaxed bs).force = s.force := rfl
@[simp] theorem State.hostWrite_fns (s : State) (fn addr : Nat) (relaxed : Bool) (bs : List Byte) : (s.hostWrite fn addr relaxed bs).fns = s.fns := rfl
@[simp] theorem State.hostWrite_links (s : State) (fn addr : Nat) (relaxed : Bool) (bs : List Byte) : (s.hostWrite fn addr relaxed bs).links = s.links := rfl
@[simp] theorem State.hostWrite_lanes (s : State) (fn addr : Nat) (relaxed : Bool) (bs : List Byte) : (s.hostWrite fn addr relaxed bs).lanes = s.lanes := rfl
@[simp] theorem State.hostWrite_sqs (s : State) (fn addr : Nat) (relaxed : Bool) (bs : List Byte) : (s.hostWrite fn addr relaxed bs).sqs = s.sqs := rfl
@[simp] theorem State.hostWrite_book (s : State) (fn addr : Nat) (relaxed : Bool) (bs : List Byte) : (s.hostWrite fn addr relaxed bs).book = s.book := rfl
@[simp] theorem State.hostWrite_tour (s : State) (fn addr : Nat) (relaxed : Bool) (bs : List Byte) : (s.hostWrite fn addr relaxed bs).tour = s.tour := rfl
@[simp] theorem State.hostWrite_buf (s : State) (fn addr : Nat) (relaxed : Bool) (bs : List Byte) : (s.hostWrite fn addr relaxed bs).buf = s.buf := rfl
@[simp] theorem State.hostWrite_queues (s : State) (fn addr : Nat) (relaxed : Bool) (bs : List Byte) : (s.hostWrite fn addr relaxed bs).queues = s.queues := rfl
@[simp] theorem State.hostWrite_eports (s : State) (fn addr : Nat) (relaxed : Bool) (bs : List Byte) : (s.hostWrite fn addr relaxed bs).eports = s.eports := rfl
@[simp] theorem State.hostWrite_red (s : State) (fn addr : Nat) (relaxed : Bool) (bs : List Byte) : (s.hostWrite fn addr relaxed bs).red = s.red := rfl
@[simp] theorem State.hostWrite_time (s : State) (fn addr : Nat) (relaxed : Bool) (bs : List Byte) : (s.hostWrite fn addr relaxed bs).time = s.time := rfl
@[simp] theorem State.hostWrite_host (s : State) (fn addr : Nat) (relaxed : Bool) (bs : List Byte) : (s.hostWrite fn addr relaxed bs).host = s.host := rfl
@[simp] theorem State.hostWrite_triad (s : State) (fn addr : Nat) (relaxed : Bool) (bs : List Byte) : (s.hostWrite fn addr relaxed bs).triad = s.triad := rfl
@[simp] theorem State.hostWrite_fault (s : State) (fn addr : Nat) (relaxed : Bool) (bs : List Byte) : (s.hostWrite fn addr relaxed bs).fault = s.fault := rfl
@[simp] theorem State.hostWrite_power (s : State) (fn addr : Nat) (relaxed : Bool) (bs : List Byte) : (s.hostWrite fn addr relaxed bs).power = s.power := rfl
@[simp] theorem State.hostWrite_boot (s : State) (fn addr : Nat) (relaxed : Bool) (bs : List Byte) : (s.hostWrite fn addr relaxed bs).boot = s.boot := rfl
@[simp] theorem State.hostWrite_nv (s : State) (fn addr : Nat) (relaxed : Bool) (bs : List Byte) : (s.hostWrite fn addr relaxed bs).nv = s.nv := rfl
@[simp] theorem State.hostWrite_pins (s : State) (fn addr : Nat) (relaxed : Bool) (bs : List Byte) : (s.hostWrite fn addr relaxed bs).pins = s.pins := rfl
@[simp] theorem State.hostWrite_cnt (s : State) (fn addr : Nat) (relaxed : Bool) (bs : List Byte) : (s.hostWrite fn addr relaxed bs).cnt = s.cnt := rfl
@[simp] theorem State.hostWrite_nextFid (s : State) (fn addr : Nat) (relaxed : Bool) (bs : List Byte) : (s.hostWrite fn addr relaxed bs).nextFid = s.nextFid := rfl

@[simp] theorem State.msixSend_pending (s : State) (fn vec : Nat) : (s.msixSend fn vec).pending = s.pending := rfl
@[simp] theorem State.msixSend_regs (s : State) (fn vec : Nat) : (s.msixSend fn vec).regs = s.regs := rfl
@[simp] theorem State.msixSend_force (s : State) (fn vec : Nat) : (s.msixSend fn vec).force = s.force := rfl
@[simp] theorem State.msixSend_fns (s : State) (fn vec : Nat) : (s.msixSend fn vec).fns = s.fns := rfl
@[simp] theorem State.msixSend_links (s : State) (fn vec : Nat) : (s.msixSend fn vec).links = s.links := rfl
@[simp] theorem State.msixSend_lanes (s : State) (fn vec : Nat) : (s.msixSend fn vec).lanes = s.lanes := rfl
@[simp] theorem State.msixSend_sqs (s : State) (fn vec : Nat) : (s.msixSend fn vec).sqs = s.sqs := rfl
@[simp] theorem State.msixSend_book (s : State) (fn vec : Nat) : (s.msixSend fn vec).book = s.book := rfl
@[simp] theorem State.msixSend_tour (s : State) (fn vec : Nat) : (s.msixSend fn vec).tour = s.tour := rfl
@[simp] theorem State.msixSend_buf (s : State) (fn vec : Nat) : (s.msixSend fn vec).buf = s.buf := rfl
@[simp] theorem State.msixSend_queues (s : State) (fn vec : Nat) : (s.msixSend fn vec).queues = s.queues := rfl
@[simp] theorem State.msixSend_eports (s : State) (fn vec : Nat) : (s.msixSend fn vec).eports = s.eports := rfl
@[simp] theorem State.msixSend_red (s : State) (fn vec : Nat) : (s.msixSend fn vec).red = s.red := rfl
@[simp] theorem State.msixSend_time (s : State) (fn vec : Nat) : (s.msixSend fn vec).time = s.time := rfl
@[simp] theorem State.msixSend_host (s : State) (fn vec : Nat) : (s.msixSend fn vec).host = s.host := rfl
@[simp] theorem State.msixSend_triad (s : State) (fn vec : Nat) : (s.msixSend fn vec).triad = s.triad := rfl
@[simp] theorem State.msixSend_fault (s : State) (fn vec : Nat) : (s.msixSend fn vec).fault = s.fault := rfl
@[simp] theorem State.msixSend_power (s : State) (fn vec : Nat) : (s.msixSend fn vec).power = s.power := rfl
@[simp] theorem State.msixSend_boot (s : State) (fn vec : Nat) : (s.msixSend fn vec).boot = s.boot := rfl
@[simp] theorem State.msixSend_nv (s : State) (fn vec : Nat) : (s.msixSend fn vec).nv = s.nv := rfl
@[simp] theorem State.msixSend_pins (s : State) (fn vec : Nat) : (s.msixSend fn vec).pins = s.pins := rfl
@[simp] theorem State.msixSend_cnt (s : State) (fn vec : Nat) : (s.msixSend fn vec).cnt = s.cnt := rfl
@[simp] theorem State.msixSend_nextFid (s : State) (fn vec : Nat) : (s.msixSend fn vec).nextFid = s.nextFid := rfl

end Sys2Proof.Machine
end

