-- ==== Sys2Proof/Laws/Ops.lean ====
section
/-!
SUPPORT. What the shared operations over rings can do: a return touches its ring, the pending bits and the outside
alone, and a command that is accepted ends as its effect says.
-/

namespace Sys2Proof.Machine

/-! ### The frame of a return -/

theorem ReturnFrame.refl (n : Nat) (s : State) : ReturnFrame n s s :=
  ⟨rfl, rfl, rfl, fun _ _ => rfl, rfl, fun _ _ => rfl⟩

/-- A return leaves the ring's vector. -/
theorem ReturnFrame.vec {n : Nat} {s t : State} (h : ReturnFrame n s t) : (t.ring n).vec = (s.ring n).vec := by
  rw [h.2.2.2.2.1]

theorem ReturnFrame.trans {n : Nat} {s t u : State} (h : ReturnFrame n s t) (k : ReturnFrame n t u) :
    ReturnFrame n s u := by
  have hv := h.vec
  obtain ⟨h1, h2, h3, h4, h5, h6⟩ := h
  obtain ⟨k1, k2, k3, k4, k5, k6⟩ := k
  refine ⟨?_, ?_, ?_, fun m hm => (k4 m hm).trans (h4 m hm), ?_, fun a ha => (k6 a (hv ▸ ha)).trans (h6 a ha)⟩
  · rw [k1, h1]
  · rw [k2, h2]
  · rw [k3, h3]
  · rw [k5, h5]

theorem ReturnFrame.hostWrite (n : Nat) (s : State) (fn addr : Nat) (relaxed : Bool) (bs : List Byte) :
    ReturnFrame n s (s.hostWrite fn addr relaxed bs) := ⟨rfl, rfl, rfl, fun _ _ => rfl, rfl, fun _ _ => rfl⟩

theorem ReturnFrame.msixSend (n : Nat) (s : State) (fn vec : Nat) : ReturnFrame n s (s.msixSend fn vec) :=
  ⟨rfl, rfl, rfl, fun _ _ => rfl, rfl, fun _ _ => rfl⟩

/-- A ring's own counts may change in a return. -/
theorem ReturnFrame.modRing (n : Nat) (s : State) {f : Ring → Ring}
    (hf : ∀ r, f r = { r with
      fetched := (f r).fetched, accepted := (f r).accepted, c := (f r).c, retq := (f r).retq
      unsignalled := (f r).unsignalled, oldest := (f r).oldest }) : ReturnFrame n s (s.modRing n f) := by
  refine ⟨rfl, rfl, rfl, fun m hm => by rw [State.ring_modRing, if_neg hm], ?_, fun _ _ => rfl⟩
  rw [State.ring_modRing, if_pos rfl]
  exact hf _

theorem ReturnFrame.fireVector (n : Nat) (s : State) (fn : Nat) :
    ReturnFrame n s (s.fireVector fn (s.ring n).vec) := by
  unfold State.fireVector
  split
  · exact .msixSend _ _ _ _
  · unfold State.setVecPending
    split
    · refine ⟨rfl, rfl, rfl, fun _ _ => rfl, rfl, fun a ha => ?_⟩
      rw [State.reg_setReg, if_neg ha]
    · exact ⟨rfl, rfl, rfl, fun _ _ => rfl, rfl, fun _ _ => rfl⟩

theorem ReturnFrame.signalRing (n : Nat) (s : State) : ReturnFrame n s (s.signalRing n) := by
  have h : ReturnFrame n s (s.modRing n (fun r => { r with unsignalled := 0 })) := .modRing _ _ fun _ => rfl
  unfold State.signalRing
  dsimp only
  split
  · exact h
  · exact h.trans (h.vec ▸ ReturnFrame.fireVector n _ _)

theorem ReturnFrame.writeReturn (n : Nat) (s : State) (bs : List Byte) (word : Nat) :
    ReturnFrame n s (s.writeReturn n bs word) := by
  unfold State.writeReturn
  dsimp only
  have h : ∀ u : State, ReturnFrame n s u → ReturnFrame n s (u.modRing n (fun r => { r with
      c := (r.c + 1) % 4294967296
      unsignalled := r.unsignalled + 1
      oldest := if r.unsignalled = 0 then u.elapsed else r.oldest })) := fun u hu => hu.trans (.modRing _ _ fun _ => rfl)
  have h1 : ReturnFrame n s (if (s.ring n).splitWb = true then
      (s.hostWrite (s.ring n).fn ((s.ring n).base + 32 * ((s.ring n).c % 2 ^ (s.ring n).log2)) false (body28 bs)).hostWrite
        (s.ring n).fn ((s.ring n).base + 32 * ((s.ring n).c % 2 ^ (s.ring n).log2) + 28) false
        (leBytes 4 (word % 2147483648 + 2147483648 * (1 - (s.ring n).c / 2 ^ (s.ring n).log2 % 2)))
    else s.hostWrite (s.ring n).fn ((s.ring n).base + 32 * ((s.ring n).c % 2 ^ (s.ring n).log2)) false
      (body28 bs ++ leBytes 4 (word % 2147483648 + 2147483648 * (1 - (s.ring n).c / 2 ^ (s.ring n).log2 % 2)))) := by
    split
    · exact (ReturnFrame.hostWrite _ _ _ _ _ _).trans (.hostWrite _ _ _ _ _ _)
    · exact .hostWrite _ _ _ _ _ _
  split
  · exact (h _ h1).trans (.signalRing _ _)
  · exact h _ h1

theorem ReturnFrame.foldl {α : Type} {n : Nat} {f : State → α → State} (h : ∀ s a, ReturnFrame n s (f s a))
    (l : List α) (s : State) : ReturnFrame n s (l.foldl f s) := by
  induction l generalizing s with
  | nil => exact .refl n s
  | cons a l ih => exact (h s a).trans (ih _)

theorem ReturnFrame.flushReturns (n : Nat) (s : State) : ReturnFrame n s (s.flushReturns n) := by
  unfold State.flushReturns
  split
  · refine (ReturnFrame.modRing n s (f := fun r => { r with retq := [] }) fun _ => rfl).trans ?_
    generalize s.modRing n (fun r => { r with retq := [] }) = u
    exact ReturnFrame.foldl (f := fun s (e : List Byte × Nat) => s.writeReturn n e.1 e.2)
      (fun s e => .writeReturn n s e.1 e.2) _ u
  · exact .refl n s

theorem ReturnFrame.ringReturn (n : Nat) (s : State) (bs : List Byte) (word : Nat) :
    ReturnFrame n s (s.ringReturn n bs word) :=
  (ReturnFrame.modRing n s (f := fun r => { r with retq := r.retq ++ [(body28 bs, word)] }) fun _ => rfl).trans
    (.flushReturns n _)

/-- Everything the return of a command can do: the record of its return apart, it is a return of its ring. -/
theorem ReturnFrame.completeCmd (n : Nat) (s : State) (d : List Byte) (st res : Nat) :
    ReturnFrame n s (s.completeCmd n d st res) := by
  unfold State.completeCmd
  refine ReturnFrame.trans (.modRing n s (f := fun r => { r with accepted := none }) fun _ => rfl)
    (ReturnFrame.trans (t := { s.modRing n (fun r => { r with accepted := none }) with
      io := { (s.modRing n (fun r => { r with accepted := none })).io with
        rets := { ring := n, tag := BitVec.ofNat 32 (leAt d 4 4), opcode := leAt d 0 2, status := st, res := res } ::
          (s.modRing n (fun r => { r with accepted := none })).io.rets } })
      ⟨rfl, rfl, rfl, fun _ _ => rfl, rfl, fun _ _ => rfl⟩ (.ringReturn n _ _ _))

/-! ### The record of returns and the accepted command -/

/-- An operation that leaves the record of returns and every ring's accepted command. -/
def SameRets (s t : State) : Prop := t.io.rets = s.io.rets ∧ ∀ n, (t.ring n).accepted = (s.ring n).accepted

theorem SameRets.refl (s : State) : SameRets s s := ⟨rfl, fun _ => rfl⟩

theorem SameRets.trans {s t u : State} (h : SameRets s t) (k : SameRets t u) : SameRets s u :=
  ⟨k.1.trans h.1, fun n => (k.2 n).trans (h.2 n)⟩

theorem SameRets.hostWrite (s : State) (fn addr : Nat) (relaxed : Bool) (bs : List Byte) :
    SameRets s (s.hostWrite fn addr relaxed bs) :=
  ⟨rfl, fun _ => rfl⟩

theorem SameRets.modRing (s : State) (n : Nat) {f : Ring → Ring} (hf : ∀ r, (f r).accepted = r.accepted) :
    SameRets s (s.modRing n f) := by
  refine ⟨rfl, fun m => ?_⟩
  rw [State.ring_modRing]
  split
  · next h => rw [hf, h]
  · rfl

theorem SameRets.fireVector (s : State) (fn vec : Nat) : SameRets s (s.fireVector fn vec) := by
  unfold State.fireVector State.setVecPending
  split
  · exact ⟨rfl, fun _ => rfl⟩
  · split <;> exact ⟨rfl, fun _ => rfl⟩

theorem SameRets.signalRing (s : State) (n : Nat) : SameRets s (s.signalRing n) := by
  have h : SameRets s (s.modRing n (fun r => { r with unsignalled := 0 })) := .modRing _ _ fun _ => rfl
  unfold State.signalRing
  dsimp only
  split
  · exact h
  · exact h.trans (.fireVector _ _ _)

theorem SameRets.ite {c : Prop} [Decidable c] {s a b : State} (ha : SameRets s a) (hb : SameRets s b) :
    SameRets s (if c then a else b) := by
  split
  · exact ha
  · exact hb

theorem SameRets.writeReturn (s : State) (n : Nat) (bs : List Byte) (word : Nat) :
    SameRets s (s.writeReturn n bs word) := by
  unfold State.writeReturn
  dsimp only
  have h : ∀ u : State, SameRets s u → SameRets s (u.modRing n (fun r => { r with
      c := (r.c + 1) % 4294967296
      unsignalled := r.unsignalled + 1
      oldest := if r.unsignalled = 0 then u.elapsed else r.oldest })) := fun u hu => hu.trans (.modRing _ _ fun _ => rfl)
  have hw := h _ (SameRets.ite (c := (s.ring n).splitWb = true)
    ((SameRets.hostWrite s (s.ring n).fn ((s.ring n).base + 32 * ((s.ring n).c % 2 ^ (s.ring n).log2))
        false (body28 bs)).trans
      (.hostWrite _ (s.ring n).fn ((s.ring n).base + 32 * ((s.ring n).c % 2 ^ (s.ring n).log2) + 28) false
        (leBytes 4 (word % 2147483648 + 2147483648 * (1 - (s.ring n).c / 2 ^ (s.ring n).log2 % 2)))))
    (.hostWrite s (s.ring n).fn ((s.ring n).base + 32 * ((s.ring n).c % 2 ^ (s.ring n).log2)) false
      (body28 bs ++ leBytes 4 (word % 2147483648 + 2147483648 * (1 - (s.ring n).c / 2 ^ (s.ring n).log2 % 2)))))
  split
  · exact hw.trans (.signalRing _ _)
  · exact hw

theorem SameRets.foldl {α : Type} {f : State → α → State} (h : ∀ s a, SameRets s (f s a)) (l : List α) (s : State) :
    SameRets s (l.foldl f s) := by
  induction l generalizing s with
  | nil => exact .refl s
  | cons a l ih => exact (h s a).trans (ih _)

theorem SameRets.flushReturns (s : State) (n : Nat) : SameRets s (s.flushReturns n) := by
  unfold State.flushReturns
  split
  · refine (SameRets.modRing s n (f := fun r => { r with retq := [] }) fun _ => rfl).trans ?_
    generalize s.modRing n (fun r => { r with retq := [] }) = u
    exact SameRets.foldl (f := fun s (e : List Byte × Nat) => s.writeReturn n e.1 e.2)
      (fun s e => .writeReturn s n e.1 e.2) _ u
  · exact .refl s

theorem SameRets.ringReturn (s : State) (n : Nat) (bs : List Byte) (word : Nat) : SameRets s (s.ringReturn n bs word) :=
  (SameRets.modRing s n (f := fun r => { r with retq := r.retq ++ [(body28 bs, word)] }) fun _ => rfl).trans
    (.flushReturns _ n)

/-! ### The bytes of a descriptor (R290) -/

@[simp] theorem leBytes_length (n v : Nat) : (leBytes n v).length = n := by
  induction n generalizing v with
  | zero => rfl
  | succ n ih => simp [leBytes, ih]

theorem leNat_leBytes (n v : Nat) (h : v < 256 ^ n) : leNat (leBytes n v) = v := by
  induction n generalizing v with
  | zero => simp at h; simp [leBytes, leNat, h]
  | succ n ih =>
    have hq : v / 256 < 256 ^ n := Nat.div_lt_of_lt_mul (by rw [Nat.pow_succ] at h; omega)
    simp only [leBytes, leNat, ih _ hq, BitVec.toNat_ofNat]
    omega

/-- Bytes 0–1 of a descriptor are its opcode. -/
theorem leAt_cmdBytes_opcode (op : Nat) (c : Cmd) (h : op < 65536) : leAt (cmdBytes op c) 0 2 = op := by
  have : slice (cmdBytes op c) 0 2 = leBytes 2 op := by
    simp [slice, cmdBytes, List.append_assoc, List.take_append]
  rw [leAt, this, leNat_leBytes]
  omega

/-- Bytes 4–7 of a descriptor are its tag. -/
theorem leAt_cmdBytes_tag (op : Nat) (c : Cmd) : leAt (cmdBytes op c) 4 4 = c.tag.toNat := by
  have : slice (cmdBytes op c) 4 4 = leBytes 4 c.tag.toNat := by
    simp [slice, cmdBytes, List.append_assoc, List.drop_append, List.take_append]
  rw [leAt, this, leNat_leBytes]
  exact c.tag.isLt

/-! ### A command that is accepted -/

theorem accepted_frame (op : Nat) (c : Cmd) (s : State) : ReturnFrame c.ring s (accepted op c s) := by
  refine (ReturnFrame.modRing c.ring s (f := fun r => { r with
    fetched := r.fetched.drop 1, accepted := some (cmdBytes op c) }) fun _ => rfl).trans ?_
  exact ⟨rfl, rfl, rfl, fun _ _ => rfl, rfl, fun _ _ => rfl⟩

/-- Acceptance alone, before any effect: what `Waits` says of it. -/
theorem accepted_waits (op : Nat) (c : Cmd) (s : State) : Waits s (accepted op c s) c op := by
  have h : ∀ m, (accepted op c s).ring m = (s.modRing c.ring (fun r => { r with
      fetched := r.fetched.drop 1, accepted := some (cmdBytes op c) })).ring m := fun _ => rfl
  refine ⟨?_, rfl, fun m hm => ?_⟩
  · rw [h, State.ring_modRing, if_pos rfl]
  · rw [h, State.ring_modRing, if_neg hm]

/-- A command that is served runs its effect on the accepted state, and returns with the effect's status and result,
or later. -/
theorem runCmd_served {op : Nat} {c : Cmd} {ok : Bool} {f : State → CmdOut} {s : State} (hs : Serves s c.ring)
    (hr : knownOpcodes.contains op = false ∨ (c.rsvd = 0 ∧ ok = true)) :
    runCmd op c ok f s = match f (accepted op c s) with
      | .ret t st res => t.completeCmd c.ring (cmdBytes op c) st res
      | .later t => t := by
  obtain ⟨-, ha, hrec, hl⟩ := hs
  show (if s.accepts c.ring then
      if s.boot.recovery && !recoveryOp op then (accepted op c s).completeCmd c.ring (cmdBytes op c) stBusy 0
      else if s.triad.lost && needsTriad op then (accepted op c s).completeCmd c.ring (cmdBytes op c) stBusy 0
      else if knownOpcodes.contains op && (c.rsvd != 0 || !ok) then
        (accepted op c s).completeCmd c.ring (cmdBytes op c) stInvalid 0
      else match f (accepted op c s) with
        | .ret t st res => t.completeCmd c.ring (cmdBytes op c) st res
        | .later t => t
    else s) = _
  have hk : (knownOpcodes.contains op && (c.rsvd != 0 || !ok)) = false := by
    rcases hr with hr | ⟨hr, rfl⟩
    · simp only [hr, Bool.false_and]
    · simp [hr]
  simp only [ha, hrec, hl, hk, Bool.false_and, Bool.false_eq_true, if_false, if_true]

/-- A served command that returns with an effect `u` on the accepted state: the whole answer. -/
theorem returns_of_effect {op : Nat} {c : Cmd} {s u : State} {st res : Nat} (ho : op < 65536)
    (hr : u.io.rets = s.io.rets) : (u.completeCmd c.ring (cmdBytes op c) st res).io.rets =
      { ring := c.ring, tag := c.tag, opcode := op, status := st, res := res } :: s.io.rets := by
  unfold State.completeCmd
  rw [(SameRets.ringReturn _ _ _ _).1]
  simp [leAt_cmdBytes_opcode op c ho, leAt_cmdBytes_tag, hr]

/-- After its return a ring is free for its next command. -/
theorem completeCmd_accepted (s : State) (n : Nat) (d : List Byte) (st res : Nat) :
    ((s.completeCmd n d st res).ring n).accepted = none := by
  unfold State.completeCmd
  rw [(SameRets.ringReturn _ _ _ _).2]
  have : ∀ (x : Io) (u : State), ({ u with io := x }).ring n = u.ring n := fun _ _ => rfl
  rw [this, State.ring_modRing, if_pos rfl]

end Sys2Proof.Machine
end

