-- ==== Sys2Proof/Tests/Slice0.lean ====
section
/-!
SUPPORT. The model's own tests: ill-formed commands are refused, small facts whose expected values stand in the spec
or in the standards it names, and for every clause of every statement a state and operands that meet its hypotheses.
-/

namespace Sys2Proof.Tests
open Sys2Proof Sys2Proof.Machine

set_option Elab.async false
set_option linter.unusedVariables false

/-! ### Small states -/

/-- Elapsed time of the running states: 10 s. -/
def t10 : Tick := secT 10

/-- The device runs its firmware with the mesh stopped, the host link up, and command ring 0 and event ring 1 ON. -/
def up : State := { State.reset with
  boot := { stage := 2, dpReady := true, parseVer := 1 }
  time := { elapsed := t10 }
  fns := [(fnKey 5 0, { st := .on }), (fnKey 5 1, { st := .on })]
  host := { linkUp := true, bme := [(0, true)]
            rings := [(0, { type := 3, fetched := [List.replicate 32 0] }), (1, { type := 4 })] } }

/-- A command of ring 0. -/
def cmd (p0 : W64 := 0) (p1 : W64 := 0) (p2 : BitVec 32 := 0) : Cmd := { tag := 7, p0 := p0, p1 := p1, p2 := p2 }

/-- The running device with function `inst` of class `cls` in lifecycle state `x`. -/
def fnAt (cls inst : Nat) (x : Fn) (s : State := up) : State := s.setFn cls inst x

def recov : State := { up with boot := { stage := 3, recovery := true, bootsel := 2 } }
def lostTriad : State := { up with triad := { lost := true } }
def noRing : State := { up with fns := [] }
def scanned : State := { up with pins := { scan := true } }
def inPor : State := State.reset
def inDevReset : State := { State.reset with boot := { stage := 4 }, time := { elapsed := usT 101 } }

/-- Bytes of a ring context: type, vector and buffer size. -/
def ctxBytes (type vec buf : Nat) : List Byte :=
  leBytes 8 4096 ++ leBytes 1 type ++ leBytes 1 6 ++ leBytes 2 0 ++ leBytes 2 vec ++ leBytes 4 0 ++ leBytes 2 buf ++ List.replicate 44 0

/-- The state `exec` answers. -/
def ran (i : Instr) (s : State) : State := match exec i s with | .next t => t | _ => s

/-- `exec` answers that state, where it answers a next state. -/
theorem ran_next (i : Instr) (s : State) (h : (match exec i s with | .next _ => true | _ => false) = true) :
    exec i s = .next (ran i s) := by
  unfold ran
  split at h
  · next e => rw [e]
  · cases h

/-- Every volume has one page, at the page of its number. -/
def mapped : SMap Nat := (List.range 13).map fun v => (v, 65536 + v)
def booked : State := { up with book := { map := mapped } }

/-- The running device with word `o / 8` of the active side of volume `v` at `x`. -/
def bookAt (v o : Nat) (x : W64) (s : State := booked) : State :=
  { s with book := { s.book with active := SMap.set (fun _ => 0) s.book.active (bookKey v (o / 8)) x } }

/-- A write group of one pair. -/
def group1 (v side n off : Nat) : List Byte :=
  leBytes 1 v ++ leBytes 1 side ++ leBytes 1 n ++ leBytes 5 0 ++ leBytes 8 off ++ leBytes 8 0x1122334455667788

def fused : State := { up with boot := { up.boot with slotA := { svn := 3 } } }
def loaded (m : Nat) : State := { booked with book := { booked.book with loaded := m } }
def turning : State := { booked with book := { booked.book with turn := some { epoch := 1, mask := 1 } } }
def oldEpoch : State := { booked with book := { booked.book with epoch := 1, old := some { epoch := 0, mask := 1, swapAt := t10 } } }

/-- A book image of one section that writes word 0 of volume 0. -/
def imageRaw : List Byte :=
  leBytes 4 0x4B42564D ++ leBytes 2 1 ++ leBytes 2 64 ++ leBytes 2 0x4C10 ++ leBytes 2 1 ++ leBytes 4 88 ++ leBytes 4 1 ++
    List.replicate 44 0 ++ leBytes 4 1 ++ leBytes 4 80 ++ leBytes 4 8 ++ leBytes 4 0 ++ leBytes 8 5
def image : List Byte := patch imageRaw 20 (leBytes 4 (crc32c imageRaw))

def learnOn : State := { up with fns := (fnKey 7 0, { st := .on }) :: up.fns }
/-- The learn engine is ON, with entries of the learn cache and events of square 2. -/
def learning (es : List (Nat × LearnEnt)) (evs : List LearnEv) (s : State := learnOn) : State :=
  (s.modSq 2 fun q => { q with learnQ := evs }) |> fun s => { s with book := { s.book with learn := es } }
def lkey : W64 := 0x1231
def lset : Nat := 4 * learnSet lkey
def lcmd : LearnCmd := { op := 1, key := lkey }
def learnCmds : State := { learnOn with book := { learnOn.book with learnCmds := [lcmd] } }

def bad (h : EccHit) (js : List Nat) : State := { up with book := { up.book with
  badWords := js.foldl (fun m j => SMap.set (fun _ => false) m (eccKey { h with replica := j }) true) [] } }
def owned : State := { up with time := { up.time with bcPorts := [(3, 9)] } }
def atNow (t : Tick) (s : State := up) : State := s.loadTime t

/-- The running device with register `a` in force at `v`, or written to `v`. -/
def forced (a : Nat) (v : Reg) (s : State := up) : State := { s with force := SMap.set regReset s.force a v }
def written (a : Nat) (v : Reg) (s : State := up) : State := s.setReg a v
def roomy : State := forced (A.bufQuotaOwn 63) 0x3FFF3FFF
def vfs : State := { up with host := { up.host with vfEnable := true, numVfs := 8 } }
/-- Channel 511 has a record: sum of 16-bit floats, 2 contributors, a window of 4, blocks of 256 bytes. -/
def chanReady : State :=
  bookAt 12 (0x40 + 64 * 511 + 8) 256 (bookAt 12 (0x40 + 64 * 511) (1 + 2 ^ 5 * 2 + 2 ^ 12 * 2 + 2 ^ 34 * 4)
    { up with
      book := { map := [(12, 65536 * 16 + 12)] }, red := { ver := 1 }, tour := { running := true } })

def inTime (f : TimeSt → TimeSt) (s : State := up) : State := { s with time := f s.time }
def edges64 : List Edge := List.replicate 64 {}
def bufIn (st : Nat) (run : Bool) : State := { up with buf := { state := st }, tour := { running := run } }
def svcUp (xs : List (Nat × Nat)) : State := { up with red := { svc := xs }, tour := { running := true } }
def inX (x : Nat) (r : Nat := 0) : State :=
  { (up.modSq 63 fun q => { q with resetSt := r }) with tour := { x := x, xInForce := x } }
def onRing (d : List Byte) : State := up.modRing 0 fun r => { r with accepted := some d }

/-- Flash bytes from address `a`. -/
def bytesAt (a : Nat) (bs : List Byte) : List (Nat × Byte) := bs.zipIdx.map fun b => (a + b.2, b.1)
/-- An image of 4,096 bytes in slot `k`: SVN 3, firmware version 0x55, handover version 2 of 1 to 2. -/
def imageIn (k : Nat) : List (Nat × Byte) :=
  bytesAt (16777216 * k + 4096) (leBytes 4 0x5746564D ++ leBytes 2 1 ++ leBytes 2 0x4C10 ++ leBytes 4 4096 ++
    leBytes 2 0x303 ++ leBytes 2 0x200 ++ leBytes 4 0x55 ++ leBytes 2 0x201) ++
  bytesAt (16777216 * k + 4096 + 128) ((List.range 3).flatMap (fun i =>
    leBytes 4 (i + 1) ++ leBytes 4 (0x200 + 16 * i) ++ leBytes 4 16 ++ leBytes 4 9) ++ List.replicate 80 0)
def imageNv : Nv := { flash := imageIn 0 ++ imageIn 1 }
def staged : State := { up with nv := imageNv }

/-- The same flash with a commit record in slot 0 that gives the image's CRC as `x`. -/
def commitRec (x : Nat) : Commit := { seq := 4, imgLen := 4096, imgCrc := BitVec.ofNat 32 x }
def committedAt (x : Nat) : Nv := { imageNv with flash := bytesAt 0 (Commit.bytes (commitRec x)) ++ imageNv.flash }
def committed : Nv := committedAt (crc32c (imageNv.image 0 0 4096))

theorem crc32c_lt (bs : List Byte) : crc32c bs < 2 ^ 32 := by
  have h8 : ∀ (l : List Nat) (c : Nat), c < 2 ^ 32 →
      l.foldl (fun c _ => if c % 2 = 1 then (c / 2) ^^^ 0x82F63B78 else c / 2) c < 2 ^ 32 := by
    intro l
    induction l with
    | nil => intro c h; exact h
    | cons x l ih =>
      intro c h
      apply ih
      have h2 : c / 2 < 2 ^ 32 := by omega
      dsimp only
      split
      · exact Nat.xor_lt_two_pow h2 (by decide)
      · exact h2
  have hs : ∀ (l : List Byte) (c : Nat), c < 2 ^ 32 → l.foldl crc32cByte c < 2 ^ 32 := by
    intro l
    induction l with
    | nil => intro c h; exact h
    | cons b l ih =>
      intro c h
      apply ih
      exact h8 _ _ (Nat.xor_lt_two_pow h (by have := b.isLt; omega))
  exact Nat.xor_lt_two_pow (hs bs _ (by decide)) (by decide)

theorem get_skip (a b : SMap Byte) (k : Nat) (h : ∀ e ∈ a, e.1 ≠ k) :
    SMap.get flashErased (a ++ b) k = SMap.get flashErased b k := by
  induction a with
  | nil => rfl
  | cons e a ih =>
    have h1 : ¬ k = e.1 := fun q => h e (by simp) q.symm
    simp only [List.cons_append, SMap.get, if_neg h1]
    exact ih fun x hx => h x (by simp [hx])
theorem committed_byte (x o : Nat) (h : 64 ≤ o) : (committedAt x).flashAt 0 o = imageNv.flashAt 0 o := by
  unfold Nv.flashAt committedAt
  refine get_skip _ _ _ ?_
  intro e he
  simp only [bytesAt, List.mem_map] at he
  obtain ⟨p, hp, rfl⟩ := he
  have := List.snd_lt_of_mem_zipIdx hp
  simp [Commit.bytes, leBytes] at this
  omega
theorem committed_image (x o n : Nat) : (committedAt x).image 0 o n = imageNv.image 0 o n := by
  unfold Nv.image
  exact List.map_congr_left fun i _ => committed_byte x _ (by omega)
theorem committed_record (x : Nat) : (committedAt x).commit 0 = some (commitRec x) := by
  have hb : (List.range 64).map ((committedAt x).flashAt 0) = Commit.bytes (commitRec x) := by
    unfold Commit.bytes committedAt Nv.flashAt
    generalize crc32c _ = y
    rfl
  have hx := (BitVec.ofNat 32 x).isLt
  unfold Nv.commit
  rw [hb]
  have h0 : leAt (Commit.bytes (commitRec x)) 0 4 = 0x4D43564D := by
    simp [Commit.bytes, leAt, slice, leBytes, leNat]
  have h1 : leAt (Commit.bytes (commitRec x)) 4 4 = 4 ∧ leAt (Commit.bytes (commitRec x)) 8 4 = 4096 := by
    simp [Commit.bytes, commitRec, leAt, slice, leBytes, leNat]
  have h2 : leAt (Commit.bytes (commitRec x)) 12 4 = (BitVec.ofNat 32 x).toNat := by
    simp only [Commit.bytes, commitRec, leAt, slice, leBytes, leNat, List.cons_append, List.nil_append, List.drop_succ_cons,
      List.drop_zero, List.take_succ_cons, List.take_zero, BitVec.toNat_ofNat]
    omega
  have h3 : leAt (Commit.bytes (commitRec x)) 60 4 = crc32c ((Commit.bytes (commitRec x)).take 60) := by
    have h4 : (Commit.bytes (commitRec x)).take 60 = leBytes 4 0x4D43564D ++ leBytes 4 (commitRec x).seq ++
        leBytes 4 (commitRec x).imgLen ++ leBytes 4 (commitRec x).imgCrc.toNat ++ List.replicate 44 0 := by
      unfold Commit.bytes
      simp [leBytes]
    rw [h4]
    unfold Commit.bytes
    have h5 := crc32c_lt (leBytes 4 0x4D43564D ++ leBytes 4 (commitRec x).seq ++
        leBytes 4 (commitRec x).imgLen ++ leBytes 4 (commitRec x).imgCrc.toNat ++ List.replicate 44 0)
    dsimp only
    generalize crc32c _ = y at h5 ⊢
    simp [leAt, slice, leBytes, leNat]
    omega
  rw [if_pos ⟨h0, h3⟩, h1.1, h1.2, h2, BitVec.ofNat_toNat, BitVec.setWidth_eq]
  rfl
theorem committed_code_at (x : Nat) (hx : x < 2 ^ 32) (hk : crc32c (imageNv.image 0 0 4096) = x) :
    (committedAt x).imageCode 0 {} true = 0 := by
  have hc : (committedAt x).commit 0 = _ := committed_record _
  have hi : ∀ o n, (committedAt x).image 0 o n = imageNv.image 0 o n := committed_image x
  have hf : ∀ o n, (committedAt x).imgField 0 o n = imageNv.imgField 0 o n := fun o n => by unfold Nv.imgField; rw [hi]
  have hl : (committedAt x).imgLen 0 = imageNv.imgLen 0 := hf 8 4
  have hn : (committedAt x).imgSvn 0 = imageNv.imgSvn 0 := hf 12 1
  have hs : (committedAt x).sectionsOk 0 = imageNv.sectionsOk 0 := by
    unfold Nv.sectionsOk Nv.imgSection
    simp only [hf, hi, hl]
  have h1 : imageNv.imgField 0 0 4 = 0x5746564D ∧ imageNv.imgField 0 4 2 = 1 ∧ imageNv.imgField 0 13 1 = 3 ∧
      imageNv.imgField 0 6 2 = 0x4C10 ∧ imageNv.imgSvn 0 = 3 ∧ imageNv.imgLen 0 = 4096 ∧
      imageNv.sectionsOk 0 = true := by decide +kernel
  have hr : (committedAt x).rbc = 0 := rfl
  obtain ⟨a, b, c, d, e, f, g⟩ := h1
  unfold Nv.imageCode
  dsimp only
  simp only [hc, hl, hn, hs, hi, hf, hr, a, b, c, d, e, f, g]
  have hm : x % 4294967296 = x := Nat.mod_eq_of_lt hx
  simp [commitRec, hm]
  exact hk.symm

theorem committed_code : committed.imageCode 0 {} true = 0 :=
  committed_code_at _ (crc32c_lt _) rfl
def castleIn (st : Nat) (b : Boot → Boot := id) (h : Option HoldKind := none) : State :=
  { staged with boot := b { staged.boot with castle := st, slotB := { verified := true } }, triad := { hold := h } }

def sevSrc (n : Nat) (st : SrcSt := .severe) (s : State := up) : State := s.modSrc n fun x => { x with st := st, count := 2, recov := 5 }
def noReady : State := { up with boot := { up.boot with dpReady := false } }
def dark : State := { up with boot := { stage := 1 } }
def romWith (nv : Nv) (order : List Nat) : State := { State.reset with boot := { stage := 1, order := order }, nv := nv }

/-- Port 0 is ON, with all of bring-up done and UP_HOLD running since reset. -/
def port0 (f : Link → Link := id) (s : State := up) : State :=
  ((fnAt 0 0 { st := .on } s).modLink 0 fun _ => f { adapt := true, fec := true, deskew := true, upHold := some 0 })
    |>.modLane 0 fun x => { x with sig := true, cdr := true, am := true, train := 2 }
def port0Up : State := port0 fun l => { l with up := true, upHold := none }
/-- Square 0 has one port of 4 lanes or more at base 0, ON, with lane 0's alignment missing. -/
def wide0 : State := forced (A.portMap 0) 0xFFFFFFFF (fnAt 0 0 { st := .on })
def mgmtUp (s : State := up) : State :=
  { fnAt 0 1089 { st := .on } s with host := { s.host with mgmt := { sync := true, up := true } } }
/-- A PTP message of type `t` for the boundary clock service. -/
def ptpFrame (t : Nat) : WholeFrame :=
  { hdr := { fid := 9, bc := true, iport := 3 }, bytes := List.replicate 12 0 ++ [0x88, 0xF7, BitVec.ofNat 8 t] ++ List.replicate 49 0 }
def bcGot (t : Nat) (st : Life := .on) : State :=
  fnAt 9 0 { st := st } { up with red := { inbox := [ptpFrame t] } }

/-- The running device with ring `n` ON for the PF, at `r`. -/
def ringAt (n : Nat) (r : Ring) (s : State := up) : State := (fnAt 5 n { st := .on } s).modRing n fun _ => r
def modRing9 (m : Nat) (s : State := up) : State :=
  ringAt 9 { type := 1, vec := 2047, unsignalled := 3, modTime := m, oldest := t10 - usT 100 } s
/-- A transmit descriptor: length, port and flags. -/
def txDesc (len port flags : Nat) : List Byte :=
  leBytes 8 8192 ++ leBytes 2 len ++ leBytes 2 port ++ leBytes 1 flags ++ List.replicate 19 0
def txRing (ds : List (List Byte)) (s : State := up) : State := ringAt 9 { type := 2, fetched := ds } s
def reader (h : HostIf → HostIf) (s : State := up) : State := { s with host := h s.host }
def inboxOf (f : WholeFrame) (r : Ring) : State := reader (fun h => { h with inbox := [f] }) (ringAt 0 r)

def seg (fid n : Nat) : Seg := { fid := fid, bytes := List.replicate n 0, last := true }
def sqAt (i : Nat) (f : Sq → Sq) (s : State := up) : State := s.modSq i f
def rawCell : RawCell := { segs := [seg 9 64] }
def headCell : RawCell := { segs := [{ seg 9 64 with hdr := some { fid := 9, length := 64 } }], parses := [(9, {})] }
def routedTo (e c : Nat) (held : Bool := false) : SMap Verdict := [(9, { main := some ({ eport := e, cls := c }, { fid := 9 }), held := held })]
/-- An entry of volume 1 and of the learn cache that bridge every frame of VLAN 0 for MAC 0 to port 0. -/
def bridged (s : State := up) : State := bookAt 1 0 (2 ^ 63)
  { s with book := { map := mapped, learn := [(4 * learnSet (l2Key 0 0), { key := l2Key 0 0, port := 0 })] } }
def blitzRec : BlitzRec := { entry := 3, eport := 0, hdr := { fid := 9 } }
def blitzing (s : State) : State :=
  (s.modSq 0 fun q => { q with blitz := [blitzRec] }).modEport 0 fun e => { e with tx := some { fid := 9 } }
/-- Square 0 may blitz: entry 0 sends MAC 0 of VLAN 1 to port 0 in class 0. -/
def blitzOn : State :=
  forced (A.blitzCfg 0) 0xFFFF (forced (A.blitzAct 0 0) 0x80000000 (forced (A.blitzMacHi 0 0) 0x00010000
    { fnAt 10 0 { st := .on } port0Up with tour := { running := true } }))

def slotAt (f : Tour → Tour) (s : State := up) : State := { s with tour := f { s.tour with running := true } }
def live3 (f : Nat → Chn → Chn) (s : State := up) : State :=
  (List.range 3).foldl (fun s c => s.modChn c (f c)) s
def holding (k : Option HoldKind) (n : Nat := 0) (s : State := up) : State := { s with triad := { s.triad with hold := k, failedHolds := n } }
def withTurn (m : Nat) (s : State := booked) : State := { s with book := { s.book with turn := some { epoch := 1, mask := m } } }
def parked (g : Nat) : State := sqAt 5 fun q => { q with ctxOut := [(reseqKey 3 { eport := 80, cls := 2 },
  { gapCount := g, parked := [{ seq := 4, hsq := 3, idx := 1 }] })] }
def claimed (fs : List QFrame) : State := (sqAt 5 fun q => { q with claims := [{ from_ := 3, queue := 1281, cells := 2 }] }).modQueue 1281 fun q => { q with frames := fs }

/-- A complete frame of queue 3 of port 0, whose bytes are in the egress crossing. -/
def qframe : QFrame := { fid := 9, complete := true, bytes := List.replicate 64 0, passed := 1, hdr := { fid := 9, length := 64 } }
def queued (f : QFrame) (s : State := port0Up) : State := s.modQueue 3 fun q => { q with frames := [f] }
def chosen (f : QFrame) (s : State := port0Up) : State := (queued f s).modEport 0 fun e => { e with selected := [9] }
def sending (t : Tx := { fid := 9, cls := 3, hdr := { fid := 9, length := 64 } }) : State :=
  (queued { qframe with started := true }).modEport 0 fun e => { e with tx := some t }
/-- Gate list 1 has one entry and a cycle of 1,000 ns. -/
def gateBook (count cycle off : Nat) (s : State := booked) : State :=
  bookAt 9 48 (BitVec.ofNat 64 off) (bookAt 9 40 (BitVec.ofNat 64 (cycle + 2 ^ 32 * count)) s)
def gateLoad (n : Nat) (s : State) : State := s.modEport 0 fun e => { e with loadGate := some n }
def oneGate : GateList := { num := 1, cycle := 1000, entries := [(65535, 1000)] }

/-- Channel 0 of engine 0 is ON with two contributors, and has descriptor `d`. -/
def redOn (ds : List InDesc) (slots : SMap Slot := []) (w0 : W64 := 0) : State :=
  let s := bookAt 12 (0x40 + 8) 0x100 (bookAt 12 0x40 (1 + 2 ^ 5 * 2 + w0) { up with
    book := { map := [(12, 65536 * 16 + 12)] }
    red := { ver := 1, chans := [(0, { ncontrib := 2, window := 4, blockBytes := 256, inq := ds, slots := slots })] } })
  fnAt 4 0 { st := .on } (fnAt 3 0 { st := .on } s)
/-- The header of a contribution of sender `b` with `len` bytes for block 1 of generation 0. -/
def redHdr (b len : Nat) : List Byte :=
  [0x10, 0, 0, 0] ++ beBytes 4 0 ++ beBytes 4 1 ++ beBytes 2 len ++ [BitVec.ofNat 8 b] ++ List.replicate 17 0
def contrib (b len udp : Nat) : InDesc := { hdr := redHdr b len, payload := List.replicate len 1, udpLen := udp }
def redSlot1 : Slot := { state := 1, len := 4, gen := 0, block := 1, bitmap := 1, acc0 := [5], acc1 := [5] }
def red3 : State := (redOn [contrib 1 4 44] [(1, redSlot1)]).modChan 0 fun x => { x with ncontrib := 3 }
/-- A reduction frame for channel 0, and the same for channel 1. -/
def redFrame (c : Nat) : WholeFrame :=
  { hdr := { fid := 9, red := some 0 }
    bytes := List.replicate 12 0 ++ [0x08, 0x00, 0x45] ++ List.replicate 23 0 ++ beBytes 2 44 ++ [0, 0] ++
      [0x10, 0, 0, BitVec.ofNat 8 c] ++ beBytes 4 0 ++ beBytes 4 1 ++ beBytes 2 4 ++ List.replicate 22 0 }
def redIn (f : WholeFrame) (s : State) : State := { s with red := { s.red with inbox := [f] }, tour := { running := true } }

def redDone (c : Nat) (s : State) : State := ({ s with red := { s.red with inbox := [] } }).count (chanCtr c 0) 1

def sv : StoreVal := { addr := 8, data := 5, be := 255 }
def sv2 : StoreVal := { addr := 8, data := 6, be := 255 }
/-- Channels that have presented stores. -/
def stores (f : Nat → Option StoreVal) (iss : Option StoreVal := none) (s : State := up) : State :=
  live3 (fun c x => { x with presented := f c }) { s with triad := { s.triad with issued := iss, storeWait := true } }
def failed (cs : List Nat) (s : State := up) : State := cs.foldl (fun s c => s.modChn c fun x => { x with failed := true }) s
def inPower (f : Power → Power) (s : State := up) : State := { s with power := f s.power }
def boots (f : Boot → Boot) (s : State := up) : State := { s with boot := f s.boot }
def phaseBytes (tempo : Nat) : List Byte := leBytes 4 0 ++ leBytes 2 tempo ++ leBytes 2 650 ++ leBytes 2 850 ++ List.replicate 6 0
/-- A schedule of one entry, at 0 ns, for phase 0 or another. -/
def schedAt (k : Nat) : State := inPower (fun p => { p with schedOn := true })
  (forced A.powerCfg 0x1364050A (bookAt 11 0x48 (BitVec.ofNat 64 k) (bookAt 11 16 1)))

/-- A message of the boundary clock service for port `p`. -/
def due (p t : Nat) : BcDue := { port := p, msgType := t, state := 9, frame := List.replicate 60 0 }
/-- The PF has MSI-X enabled. -/
def msixOn : State := reader fun h => { h with ctl := [(0, { msixEn := true })] }
/-- Both attachment squares of the host are excluded. -/
def lostHost : State := { learnOn with tour := { running := true, x := 2 ^ 27 + 2 ^ 36, xInForce := 2 ^ 27 + 2 ^ 36 } }
def timeCfgRow : RegRow := (regRow A.timeCfg).getD ⟨0, 0, 0, 0, 0, 0⟩
/-- A MAC control frame. -/
def macFrame (op : Nat) : List Byte :=
  [1, 0x80, 0xC2, 0, 0, 1] ++ List.replicate 6 0 ++ [0x88, 8] ++ beBytes 2 op ++ List.replicate 44 0
/-- Ring 9 has a transmit frame for queue 3 of port 0, which has room. -/
def txState : State := txRing [txDesc 60 0 3] (sqAt 27 (fun q => { q with viewGf := 1048576 }) (fnAt 1 3 { st := .on } port0Up))
def txTaken : State × Option Bool :=
  (txState.portIn 1088 60).freshFid.1.takeIn txState.tour.attHost 5 2 65
    { fid := txState.nextFid, length := 60, iport := 1088, ingressNs := txState.stamp32, cls := 3, inj := true }
    { eport := 0, cls := 3 }

def castleReadied : State := castleIn 1 fun b => { b with castleReady := true }

/-- No channel has input where none that is listed has. -/
theorem quiet (s : State) (h : ∀ e ∈ s.red.chans, e.2.ready = false) (k : Nat) : (s.chan k).ready = false := by
  unfold State.chan
  revert h
  induction s.red.chans with
  | nil => intro _; rfl
  | cons e l ih =>
    intro h
    by_cases hk : k = e.1
    · simp only [SMap.get, if_pos hk]; exact h e (by simp)
    · simp only [SMap.get, if_neg hk]; exact ih fun x hx => h x (by simp [hx])

/-- The record's header with CRC-32C `x`, and its TLVs. -/
def recHead (x : Nat) : List Byte :=
  [0x4D, 0x56, 0x48, 0x4F, 0, 2, 8, 0, 56, 1, 0, 0] ++ leBytes 4 x ++ List.replicate 16 0
def recBody : List Byte := castleReadied.handoverTlvs.flatMap tlvBytes

theorem record_is : castleReadied.handoverRecord [] = recHead (crc32c (recHead 0 ++ recBody)) ++ recBody := by
  have h0 : castleReadied.handoverTlvs ++ [] = castleReadied.handoverTlvs := List.append_nil _
  have h1 : castleReadied.nv.imgField castleReadied.boot.slot 14 2 = 512 := by decide +kernel
  have h2 : recBody.length = 280 := by decide +kernel
  have h3 : castleReadied.handoverTlvs.length = 8 := by decide +kernel
  unfold State.handoverRecord
  dsimp only
  rw [h0, h1, h3, show List.flatMap tlvBytes castleReadied.handoverTlvs = recBody from rfl, h2]
  have hh : ∀ x, leBytes 4 0x4F48564D ++ leBytes 2 512 ++ leBytes 2 8 ++ leBytes 4 (32 + 280) ++ leBytes 4 x ++
      leBytes 4 castleReadied.boot.fwver.toNat ++ leBytes 4 castleReadied.triad.ckptNo ++
      leBytes 8 castleReadied.nowNs = recHead x := by
    intro x
    rw [show castleReadied.boot.fwver.toNat = 0 by decide +kernel, show castleReadied.triad.ckptNo = 0 by decide +kernel,
      show castleReadied.nowNs = 0 by decide +kernel]
    simp [recHead, leBytes, List.replicate]
  simp only [hh]

theorem record_code (x : Nat) (hx : x < 2 ^ 32) (hk : crc32c (recHead 0 ++ recBody) = x) :
    (castleReadied.nv.handoverCode (1 - castleReadied.boot.slot) {} (recHead x ++ recBody)).1 = 0 := by
  have h1 : recBody.length = 280 := by decide +kernel
  have h2 : castleReadied.nv.imgField (1 - castleReadied.boot.slot) 20 1 = 1 ∧
      castleReadied.nv.imgField (1 - castleReadied.boot.slot) 21 1 = 2 := by decide +kernel
  have h3 : (match tlvsOf 8 recBody with
    | none => false
    | some ts => (ts.find? fun t => bit t.1 15 && !({} : Handover).known.contains t.1).isNone) = true := by decide +kernel
  have p : patch (recHead x ++ recBody) 12 [0, 0, 0, 0] = recHead 0 ++ recBody := by
    simp [patch, recHead, leBytes]
  have a : leAt (recHead x ++ recBody) 0 4 = 0x4F48564D ∧ leAt (recHead x ++ recBody) 8 4 = 312 ∧
      leAt (recHead x ++ recBody) 5 1 = 2 ∧ leAt (recHead x ++ recBody) 6 2 = 8 := by
    simp [leAt, slice, leNat, recHead, leBytes]
  have b : leAt (recHead x ++ recBody) 12 4 = x := by
    simp [leAt, slice, leNat, recHead, leBytes]
    omega
  have d : (recHead x ++ recBody).drop 32 = recBody := by simp [recHead, leBytes]
  have l : (recHead x ++ recBody).length = 312 := by simp [recHead, leBytes, h1]
  unfold Nv.handoverCode
  dsimp only
  rw [p, hk, a.1, a.2.1, a.2.2.1, a.2.2.2, b, d, l, h2.1, h2.2]
  simp only [ne_eq, not_true_eq_false, or_self, if_false, show ¬((2 : Nat) < 1 ∨ (2 : Nat) < 2) by decide]
  split at h3
  · exact absurd h3 (by decide)
  · next ts e =>
    have h4 : ts.find? (fun t => bit t.1 15 && !([0x8001, 0x8002, 0x8003, 0x0004, 0x8005, 0x8006, 0x0007, 0x0008] : List Nat).contains t.1) =
        none := Option.isNone_iff_eq_none.mp h3
    first
      | (rw [h4]; rfl)
      | (rw [e]; dsimp only; rw [Option.isNone_iff_eq_none.mp h3]; rfl)

theorem handover_code : (castleReadied.nv.handoverCode (1 - castleReadied.boot.slot) {}
    (handoverRead {} (castleReadied.handoverRecord ({} : Handover).extra))).1 = 0 := by
  have h : ∀ r, handoverRead {} r = r := fun _ => rfl
  have e : ({} : Handover).extra = [] := rfl
  rw [h, e, record_is]
  generalize hk : crc32c (recHead 0 ++ recBody) = x
  exact record_code x (hk ▸ crc32c_lt _) hk

/-! ### Ill-formed commands are refused, one for each check -/

theorem test_wf_refuses_1 :
    ([.learnInsert (cmd 0 0x1000), .learnDelete (cmd 0 0), .learnFlushAll (cmd 0 0x3000),
      .learnFlushPort (cmd 0 0x2000), .bufStateNormal (cmd 2), .bufStateTest (cmd 1), .fomMinRst 64 0 0,
      .fomMinRst 0 16 0, .hwmRst 64 0, .portMapWrite 64 true 0, .squareBroadcastWrite 0x40000 0 15,
      .bar2Write 0x2000000 0, .bar2Write 0 9, .msixUnmask 9 0 none, .msixUnmask 0 2048 none, .msixUnmask 1 16 none,
      .registerWrite 0x4000000 0 15 false, .registerWrite 2 0 15 false, .vfFlr 0, .vfFlr 9,
      .busMasterEnableChange 9 true none, .hostReadError .swap 9 0 0, .hostReadError .swap 0 4096 0,
      .producerReadComplete 4096 0] : List Instr).all (fun i => !i.wf) = true := by decide

theorem test_wf_refuses_2 :
    ([.descriptorFetchComplete 4096 [], .descriptorFetchComplete 0 [[]], .txFrameInject 4096 [.err] none,
      .txFrameInject 0 [] none, .txFrameInject 0 (List.replicate 9 .err) none, .txFrameInject 0 [.err] (some { replica := 8 }),
      .msixModTimeout 4096, .frameReceive 1024 [] false false, .pfcReceive 1024 0 (List.replicate 8 0),
      .pfcReceive 0 0 (List.replicate 7 0), .pfcReceive 0 0 (List.replicate 8 65536), .pfcPauseExpire 1024 0,
      .pfcPauseExpire 0 8, .packHoldExpire 64 0, .packHoldExpire 0 4, .recircParse 64, .cellEnterCore 64 0 none,
      .cellEnterCore 0 5 none, .cellEnterCore 0 0 (some { replica := 8 }), .cellEnterCore 0 0 (some { area := 3 }),
      .cellEnterCore 0 0 (some { area := 2, word := 131072 }), .cellEnterCore 0 0 (some { word := 3145728 }),
      .deferredFrameNumber 64 0 0, .deferredFrameNumber 0 1091 0, .deferredFrameNumber 0 0 16] : List Instr).all
      (fun i => !i.wf) = true := by decide

theorem test_wf_refuses_3 :
    ([.heldFrameRelease 64 0, .heldFrameRelease 0 17456, .pfcRefresh 1024 0, .pfcRefresh 0 8,
      .blitzRecordLookup 64 none, .blitzRecordLookup 0 (some { replica := 8 }), .directReserveExpire 64 0,
      .directReserveExpire 0 16384, .slotRelease 0 0 0 [64] [] [], .slotRelease 0 0 0 [] [(64, 0)] [],
      .slotRelease 0 0 0 [] [(0, 3)] [], .slotRelease 0 0 0 [] [] [(64, 0)], .slotRelease 0 0 0 [] [] [(0, 16384)],
      .slotComplete 64, .tourPeriodBoundary [3], .gapDeclare 64 0 0 0, .gapDeclare 0 64 0 0, .gapDeclare 0 0 1091 0,
      .gapDeclare 0 0 0 16, .accountUpdate 64 none, .accountUpdate 0 (some 17456), .captureClaim 64, .egressSelect 1091,
      .frameTransmitStart 1091, .frameTransmitEnd 1091, .postcardFrameClose 64] : List Instr).all
      (fun i => !i.wf) = true := by decide

theorem test_wf_refuses_4 :
    ([.gclLoadComplete 1024, .gclStart 1024, .gateEntryChange 1024, .qsampPeriod 64, .linkDown 1024 [],
      .linkDown 0 [.energyLow 8 100], .linkDown 0 [.clockOff 8 1000], .linkDown 0 [.markerMiss 8],
      .linkDown 0 [.codewords [{ fix := some 16 }]], .linkHoldExpire 1088, .linkUp 1024, .fomBlock 1024 0 [],
      .fomBlock 0 16777217 [], .fomBlock 0 0 [{ fix := some 16 }], .refclkLoss 16, .refclkReturn 16, .drainComplete 11 0,
      .drainTimeout 11 0, .ageSweepVisit 65536, .fragSweep 64, .bookEccRepair { replica := 8 } none,
      .bookEccRepair {} (some 8), .bookScrub { area := 3 } 0, .bookScrub {} 3, .bufAuditPeriod 64,
      .sqResetDone 64 true] : List Instr).all (fun i => !i.wf) = true := by decide

theorem test_wf_refuses_5 :
    ([.redRoutineRun 4 false, .redSlotTimeout 512 0 false, .redSlotTimeout 0 64 true, .redCstoreError 4 0,
      .redCstoreError 0 2048, .enginePowerUp 4, .timeRefLoss true 16, .timeRefReturn true 16 0, .evtInEdge [(4, true)],
      .evtInEdge [(1, true), (1, false)], .ppsLeadingEdge 2, .ppsWidthEnd 2, .bcMessageReceive 10 6 .none,
      .bcMessageDue ⟨1024, 0, 0, List.replicate 60 0⟩, .bcMessageDue ⟨0, 16, 0, List.replicate 60 0⟩,
      .bcMessageDue ⟨0, 0, 10, List.replicate 60 0⟩, .bcMessageDue ⟨0, 0, 0, List.replicate 59 0⟩, .coreStoreVote 3 0 0 0,
      .checkpoint [3], .selftestInterval 3 0 0, .selftestInterval 0 0 6, .channelRejoinTestDone 3 true,
      .faultQuietExpire 1024, .slowSquareReport 64, .canaryReport 64 0, .governorTrim 64,
      .thermalSensorUpdate []] : List Instr).all (fun i => !i.wf) = true := by decide

theorem test_wf_refuses_6 :
    ([.castleHandover { extra := [(65536, [])] }, .castleHandover { due := [⟨0, 16, 0, List.replicate 60 0⟩] },
      .losClear 1024 0, .lolClear 1024 0 0, .amLock 1024 0 true, .linkTrainingComplete 1024 true, .adaptOk 1024,
      .fecCodewordLock 1024, .faultSequenceClear 1024 true true, .autonegComplete 1024 [],
      .mgmtAutonegComplete 3 true true false [], .summaryReadComplete 9 (List.replicate 64 0), .summaryReadComplete 0 [],
      .swapComplete 9 0 0, .swapComplete 0 64 0, .sriovVfEnable true 9, .porRelease { flash := [(33554432, 0)] },
      .deviceResetRelease { flash := [(33554432, 0)] }, .unsupportedOpcode 0x90 cmd] : List Instr).all
      (fun i => !i.wf) = true := by decide

theorem test_wf_accepts : ([.nop cmd, .learnInsert (cmd 1 0x47FF),
    .linkDown 1023 [.energyLow 7 100, .codewords [{ n := 3, fix := some 15 }], .localFault, .deskewLost], .linkHoldExpire 1089,
    .swapComplete 8 63 0, .bookScrub { replica := 7, area := 2, word := 131071 } 2] : List Instr).all Instr.wf = true := by
  decide

/-! ### Small facts -/

/-- The check value of CRC-32C, the CRC of the nine digits "123456789". -/
theorem test_crc32c : crc32c [0x31, 0x32, 0x33, 0x34, 0x35, 0x36, 0x37, 0x38, 0x39] = 0xE3069283 := by decide +kernel

/-- Three counters that all differ give their median (R257). -/
theorem test_vote_median : votedTick 9 2 5 = 5 := by decide

/-- A count wraps modulo 2^48 and sets WRAP (R375). -/
theorem test_counter_wraps : bumpWord (2 ^ 48 - 1) 1 = 2 ^ 48 := by decide

/-- No word of the opcode table spells a command: its rows give no bits. -/
theorem test_no_word : decodeTableWord 32 0 = none := by decide

/-- A command from the queue's front runs, and the queue keeps the rest. -/
theorem test_step_front : (match step { up with pending := [.regulatorAlert, .epochRetire] } with
    | .next t => t.pending == [.epochRetire] && (t.src 22).st != .idle
    | _ => false) = true := by decide +kernel

/-- A rail out of range stops the device (R415). -/
theorem test_rail_stops : (match step { up with pins := { railBad := true }, pending := [.regulatorAlert] } with
    | .fault .guaranteesVoid => true
    | _ => false) = true := by decide +kernel

/-- The registers that R405 gives values read them after reset: DEV_ID, BUF_CFG, TRIAD_CFG and HOST_CFG. -/
theorem test_reset_registers : State.reset.reg 0x0 = 0x4C101F9D ∧ State.reset.reg A.bufCfg = 0x400A0002 ∧
    State.reset.reg A.triadCfg = 0x1840A ∧ State.reset.reg A.hostCfg = 0x10004 := by decide +kernel
/-! ### Witnesses: for each clause of each statement, a state and operands that meet its hypotheses together -/

/-- Witnesses of `Obligations.StepRunsFrontCommand`. -/
theorem witness_StepRunsFrontCommand :
    (∃ (c : Instr) (rest : List Instr) (s : State), s.pending = c :: rest) := by
  exact ⟨.epochRetire, [], { up with pending := [.epochRetire] }, by decide +kernel⟩

/-- Witnesses of `Obligations.IdleStepIsOneCycle`. -/
theorem witness_IdleStepIsOneCycle :
    (∃ (s : State), s.pending = [] ∧ s.boot.stage = 0) ∧
    (∃ (s : State), s.pending = [] ∧ s.boot.stage = 4) ∧
    (∃ (s : State), s.pending = [] ∧ s.running = true ∧ s.time.freq = 0 ∧ s.time.slew = 0) := by
  refine ⟨?_, ?_, ?_⟩
  · exact ⟨State.reset, by decide +kernel⟩
  · exact ⟨inDevReset, by decide +kernel⟩
  · exact ⟨up, by decide +kernel⟩

/-- Witnesses of `Obligations.EveryStepKeepsInvariant`. -/
theorem witness_EveryStepKeepsInvariant :
    (∃ (s : State) (t : State), Machine.Inv s ∧ step s = Host.Outcome.next t) := by
  exact ⟨State.reset, State.reset, ⟨by constructor <;> decide +kernel, rfl⟩⟩

/-- Witnesses of `Obligations.OnlyRailsStopTheDevice`. -/
theorem witness_OnlyRailsStopTheDevice :
    (∃ (i : Instr) (s : State) (t : State), exec i s = Host.Outcome.next t) := by
  exact ⟨.epochRetire, oldEpoch, ran .epochRetire oldEpoch, ran_next _ _ (by decide +kernel)⟩

/-- Witnesses of `Obligations.ResetAndScanHoldTheDevice`. -/
theorem witness_ResetAndScanHoldTheDevice :
    (∃ (i : Instr) (s : State), s.pins.railBad = false ∧ (s.boot.stage = 0 ∨ s.boot.stage = 4) ∧ i.inReset = false) ∧
    (∃ (i : Instr) (s : State), Up s ∧ s.pins.scan = true ∧ i.atPin = true) := by
  refine ⟨?_, ?_⟩
  · exact ⟨.epochRetire, inDevReset, by decide +kernel⟩
  · exact ⟨.timeNowLoRead, scanned, by decide +kernel⟩

/-- Witnesses of `Obligations.RollbackCounterNeverDecreases`. -/
theorem witness_RollbackCounterNeverDecreases :
    (∃ (i : Instr) (s : State) (t : State), exec i s = Host.Outcome.next t ∧ t.nv.rbc ≠ s.nv.rbc) := by
  exact ⟨.rollbackConfirm cmd true true, fused, ran (.rollbackConfirm cmd true true) fused, ran_next _ _ (by
    decide +kernel), by decide +kernel⟩

/-- Witnesses of `Obligations.WhoWritesFlashAndBook`. -/
theorem witness_WhoWritesFlashAndBook :
    (∃ (i : Instr) (s : State) (t : State), exec i s = Host.Outcome.next t ∧ t.nv.flash ≠ s.nv.flash) ∧
    (∃ (i : Instr) (s : State) (t : State), exec i s = Host.Outcome.next t ∧ (t.book.active ≠ s.book.active ∨
      t.book.standby ≠ s.book.standby)) := by
  refine ⟨?_, ?_⟩
  · exact ⟨.porRelease { flash := [(0, 5)] }, State.reset, ran (.porRelease { flash := [(0, 5)] }) State.reset,
    ran_next _ _ (by decide +kernel), by decide +kernel⟩
  · exact ⟨.bookWrite cmd (.ok (group1 0 0 1 0)), booked, ran (.bookWrite cmd (.ok (group1 0 0 1 0))) booked, ran_next
    _ _ (by decide +kernel), by decide +kernel⟩

/-- Witnesses of `Obligations.CommandAcceptance`. -/
theorem witness_CommandAcceptance :
    (∃ (i : Instr) (op : Nat) (c : Cmd) (s : State), i.ringCmd = some (op, c) ∧ Up s ∧ s.accepts c.ring = false) ∧
    (∃ (i : Instr) (op : Nat) (c : Cmd) (s : State), i.ringCmd = some (op, c) ∧ Up s ∧ s.accepts c.ring = true ∧
      s.boot.recovery = true ∧ recoveryOp op = false) ∧
    (∃ (i : Instr) (op : Nat) (c : Cmd) (s : State), i.ringCmd = some (op, c) ∧ Up s ∧ s.accepts c.ring = true ∧
      s.boot.recovery = false ∧ s.triad.lost = true ∧ needsTriad op = true) ∧
    (∃ (i : Instr) (op : Nat) (c : Cmd) (s : State), i.ringCmd = some (op, c) ∧ Up s ∧ Serves s c.ring ∧
      knownOpcodes.contains op = true ∧ c.rsvd ≠ 0) ∧
    (∃ (c : Cmd) (s : State), Up s ∧ s.accepts c.ring = true ∧ c.rsvd = 0 ∧ c.p0 = 0 ∧ c.p1 = 0 ∧ c.p2 = 0) ∧
    (∃ (op : BitVec 16) (c : Cmd) (s : State), Serves s c.ring ∧ knownOpcodes.contains op.toNat = false) := by
  refine ⟨?_, ?_, ?_, ?_, ?_, ?_⟩
  · exact ⟨.nop cmd, 0x01, cmd, noRing, by decide +kernel⟩
  · exact ⟨.castle cmd, 0x72, cmd, recov, by decide +kernel⟩
  · exact ⟨.castle cmd, 0x72, cmd, lostTriad, by decide +kernel⟩
  · exact ⟨.castle { cmd with rsvd := 1 }, 0x72, { cmd with rsvd := 1 }, up, by decide +kernel⟩
  · exact ⟨cmd, recov, by decide +kernel⟩
  · exact ⟨0x9999, cmd, up, by decide +kernel⟩

/-- Witnesses of `Obligations.DisableByLifecycleState`. -/
theorem witness_DisableByLifecycleState :
    (∃ (c : Cmd) (s : State), Takes s c ∧ fnParamsOk c = true ∧ c.p1 = 0 ∧ cmdCls c ≤ 10 ∧ s.instExists (cmdCls c)
      (cmdInst c) = true ∧ s.instUnreachable (cmdCls c) (cmdInst c) = false ∧ (c.p2.toNat ≤ 10000000 ∨ c.p2.toNat =
      4294967295) ∧ (s.fn (cmdCls c) (cmdInst c)).st = Life.off) ∧
    (∃ (c : Cmd) (s : State), Takes s c ∧ fnParamsOk c = true ∧ c.p1 = 0 ∧ cmdCls c ≤ 10 ∧ s.instExists (cmdCls c)
      (cmdInst c) = true ∧ s.instUnreachable (cmdCls c) (cmdInst c) = false ∧ (c.p2.toNat ≤ 10000000 ∨ c.p2.toNat =
      4294967295) ∧ (s.fn (cmdCls c) (cmdInst c)).st = Life.draining ∧ (s.fn (cmdCls c) (cmdInst c)).own = false) ∧
    (∃ (c : Cmd) (s : State), Takes s c ∧ fnParamsOk c = true ∧ c.p1 = 0 ∧ cmdCls c ≤ 10 ∧ s.instExists (cmdCls c)
      (cmdInst c) = true ∧ s.instUnreachable (cmdCls c) (cmdInst c) = false ∧ (c.p2.toNat ≤ 10000000 ∨ c.p2.toNat =
      4294967295) ∧ (s.fn (cmdCls c) (cmdInst c)).st = Life.draining ∧ (s.fn (cmdCls c) (cmdInst c)).own = true) ∧
    (∃ (c : Cmd) (s : State), Takes s c ∧ fnParamsOk c = true ∧ c.p1 = 0 ∧ cmdCls c ≤ 10 ∧ s.instExists (cmdCls c)
      (cmdInst c) = true ∧ s.instUnreachable (cmdCls c) (cmdInst c) = false ∧ (c.p2.toNat ≤ 10000000 ∨ c.p2.toNat =
      4294967295) ∧ (s.fn (cmdCls c) (cmdInst c)).st = Life.on ∧ 0 < (if c.p2.toNat = 4294967295 then defaultTimeout
      (cmdCls c) else c.p2.toNat)) ∧
    (∃ (c : Cmd) (s : State), Takes s c ∧ fnParamsOk c = true ∧ c.p1 = 0 ∧ 10 < cmdCls c) ∧
    (∃ (c : Cmd) (s : State), Takes s c ∧ fnParamsOk c = true ∧ c.p1 = 0 ∧ 10000000 < c.p2.toNat ∧ c.p2.toNat <
      4294967295) ∧
    (∃ (c : Cmd) (s : State), Takes s c ∧ fnParamsOk c = true ∧ c.p1 = 0 ∧ cmdCls c ≤ 10 ∧ c.p2.toNat ≤ 10000000 ∧
      s.instExists (cmdCls c) (cmdInst c) = false) := by
  refine ⟨?_, ?_, ?_, ?_, ?_, ?_, ?_⟩
  · exact ⟨cmd 0x210001 0 10000000, up, by decide +kernel⟩
  · exact ⟨cmd 1 0 0, fnAt 1 0 { st := .draining, own := false }, by decide +kernel⟩
  · exact ⟨cmd 1 0 10000000, fnAt 1 0 { st := .draining, own := true, deadline := t10 + secT 100 }, by decide +kernel⟩
  · exact ⟨cmd 9 0 1, fnAt 9 0 { st := .on }, by decide +kernel⟩
  · exact ⟨cmd 11, up, by decide +kernel⟩
  · exact ⟨cmd 9 0 10000001, up, by decide +kernel⟩
  · exact ⟨cmd 0x10007, up, by decide +kernel⟩

/-- Witnesses of `Obligations.EnableByLifecycleState`. -/
theorem witness_EnableByLifecycleState :
    (∃ (c : Cmd) (s : State), Takes s c ∧ fnParamsOk c = true ∧ c.p1 = 0 ∧ c.p2 = 0 ∧ cmdCls c ≤ 10 ∧ s.instExists
      (cmdCls c) (cmdInst c) = true ∧ s.instUnreachable (cmdCls c) (cmdInst c) = false ∧ (s.fn (cmdCls c) (cmdInst
      c)).st = Life.on) ∧
    (∃ (c : Cmd) (s : State), Takes s c ∧ fnParamsOk c = true ∧ c.p1 = 0 ∧ c.p2 = 0 ∧ cmdCls c ≤ 10 ∧ s.instExists
      (cmdCls c) (cmdInst c) = true ∧ s.instUnreachable (cmdCls c) (cmdInst c) = false ∧ (s.fn (cmdCls c) (cmdInst
      c)).st = Life.draining) ∧
    (∃ (c : Cmd) (s : State), Takes s c ∧ fnParamsOk c = true ∧ c.p1 = 0 ∧ c.p2 = 0 ∧ cmdCls c ≤ 10 ∧ s.instExists
      (cmdCls c) (cmdInst c) = true ∧ s.instUnreachable (cmdCls c) (cmdInst c) = false ∧ (s.fn (cmdCls c) (cmdInst
      c)).st = Life.off ∧ (cmdCls c = 1 ∨ cmdCls c = 7 ∨ cmdCls c = 8 ∨ cmdCls c = 10 ∨ cmdCls c = 4 ∧ (s.engine
      (cmdInst c)).powered = true)) ∧
    (∃ (c : Cmd) (s : State), Takes s c ∧ fnParamsOk c = true ∧ c.p1 = 0 ∧ c.p2 = 0 ∧ cmdCls c ≤ 10 ∧ s.instExists
      (cmdCls c) (cmdInst c) = true ∧ s.instUnreachable (cmdCls c) (cmdInst c) = false ∧ (s.fn (cmdCls c) (cmdInst
      c)).st = Life.off ∧ cmdCls c = 4 ∧ (s.engine (cmdInst c)).powered = false) ∧
    (∃ (c : Cmd) (b : Option BcCfg) (s : State), Takes s c ∧ fnParamsOk c = true ∧ c.p1 = 0 ∧ c.p2 = 0 ∧ cmdCls c ≤ 10
      ∧ s.instExists (cmdCls c) (cmdInst c) = true ∧ s.instUnreachable (cmdCls c) (cmdInst c) = false ∧ (s.fn (cmdCls
      c) (cmdInst c)).st = Life.off ∧ cmdCls c = 9 ∧ s.bcCfgOk (b.getD s.time.bcCfg) = true) ∧
    (∃ (c : Cmd) (b : Option BcCfg) (s : State), Takes s c ∧ fnParamsOk c = true ∧ c.p1 = 0 ∧ c.p2 = 0 ∧ cmdCls c ≤ 10
      ∧ s.instExists (cmdCls c) (cmdInst c) = true ∧ s.instUnreachable (cmdCls c) (cmdInst c) = false ∧ (s.fn (cmdCls
      c) (cmdInst c)).st = Life.off ∧ cmdCls c = 9 ∧ s.bcCfgOk (b.getD s.time.bcCfg) = false) ∧
    (∃ (c : Cmd) (s : State), Takes s c ∧ fnParamsOk c = true ∧ c.p1 = 0 ∧ c.p2 = 0 ∧ cmdCls c ≤ 10 ∧ s.instExists
      (cmdCls c) (cmdInst c) = true ∧ s.instUnreachable (cmdCls c) (cmdInst c) = false ∧ (s.fn (cmdCls c) (cmdInst
      c)).st = Life.off ∧ cmdCls c = 2) ∧
    (∃ (c : Cmd) (s : State), Takes s c ∧ fnParamsOk c = true ∧ c.p1 = 0 ∧ c.p2 = 0 ∧ cmdCls c ≤ 10 ∧ s.instExists
      (cmdCls c) (cmdInst c) = true ∧ s.instUnreachable (cmdCls c) (cmdInst c) = false ∧ (s.fn (cmdCls c) (cmdInst
      c)).st = Life.off ∧ cmdCls c = 0 ∧ cmdInst c < 1024 ∧ s.boot.parseVer ≠ 0 ∧ s.reserveOk (cmdInst c) = true) ∧
    (∃ (c : Cmd) (s : State), Takes s c ∧ fnParamsOk c = true ∧ c.p1 = 0 ∧ c.p2 = 0 ∧ cmdCls c ≤ 10 ∧ s.instExists
      (cmdCls c) (cmdInst c) = true ∧ s.instUnreachable (cmdCls c) (cmdInst c) = false ∧ (s.fn (cmdCls c) (cmdInst
      c)).st = Life.off ∧ cmdCls c = 0 ∧ cmdInst c < 1024 ∧ s.boot.parseVer ≠ 0 ∧ s.reserveOk (cmdInst c) = false) ∧
    (∃ (c : Cmd) (s : State), Takes s c ∧ fnParamsOk c = true ∧ c.p1 = 0 ∧ c.p2 = 0 ∧ cmdCls c ≤ 10 ∧ s.instExists
      (cmdCls c) (cmdInst c) = true ∧ s.instUnreachable (cmdCls c) (cmdInst c) = false ∧ (s.fn (cmdCls c) (cmdInst
      c)).st = Life.off ∧ cmdCls c = 0 ∧ cmdInst c = 1089) ∧
    (∃ (c : Cmd) (s : State), Takes s c ∧ fnParamsOk c = true ∧ c.p1 = 0 ∧ c.p2 = 0 ∧ cmdCls c ≤ 10 ∧ s.instExists
      (cmdCls c) (cmdInst c) = true ∧ s.instUnreachable (cmdCls c) (cmdInst c) = false ∧ (s.fn (cmdCls c) (cmdInst
      c)).st = Life.off ∧ cmdCls c = 3 ∧ (s.enableChan (cmdInst c)).2 = stOk) ∧
    (∃ (c : Cmd) (s : State), Takes s c ∧ fnParamsOk c = true ∧ c.p1 = 0 ∧ c.p2 = 0 ∧ cmdCls c ≤ 10 ∧ s.instExists
      (cmdCls c) (cmdInst c) = true ∧ s.instUnreachable (cmdCls c) (cmdInst c) = false ∧ (s.fn (cmdCls c) (cmdInst
      c)).st = Life.off ∧ cmdCls c = 6) ∧
    (∃ (c : Cmd) (s : State), Takes s c ∧ fnParamsOk c = true ∧ c.p1 = 0 ∧ c.p2 = 0 ∧ cmdCls c ≤ 10 ∧ s.instExists
      (cmdCls c) (cmdInst c) = true ∧ s.instUnreachable (cmdCls c) (cmdInst c) = false ∧ (s.fn (cmdCls c) (cmdInst
      c)).st = Life.off ∧ cmdCls c = 5) ∧
    (∃ (c : Cmd) (s : State) (bs : List Byte), Takes s c ∧ fnParamsOk c = true ∧ c.p1 = 0 ∧ c.p2 = 0 ∧ cmdCls c ≤ 10 ∧
      s.instExists (cmdCls c) (cmdInst c) = true ∧ s.instUnreachable (cmdCls c) (cmdInst c) = false ∧ (s.fn (cmdCls c)
      (cmdInst c)).st = Life.off ∧ cmdCls c = 5 ∧ s.ctxValid bs = true) ∧
    (∃ (c : Cmd) (s : State) (bs : List Byte), Takes s c ∧ fnParamsOk c = true ∧ c.p1 = 0 ∧ c.p2 = 0 ∧ cmdCls c ≤ 10 ∧
      s.instExists (cmdCls c) (cmdInst c) = true ∧ s.instUnreachable (cmdCls c) (cmdInst c) = false ∧ (s.fn (cmdCls c)
      (cmdInst c)).st = Life.off ∧ cmdCls c = 5 ∧ s.ctxValid bs = false) := by
  refine ⟨?_, ?_, ?_, ?_, ?_, ?_, ?_, ?_, ?_, ?_, ?_, ?_, ?_, ?_, ?_⟩
  · exact ⟨cmd 9, fnAt 9 0 { st := .on }, by decide +kernel⟩
  · exact ⟨cmd 9, fnAt 9 0 { st := .draining }, by decide +kernel⟩
  · exact ⟨cmd 1, up, by decide +kernel⟩
  · exact ⟨cmd 4, up.modEngine 0 fun x => { x with powered := false }, by decide +kernel⟩
  · exact ⟨cmd 9, none, up, by decide +kernel⟩
  · exact ⟨cmd 9, some { domain := 128 }, up, by decide +kernel⟩
  · exact ⟨cmd 0x3F0002, fnAt 1 (16 * 1087 + 3) { st := .draining }, by decide +kernel⟩
  · exact ⟨cmd 0x3FF0000, roomy, by decide +kernel⟩
  · exact ⟨cmd 0x3FF0000, forced (A.bufQuotaOwn 63) 0, by decide +kernel⟩
  · exact ⟨cmd 0x4410000, up, by decide +kernel⟩
  · exact ⟨cmd 0x1FF0003, chanReady, by decide +kernel⟩
  · exact ⟨cmd 0x80006, vfs, by decide +kernel⟩
  · exact ⟨cmd 0x50005, up, by decide +kernel⟩
  · exact ⟨cmd 0xFFF0005, up, ctxBytes 4 65535 0, by decide +kernel⟩
  · exact ⟨cmd 0x50005, up, ctxBytes 1 2048 64, by decide +kernel⟩

/-- Witnesses of `Obligations.DrainEnds`. -/
theorem witness_DrainEnds :
    (∃ (cls : Nat) (inst : Nat) (s : State), Up s ∧ s.isDraining cls inst = true ∧ (s.fn cls inst).own = true ∧
      s.hasWork cls inst = false ∧ (s.fn cls inst).deadline ≤ s.elapsed) ∧
    (∃ (cls : Nat) (inst : Nat) (s : State), Up s ∧ (s.isDraining cls inst = false ∨ s.hasWork cls inst = true)) ∧
    (∃ (s : State), Up s ∧ s.isDraining 9 0 = true ∧ (s.fn 9 0).own = true ∧ (s.fn 9 0).deadline ≤ s.elapsed) ∧
    (∃ (cls : Nat) (inst : Nat) (s : State), Up s ∧ (s.isDraining cls inst = false ∨ s.elapsed < (s.fn cls
      inst).deadline)) := by
  refine ⟨?_, ?_, ?_, ?_⟩
  · exact ⟨1, 17439, fnAt 1 17439 { st := .draining, discarded := 2 }, by decide +kernel⟩
  · exact ⟨1, 5, up, by decide +kernel⟩
  · exact ⟨fnAt 9 0 { st := .draining, deadline := t10 }
    { up with time := { up.time with bcTxDue := [due 1 2], bcPorts := [(1, 9)] } }, by decide +kernel⟩
  · exact ⟨1, 5, up, by decide +kernel⟩

/-- Witnesses of `Obligations.BookCommands`. -/
theorem witness_BookCommands :
    (∃ (c : Cmd) (bs : List Byte) (s : State), Takes s c ∧ c.p1 = 0 ∧ c.p2 = 0 ∧ (s.writeGroup bs).2 ≠ stOk) ∧
    (∃ (c : Cmd) (bs : List Byte) (s : State), Takes s c ∧ c.p1 = 0 ∧ c.p2 = 0 ∧ (leAt bs 2 1 = 0 ∨ 32 < leAt bs 2 1 ∨
      1 < leAt bs 1 1)) ∧
    (∃ (c : Cmd) (bs : List Byte) (s : State), Takes s c ∧ c.p1 = 0 ∧ c.p2 = 0 ∧ (s.writeGroup bs).2 = stOk ∧ leAt bs
      1 1 = 1) ∧
    (∃ (c : Cmd) (bs : List Byte) (s : State), Takes s c ∧ c.p1 = 0 ∧ c.p2 = 0 ∧ (s.writeGroup bs).2 = stOk ∧ leAt bs
      1 1 = 0) ∧
    (∃ (c : Cmd) (s : State), Takes s c ∧ BitVec.toNat c.p0 < 65536 ∧ c.p2 = 0 ∧ (s.book.turn.isSome = true ∨
      s.book.old.isSome = true)) ∧
    (∃ (c : Cmd) (s : State), Takes s c ∧ BitVec.toNat c.p0 < 65536 ∧ c.p2 = 0 ∧ s.book.turn = none ∧ s.book.old =
      none ∧ s.book.turnValid (BitVec.toNat c.p0) = false) ∧
    (∃ (c : Cmd) (s : State), Takes s c ∧ BitVec.toNat c.p0 < 65536 ∧ c.p2 = 0 ∧ s.book.turn = none ∧ s.book.old =
      none ∧ s.book.turnValid (BitVec.toNat c.p0) = true ∧ (s.tour.running = true ∨ bit (BitVec.toNat c.p0) 10 = true
      ∨ BitVec.toNat c.p1 ≠ 0 ∧ s.nowNs < BitVec.toNat c.p1)) ∧
    (∃ (c : Cmd) (s : State), Takes s c ∧ BitVec.toNat c.p0 < 65536 ∧ c.p2 = 0 ∧ s.book.turn = none ∧ s.book.old =
      none ∧ s.book.turnValid (BitVec.toNat c.p0) = true ∧ s.tour.running = false ∧ bit (BitVec.toNat c.p0) 10 = false
      ∧ c.p1 = 0) ∧
    (∃ (c : Cmd) (s : State), Takes s c ∧ c.p1 = 0 ∧ (s.book.turn.isSome = true ∨ s.book.old.isSome = true)) ∧
    (∃ (c : Cmd) (bs : List Byte) (s : State), Takes s c ∧ c.p1 = 0 ∧ (s.loadImage bs c.p2.toNat).2 = stOk) ∧
    (∃ (c : Cmd) (bs : List Byte) (s : State), Takes s c ∧ c.p1 = 0 ∧ (s.loadImage bs c.p2.toNat).2 = stInvalid) := by
  refine ⟨?_, ?_, ?_, ?_, ?_, ?_, ?_, ?_, ?_, ?_, ?_⟩
  · exact ⟨cmd, [], up, by decide +kernel⟩
  · exact ⟨cmd, group1 0 0 0 0, booked, by decide +kernel⟩
  · exact ⟨cmd, group1 12 1 1 4088, booked, by decide +kernel⟩
  · exact ⟨cmd, group1 9 0 1 0, booked, by decide +kernel⟩
  · exact ⟨cmd 1, turning, by decide +kernel⟩
  · exact ⟨cmd 65535, loaded 1, by decide +kernel⟩
  · exact ⟨cmd 1 1, loaded 1, by decide +kernel⟩
  · exact ⟨cmd 0x301 0, loaded 0x301, by decide +kernel⟩
  · exact ⟨cmd, turning, by decide +kernel⟩
  · exact ⟨cmd 0 0 88, image, booked, by decide +kernel⟩
  · exact ⟨cmd, image, booked, by decide +kernel⟩

/-- Witnesses of `Obligations.LearnEngineAndCommands`. -/
theorem witness_LearnEngineAndCommands :
    (∃ (op : Nat) (i : Cmd → Instr) (c : Cmd) (s : State), (op, i) ∈ [(0, Instr.learnInsert), (1, Instr.learnDelete),
      (2, Instr.learnFlushAll), (3, Instr.learnFlushPort)] ∧ Takes s c ∧ BitVec.toNat c.p1 < 32768 ∧ bits
      (BitVec.toNat c.p1) 11 11 = 0 ∧ c.p2 = 0 ∧ (op = 0 ∨ op = 3) ∧ s.portExists (bits (BitVec.toNat c.p1) 10 0) =
      false) ∧
    (∃ (op : Nat) (i : Cmd → Instr) (c : Cmd) (s : State), (op, i) ∈ [(0, Instr.learnInsert), (1, Instr.learnDelete),
      (2, Instr.learnFlushAll), (3, Instr.learnFlushPort)] ∧ Takes s c ∧ BitVec.toNat c.p1 < 32768 ∧ bits
      (BitVec.toNat c.p1) 11 11 = 0 ∧ c.p2 = 0 ∧ (op = 0 ∨ op = 3) ∧ s.portExists (bits (BitVec.toNat c.p1) 10 0) =
      true ∧ s.portUnreachable (bits (BitVec.toNat c.p1) 10 0) = true) ∧
    (∃ (op : Nat) (i : Cmd → Instr) (c : Cmd) (s : State), (op, i) ∈ [(0, Instr.learnInsert), (1, Instr.learnDelete),
      (2, Instr.learnFlushAll), (3, Instr.learnFlushPort)] ∧ Takes s c ∧ BitVec.toNat c.p1 < 32768 ∧ bits
      (BitVec.toNat c.p1) 11 11 = 0 ∧ c.p2 = 0 ∧ (op = 1 ∨ op = 2 ∨ s.portExists (bits (BitVec.toNat c.p1) 10 0) =
      true ∧ s.portUnreachable (bits (BitVec.toNat c.p1) 10 0) = false) ∧ op ≤ 1 ∧ BitVec.toNat c.p0 % 16 ≠ 1) ∧
    (∃ (op : Nat) (i : Cmd → Instr) (c : Cmd) (s : State), (op, i) ∈ [(0, Instr.learnInsert), (1, Instr.learnDelete),
      (2, Instr.learnFlushAll), (3, Instr.learnFlushPort)] ∧ Takes s c ∧ BitVec.toNat c.p1 < 32768 ∧ bits
      (BitVec.toNat c.p1) 11 11 = 0 ∧ c.p2 = 0 ∧ (op = 1 ∨ op = 2 ∨ s.portExists (bits (BitVec.toNat c.p1) 10 0) =
      true ∧ s.portUnreachable (bits (BitVec.toNat c.p1) 10 0) = false) ∧ (2 ≤ op ∨ BitVec.toNat c.p0 % 16 = 1) ∧
      s.isOn 7 0 = false) ∧
    (∃ (op : Nat) (i : Cmd → Instr) (c : Cmd) (s : State), (op, i) ∈ [(0, Instr.learnInsert), (1, Instr.learnDelete),
      (2, Instr.learnFlushAll), (3, Instr.learnFlushPort)] ∧ Takes s c ∧ BitVec.toNat c.p1 < 32768 ∧ bits
      (BitVec.toNat c.p1) 11 11 = 0 ∧ c.p2 = 0 ∧ (op = 1 ∨ op = 2 ∨ s.portExists (bits (BitVec.toNat c.p1) 10 0) =
      true ∧ s.portUnreachable (bits (BitVec.toNat c.p1) 10 0) = false) ∧ (2 ≤ op ∨ BitVec.toNat c.p0 % 16 = 1) ∧
      s.isOn 7 0 = true) ∧
    (∃ (s : State), Up s ∧ (s.isOff 7 0 = true ∨ s.learnNext = none)) ∧
    (∃ (s : State) (c : LearnCmd) (cs : List LearnCmd), Up s ∧ s.isOff 7 0 = false ∧ s.learnNext = some 64 ∧
      s.book.learnCmds = c :: cs) ∧
    (∃ (s : State) (k : Nat) (ev : LearnEv) (evs : List LearnEv), Up s ∧ s.isOff 7 0 = false ∧ s.learnNext = some k ∧
      k ≠ 64 ∧ (s.sq k).learnQ = ev :: evs) ∧
    (∃ (s : State) (n : Nat), Up s ∧ (s.isOn 7 0 = false ∨ s.sweepDue n = false)) ∧
    (∃ (s : State) (n : Nat), Up s ∧ s.isOn 7 0 = true ∧ s.sweepDue n = true ∧ tget s.book.learn n = none) ∧
    (∃ (s : State) (n : Nat) (x : LearnEnt), Up s ∧ s.isOn 7 0 = true ∧ s.sweepDue n = true ∧ tget s.book.learn n =
      some x ∧ (x.static = true ∨ s.agePeriod = 0)) ∧
    (∃ (s : State) (n : Nat) (x : LearnEnt), Up s ∧ s.isOn 7 0 = true ∧ s.sweepDue n = true ∧ tget s.book.learn n =
      some x ∧ x.static = false ∧ s.agePeriod ≠ 0 ∧ x.hit ≠ 0) ∧
    (∃ (s : State) (n : Nat) (x : LearnEnt), Up s ∧ s.isOn 7 0 = true ∧ s.sweepDue n = true ∧ tget s.book.learn n =
      some x ∧ x.static = false ∧ s.agePeriod ≠ 0 ∧ x.hit = 0 ∧ x.idle = false) ∧
    (∃ (s : State) (n : Nat) (x : LearnEnt), Up s ∧ s.isOn 7 0 = true ∧ s.sweepDue n = true ∧ tget s.book.learn n =
      some x ∧ x.static = false ∧ s.agePeriod ≠ 0 ∧ x.hit = 0 ∧ x.idle = true) ∧
    (∃ (key : W64) (s : State) (w : Nat), w < 4 ∧ s.learnFind key = none ∧ thas s.book.learn (4 * learnSet key + w) =
      false ∧ (∀ v < w, thas s.book.learn (4 * learnSet key + v) = true)) ∧
    (∃ (key : W64) (s : State), s.learnFind key = none ∧ (∀ w < 4, thas s.book.learn (4 * learnSet key + w) = true)) ∧
    (∃ (key : W64) (port : Nat) (s : State) (n : Nat) (x : LearnEnt), s.learnFind key = some (n, x) ∧ x.port = port) ∧
    (∃ (key : W64) (port : Nat) (s : State) (n : Nat) (x : LearnEnt), s.learnFind key = some (n, x) ∧ x.port ≠ port ∧
      x.static = true) ∧
    (∃ (key : W64) (port : Nat) (s : State) (n : Nat) (x : LearnEnt), s.learnFind key = some (n, x) ∧ x.port ≠ port ∧
      x.static = false ∧ s.inHold x = true) ∧
    (∃ (key : W64) (port : Nat) (s : State) (n : Nat) (x : LearnEnt), s.learnFind key = some (n, x) ∧ x.port ≠ port ∧
      x.static = false ∧ s.inHold x = false) ∧
    (∃ (s : State) (c : LearnCmd), c.op = 1) ∧
    (∃ (s : State) (c : LearnCmd), c.op = 2) ∧
    (∃ (s : State) (c : LearnCmd), c.op = 3) := by
  refine ⟨?_, ?_, ?_, ?_, ?_, ?_, ?_, ?_, ?_, ?_, ?_, ?_, ?_, ?_, ?_, ?_, ?_, ?_, ?_, ?_, ?_, ?_, ?_⟩
  · exact ⟨0, .learnInsert, cmd 1 1091, learnOn, by and_intros <;> first | decide +kernel | simp⟩
  · exact ⟨0, .learnInsert, cmd 1 1088, lostHost, by and_intros <;> first | decide +kernel | simp⟩
  · exact ⟨1, .learnDelete, cmd 2, learnOn, by and_intros <;> first | decide +kernel | simp⟩
  · exact ⟨0, .learnInsert, cmd 1 (0x4000 + 1090), up, by and_intros <;> first | decide +kernel | simp⟩
  · exact ⟨0, .learnInsert, cmd 1 (0x4000 + 1090), learnOn, by and_intros <;> first | decide +kernel | simp⟩
  · exact ⟨up, by decide +kernel⟩
  · exact ⟨learnCmds, lcmd, [], by decide +kernel⟩
  · exact ⟨learning [] [{ key := lkey, port := 3 }], 2, { key := lkey, port := 3 }, [], by decide +kernel⟩
  · exact ⟨up, 65535, by decide +kernel⟩
  · exact ⟨learnOn, 5, by decide +kernel⟩
  · exact ⟨learning [(5, { static := true, hit := 3, idle := true })] [], 5,
    { static := true, hit := 3, idle := true }, by decide +kernel⟩
  · exact ⟨learning [(5, { hit := 1, moved := true, moveT := t10 })] [], 5, { hit := 1, moved := true, moveT := t10 },
    by decide +kernel⟩
  · exact ⟨learning [(5, { port := 2 })] [], 5, { port := 2 }, by decide +kernel⟩
  · exact ⟨learning [(5, { idle := true }), (6, {})] [], 5, { idle := true }, by decide +kernel⟩
  · exact ⟨lkey, learning [(lset, { key := 1 }), (lset + 1, { key := 2 }), (lset + 2, { key := 3 })] [], 3, by
    decide +kernel⟩
  · exact ⟨lkey, learning [(lset, { key := 1 }), (lset + 1, { key := 2 }), (lset + 2, { key := 3 }), (lset + 3,
    { key := 4 })] [], by decide +kernel⟩
  · exact ⟨lkey, 3, learning [(lset, { key := lkey, port := 3 })] [], lset, { key := lkey, port := 3 }, by
    decide +kernel⟩
  · exact ⟨lkey, 3, learning [(lset, { key := lkey, port := 4, static := true })] [], lset,
    { key := lkey, port := 4, static := true }, by decide +kernel⟩
  · exact ⟨lkey, 3, learning [(lset, { key := lkey, port := 4, moved := true, moveT := 10000000 })] [], lset,
    { key := lkey, port := 4, moved := true, moveT := 10000000 }, by decide +kernel⟩
  · exact ⟨lkey, 3, learning [(lset, { key := lkey, port := 4 })] [], lset, { key := lkey, port := 4 }, by
    decide +kernel⟩
  · exact ⟨up, lcmd, by decide +kernel⟩
  · exact ⟨up, { lcmd with op := 2 }, by decide +kernel⟩
  · exact ⟨up, { lcmd with op := 3 }, by decide +kernel⟩

/-- Witnesses of `Obligations.BookEcc`. -/
theorem witness_BookEcc :
    (∃ (h : EccHit) (s : State) (j : Nat), Up s ∧ s.wordBad h h.replica = true ∧ s.repairSource h = some j ∧ h.area ≠
      2) ∧
    (∃ (h : EccHit) (s : State) (j : Nat), Up s ∧ s.wordBad h h.replica = true ∧ s.repairSource h = some j ∧ h.area =
      2) ∧
    (∃ (h : EccHit) (s : State), Up s ∧ s.wordBad h h.replica = true ∧ s.repairSource h = none) ∧
    (∃ (h : EccHit) (s : State) (x : Option Nat), Up s ∧ (s.wordBad h h.replica = false ∨ s.repairSource h ≠ x)) ∧
    (∃ (s : State) (n : Nat), Up s ∧ 2 ≤ n) := by
  refine ⟨?_, ?_, ?_, ?_, ?_⟩
  · exact ⟨{ replica := 7, word := 9 }, bad { replica := 7, word := 9 } [7], 6, by decide +kernel⟩
  · exact ⟨{ area := 2, word := 9 }, bad { area := 2, word := 9 } [0], 1, by decide +kernel⟩
  · exact ⟨{}, bad {} [0,1,2,3,4,5,6,7], by decide +kernel⟩
  · exact ⟨{}, up, some 1, by decide +kernel⟩
  · exact ⟨up, 2, by decide +kernel⟩

/-- Witnesses of `Obligations.ServiceOwnsTime`. -/
theorem witness_ServiceOwnsTime :
    (∃ (s : State), Up s) ∧
    (∃ (c : Cmd) (s : State), Takes s c ∧ s.bcOwns = true ∧ c.p1 = 0 ∧ c.p2.toNat < 65536) ∧
    (∃ (c : Cmd) (s : State), Takes s c ∧ s.bcOwns = true ∧ c.p0 = 0 ∧ c.p1 = 0) ∧
    (∃ (c : Cmd) (s : State), Takes s c ∧ s.bcOwns = true ∧ c.p1 = 0 ∧ c.p2 = 0) ∧
    (∃ (st : Nat) (cl : Nat) (x : Steer) (s : State) (t : State), exec (Instr.bcMessageReceive st cl x) s =
      Host.Outcome.next t ∧ t.bcOwns = false) ∧
    (∃ (m : BcDue) (s : State) (t : State), exec (Instr.bcMessageDue m) s = Host.Outcome.next t) := by
  refine ⟨?_, ?_, ?_, ?_, ?_, ?_⟩
  · exact ⟨owned, by decide +kernel⟩
  · exact ⟨cmd 5 0 65535, owned, by decide +kernel⟩
  · exact ⟨cmd 0 0 5, owned, by decide +kernel⟩
  · exact ⟨cmd 5, owned, by decide +kernel⟩
  · exact ⟨6, 6, .none, bcGot 0, ran (.bcMessageReceive 6 6 .none) (bcGot 0), ran_next _ _ (by decide +kernel), by
    decide +kernel⟩
  · exact ⟨due 3 0, up, ran (.bcMessageDue (due 3 0)) up, ran_next _ _ (by decide +kernel)⟩

/-- Witnesses of `Obligations.TimeCommands`. -/
theorem witness_TimeCommands :
    (∃ (c : Cmd) (s : State), Takes s c ∧ s.bcOwns = false ∧ c.p1 = 0 ∧ c.p2.toNat < 65536 ∧ 0 ≤ ↑s.now + BitVec.toInt
      c.p0 * 2 ^ 40 + ↑c.p2.toNat * 2 ^ 24 ∧ ↑s.now + BitVec.toInt c.p0 * 2 ^ 40 + ↑c.p2.toNat * 2 ^ 24 < 2 ^ 104) ∧
    (∃ (c : Cmd) (s : State), Takes s c ∧ s.bcOwns = false ∧ c.p1 = 0 ∧ c.p2.toNat < 65536 ∧ (↑s.now + BitVec.toInt
      c.p0 * 2 ^ 40 + ↑c.p2.toNat * 2 ^ 24 < 0 ∨ 2 ^ 104 ≤ ↑s.now + BitVec.toInt c.p0 * 2 ^ 40 + ↑c.p2.toNat * 2 ^
      24)) ∧
    (∃ (c : Cmd) (s : State), Takes s c ∧ s.bcOwns = false ∧ c.p0 = 0 ∧ c.p1 = 0 ∧ -128000000 ≤ c.p2.toInt ∧
      c.p2.toInt ≤ 128000000) ∧
    (∃ (c : Cmd) (s : State), Takes s c ∧ s.bcOwns = false ∧ c.p0 = 0 ∧ c.p1 = 0 ∧ (c.p2.toInt < -128000000 ∨
      128000000 < c.p2.toInt)) ∧
    (∃ (c : Cmd) (s : State), Takes s c ∧ s.bcOwns = false ∧ c.p1 = 0 ∧ c.p2 = 0 ∧ 0 ≤ ↑s.now + BitVec.toInt c.p0 * 2
      ^ 40 ∧ ↑s.now + BitVec.toInt c.p0 * 2 ^ 40 < 2 ^ 104) ∧
    (∃ (c : Cmd) (s : State), Takes s c ∧ s.bcOwns = false ∧ c.p1 = 0 ∧ c.p2 = 0 ∧ (↑s.now + BitVec.toInt c.p0 * 2 ^
      40 < 0 ∨ 2 ^ 104 ≤ ↑s.now + BitVec.toInt c.p0 * 2 ^ 40)) := by
  refine ⟨?_, ?_, ?_, ?_, ?_, ?_⟩
  · exact ⟨cmd (-1) 0 65535, atNow (2 ^ 104 - 1), by decide +kernel⟩
  · exact ⟨cmd (-1) 0 0, up, by decide +kernel⟩
  · exact ⟨cmd 0 0 128000000, up, by decide +kernel⟩
  · exact ⟨cmd 0 0 128000001, up, by decide +kernel⟩
  · exact ⟨cmd (-1), atNow tickNs, by decide +kernel⟩
  · exact ⟨cmd (-1), up, by decide +kernel⟩

/-- Witnesses of `Obligations.TimeEvents`. -/
theorem witness_TimeEvents :
    (∃ (s : State) (o0 : Int) (o1 : Int) (o2 : Int), Up s ∧ (upset s.time.c0 o0) / 2 ^ 24 = (upset s.time.c1 o1) / 2 ^
      24 ∧ (upset s.time.c1 o1) / 2 ^ 24 = (upset s.time.c2 o2) / 2 ^ 24) ∧
    (∃ (s : State) (o0 : Int) (o1 : Int) (o2 : Int), Up s ∧ (upset s.time.c0 o0) / 2 ^ 24 = (upset s.time.c1 o1) / 2 ^
      24 ∧ (upset s.time.c1 o1) / 2 ^ 24 ≠ (upset s.time.c2 o2) / 2 ^ 24) ∧
    (∃ (s : State) (o0 : Int) (o1 : Int) (o2 : Int), Up s ∧ (upset s.time.c0 o0) / 2 ^ 24 = (upset s.time.c2 o2) / 2 ^
      24 ∧ (upset s.time.c1 o1) / 2 ^ 24 ≠ (upset s.time.c2 o2) / 2 ^ 24) ∧
    (∃ (s : State) (o0 : Int) (o1 : Int) (o2 : Int), Up s ∧ (upset s.time.c1 o1) / 2 ^ 24 = (upset s.time.c2 o2) / 2 ^
      24 ∧ (upset s.time.c0 o0) / 2 ^ 24 ≠ (upset s.time.c1 o1) / 2 ^ 24) ∧
    (∃ (s : State) (o0 : Int) (o1 : Int) (o2 : Int), Up s ∧ (upset s.time.c0 o0) / 2 ^ 24 ≠ (upset s.time.c1 o1) / 2 ^
      24 ∧ (upset s.time.c1 o1) / 2 ^ 24 ≠ (upset s.time.c2 o2) / 2 ^ 24 ∧ (upset s.time.c0 o0) / 2 ^ 24 ≠ (upset
      s.time.c2 o2) / 2 ^ 24) ∧
    (∃ (s : State), Up s ∧ s.time.slew = 0) ∧
    (∃ (s : State), Up s ∧ s.time.slew ≠ 0) ∧
    (∃ (s : State) (k : Nat), Up s ∧ s.pins.scan = false ∧ k < 16) ∧
    (∃ (k : Nat) (b : Bool) (s : State), s.edgeOn k b = false) ∧
    (∃ (k : Nat) (b : Bool) (s : State), s.edgeOn k b = true ∧ s.isOn 5 (fld (s.reg A.timeEvtCfg) 27 16) = false) ∧
    (∃ (k : Nat) (b : Bool) (s : State), s.edgeOn k b = true ∧ s.isOn 5 (fld (s.reg A.timeEvtCfg) 27 16) = true ∧ 64 ≤
      (s.edgesOf k).length) ∧
    (∃ (k : Nat) (b : Bool) (s : State), s.edgeOn k b = true ∧ s.isOn 5 (fld (s.reg A.timeEvtCfg) 27 16) = true ∧
      (s.edgesOf k).length < 64) ∧
    (∃ (k : Nat) (b : Bool) (s : State), s.edgeOn k b = true ∧ Wired s ∧ k < 4 ∧ s.evRoom (fld (s.reg A.timeEvtCfg) 27
      16) = true ∧ (∀ (j : Nat), s.edgesOf j = [])) ∧
    (∃ (k : Nat) (s : State), Up s ∧ s.ppsOn k = true ∧ s.time.isSet = true ∧ s.nowNs % s.ppsPeriod k = 0) ∧
    (∃ (k : Nat) (s : State), Up s ∧ s.ppsOn k = true ∧ (s.time.isSet = false ∨ s.nowNs % s.ppsPeriod k ≠ 0)) ∧
    (∃ (k : Nat) (s : State), Up s ∧ s.ppsOn k = false ∧ rbit (s.reg (A.timePpsCfg k)) 31 = false) ∧
    (∃ (k : Nat) (s : State), Up s ∧ (s.pps k).active = true ∧ (s.pps k).widthEnd ≤ s.now) ∧
    (∃ (k : Nat) (s : State), Up s ∧ ((s.pps k).active = false ∨ s.now < (s.pps k).widthEnd)) := by
  refine ⟨?_, ?_, ?_, ?_, ?_, ?_, ?_, ?_, ?_, ?_, ?_, ?_, ?_, ?_, ?_, ?_, ?_, ?_⟩
  · exact ⟨inTime (fun t => { t with c0 := 5, c1 := 2 ^ 24 - 1 }), 0, 0, 0, by decide +kernel⟩
  · exact ⟨up, 0, 0, 1, by decide +kernel⟩
  · exact ⟨up, 0, -1, 0, by decide +kernel⟩
  · exact ⟨up, 5, 0, 0, by decide +kernel⟩
  · exact ⟨up, 5, 0, 7, by decide +kernel⟩
  · exact ⟨inTime (fun t => { t with slewing := true }), by decide +kernel⟩
  · exact ⟨inTime (fun t => { t with slewing := true, slew := -1 }), by decide +kernel⟩
  · exact ⟨{ up with nv := { up.nv with refclk := 0x8000 } }, 3, by decide +kernel⟩
  · exact ⟨0, true, up, by decide +kernel⟩
  · exact ⟨3, false, written A.timeEvtCfg 0x500FF, by decide +kernel⟩
  · exact ⟨3, false, inTime (fun t => { t with edges := [(3, edges64)] }) (written A.timeEvtCfg 0x100FF), by
    decide +kernel⟩
  · exact ⟨3, true, inTime (fun t => { t with edges := [(3, edges64.drop 1)] }) (written A.timeEvtCfg 0x100FF)
    |>.modRing 1 (fun r => { r with evq := List.replicate 256 {} }), by decide +kernel⟩
  · exact ⟨3, true, written A.timeEvtCfg 0x100FF, by and_intros <;> first | decide +kernel | exact fun _ => rfl⟩
  · exact ⟨1, inTime (fun t => { t with isSet := true }) (forced (A.timePpsCfg 1) 0x80000064), by decide +kernel⟩
  · exact ⟨1, forced (A.timePpsCfg 1) 0x80000064, by decide +kernel⟩
  · exact ⟨1, up, by decide +kernel⟩
  · exact ⟨0, inTime fun x => { x with pps := [(0, { active := true })] }, by decide +kernel⟩
  · exact ⟨0, up, by decide +kernel⟩

/-- Witnesses of `Obligations.BufferAndServicesCommands`. -/
theorem witness_BufferAndServicesCommands :
    (∃ (c : Cmd) (s : State), Takes s c ∧ c.p1 = 0 ∧ c.p2 = 0 ∧ c.p0 = 1 ∧ s.bufNext ≠ 1 ∧ s.bufNext ≠ 3 ∧
      (s.tour.running = true ∨ s.bufNext ≠ 0) ∧ bufSettingOk s.bufCapture = true) ∧
    (∃ (c : Cmd) (s : State), Takes s c ∧ c.p1 = 0 ∧ c.p2 = 0 ∧ c.p0 = 1 ∧ s.bufNext ≠ 1 ∧ s.bufNext ≠ 3 ∧
      (s.tour.running = true ∨ s.bufNext ≠ 0) ∧ bufSettingOk s.bufCapture = false) ∧
    (∃ (c : Cmd) (s : State), Takes s c ∧ c.p1 = 0 ∧ c.p2 = 0 ∧ c.p0 = 1 ∧ s.bufNext = 1) ∧
    (∃ (c : Cmd) (s : State), Takes s c ∧ c.p1 = 0 ∧ c.p2 = 0 ∧ c.p0 = 1 ∧ (s.bufNext = 3 ∨ s.bufNext = 0 ∧
      s.tour.running = false)) ∧
    (∃ (c : Cmd) (s : State), Takes s c ∧ c.p1 = 0 ∧ c.p2 = 0 ∧ c.p0 = 2 ∧ s.bufNext ≠ 2 ∧ (s.tour.running = true ∨
      s.buf.state ≠ 0 ∨ s.buf.pending ≠ []) ∧ bufSettingOk s.bufCapture = true) ∧
    (∃ (c : Cmd) (s : State), Takes s c ∧ c.p1 = 0 ∧ c.p2 = 0 ∧ c.p0 = 2 ∧ s.tour.running = false ∧ s.buf.state = 0 ∧
      s.buf.pending = [] ∧ bufSettingOk s.bufCapture = true) ∧
    (∃ (c : Cmd) (s : State), Takes s c ∧ c.p1 = 0 ∧ c.p2 = 0 ∧ c.p0 = 2 ∧ s.bufNext = 2) ∧
    (∃ (c : Cmd) (s : State), Takes s c ∧ c.p1 = 0 ∧ c.p2 = 0 ∧ c.p0 = 2 ∧ s.bufNext ≠ 2 ∧ bufSettingOk s.bufCapture =
      false) ∧
    (∃ (c : Cmd) (s : State), Takes s c ∧ c.p1 = 0 ∧ c.p2 = 0 ∧ (c.p0 = 0 ∨ c.p0 = 3)) ∧
    (∃ (c : Cmd) (s : State) (key : Nat), Takes s c ∧ c.p1 = 0 ∧ c.p0 = 0 ∧ 1 ≤ c.p2.toNat ∧ c.p2.toNat ≤ 16384 ∧
      (s.svcTake 5 c.p2.toNat).2 = some key) ∧
    (∃ (c : Cmd) (s : State), Takes s c ∧ c.p1 = 0 ∧ c.p0 = 0 ∧ 1 ≤ c.p2.toNat ∧ c.p2.toNat ≤ 16384 ∧ (s.svcTake 5
      c.p2.toNat).2 = none) ∧
    (∃ (c : Cmd) (s : State), Takes s c ∧ c.p1 = 0 ∧ c.p0 = 0 ∧ (c.p2.toNat = 0 ∨ 16384 < c.p2.toNat)) ∧
    (∃ (c : Cmd) (s : State) (key : Nat), Takes s c ∧ c.p1 = 0 ∧ c.p2 = 0 ∧ s.svcAt (BitVec.toNat c.p0) = some key ∧
      tget s.red.svc key = some 5) ∧
    (∃ (c : Cmd) (s : State) (key : Nat), Takes s c ∧ c.p1 = 0 ∧ c.p2 = 0 ∧ s.svcAt (BitVec.toNat c.p0) = some key ∧
      tget s.red.svc key ≠ some 5) ∧
    (∃ (c : Cmd) (s : State), Takes s c ∧ c.p1 = 0 ∧ c.p2 = 0 ∧ s.svcAt (BitVec.toNat c.p0) = none) := by
  refine ⟨?_, ?_, ?_, ?_, ?_, ?_, ?_, ?_, ?_, ?_, ?_, ?_, ?_, ?_, ?_⟩
  · exact ⟨cmd 1, bufIn 2 true, by decide +kernel⟩
  · exact ⟨cmd 1, written (A.bufClassRed 3) 0x1FFFFF (bufIn 0 true), by decide +kernel⟩
  · exact ⟨cmd 1, bufIn 1 true, by decide +kernel⟩
  · exact ⟨cmd 1, bufIn 3 true, by decide +kernel⟩
  · exact ⟨cmd 2, bufIn 3 true, by decide +kernel⟩
  · exact ⟨cmd 2, bufIn 0 false, by decide +kernel⟩
  · exact ⟨cmd 2, bufIn 2 true, by decide +kernel⟩
  · exact ⟨cmd 2, written (A.bufClassRed 3) 0x1FFFFF (bufIn 1 true), by decide +kernel⟩
  · exact ⟨cmd 0, bufIn 1 true, by decide +kernel⟩
  · exact ⟨cmd 0 0 16384, svcUp [], 131072, by decide +kernel⟩
  · exact ⟨cmd 0 0 16384, up, by decide +kernel⟩
  · exact ⟨cmd 0 0 0, up, by decide +kernel⟩
  · exact ⟨cmd 1024, svcUp [(1, 5)], 1, by decide +kernel⟩
  · exact ⟨cmd 1024, svcUp [(1, 0)], 1, by decide +kernel⟩
  · exact ⟨cmd 1025, svcUp [], by decide +kernel⟩

/-- Witnesses of `Obligations.SquareCommandsAndReset`. -/
theorem witness_SquareCommandsAndReset :
    (∃ (c : Cmd) (s : State), Takes s c ∧ BitVec.toNat c.p0 < 64 ∧ c.p1 = 0 ∧ c.p2 = 0 ∧ bit s.tour.x (BitVec.toNat
      c.p0) = false ∧ s.leaves (setBit s.tour.x (BitVec.toNat c.p0) true) ≠ 0) ∧
    (∃ (c : Cmd) (s : State), Takes s c ∧ BitVec.toNat c.p0 < 64 ∧ c.p1 = 0 ∧ c.p2 = 0 ∧ bit s.tour.x (BitVec.toNat
      c.p0) = false ∧ s.leaves (setBit s.tour.x (BitVec.toNat c.p0) true) = 0) ∧
    (∃ (c : Cmd) (s : State), Takes s c ∧ BitVec.toNat c.p0 < 64 ∧ c.p1 = 0 ∧ c.p2 = 0 ∧ bit s.tour.xInForce
      (BitVec.toNat c.p0) = true ∧ (s.sq (BitVec.toNat c.p0)).resetSt = 2) ∧
    (∃ (c : Cmd) (s : State), Takes s c ∧ BitVec.toNat c.p0 < 64 ∧ c.p1 = 0 ∧ c.p2 = 0 ∧ (bit s.tour.xInForce
      (BitVec.toNat c.p0) = false ∨ (s.sq (BitVec.toNat c.p0)).resetSt ≠ 2)) ∧
    (∃ (c : Cmd) (s : State), Takes s c ∧ BitVec.toNat c.p0 < 64 ∧ c.p1 = 0 ∧ c.p2 = 0 ∧ bit s.tour.x (BitVec.toNat
      c.p0) = true ∧ (s.sq (BitVec.toNat c.p0)).resetSt ≠ 1 ∧ (∀ f ∈ s.removedFns (BitVec.toNat c.p0), s.isDraining
      f.1 f.2 = false)) ∧
    (∃ (c : Cmd) (s : State), Takes s c ∧ BitVec.toNat c.p0 < 64 ∧ c.p1 = 0 ∧ c.p2 = 0 ∧ bit s.tour.x (BitVec.toNat
      c.p0) = true ∧ (s.sq (BitVec.toNat c.p0)).resetSt = 1) ∧
    (∃ (i : Nat) (s : State), Up s ∧ s.auditDue i = false) ∧
    (∃ (i : Nat) (s : State), Up s ∧ s.auditDue i = true ∧ rbit (s.reg A.bufAudit) 31 = false) ∧
    (∃ (i : Nat) (s : State), Up s ∧ s.auditDue i = true ∧ rbit (s.reg A.bufAudit) 31 = true ∧ (∀ x ∈ (s.sq i).cells,
      min 15 (x.2.age + 1) < leakAge (s.reg A.bufAudit))) ∧
    (∃ (i : Nat) (s : State) (k : Nat) (c : Cell), Up s ∧ s.auditDue i = true ∧ rbit (s.reg A.bufAudit) 31 = true ∧
      (s.sq i).cells = [(k, c)] ∧ leakAge (s.reg A.bufAudit) ≤ min 15 (c.age + 1) ∧ (s.sq i).ownRef k = false ∧
      s.egressRef i k c = false ∧ bit s.tour.x i = false) ∧
    (∃ (i : Nat) (s : State), Up s ∧ (s.sq i).resetSt ≠ 1) ∧
    (∃ (i : Nat) (s : State), Up s ∧ (s.sq i).resetSt = 1) := by
  refine ⟨?_, ?_, ?_, ?_, ?_, ?_, ?_, ?_, ?_, ?_, ?_, ?_⟩
  · exact ⟨cmd 63, up, by decide +kernel⟩
  · exact ⟨cmd 0, inX (2 ^ 64 - 2), by decide +kernel⟩
  · exact ⟨cmd 63, inX (2 ^ 63) 2, by decide +kernel⟩
  · exact ⟨cmd 63, inX (2 ^ 63) 3, by decide +kernel⟩
  · exact ⟨cmd 63, inX (2 ^ 63) 3, by decide +kernel⟩
  · exact ⟨cmd 63, inX (2 ^ 63) 1, by decide +kernel⟩
  · exact ⟨5, sqAt 5 fun q => { q with auditAt := t10 }, by decide +kernel⟩
  · exact ⟨3, written A.bufAudit 0x000A03E8, by decide +kernel⟩
  · exact ⟨3, up.modSq 3 (fun q => { q with cells := [(5, { age := 8 })] }), by decide +kernel⟩
  · exact ⟨3, up.modSq 3 (fun q => { q with cells := [(5, { age := 9, st := .pulled })] }), 5,
    { age := 9, st := .pulled }, by decide +kernel⟩
  · exact ⟨3, up, by decide +kernel⟩
  · exact ⟨63, ((onRing (cmdBytes 0x62 (cmd 63))).modSq 63 fun q => { q with resetSt := 1, resetCmd := some (0, 7) }),
    by decide +kernel⟩

/-- Witnesses of `Obligations.FlashWrite`. -/
theorem witness_FlashWrite :
    (∃ (c : Cmd) (bs : List Byte) (s : State), Up s ∧ s.accepts c.ring = true ∧ c.rsvd = 0 ∧ s.castling = false ∧
      (s.boot.recovery = true ∨ s.triad.lost = false) ∧ BitVec.toNat c.p1 % 4096 = 0 ∧ c.p2.toNat % 4096 = 0 ∧ 4096 ≤
      c.p2.toNat ∧ c.p2.toNat ≤ 1048576 ∧ BitVec.toNat c.p1 + c.p2.toNat ≤ 6291456 ∧ bs.length = c.p2.toNat) := by
  exact ⟨cmd 0 4096 4096, List.replicate 4096 7, staged, by decide +kernel⟩

/-- Witnesses of `Obligations.VerifyAndCastling`. -/
theorem witness_VerifyAndCastling :
    (∃ (c : Cmd) (k : Crypto) (s : State), Up s ∧ s.accepts c.ring = true ∧ c.rsvd = 0 ∧ (s.boot.recovery = true ∨
      s.triad.lost = false) ∧ BitVec.toNat c.p0 < 2 ∧ c.p1 = 0 ∧ c.p2 = 0 ∧ s.castling = false ∧ s.nv.imageCode
      (BitVec.toNat c.p0) k false = 0) ∧
    (∃ (c : Cmd) (k : Crypto) (s : State), Up s ∧ s.accepts c.ring = true ∧ c.rsvd = 0 ∧ (s.boot.recovery = true ∨
      s.triad.lost = false) ∧ BitVec.toNat c.p0 < 2 ∧ c.p1 = 0 ∧ c.p2 = 0 ∧ s.castling = false ∧ s.nv.imageCode
      (BitVec.toNat c.p0) k false ≠ 0) ∧
    (∃ (c : Cmd) (s : State), Up s ∧ s.accepts c.ring = true ∧ c.rsvd = 0 ∧ (s.boot.recovery = true ∨ s.triad.lost =
      false) ∧ BitVec.toNat c.p0 < 2 ∧ c.p1 = 0 ∧ c.p2 = 0 ∧ s.castling = true) ∧
    (∃ (c : Cmd) (s : State), Takes s c ∧ c.p0 = 0 ∧ c.p1 = 0 ∧ c.p2 = 0 ∧ s.castling = false ∧ (s.boot.slotSt (1 -
      s.boot.slot)).verified = true) ∧
    (∃ (c : Cmd) (s : State), Takes s c ∧ c.p0 = 0 ∧ c.p1 = 0 ∧ c.p2 = 0 ∧ s.castling = false ∧ (s.boot.slotSt (1 -
      s.boot.slot)).verified = false) ∧
    (∃ (c : Cmd) (s : State), Takes s c ∧ c.p0 = 0 ∧ c.p1 = 0 ∧ c.p2 = 0 ∧ s.castling = true) ∧
    (∃ (s : State), Up s ∧ (s.boot.castle ≠ 1 ∨ s.boot.castleReady = true)) ∧
    (∃ (s : State), Up s ∧ s.boot.castle = 1 ∧ s.boot.castleReady = false) ∧
    (∃ (s : State), Up s ∧ (s.boot.castle ≠ 1 ∨ s.boot.castleReady = false ∨ s.triad.lost = true ∨ s.triad.paused =
      true)) ∧
    (∃ (s : State) (h : Handover), Up s ∧ s.boot.castle = 1 ∧ s.boot.castleReady = true ∧ s.triad.lost = false ∧
      s.triad.paused = false ∧ h.due = [] ∧ (h.hold = true ∨ s.triad.hold = some HoldKind.slot) ∧ s.boot.castleRetry =
      false) ∧
    (∃ (s : State) (h : Handover), Up s ∧ s.boot.castle = 1 ∧ s.boot.castleReady = true ∧ s.triad.lost = false ∧
      s.triad.paused = false ∧ h.due = [] ∧ (h.hold = true ∨ s.triad.hold = some HoldKind.slot) ∧ s.boot.castleRetry =
      true) ∧
    (∃ (s : State) (h : Handover) (code : Nat) (type : Nat), Up s ∧ s.boot.castle = 1 ∧ s.boot.castleReady = true ∧
      s.triad.lost = false ∧ s.triad.paused = false ∧ h.due = [] ∧ h.hold = false ∧ s.triad.hold ≠ some HoldKind.slot
      ∧ code ≠ 0 ∧ s.nv.handoverCode (1 - s.boot.slot) h (handoverRead h (s.handoverRecord h.extra)) = (code, type)) ∧
    (∃ (s : State) (h : Handover), Up s ∧ s.boot.castle = 1 ∧ s.boot.castleReady = true ∧ s.triad.lost = false ∧
      s.triad.paused = false ∧ h.due = [] ∧ h.hold = false ∧ s.triad.hold ≠ some HoldKind.slot ∧ (s.nv.handoverCode (1
      - s.boot.slot) h (handoverRead h (s.handoverRecord h.extra))).1 = 0) ∧
    (∃ (s : State), Up s ∧ (s.boot.castle ≠ 3 ∨ s.elapsed < s.boot.castleS + msT 50 ∨ s.triad.lost = true)) ∧
    (∃ (s : State), Up s ∧ s.boot.castle = 3 ∧ s.boot.castleS + msT 50 ≤ s.elapsed ∧ s.triad.lost = false ∧
      s.boot.slot ≤ 1) ∧
    (∃ (s : State) (r : Nat) (n : Nat) (tag : BitVec 32) (d : List Byte), Up s ∧ r ≠ 0 ∧ s.boot.castleCmd = some (n,
      tag) ∧ (s.ring n).accepted = some d ∧ leAt d 4 4 = tag.toNat) := by
  refine ⟨?_, ?_, ?_, ?_, ?_, ?_, ?_, ?_, ?_, ?_, ?_, ?_, ?_, ?_, ?_, ?_⟩
  · exact ⟨cmd 1, {}, staged, by decide +kernel⟩
  · exact ⟨cmd 1, { sigOk := false }, staged, by decide +kernel⟩
  · exact ⟨cmd 1, castleIn 1, by decide +kernel⟩
  · exact ⟨cmd, { castleIn 0 with boot := { (castleIn 0).boot with castleRetry := true } }, by decide +kernel⟩
  · exact ⟨cmd, staged, by decide +kernel⟩
  · exact ⟨cmd, castleIn 1, by decide +kernel⟩
  · exact ⟨up, by decide +kernel⟩
  · exact ⟨castleIn 1, by decide +kernel⟩
  · exact ⟨castleIn 1, by decide +kernel⟩
  · exact ⟨castleIn 1 (fun b => { b with castleReady := true }), { hold := true }, by decide +kernel⟩
  · exact ⟨castleIn 1 (fun b => { b with castleReady := true, castleRetry := true }), { hold := true }, by
    decide +kernel⟩
  · exact ⟨castleIn 1 (fun b => { b with castleReady := true }), { upset := [(0, 0)] }, 4, 0, by decide +kernel⟩
  · exact ⟨castleReadied, {}, by decide +kernel, by decide +kernel, by decide +kernel, by decide +kernel, by
    decide +kernel, by decide +kernel, by decide +kernel, by decide +kernel, handover_code⟩
  · exact ⟨castleIn 3 (fun b => { b with castleS := t10 }), by decide +kernel⟩
  · exact ⟨castleIn 3 (fun b => { b with castleS := t10 - msT 50, slotA := { seq := 4294967295 } }), by
    decide +kernel⟩
  · exact ⟨boots (fun b => { b with castleCmd := some (0, 7) }) (onRing (leBytes 4 0 ++ leBytes 4 7)), 1, 0, 7,
    leBytes 4 0 ++ leBytes 4 7, by decide +kernel⟩

/-- Witnesses of `Obligations.RollbackAndSettings`. -/
theorem witness_RollbackAndSettings :
    (∃ (c : Cmd) (s : State), Takes s c ∧ c.p0 = 0 ∧ c.p1 = 0 ∧ c.p2 = 0 ∧ s.castling = false ∧ s.nv.rbc <
      (s.boot.slotSt s.boot.slot).svn) ∧
    (∃ (c : Cmd) (s : State), Takes s c ∧ c.p0 = 0 ∧ c.p1 = 0 ∧ c.p2 = 0 ∧ s.castling = false ∧ (s.boot.slotSt
      s.boot.slot).svn ≤ s.nv.rbc) ∧
    (∃ (c : Cmd) (v : Bool) (s : State), Takes s c ∧ c.p0 = 0 ∧ c.p1 = 0 ∧ c.p2 = 0 ∧ (s.castling = true ∨ v = false)) ∧
    (∃ (c : Cmd) (s : State), Takes s c ∧ c.p0 = 0 ∧ c.p1 = 0 ∧ c.p2 = 0 ∧ s.castling = false ∧ (∀ t ∈
      s.boot.lastSave, t + secT 1 ≤ s.elapsed)) ∧
    (∃ (c : Cmd) (s : State), Takes s c ∧ c.p0 = 0 ∧ c.p1 = 0 ∧ c.p2 = 0 ∧ (s.castling = true ∨ ∃ t ∈ s.boot.lastSave,
      s.elapsed < t + secT 1)) := by
  refine ⟨?_, ?_, ?_, ?_, ?_⟩
  · exact ⟨cmd, fused, by decide +kernel⟩
  · exact ⟨cmd, up, by decide +kernel⟩
  · exact ⟨cmd, false, fused, by decide +kernel⟩
  · exact ⟨cmd,
    { up with boot := { up.boot with lastSave := some (t10 - secT 1) }, nv := { settings0 := some { seq := 5 } } }, by
    decide +kernel⟩
  · exact ⟨cmd, { up with boot := { up.boot with lastSave := some (t10 - secT 1 + 1) } }, by decide +kernel⟩

/-- Witnesses of `Obligations.CounterSnapshot`. -/
theorem witness_CounterSnapshot :
    (∃ (c : Cmd) (s : State) (rs : List (Nat × Nat)) (d : List Byte) (ds : List (List Byte)), Takes s c ∧ bits
      (BitVec.toNat c.p0) 15 12 = 0 ∧ BitVec.toNat c.p0 < 2 ^ 32 ∧ c.p1 = 0 ∧ c.p2 = 0 ∧ s.setRanges (bits
      (BitVec.toNat c.p0) 31 16) = some rs ∧ (bits (BitVec.toNat c.p0) 31 16 < 1091 → s.portUnreachable (bits
      (BitVec.toNat c.p0) 31 16) = false) ∧ s.ringIs (bits (BitVec.toNat c.p0) 11 0) 5 = true ∧ s.rangesOpen (s.ring
      (bits (BitVec.toNat c.p0) 11 0)).fn rs = true ∧ s.fnLive (s.ring (bits (BitVec.toNat c.p0) 11 0)).fn = true ∧
      (s.ring (bits (BitVec.toNat c.p0) 11 0)).fetched = d :: ds) ∧
    (∃ (c : Cmd) (s : State) (rs : List (Nat × Nat)), Takes s c ∧ bits (BitVec.toNat c.p0) 15 12 = 0 ∧ BitVec.toNat
      c.p0 < 2 ^ 32 ∧ c.p1 = 0 ∧ c.p2 = 0 ∧ s.setRanges (bits (BitVec.toNat c.p0) 31 16) = some rs ∧ (bits
      (BitVec.toNat c.p0) 31 16 < 1091 → s.portUnreachable (bits (BitVec.toNat c.p0) 31 16) = false) ∧ s.ringIs (bits
      (BitVec.toNat c.p0) 11 0) 5 = true ∧ s.rangesOpen (s.ring (bits (BitVec.toNat c.p0) 11 0)).fn rs = false) ∧
    (∃ (c : Cmd) (s : State) (rs : List (Nat × Nat)), Takes s c ∧ bits (BitVec.toNat c.p0) 15 12 = 0 ∧ BitVec.toNat
      c.p0 < 2 ^ 32 ∧ c.p1 = 0 ∧ c.p2 = 0 ∧ s.setRanges (bits (BitVec.toNat c.p0) 31 16) = some rs ∧ (bits
      (BitVec.toNat c.p0) 31 16 < 1091 → s.portUnreachable (bits (BitVec.toNat c.p0) 31 16) = false) ∧ (s.ringIs (bits
      (BitVec.toNat c.p0) 11 0) 5 = false ∨ s.rangesOpen (s.ring (bits (BitVec.toNat c.p0) 11 0)).fn rs = true ∧
      (s.ring (bits (BitVec.toNat c.p0) 11 0)).fetched = [])) ∧
    (∃ (c : Cmd) (s : State), Takes s c ∧ bits (BitVec.toNat c.p0) 15 12 = 0 ∧ BitVec.toNat c.p0 < 2 ^ 32 ∧ c.p1 = 0 ∧
      c.p2 = 0 ∧ s.setRanges (bits (BitVec.toNat c.p0) 31 16) = none) := by
  refine ⟨?_, ?_, ?_, ?_⟩
  · exact ⟨cmd (1090 * 65536 + 2), (fnAt 5 2 { st := .on }).modRing 2 (fun r =>
    { r with type := 5, fetched := [leBytes 8 4096 ++ leBytes 4 600 ++ List.replicate 20 0] }), [(512 * 1090, 512),
    (0x100000 + 2048 * 1090, 2048)], leBytes 8 4096 ++ leBytes 4 600 ++ List.replicate 20 0, [], by decide +kernel⟩
  · exact ⟨cmd 2, (fnAt 5 2 { st := .on }).modRing 2 (fun r => { r with type := 5, fn := 1 }), [(0, 512), (0x100000,
    2048)], by decide +kernel⟩
  · exact ⟨cmd 0xFFF, up, [(0, 512), (0x100000, 2048)], by decide +kernel⟩
  · exact ⟨cmd 0xFFFF0FFF, up, by decide +kernel⟩

/-- Witnesses of `Obligations.FaultClear`. -/
theorem witness_FaultClear :
    (∃ (c : Cmd) (s : State), Takes s c ∧ BitVec.toNat c.p0 < 1024 ∧ c.p1 = 0 ∧ c.p2 = 0 ∧ srcExists (BitVec.toNat
      c.p0) = true ∧ BitVec.toNat c.p0 ≠ 4 ∧ (s.src (BitVec.toNat c.p0)).st ≠ SrcSt.idle ∧ srcChannel (BitVec.toNat
      c.p0) = none) ∧
    (∃ (c : Cmd) (s : State), Takes s c ∧ BitVec.toNat c.p0 < 1024 ∧ c.p1 = 0 ∧ c.p2 = 0 ∧ srcExists (BitVec.toNat
      c.p0) = true ∧ BitVec.toNat c.p0 ≠ 4 ∧ (s.src (BitVec.toNat c.p0)).st = SrcSt.idle) ∧
    (∃ (c : Cmd) (s : State), Takes s c ∧ BitVec.toNat c.p0 < 1024 ∧ c.p1 = 0 ∧ c.p2 = 0 ∧ BitVec.toNat c.p0 = 4) ∧
    (∃ (c : Cmd) (s : State), Takes s c ∧ BitVec.toNat c.p0 < 1024 ∧ c.p1 = 0 ∧ c.p2 = 0 ∧ srcExists (BitVec.toNat
      c.p0) = false) ∧
    (∃ (c : Cmd) (s : State) (i : Instr) (rest : List Instr) (t : State), Takes s c ∧ BitVec.toNat c.p0 < 1024 ∧ c.p1
      = 0 ∧ c.p2 = 0 ∧ s.pending = Instr.faultClear c :: i :: rest ∧ step s = Host.Outcome.next t) := by
  refine ⟨?_, ?_, ?_, ?_, ?_⟩
  · exact ⟨cmd 22, sevSrc 22, by decide +kernel⟩
  · exact ⟨cmd 10, { up with triad := { chans := [(2, { failed := true })] } }, by decide +kernel⟩
  · exact ⟨cmd 4, sevSrc 4, by decide +kernel⟩
  · exact ⟨cmd 24, up, by decide +kernel⟩
  · exact ⟨cmd 22, { sevSrc 22 with pending := [.faultClear (cmd 22), .regulatorAlert] }, .regulatorAlert, [], ran
    (.faultClear (cmd 22)) { sevSrc 22 with pending := [.regulatorAlert] }, by decide +kernel, by decide +kernel, by
    decide +kernel, by decide +kernel, rfl, ran_next (.faultClear (cmd 22))
    { sevSrc 22 with pending := [.regulatorAlert] } (by decide +kernel)⟩

/-- Witnesses of `Obligations.RegisterWriteFields`. -/
theorem witness_RegisterWriteFields :
    (∃ (a : Nat) (r : RegRow) (s : State) (i : Nat), Wired s ∧ (s.boot.dpReady = true ∨ a < 131072) ∧ a < 16777216 ∧
      regRow a = some r ∧ a ≠ 32 ∧ a ≠ A.faultCtl ∧ a ≠ A.faultInj ∧ a ≠ A.faultCfg 4 ∧ a ≠ A.faultCfg 15 ∧ i < 32) ∧
    (∃ (a : Nat) (v : Reg) (r : RegRow) (s : State), Wired s ∧ (s.boot.dpReady = true ∨ a < 131072) ∧ a < 16777216 ∧
      regRow a = some r ∧ a ≠ 32 ∧ a ≠ A.faultCtl ∧ a ≠ A.faultInj ∧ a ≠ A.faultCfg 4 ∧ a ≠ A.faultCfg 15 ∧ (a ≠
      A.timeCfg ∨ refChanged (s.setReg a (BitVec.ofNat 32 (writtenWord r (BitVec.toNat (s.reg a)) (BitVec.toNat v))))
      (s.setReg a (BitVec.ofNat 32 (writtenWord r (BitVec.toNat (s.reg a)) (BitVec.toNat v)))).chooseRef = false)) ∧
    (∃ (v : Reg) (r : RegRow) (s : State), Wired s ∧ (s.boot.dpReady = true ∨ A.timeCfg < 131072) ∧ A.timeCfg <
      16777216 ∧ regRow A.timeCfg = some r ∧ A.timeCfg ≠ 32 ∧ A.timeCfg ≠ A.faultCtl ∧ A.timeCfg ≠ A.faultInj ∧
      A.timeCfg ≠ A.faultCfg 4 ∧ A.timeCfg ≠ A.faultCfg 15 ∧ refChanged (s.setReg A.timeCfg (BitVec.ofNat 32
      (writtenWord r (BitVec.toNat (s.reg A.timeCfg)) (BitVec.toNat v)))) (s.setReg A.timeCfg (BitVec.ofNat 32
      (writtenWord r (BitVec.toNat (s.reg A.timeCfg)) (BitVec.toNat v)))).chooseRef = true) := by
  refine ⟨?_, ?_, ?_⟩
  · exact ⟨A.timeCfg, timeCfgRow, up, 31, by decide +kernel⟩
  · exact ⟨A.bufCfg, 0xFFFFFFFF,
    { base := 0x101004, count := 1, stride := 4, rw := 0xFFFF03FF, w1c := 0, reset := 0x400A0002 }, up, by
    decide +kernel⟩
  · exact ⟨1, timeCfgRow, up, by decide +kernel⟩

/-- Witnesses of `Obligations.WritesTurnedAwayAndBroadcast`. -/
theorem witness_WritesTurnedAwayAndBroadcast :
    (∃ (a : Nat) (s : State), Wired s ∧ a < 33554432) ∧
    (∃ (a : Nat) (be : BitVec 4) (s : State), Wired s ∧ a < 33554432 ∧ be ≠ 0 ∧ s.boot.dpReady = false ∧ 131072 ≤ a) ∧
    (∃ (a : Nat) (be : BitVec 4) (s : State), Wired s ∧ a < 33554432 ∧ be ≠ 0 ∧ s.boot.dpReady = true ∧ regRow a =
      none) ∧
    (∃ (a : Nat) (be : BitVec 4) (s : State), Wired s ∧ a < 33554432 ∧ be ≠ 0 ∧ be ≠ 15 ∧ s.boot.dpReady = true ∧
      regRow a ≠ none) ∧
    (∃ (o : Nat) (s : State) (r : RegRow), Wired s ∧ o < 262144 ∧ findRow squareRows o = some r) ∧
    (∃ (o : Nat) (be : BitVec 4) (s : State), Wired s ∧ o < 262144 ∧ findRow squareRows o = none ∧ be ≠ 0) := by
  refine ⟨?_, ?_, ?_, ?_, ?_, ?_⟩
  · exact ⟨0x1FFFFFF, up, by decide +kernel⟩
  · exact ⟨0x20000, 1, noReady, by decide +kernel⟩
  · exact ⟨0x1FFFFFC, 15, up, by decide +kernel⟩
  · exact ⟨0, 14, up, by decide +kernel⟩
  · exact ⟨0x100, up, { base := 0x100, count := 16, stride := 4, rw := 0xF8FF3FFF, w1c := 0, reset := 0x88102580 }, by
    decide +kernel⟩
  · exact ⟨0x3FFFC, 1, up, by decide +kernel⟩

/-- Witnesses of `Obligations.PortMapWrite`. -/
theorem witness_PortMapWrite :
    (∃ (k : Nat) (s : State), Wired s ∧ k < 64 ∧ s.boot.dpReady = false) ∧
    (∃ (k : Nat) (v : Reg) (s : State), Wired s ∧ k < 64 ∧ s.boot.dpReady = true ∧ laneMapOk (BitVec.toNat v)
      (BitVec.toNat (s.reg (A.laneRate k))) = false) ∧
    (∃ (k : Nat) (v : Reg) (s : State), Wired s ∧ k < 64 ∧ s.boot.dpReady = true ∧ laneMapOk (BitVec.toNat (s.reg
      (A.portMap k))) (BitVec.toNat v) = false) ∧
    (∃ (k : Nat) (v : Reg) (s : State), Wired s ∧ k < 64 ∧ s.boot.dpReady = true ∧ laneMapOk (BitVec.toNat v)
      (BitVec.toNat (s.reg (A.laneRate k))) = true) ∧
    (∃ (k : Nat) (v : Reg) (s : State), Wired s ∧ k < 64 ∧ s.boot.dpReady = true ∧ laneMapOk (BitVec.toNat (s.reg
      (A.portMap k))) (BitVec.toNat v) = true) := by
  refine ⟨?_, ?_, ?_, ?_, ?_⟩
  · exact ⟨63, noReady, by decide +kernel⟩
  · exact ⟨0, 1, up, by decide +kernel⟩
  · exact ⟨63, 3, up, by decide +kernel⟩
  · exact ⟨63, 0xFFFFFFFF, up, by decide +kernel⟩
  · exact ⟨0, 0xAAAAAAAA, up, by decide +kernel⟩

/-- Witnesses of `Obligations.RestartsAndLatchedReads`. -/
theorem witness_RestartsAndLatchedReads :
    (∃ (s : State), Wired s ∧ s.boot.dpReady = true) ∧
    (∃ (s : State), Wired s ∧ s.boot.dpReady = false) := by
  refine ⟨?_, ?_⟩
  · exact ⟨{ up.modLane 1023 (fun l => { l with fom := 9, fomMin := 3 }) with fault := { first := some (1, 2) } }, by
    decide +kernel⟩
  · exact ⟨noReady, by decide +kernel⟩

/-- Witnesses of `Obligations.HostBoot`. -/
theorem witness_HostBoot :
    (∃ (v : Reg) (s : State), Wired s ∧ (rbit v 0 = false ∨ s.isOff 5 0 = false ∨ s.isOff 5 1 = false)) ∧
    (∃ (v : Reg) (s : State) (a : List Byte) (b : List Byte), Wired s ∧ rbit v 0 = true ∧ s.isOff 5 0 = true ∧ s.isOff
      5 1 = true ∧ s.fnLive 0 = true ∧ s.ctxValid a = true ∧ s.ctxValid b = true ∧ leAt a 8 1 = 3 ∧ leAt b 8 1 = 4 ∧
      leAt a 10 1 = 0 ∧ leAt b 10 1 = 0) ∧
    (∃ (v : Reg) (x : HostRead) (y : HostRead) (s : State), Wired s ∧ rbit v 0 = true ∧ s.isOff 5 0 = true ∧ s.isOff 5
      1 = true ∧ (x = HostRead.err ∨ y = HostRead.err ∨ s.fnLive 0 = false ∨ (∃ a, x = HostRead.ok a ∧ (s.ctxValid a =
      false ∨ leAt a 8 1 ≠ 3 ∨ leAt a 10 1 ≠ 0)) ∨ ∃ b, y = HostRead.ok b ∧ (s.ctxValid b = false ∨ leAt b 8 1 ≠ 4 ∨
      leAt b 10 1 ≠ 0))) := by
  refine ⟨?_, ?_, ?_⟩
  · exact ⟨0, noRing, by decide +kernel⟩
  · exact ⟨0x0FFF0005, noRing, ctxBytes 3 65535 0, ctxBytes 4 2047 0, by decide +kernel⟩
  · exact ⟨5, .err, .ok (ctxBytes 4 2047 0), noRing, by and_intros <;> first | decide +kernel | simp⟩

/-- Witnesses of `Obligations.ResetsAndTheirRelease`. -/
theorem witness_ResetsAndTheirRelease :
    (∃ (v : Reg) (s : State), Wired s ∧ rbit v 0 = true ∧ fld v 31 24 = 197) ∧
    (∃ (v : Reg) (s : State), Wired s ∧ (rbit v 0 = false ∨ fld v 31 24 ≠ 197)) ∧
    (∃ (s : State), s.pins.railBad = false ∧ s.boot.stage = 0) ∧
    (∃ (s : State), s.pins.railBad = false ∧ s.boot.stage ≠ 0) ∧
    (∃ (s : State), s.pins.railBad = false ∧ s.boot.stage = 4 ∧ usT 101 ≤ s.elapsed) ∧
    (∃ (s : State), s.pins.railBad = false ∧ (s.boot.stage ≠ 4 ∨ s.elapsed < usT 101)) := by
  refine ⟨?_, ?_, ?_, ?_, ?_, ?_⟩
  · exact ⟨0xC5000001, { port0Up with io := { latched := 5 } }, by decide +kernel⟩
  · exact ⟨0xC5000000, up, by decide +kernel⟩
  · exact ⟨{ State.reset with nv := committed }, by decide +kernel⟩
  · exact ⟨up, by decide +kernel⟩
  · exact ⟨{ inDevReset with nv := committed }, by decide +kernel⟩
  · exact ⟨{ inDevReset with time := { elapsed := usT 101 - 1 } }, by decide +kernel⟩

/-- Witnesses of `Obligations.BootAndPins`. -/
theorem witness_BootAndPins :
    (∃ (k : Crypto) (i : Nat) (rest : List Nat) (s : State), Up s ∧ s.boot.stage = 1 ∧ s.boot.order = i :: rest ∧
      s.nv.imageCode i k true = 0) ∧
    (∃ (k : Crypto) (i : Nat) (rest : List Nat) (s : State), Up s ∧ s.boot.stage = 1 ∧ s.boot.order = i :: rest ∧
      s.nv.imageCode i k true ≠ 0 ∧ rest ≠ []) ∧
    (∃ (k : Crypto) (i : Nat) (s : State), Up s ∧ s.boot.stage = 1 ∧ s.boot.order = i :: [] ∧ s.nv.imageCode i k true
      ≠ 0) ∧
    (∃ (s : State), s.pins.railBad = false ∧ s.boot.stage = 0) ∧
    (∃ (s : State) (x : Int), s.pins.railBad = false ∧ 8 * 125 ≤ x) ∧
    (∃ (s : State) (x : Int), s.pins.railBad = false ∧ x < 8 * 125) ∧
    (∃ (s : State) (i : TapInstr), s.pins.railBad = false ∧ s.boot.stage ≠ 0 ∧ (i = TapInstr.bypass ∨ i =
      TapInstr.idcode ∨ i = TapInstr.samplePreload)) := by
  refine ⟨?_, ?_, ?_, ?_, ?_, ?_, ?_⟩
  · exact ⟨{}, 0, [], romWith committed [0], by decide +kernel, by decide +kernel, by decide +kernel, committed_code⟩
  · exact ⟨{ readErr := true }, 0, [1], romWith imageNv [0, 1], by decide +kernel⟩
  · exact ⟨{}, 1, romWith imageNv [1], by decide +kernel⟩
  · exact ⟨State.reset, by decide +kernel⟩
  · exact ⟨State.reset, 1000, by decide +kernel⟩
  · exact ⟨up, 999, by decide +kernel⟩
  · exact ⟨scanned, .idcode, by decide +kernel⟩

/-- Witnesses of `Obligations.LinkBringUp`. -/
theorem witness_LinkBringUp :
    (∃ (l : Nat) (s : State), Wired s ∧ s.portLive (s.portBase l) = false) ∧
    (∃ (p : Nat) (s : State), Wired s ∧ s.portLive p = false) ∧
    (∃ (l : Nat) (s : State) (ns : Nat), Wired s ∧ s.portLive (s.portBase l) = true ∧ s.losQual (s.portBase l) ≤ ns) ∧
    (∃ (l : Nat) (s : State) (ns : Nat), Wired s ∧ s.portLive (s.portBase l) = true ∧ ns < s.losQual (s.portBase l)) ∧
    (∃ (l : Nat) (s : State) (a : Nat) (b : Nat), Wired s ∧ s.portLive (s.portBase l) = true ∧ a ≤ 300 ∧ b ≤ 300) ∧
    (∃ (l : Nat) (s : State) (a : Nat) (b : Nat), Wired s ∧ s.portLive (s.portBase l) = true ∧ (300 < a ∨ 300 < b)) ∧
    (∃ (l : Nat) (s : State), Wired s ∧ s.portLive (s.portBase l) = true ∧ s.trains (s.portBase l) = true) ∧
    (∃ (l : Nat) (s : State), Wired s ∧ s.portLive (s.portBase l) = true ∧ s.trains (s.portBase l) = false) ∧
    (∃ (l : Nat) (s : State) (pos : Nat), Wired s ∧ s.portLive (s.portBase l) = true ∧ (∃ k ∈ s.portLanes (s.portBase
      l), ((s.modLane l (Lane.match_ (s.amSpacing (s.portBase l)) pos)).lane k).am = false)) ∧
    (∃ (l : Nat) (s : State) (pos : Nat), Wired s ∧ s.portLive (s.portBase l) = true ∧ (∀ k ∈ s.portLanes (s.portBase
      l), ((s.modLane l (Lane.match_ (s.amSpacing (s.portBase l)) pos)).lane k).am = true)) ∧
    (∃ (p : Nat) (s : State) (x : List Ability), Wired s ∧ s.portLive p = true ∧ rbit (s.portCfg p) 29 = true ∧
      s.advertised p ∈ x) ∧
    (∃ (p : Nat) (s : State) (x : List Ability), Wired s ∧ s.portLive p = true ∧ s.advertised p ∉ x) ∧
    (∃ (p : Nat) (s : State), Wired s ∧ s.portLive p = true ∧ (∀ k ∈ s.portLanes p, ∃ t, (s.lane k).fomOkAt = some t ∧
      t + msT 1 ≤ s.elapsed)) ∧
    (∃ (x : Lane), x.cand = none) ∧
    (∃ (x : Lane) (c : Nat), x.cand = some c ∧ x.am = false) ∧
    (∃ (d : Nat) (pos : Nat) (x : Lane) (c : Nat), x.cand = some c ∧ x.am = false ∧ pos < c + d) ∧
    (∃ (d : Nat) (pos : Nat) (x : Lane) (c : Nat), x.cand = some c ∧ x.am = false ∧ c + d < pos) ∧
    (∃ (p : Nat) (s : State), (s.link p).up = false ∧ (s.link p).deskew = false) ∧
    (∃ (p : Nat) (s : State), Up s ∧ (s.link p).upHold = none) ∧
    (∃ (p : Nat) (t0 : Tick) (s : State), Up s ∧ (s.link p).upHold = some t0 ∧ s.portLive p = true ∧ (s.link p).up =
      false ∧ s.linkQualified p = true ∧ s.noFaultSeq p = true ∧ t0 + s.upHold p ≤ s.elapsed) ∧
    (∃ (p : Nat) (t0 : Tick) (s : State), Up s ∧ (s.link p).upHold = some t0 ∧ (s.portLive p = false ∨ (s.link p).up =
      true ∨ s.linkQualified p = false ∨ s.noFaultSeq p = false ∨ s.elapsed < t0 + s.upHold p)) := by
  refine ⟨?_, ?_, ?_, ?_, ?_, ?_, ?_, ?_, ?_, ?_, ?_, ?_, ?_, ?_, ?_, ?_, ?_, ?_, ?_, ?_, ?_⟩
  · exact ⟨5, up, by decide +kernel⟩
  · exact ⟨1024, up, by decide +kernel⟩
  · exact ⟨0, port0, 1000, by decide +kernel⟩
  · exact ⟨0, port0, 0, by decide +kernel⟩
  · exact ⟨0, port0, 300, 300, by decide +kernel⟩
  · exact ⟨0, port0, 301, 0, by decide +kernel⟩
  · exact ⟨0, forced (A.portCfg 0 0) 0x18102580 port0, by decide +kernel⟩
  · exact ⟨0, port0, by decide +kernel⟩
  · exact ⟨0, wide0, 0, by decide +kernel⟩
  · exact ⟨0, port0, 0, by decide +kernel⟩
  · exact ⟨0, forced (A.portCfg 0 0) 0x20000000 port0, [{}, { width := 1, rate := 0, media := 0 }], by decide +kernel⟩
  · exact ⟨0, port0, [], by decide +kernel⟩
  · exact ⟨0, port0.modLane 0 (fun l => { l with fomOkAt := some (t10 - msT 1) }), by decide +kernel⟩
  · exact ⟨{}, by decide +kernel⟩
  · exact ⟨{ cand := some 3 }, 3, by decide +kernel⟩
  · exact ⟨5, 7, { cand := some 3 }, 3, by decide +kernel⟩
  · exact ⟨5, 9, { cand := some 3 }, 3, by decide +kernel⟩
  · exact ⟨5, up, by decide +kernel⟩
  · exact ⟨5, up, by decide +kernel⟩
  · exact ⟨0, t10 - msT 10, port0 (fun l =>
    { l with upHold := some (t10 - msT 10), holdFrom := some 3, discarding := true }), by decide +kernel⟩
  · exact ⟨0, t10, port0 (fun l => { l with upHold := some t10 }), by decide +kernel⟩

/-- Witnesses of `Obligations.LinkDownAndHold`. -/
theorem witness_LinkDownAndHold :
    (∃ (l : List (Nat × Nat)) (c : Nat × Nat) (d : Nat × Nat), lowestCause l = some c ∧ d ∈ l) ∧
    (∃ (p : Nat) (s : State), Up s ∧ s.portLive p = false) ∧
    (∃ (p : Nat) (s : State) (seen : List Sight) (c : Nat × Nat), Up s ∧ s.portLive p = true ∧ lowestCause
      (List.filterMap (s.causeOf p) seen) = some c) ∧
    (∃ (p : Nat) (s : State) (k : Nat) (ns : Nat), Up s ∧ s.portLive p = true ∧ k < s.portWidth p ∧ s.losQual p ≤ ns) ∧
    (∃ (p : Nat) (s : State) (k : Nat) (ns : Nat), Up s ∧ s.portLive p = true ∧ k < s.portWidth p ∧ ns < s.losQual p) ∧
    (∃ (p : Nat) (s : State) (k : Nat) (ppm : Nat), Up s ∧ s.portLive p = true ∧ k < s.portWidth p ∧ 1000 < ppm) ∧
    (∃ (p : Nat) (s : State) (k : Nat) (ppm : Nat), Up s ∧ s.portLive p = true ∧ k < s.portWidth p ∧ ppm ≤ 1000) ∧
    (∃ (p : Nat) (s : State) (k : Nat), Up s ∧ s.portLive p = true ∧ k < s.portWidth p ∧ (s.lane (p + k)).am = true ∧
      s.amMisses p ≤ (s.lane (p + k)).misses + 1) ∧
    (∃ (p : Nat) (s : State) (k : Nat), Up s ∧ s.portLive p = true ∧ k < s.portWidth p ∧ (s.lane (p + k)).am = true ∧
      (s.lane (p + k)).misses + 1 < s.amMisses p) ∧
    (∃ (p : Nat) (s : State) (rs : List CwRun), Up s ∧ s.portLive p = true ∧ s.ucwFires p rs = true) ∧
    (∃ (p : Nat) (s : State) (rs : List CwRun), Up s ∧ s.portLive p = true ∧ s.ucwFires p rs = false) ∧
    (∃ (p : Nat) (s : State), Up s ∧ (s.link p).holdFrom = none) ∧
    (∃ (p : Nat) (t0 : Tick) (s : State), Up s ∧ (s.link p).holdFrom = some t0 ∧ s.elapsed < t0 + s.linkHold) ∧
    (∃ (p : Nat) (t0 : Tick) (s : State), Up s ∧ (s.link p).holdFrom = some t0 ∧ t0 + s.linkHold ≤ s.elapsed ∧
      s.portDown p = false) ∧
    (∃ (p : Nat) (t0 : Tick) (s : State), Up s ∧ (s.link p).holdFrom = some t0 ∧ t0 + s.linkHold ≤ s.elapsed ∧
      s.portDown p = true ∧ s.linkQualified p = true ∧ (s.link p).upHold.isSome = true) ∧
    (∃ (p : Nat) (t0 : Tick) (s : State), Up s ∧ (s.link p).holdFrom = some t0 ∧ t0 + s.linkHold ≤ s.elapsed ∧
      s.portDown p = true ∧ (s.linkQualified p = false ∨ (s.link p).upHold = none)) := by
  refine ⟨?_, ?_, ?_, ?_, ?_, ?_, ?_, ?_, ?_, ?_, ?_, ?_, ?_, ?_, ?_, ?_⟩
  · exact ⟨[(1, 0)], (1, 0), (1, 0), by decide +kernel⟩
  · exact ⟨5, up, by decide +kernel⟩
  · exact ⟨0, port0Up, [.deskewLost, .localFault], (4, 255), by decide +kernel⟩
  · exact ⟨0, port0, 0, 1000, by decide +kernel⟩
  · exact ⟨0, port0, 0, 0, by decide +kernel⟩
  · exact ⟨0, port0, 0, 1001, by decide +kernel⟩
  · exact ⟨0, port0, 0, 1000, by decide +kernel⟩
  · exact ⟨0, port0.modLane 0 fun x => { x with misses := port0.amMisses 0 }, 0, by decide +kernel, by decide +kernel,
    by decide +kernel, by decide +kernel, Nat.le_succ _⟩
  · exact ⟨0, port0, 0, by decide +kernel, by decide +kernel, by decide +kernel, by decide +kernel, Nat.lt_of_lt_of_le
    (show (port0.lane (0 + 0)).misses + 1 < 2 by decide +kernel) (Nat.le_max_left _ _)⟩
  · exact ⟨0, port0, [{ n := 100 }], by decide +kernel⟩
  · exact ⟨0, port0, [], by decide +kernel⟩
  · exact ⟨0, port0Up, by decide +kernel⟩
  · exact ⟨0, t10, port0 (fun l => { l with holdFrom := some t10 }), by decide +kernel⟩
  · exact ⟨0, 0, port0 (fun l => { l with holdFrom := some 0, up := true }), by decide +kernel⟩
  · exact ⟨0, 0, port0 (fun l => { l with holdFrom := some 0 }), by decide +kernel⟩
  · exact ⟨0, 0, port0 (fun l => { l with holdFrom := some 0, upHold := none }), by decide +kernel⟩

/-- Witnesses of `Obligations.LinkQualityAndClocks`. -/
theorem witness_LinkQualityAndClocks :
    (∃ (l : Nat) (n : Nat) (cws : List CwRun) (s : State), Up s ∧ s.portLive (s.portBase l) = true ∧ s.ucwFires
      (s.portBase l) cws = false ∧ s.minFom l ≤ fomOf n) ∧
    (∃ (l : Nat) (n : Nat) (cws : List CwRun) (s : State), Up s ∧ s.portLive (s.portBase l) = true ∧ s.ucwFires
      (s.portBase l) cws = false ∧ fomOf n < s.minFom l ∧ (s.link (s.portBase l)).up = true) ∧
    (∃ (l : Nat) (n : Nat) (cws : List CwRun) (s : State), Up s ∧ s.portLive (s.portBase l) = true ∧ s.ucwFires
      (s.portBase l) cws = false ∧ fomOf n < s.minFom l ∧ (s.link (s.portBase l)).up = false) ∧
    (∃ (l : Nat) (cws : List CwRun) (s : State), Up s ∧ s.portLive (s.portBase l) = true ∧ s.ucwFires (s.portBase l)
      cws = true ∧ (s.link (s.portBase l)).up = true) ∧
    (∃ (l : Nat) (s : State), Up s ∧ s.portLive (s.portBase l) = false) ∧
    (∃ (k : Nat) (s : State), Up s ∧ k < 16) ∧
    (∃ (s : State), Wired s) ∧
    (∃ (s : State), Up s ∧ s.time.second = s.nowNs / 1000000000) ∧
    (∃ (s : State), Up s ∧ s.time.second ≠ s.nowNs / 1000000000) := by
  refine ⟨?_, ?_, ?_, ?_, ?_, ?_, ?_, ?_, ?_⟩
  · exact ⟨0, 0, [], port0, by decide +kernel⟩
  · exact ⟨0, 16777216, [], port0Up, by decide +kernel⟩
  · exact ⟨0, 16777216, [], port0, by decide +kernel⟩
  · exact ⟨0, [{ n := 100 }], port0Up, by decide +kernel⟩
  · exact ⟨0, up, by decide +kernel⟩
  · exact ⟨0, port0Up, by decide +kernel⟩
  · exact ⟨{ up with nv := { up.nv with refclk := 0 } }, by decide +kernel⟩
  · exact ⟨port0Up, by decide +kernel⟩
  · exact ⟨inTime fun x => { x with second := 5 }, by decide +kernel⟩

/-- Witnesses of `Obligations.ManagementAndServiceMessages`. -/
theorem witness_ManagementAndServiceMessages :
    (∃ (s : State), Up s ∧ s.pins.scan = false ∧ s.host.mgmt.sync = false) ∧
    (∃ (s : State), Up s ∧ s.pins.scan = false ∧ s.host.mgmt.sync = true) ∧
    (∃ (s : State), Up s ∧ s.pins.scan = false ∧ rbit s.mgmtCfg 2 = true ∧ s.mgmtTimerDone = true) ∧
    (∃ (s : State), Up s ∧ s.pins.scan = false ∧ (rbit s.mgmtCfg 2 = false ∨ s.mgmtTimerDone = false)) ∧
    (∃ (s : State), Up s ∧ (takeFirst (fun f => f.hdr.bc) s.red.inbox = none ∨ s.triad.paused = true ∨ s.triad.lost =
      true)) ∧
    (∃ (s : State) (f : WholeFrame) (rest : List WholeFrame), Up s ∧ takeFirst (fun f => f.hdr.bc) s.red.inbox = some
      (f, rest) ∧ s.triad.paused = false ∧ s.triad.lost = false ∧ s.isOff 9 0 = true) ∧
    (∃ (s : State) (f : WholeFrame) (rest : List WholeFrame), Up s ∧ takeFirst (fun f => f.hdr.bc) s.red.inbox = some
      (f, rest) ∧ s.triad.paused = false ∧ s.triad.lost = false ∧ s.isOff 9 0 = false ∧ bcIgnored (ptpType f.bytes) =
      true) ∧
    (∃ (st : Nat) (s : State) (f : WholeFrame) (rest : List WholeFrame) (v : Int), Up s ∧ takeFirst (fun f =>
      f.hdr.bc) s.red.inbox = some (f, rest) ∧ s.triad.paused = false ∧ s.triad.lost = false ∧ s.isOff 9 0 = false ∧
      bcIgnored (ptpType f.bytes) = false ∧ (st = 8 ∨ st = 9) ∧ -128000000 ≤ v ∧ v ≤ 128000000) ∧
    (∃ (m : BcDue) (s : State), Up s ∧ (s.bcActive m.port = false ∨ s.triad.lost = true)) ∧
    (∃ (m : BcDue) (s : State), Up s ∧ s.bcActive m.port = true ∧ s.triad.lost = false ∧ s.triad.paused = true) ∧
    (∃ (m : BcDue) (s : State), Up s ∧ s.bcActive m.port = true ∧ s.triad.lost = false ∧ s.triad.paused = false ∧
      (s.isOn 9 0 = false ∧ bcCompletes m.msgType = false)) ∧
    (∃ (m : BcDue) (s : State), Up s ∧ s.bcActive m.port = true ∧ s.triad.lost = false ∧ s.triad.paused = false ∧
      m.msgType = 8 ∧ s.syncStamped m.port = false) ∧
    (∃ (m : BcDue) (s : State), Up s ∧ s.bcActive m.port = true ∧ s.triad.lost = false ∧ s.triad.paused = false ∧
      (s.isOn 9 0 = true ∨ bcCompletes m.msgType = true) ∧ (m.msgType ≠ 8 ∨ s.syncStamped m.port = true)) ∧
    (∃ (s : State), Wired s ∧ (s.isOff 0 1089 = true ∨ s.host.mgmt.up = false)) ∧
    (∃ (bs : List Byte) (gap : List Int) (d : Int) (s : State), Wired s ∧ s.isOff 0 1089 = false ∧ s.host.mgmt.up =
      true ∧ (((s.elasticGap 2 gap).elasticFrame d).2 = true ∨ bs.length + 4 < 64 ∨ s.maxFrame 1089 < bs.length + 4 ∨
      s.isDraining 0 1089 = true)) ∧
    (∃ (bs : List Byte) (gap : List Int) (d : Int) (s : State), Wired s ∧ s.isOff 0 1089 = false ∧ s.host.mgmt.up =
      true ∧ ((s.elasticGap 2 gap).elasticFrame d).2 = false ∧ 64 ≤ bs.length + 4 ∧ bs.length + 4 ≤ s.maxFrame 1089 ∧
      s.isDraining 0 1089 = false ∧ s.host.outbox = [] ∧ s.mayTake s.tour.attHost 65 < cellsOf bs.length) ∧
    (∃ (bs : List Byte) (gap : List Int) (d : Int) (s : State), Wired s ∧ s.isOff 0 1089 = false ∧ s.host.mgmt.up =
      true ∧ ((s.elasticGap 2 gap).elasticFrame d).2 = false ∧ 64 ≤ bs.length + 4 ∧ bs.length + 4 ≤ s.maxFrame 1089 ∧
      s.isDraining 0 1089 = false ∧ s.host.outbox = [] ∧ cellsOf bs.length ≤ s.mayTake s.tour.attHost 65) := by
  refine ⟨?_, ?_, ?_, ?_, ?_, ?_, ?_, ?_, ?_, ?_, ?_, ?_, ?_, ?_, ?_, ?_, ?_⟩
  · exact ⟨up, by decide +kernel⟩
  · exact ⟨mgmtUp, by decide +kernel⟩
  · exact ⟨forced A.hostMgmtCfg 0x25800004 (reader (fun h => { h with mgmt := { sync := true, anFrom := some 0 } })
    mgmtUp), by decide +kernel⟩
  · exact ⟨mgmtUp, by decide +kernel⟩
  · exact ⟨up, by decide +kernel⟩
  · exact ⟨bcGot 0 .off, ptpFrame 0, [], by decide +kernel⟩
  · exact ⟨bcGot 2, ptpFrame 2, [], by decide +kernel⟩
  · exact ⟨9, bcGot 0, ptpFrame 0, [], -128000000, by decide +kernel⟩
  · exact ⟨due 3 0, up, by decide +kernel⟩
  · exact ⟨due 3 0, written (A.ptpCfg 0 3) 0x80000000 { bcGot 0 with triad := { paused := true } }, by decide +kernel⟩
  · exact ⟨due 3 0, written (A.ptpCfg 0 3) 0x80000000 (bcGot 0 .draining), by decide +kernel⟩
  · exact ⟨due 3 8, written (A.ptpCfg 0 3) 0x80000000 (bcGot 0), by decide +kernel⟩
  · exact ⟨due 3 0, written (A.ptpCfg 0 3) 0x80000000 (bcGot 0), by decide +kernel⟩
  · exact ⟨up, by decide +kernel⟩
  · exact ⟨List.replicate 60 0, [], 17, mgmtUp, by decide +kernel⟩
  · exact ⟨List.replicate 60 0, [], 0, forced (A.bufQuotaHost 27) 0 mgmtUp, by decide +kernel⟩
  · exact ⟨List.replicate 60 0, [-2, 2], 16, mgmtUp, by decide +kernel⟩

/-- Witnesses of `Obligations.HostFunctions`. -/
theorem witness_HostFunctions :
    (∃ (s : State), Wired s) ∧
    (∃ (sp : Nat) (w : Nat) (s : State), Wired s ∧ (sp ≠ 3 ∨ w ≠ 8)) ∧
    (∃ (s : State) (v : Nat), Wired s ∧ s.vfExists v = true) ∧
    (∃ (s : State) (v : Nat), Wired s ∧ s.vfExists v = false) ∧
    (∃ (fn : Nat) (s : State), Wired s ∧ (fn = 0 ∨ s.vfExists fn = true)) ∧
    (∃ (fn : Nat) (s : State), Wired s ∧ fn ≠ 0 ∧ s.vfExists fn = false) := by
  refine ⟨?_, ?_, ?_, ?_, ?_, ?_⟩
  · exact ⟨up, by decide +kernel⟩
  · exact ⟨3, 4, up, by decide +kernel⟩
  · exact ⟨vfs, 8, by decide +kernel⟩
  · exact ⟨vfs, 9, by decide +kernel⟩
  · exact ⟨0, up, by decide +kernel⟩
  · exact ⟨9, vfs, by decide +kernel⟩

/-- Witnesses of `Obligations.VectorsFire`. -/
theorem witness_VectorsFire :
    (∃ (fn : Nat) (vec : Nat) (s : State) (x : Option MsixEntry), Wired s ∧ fn ≤ 8 ∧ (vec < if fn = 0 then 2048 else
      16) ∧ s.vecPending fn vec = true ∧
      (match x with | none => { s.msixEntry fn vec with mask := false } | some y => { y with addr := BitVec.ofNat 64 (BitVec.toNat y.addr / 4 * 4) }).mask
      = false ∧ (s.ctl fn).msixEn = true ∧ (s.ctl fn).msixMask = false ∧ s.fnLive fn = true) ∧
    (∃ (fn : Nat) (vec : Nat) (s : State) (x : Option MsixEntry), Wired s ∧ fn ≤ 8 ∧ (vec < if fn = 0 then 2048 else
      16) ∧ (s.vecPending fn vec = false ∨
      (match x with | none => { s.msixEntry fn vec with mask := false } | some y => { y with addr := BitVec.ofNat 64 (BitVec.toNat y.addr / 4 * 4) }).mask
      = true ∨ (s.ctl fn).msixEn = false ∨ (s.ctl fn).msixMask = true ∨ s.fnLive fn = false)) ∧
    (∃ (fn : Nat) (vec : Nat) (s : State) (n : Nat), Wired s ∧ fn ≤ 8 ∧ (vec < if fn = 0 then 2048 else 16) ∧ s.isOff
      5 n = false ∧ (s.ring n).fn = fn ∧ (s.ring n).vec = vec ∧ 0 < (s.ring n).unsignalled ∧ (s.ring n).modTime ≠ 0 ∧
      (s.ring n).oldest + usT (s.ring n).modTime ≤ s.elapsed ∧ s.fnLive fn = true ∧ s.vecOpen fn vec = true) ∧
    (∃ (fn : Nat) (vec : Nat) (s : State) (n : Nat), Wired s ∧ fn ≤ 8 ∧ (vec < if fn = 0 then 2048 else 16) ∧ s.isOff
      5 n = false ∧ (s.ring n).fn = fn ∧ (s.ring n).vec = vec ∧ 0 < (s.ring n).unsignalled ∧ (s.ring n).modTime ≠ 0 ∧
      (s.ring n).oldest + usT (s.ring n).modTime ≤ s.elapsed ∧ s.fnLive fn = true ∧ s.vecOpen fn vec = false) ∧
    (∃ (fn : Nat) (vec : Nat) (s : State) (n : Nat), Wired s ∧ fn ≤ 8 ∧ (vec < if fn = 0 then 2048 else 16) ∧ ((s.ring
      n).unsignalled = 0 ∨ (s.ring n).modTime = 0 ∨ s.elapsed < (s.ring n).oldest + usT (s.ring n).modTime)) := by
  refine ⟨?_, ?_, ?_, ?_, ?_⟩
  · exact ⟨0, 2047, written (A.msixPba 63) 0x80000000 msixOn, none, by decide +kernel⟩
  · exact ⟨0, 2047, up, none, by decide +kernel⟩
  · exact ⟨0, 2047, written (A.msixCtl 2047) 0 (modRing9 100 msixOn), 9, by decide +kernel⟩
  · exact ⟨0, 2047, modRing9 100, 9, by decide +kernel⟩
  · exact ⟨0, 2047, modRing9 101, 9, by decide +kernel⟩

/-- Witnesses of `Obligations.DoorbellsAndDescriptors`. -/
theorem witness_DoorbellsAndDescriptors :
    (∃ (s : State), Wired s ∧ s.roundDue = true ∧ (∀ (n : Nat), (s.ring n).toFetch = 0)) ∧
    (∃ (s : State), Wired s ∧ s.roundDue = false) ∧
    (∃ (s : State) (fn : Nat), Wired s ∧ s.host.summaryOut.contains fn = false) ∧
    (∃ (s : State) (fn : Nat), Wired s ∧ s.host.summaryOut.contains fn = true ∧ s.fnLive fn = false) ∧
    (∃ (s : State) (fn : Nat), Wired s ∧ s.host.summaryOut.contains fn = true ∧ s.fnLive fn = true ∧ s.scanMode =
      false) ∧
    (∃ (s : State) (fn : Nat), Wired s ∧ s.host.summaryOut.contains fn = true ∧ s.fnLive fn = true ∧ s.scanMode =
      true) ∧
    (∃ (s : State) (fn : Nat) (w : Nat), Wired s ∧ s.swapIsOut fn w = false) ∧
    (∃ (s : State) (fn : Nat) (w : Nat), Wired s ∧ s.swapIsOut fn w = true) ∧
    (∃ (n : Nat) (s : State), Wired s ∧ s.host.prodOut.contains n = false) ∧
    (∃ (n : Nat) (s : State), Wired s ∧ s.host.prodOut.contains n = true ∧ (s.isOn 5 n = false ∨ (s.ring n).stopped =
      true)) ∧
    (∃ (n : Nat) (s : State) (p : BitVec 32), Wired s ∧ s.host.prodOut.contains n = true ∧ s.isOn 5 n = true ∧ (s.ring
      n).stopped = false ∧ (p.toNat + 4294967296 - (s.ring n).c) % 4294967296 ≤ 2 ^ (s.ring n).log2) ∧
    (∃ (n : Nat) (s : State) (p : BitVec 32), Wired s ∧ s.host.prodOut.contains n = true ∧ s.isOn 5 n = true ∧ (s.ring
      n).stopped = false ∧ 2 ^ (s.ring n).log2 < (p.toNat + 4294967296 - (s.ring n).c) % 4294967296) ∧
    (∃ (n : Nat) (s : State) (ds : List (List Byte)), Wired s ∧ s.isOn 5 n = true ∧ (s.ring n).stopped = false ∧ 0 <
      (s.ring n).asked ∧ ds.length = (s.ring n).asked ∧ (s.ring n).type ≠ 4) ∧
    (∃ (n : Nat) (s : State) (ds : List (List Byte)), Wired s ∧ (s.isOn 5 n = false ∨ (s.ring n).stopped = true ∨
      (s.ring n).asked = 0 ∨ ds.length ≠ (s.ring n).asked)) := by
  refine ⟨?_, ?_, ?_, ?_, ?_, ?_, ?_, ?_, ?_, ?_, ?_, ?_, ?_, ?_⟩
  · exact ⟨reader fun h => { linkUp := true, bme := [(0, true)] }, by decide +kernel, by decide +kernel, fun _ => (by
    decide +kernel : Ring.toFetch {} = 0)⟩
  · exact ⟨reader fun h => { h with prodOut := [3] }, by decide +kernel⟩
  · exact ⟨up, 8, by decide +kernel⟩
  · exact ⟨reader (fun h => { h with summaryOut := [3] }), 3, by decide +kernel⟩
  · exact ⟨reader (fun h => { h with summaryOut := [8, 0] }), 0, by decide +kernel⟩
  · exact ⟨written A.hostDbCfg 0x10014 (reader (fun h => { h with summaryOut := [0] })), 0, by decide +kernel⟩
  · exact ⟨up, 0, 63, by decide +kernel⟩
  · exact ⟨reader (fun h => { h with swapOut := [(0, 0)] }), 0, 0, by decide +kernel⟩
  · exact ⟨5, up, by decide +kernel⟩
  · exact ⟨3, reader fun h => { h with prodOut := [3] }, by decide +kernel⟩
  · exact ⟨0, reader (fun h => { h with prodOut := [0] }), 64, by decide +kernel⟩
  · exact ⟨0, reader (fun h => { h with prodOut := [0] }), 65, by decide +kernel⟩
  · exact ⟨0, up.modRing 0 (fun r => { r with asked := 1 }), [[]], by decide +kernel⟩
  · exact ⟨5, up, [], by decide +kernel⟩

/-- Witnesses of `Obligations.HostErrorsAndReceive`. -/
theorem witness_HostErrorsAndReceive :
    (∃ (n : Nat) (fn : Nat) (s : State), Up s ∧ (s.ring n).fn = fn ∧ s.isOff 5 n = false ∧ 0 < (s.ring n).asked) ∧
    (∃ (n : Nat) (fn : Nat) (s : State), Up s ∧ (s.ring n).fn = fn ∧ s.isOff 5 n = false ∧ (s.ring n).asked = 0) ∧
    (∃ (n : Nat) (fn : Nat) (s : State), Up s ∧ (s.ring n).fn = fn ∧ s.isOff 5 n = false ∧ s.host.prodOut.contains n =
      true) ∧
    (∃ (n : Nat) (fn : Nat) (s : State), Up s ∧ (s.ring n).fn = fn ∧ s.isOff 5 n = false ∧ s.host.prodOut.contains n =
      false) ∧
    (∃ (n : Nat) (fn : Nat) (s : State), Up s ∧ (s.ring n).fn = fn ∧ s.isOff 5 n = false ∧ (s.ring n).type ≠ 2 ∧
      (s.ring n).type ≠ 3) ∧
    (∃ (n : Nat) (fn : Nat) (s : State) (d : List Byte) (ds : List (List Byte)), Up s ∧ (s.ring n).fn = fn ∧ s.isOff 5
      n = false ∧ (s.ring n).type = 3 ∧ (s.ring n).fetched = d :: ds) ∧
    (∃ (n : Nat) (fn : Nat) (s : State), Up s ∧ (s.ring n).fn = fn ∧ s.isOff 5 n = true) ∧
    (∃ (fn : Nat) (s : State), Up s ∧ s.host.summaryOut.contains fn = true) ∧
    (∃ (fn : Nat) (s : State), Up s ∧ s.host.summaryOut.contains fn = false) ∧
    (∃ (fn : Nat) (a : W64) (s : State), Up s ∧ s.swapIsOut fn ((BitVec.toNat a - (s.dbArea fn + 16384)) / 8) = true) ∧
    (∃ (fn : Nat) (a : W64) (s : State), Up s ∧ s.swapIsOut fn ((BitVec.toNat a - (s.dbArea fn + 16384)) / 8) = false) ∧
    (∃ (s : State), Up s ∧ s.host.inbox = []) ∧
    (∃ (f : WholeFrame) (fs : List WholeFrame) (s : State), Up s ∧ s.host.inbox = f :: fs ∧ s.ringIs (s.rxRing f.hdr)
      1 = true ∧ s.fnLive (s.ring (s.rxRing f.hdr)).fn = true ∧ (atLeast1 (cdiv f.bytes.length (256 * (s.ring
      (s.rxRing f.hdr)).bufSize))) ≤ (s.ring (s.rxRing f.hdr)).fetched.length) ∧
    (∃ (f : WholeFrame) (fs : List WholeFrame) (s : State), Up s ∧ s.host.inbox = f :: fs ∧ (s.ringIs (s.rxRing f.hdr)
      1 = false ∨ s.fnLive (s.ring (s.rxRing f.hdr)).fn = false ∨ (s.ring (s.rxRing f.hdr)).fetched.length < (atLeast1
      (cdiv f.bytes.length (256 * (s.ring (s.rxRing f.hdr)).bufSize))))) := by
  refine ⟨?_, ?_, ?_, ?_, ?_, ?_, ?_, ?_, ?_, ?_, ?_, ?_, ?_, ?_⟩
  · exact ⟨0, 0, up.modRing 0 fun r => { r with asked := 1 }, by decide +kernel⟩
  · exact ⟨0, 0, reader fun h => { h with prodOut := [0], swapOut := [(0, 1), (1, 1)] }, by decide +kernel⟩
  · exact ⟨0, 0, reader fun h => { h with prodOut := [0], swapOut := [(0, 1), (1, 1)] }, by decide +kernel⟩
  · exact ⟨1, 0, up, by decide +kernel⟩
  · exact ⟨1, 0, up, by decide +kernel⟩
  · exact ⟨0, 0, up, List.replicate 32 0, [], by decide +kernel⟩
  · exact ⟨5, 0, up, by decide +kernel⟩
  · exact ⟨0, reader fun h => { h with summaryOut := [0] }, by decide +kernel⟩
  · exact ⟨0, reader fun h => { h with prodOut := [0], swapOut := [(0, 1), (1, 1)] }, by decide +kernel⟩
  · exact ⟨0, 16384, reader fun h => { h with swapOut := [(0, 0, 0)] }, by decide +kernel⟩
  · exact ⟨0, 4096, reader fun h => { h with prodOut := [0], swapOut := [(0, 1), (1, 1)] }, by decide +kernel⟩
  · exact ⟨reader fun h => { h with prodOut := [0], swapOut := [(0, 1), (1, 1)] }, by decide +kernel⟩
  · exact ⟨{ bytes := List.replicate 257 1 }, [], inboxOf { bytes := List.replicate 257 1 }
    { type := 1, fetched := [[], []] }, by decide +kernel⟩
  · exact ⟨{}, [], inboxOf {} { type := 1 }, by decide +kernel⟩

/-- Witnesses of `Obligations.TransmitFrames`. -/
theorem witness_TransmitFrames :
    (∃ (n : Nat) (bufs : List HostRead) (s : State), Wired s ∧ (txChain 8 (s.ring n).fetched = [] ∨ s.isOff 5 n = true
      ∨ (s.ring n).type ≠ 2 ∨ s.fnLive (s.ring n).fn = false ∨ chainWhole (txChain 8 (s.ring n).fetched) = false ∨
      bufs.length ≠ (txChain 8 (s.ring n).fetched).length)) ∧
    (∃ (n : Nat) (bufs : List HostRead) (s : State) (d : List Byte), Wired s ∧ txChain 8 (s.ring n).fetched = [d] ∧
      s.isOff 5 n = false ∧ (s.ring n).type = 2 ∧ s.fnLive (s.ring n).fn = true ∧ chainWhole [d] = true ∧ bufs.length
      = 1 ∧ txDescOk d = false) ∧
    (∃ (n : Nat) (bufs : List HostRead) (s : State) (d : List Byte), Wired s ∧ txChain 8 (s.ring n).fetched = [d] ∧
      s.isOff 5 n = false ∧ (s.ring n).type = 2 ∧ s.fnLive (s.ring n).fn = true ∧ chainWhole [d] = true ∧ bufs.length
      = 1 ∧ txDescOk d = true ∧ s.portExists (leAt d 10 2) = false) ∧
    (∃ (n : Nat) (bufs : List HostRead) (s : State) (d : List Byte), Wired s ∧ txChain 8 (s.ring n).fetched = [d] ∧
      s.isOff 5 n = false ∧ (s.ring n).type = 2 ∧ s.fnLive (s.ring n).fn = true ∧ chainWhole [d] = true ∧ bufs.length
      = 1 ∧ txDescOk d = true ∧ bit (leAt d 12 1) 4 = false ∧ s.portExists (leAt d 10 2) = true ∧ (s.hostLost = true ∨
      s.portUnreachable (leAt d 10 2) = true)) ∧
    (∃ (n : Nat) (s : State) (d : List Byte), Wired s ∧ txChain 8 (s.ring n).fetched = [d] ∧ s.isOff 5 n = false ∧
      (s.ring n).type = 2 ∧ s.fnLive (s.ring n).fn = true ∧ chainWhole [d] = true ∧ [HostRead.err].length = 1 ∧
      txDescOk d = true ∧ s.portExists (leAt d 10 2) = true ∧ s.hostLost = false ∧ s.portUnreachable (leAt d 10 2) =
      false ∧ (bit (leAt d 12 1) 4 = false ∨ leAt d 10 2 < 1024)) ∧
    (∃ (n : Nat) (s : State) (d : List Byte) (b : List Byte), Wired s ∧ txChain 8 (s.ring n).fetched = [d] ∧ s.isOff 5
      n = false ∧ (s.ring n).type = 2 ∧ s.fnLive (s.ring n).fn = true ∧ chainWhole [d] = true ∧ ([HostRead.ok
      b]).length = 1 ∧ txDescOk d = true ∧ s.portExists (leAt d 10 2) = true ∧ s.hostLost = false ∧ s.portUnreachable
      (leAt d 10 2) = false ∧ (bit (leAt d 12 1) 4 = false ∨ leAt d 10 2 < 1024) ∧ ((List.take (leAt d 8 2) b).length
      < 60 ∨ s.maxFrame (leAt d 10 2) - 4 < (List.take (leAt d 8 2) b).length)) ∧
    (∃ (n : Nat) (s : State) (d : List Byte) (b : List Byte), Wired s ∧ txChain 8 (s.ring n).fetched = [d] ∧ s.isOff 5
      n = false ∧ (s.ring n).type = 2 ∧ s.fnLive (s.ring n).fn = true ∧ chainWhole [d] = true ∧ ([HostRead.ok
      b]).length = 1 ∧ txDescOk d = true ∧ s.portExists (leAt d 10 2) = true ∧ s.hostLost = false ∧ s.portUnreachable
      (leAt d 10 2) = false ∧ (bit (leAt d 12 1) 4 = false ∨ leAt d 10 2 < 1024) ∧ 60 ≤ (List.take (leAt d 8 2)
      b).length ∧ (List.take (leAt d 8 2) b).length ≤ s.maxFrame (leAt d 10 2) - 4 ∧ bit (leAt d 12 1) 4 = true) ∧
    (∃ (n : Nat) (s : State) (d : List Byte) (b : List Byte), Wired s ∧ txChain 8 (s.ring n).fetched = [d] ∧ s.isOff 5
      n = false ∧ (s.ring n).type = 2 ∧ s.fnLive (s.ring n).fn = true ∧ chainWhole [d] = true ∧ ([HostRead.ok
      b]).length = 1 ∧ txDescOk d = true ∧ s.portExists (leAt d 10 2) = true ∧ s.hostLost = false ∧ s.portUnreachable
      (leAt d 10 2) = false ∧ (bit (leAt d 12 1) 4 = false ∨ leAt d 10 2 < 1024) ∧ 60 ≤ (List.take (leAt d 8 2)
      b).length ∧ (List.take (leAt d 8 2) b).length ≤ s.maxFrame (leAt d 10 2) - 4 ∧ bit (leAt d 12 1) 4 = false ∧
      s.mayTake s.tour.attHost 65 < cellsOf (List.take (leAt d 8 2) b).length) ∧
    (∃ (n : Nat) (s : State) (d : List Byte) (b : List Byte) (u : State) (held : Bool), Wired s ∧ txChain 8 (s.ring
      n).fetched = [d] ∧ s.isOff 5 n = false ∧ (s.ring n).type = 2 ∧ s.fnLive (s.ring n).fn = true ∧ chainWhole [d] =
      true ∧ ([HostRead.ok b]).length = 1 ∧ txDescOk d = true ∧ s.portExists (leAt d 10 2) = true ∧ s.hostLost = false
      ∧ s.portUnreachable (leAt d 10 2) = false ∧ (bit (leAt d 12 1) 4 = false ∨ leAt d 10 2 < 1024) ∧ 60 ≤ (List.take
      (leAt d 8 2) b).length ∧ (List.take (leAt d 8 2) b).length ≤ s.maxFrame (leAt d 10 2) - 4 ∧ bit (leAt d 12 1) 4
      = false ∧ cellsOf (List.take (leAt d 8 2) b).length ≤ s.mayTake s.tour.attHost 65 ∧ bit (leAt d 12 1) 6 = false
      ∧ (s.portIn 1088 (List.take (leAt d 8 2) b).length).freshFid.1.takeIn s.tour.attHost 5 2 65
      ({ fid := s.nextFid, length := (List.take (leAt d 8 2) b).length, iport := 1088, ingressNs := s.stamp32, cls := leAt d 12 1 % 16, inj := true })
      { eport := leAt d 10 2, cls := leAt d 12 1 % 16 } = (u, some held)) := by
  refine ⟨?_, ?_, ?_, ?_, ?_, ?_, ?_, ?_, ?_⟩
  · exact ⟨9, [], txRing [], by decide +kernel⟩
  · exact ⟨9, [.err], txRing [txDesc 0 0 0], txDesc 0 0 0, by decide +kernel⟩
  · exact ⟨9, [.err], txRing [txDesc 60 1091 0], txDesc 60 1091 0, by decide +kernel⟩
  · exact ⟨9, [.err], txRing [txDesc 60 1088 0] lostHost, txDesc 60 1088 0, by decide +kernel⟩
  · exact ⟨9, txRing [txDesc 60 0 0], txDesc 60 0 0, by decide +kernel⟩
  · exact ⟨9, txRing [txDesc 60 0 0], txDesc 60 0 0, [], by decide +kernel⟩
  · exact ⟨9, txRing [txDesc 60 0 16], txDesc 60 0 16, List.replicate 60 1, by decide +kernel⟩
  · exact ⟨9, forced (A.bufQuotaHost 27) 0 (txRing [txDesc 60 0 0]), txDesc 60 0 0, List.replicate 60 1, by
    decide +kernel⟩
  · exact ⟨9, txState, txDesc 60 0 3, List.replicate 60 1, txTaken.1, false, by decide +kernel⟩

/-- Witnesses of `Obligations.FramesAtTheMac`. -/
theorem witness_FramesAtTheMac :
    (∃ (p : Nat) (s : State), Wired s ∧ (s.portLive p = false ∨ (s.link p).up = false)) ∧
    (∃ (p : Nat) (data : List Byte) (s : State), Wired s ∧ s.portLive p = true ∧ (s.link p).up = true ∧ data.length +
      4 < 64) ∧
    (∃ (p : Nat) (data : List Byte) (s : State), Wired s ∧ s.portLive p = true ∧ (s.link p).up = true ∧ 64 ≤
      data.length + 4 ∧ s.maxFrame p < data.length + 4 ∧ (s.isDraining 0 p = true ∨ s.cutsThrough p (List.take
      (s.maxFrame p - 4) data) = false)) ∧
    (∃ (p : Nat) (data : List Byte) (s : State), Wired s ∧ s.portLive p = true ∧ (s.link p).up = true ∧ 64 ≤
      data.length + 4 ∧ s.maxFrame p < data.length + 4 ∧ s.isDraining 0 p = false ∧ s.cutsThrough p (List.take
      (s.maxFrame p - 4) data) = true) ∧
    (∃ (p : Nat) (data : List Byte) (fcsBad : Bool) (errored : Bool) (s : State), Wired s ∧ s.portLive p = true ∧
      (s.link p).up = true ∧ 64 ≤ data.length + 4 ∧ data.length + 4 ≤ s.maxFrame p ∧ (macControl data 1 = true ∨
      ((fcsBad || errored)) = true ∧ macControl data 257 = true)) ∧
    (∃ (p : Nat) (data : List Byte) (fcsBad : Bool) (errored : Bool) (s : State), Wired s ∧ s.portLive p = true ∧
      (s.link p).up = true ∧ 64 ≤ data.length + 4 ∧ data.length + 4 ≤ s.maxFrame p ∧ macControl data 1 = false ∧
      macControl data 257 = true ∧ ((fcsBad || errored)) = false) ∧
    (∃ (p : Nat) (data : List Byte) (s : State), Wired s ∧ s.portLive p = true ∧ (s.link p).up = true ∧ 64 ≤
      data.length + 4 ∧ data.length + 4 ≤ s.maxFrame p ∧ macControl data 1 = false ∧ macControl data 257 = false ∧
      s.isDraining 0 p = true) ∧
    (∃ (p : Nat) (data : List Byte) (s : State) (e : Nat) (out : Nat) (cls : Nat), Wired s ∧ s.portLive p = true ∧
      (s.link p).up = true ∧ 64 ≤ data.length + 4 ∧ data.length + 4 ≤ s.maxFrame p ∧ macControl data 1 = false ∧
      macControl data 257 = false ∧ s.isDraining 0 p = false ∧ s.blitzEntry p (parse (s.parseCfgOf (p / 16) p none)
      data) = some (e, out, cls)) ∧
    (∃ (p : Nat) (data : List Byte) (s : State), Wired s ∧ s.portLive p = true ∧ (s.link p).up = true ∧ 64 ≤
      data.length + 4 ∧ data.length + 4 ≤ s.maxFrame p ∧ macControl data 1 = false ∧ macControl data 257 = false ∧
      s.isDraining 0 p = false ∧ s.blitzEntry p (parse (s.parseCfgOf (p / 16) p none) data) = none ∧ 64 ≤ ((if s.joins
      (p / 16) (s.rxLane p) (s.preview (p / 16) s.book.epoch (parse (s.parseCfgOf (p / 16) p none) data)) = true then
      s else s.closeCell (p / 16) (s.rxLane p)).xing (p / 16) (s.rxLane p)).length) ∧
    (∃ (p : Nat) (data : List Byte) (s : State), Wired s ∧ s.portLive p = true ∧ (s.link p).up = true ∧ 64 ≤
      data.length + 4 ∧ data.length + 4 ≤ s.maxFrame p ∧ macControl data 1 = false ∧ macControl data 257 = false ∧
      s.isDraining 0 p = false ∧ s.blitzEntry p (parse (s.parseCfgOf (p / 16) p none) data) = none ∧ ((if s.joins (p /
      16) (s.rxLane p) (s.preview (p / 16) s.book.epoch (parse (s.parseCfgOf (p / 16) p none) data)) = true then s
      else s.closeCell (p / 16) (s.rxLane p)).xing (p / 16) (s.rxLane p)).length < 64 ∧ (∀ c ∈ (s.openCell (p / 16)
      (s.rxLane p)).cell :: (s.xing (p / 16) (s.rxLane p) ++ SMap.get (fun x => []) (s.sq (p / 16)).backlog (s.rxLane
      p)), ∀ g ∈ c.segs, g.fid ≠ s.nextFid)) := by
  refine ⟨?_, ?_, ?_, ?_, ?_, ?_, ?_, ?_, ?_, ?_⟩
  · exact ⟨5, up, by decide +kernel⟩
  · exact ⟨0, List.replicate 59 1, port0Up, by decide +kernel⟩
  · exact ⟨0, List.replicate 9597 1, port0Up, by decide +kernel⟩
  · exact ⟨0, List.replicate 9597 0, blitzOn, by decide +kernel⟩
  · exact ⟨0, macFrame 1, true, false, port0Up, by decide +kernel⟩
  · exact ⟨0, macFrame 0x101, false, false, port0Up, by decide +kernel⟩
  · exact ⟨0, List.replicate 60 1, fnAt 0 0 { st := .draining } port0Up, by decide +kernel⟩
  · exact ⟨0, List.replicate 60 0, blitzOn, 0, 0, 0, by decide +kernel⟩
  · exact ⟨0, List.replicate 60 0, sqAt 0 (fun q => { q with xing := [(0, List.replicate 64 rawCell)] }) port0Up, by
    decide +kernel⟩
  · exact ⟨0, List.replicate 60 0, port0Up, by decide +kernel⟩

/-- Witnesses of `Obligations.CrossingsAndPauses`. -/
theorem witness_CrossingsAndPauses :
    (∃ (i : Nat) (l : Nat) (s : State) (e : Nat), Up s ∧ (s.openCell i l).endSlot = some e ∧ e + s.packHold ≤
      s.tour.slot ∧ (s.openCell i l).cell.segs ≠ []) ∧
    (∃ (i : Nat) (l : Nat) (s : State), Up s ∧ ((s.openCell i l).endSlot = none ∨ ∃ e, (s.openCell i l).endSlot = some
      e ∧ s.tour.slot < e + s.packHold)) ∧
    (∃ (i : Nat) (s : State) (f : RecircFrame) (fs : List RecircFrame), Up s ∧ (s.sq i).recirc = f :: fs ∧ (s.xing i
      4).length < 32) ∧
    (∃ (i : Nat) (s : State), Up s ∧ ((s.sq i).recirc = [] ∨ 32 ≤ (s.xing i 4).length)) ∧
    (∃ (p : Nat) (s : State), p < 1024 ∧ Wired s ∧ s.portLive p = true ∧ (s.link p).up = true) ∧
    (∃ (p : Nat) (s : State), p < 1024 ∧ Wired s ∧ (s.portLive p = false ∨ (s.link p).up = false)) ∧
    (∃ (p : Nat) (s : State) (k : Nat), p < 1024 ∧ Up s ∧ s.elapsed < SMap.get (fun x => 0) (s.sq (p / 16)).pause (8 *
      (p % 16) + k)) ∧
    (∃ (p : Nat) (s : State) (k : Nat), p < 1024 ∧ Up s ∧ SMap.get (fun x => 0) (s.sq (p / 16)).pause (8 * (p % 16) +
      k) ≤ s.elapsed) ∧
    (∃ (p : Nat) (s : State) (k : Nat), p < 1024 ∧ k < 8 ∧ Up s ∧ s.inXoff p k = true ∧ (s.link p).up = true ∧
      SMap.get (fun x => 0) (s.sq (p / 16)).xoffAt (8 * (p % 16) + k) + s.quanta * 256 * tickNs / s.carriedRate p ≤
      s.elapsed) ∧
    (∃ (p : Nat) (s : State) (k : Nat), p < 1024 ∧ Up s ∧ (s.inXoff p k = false ∨ (s.link p).up = false ∨ s.elapsed <
      SMap.get (fun x => 0) (s.sq (p / 16)).xoffAt (8 * (p % 16) + k) + s.quanta * 256 * tickNs / s.carriedRate p)) := by
  refine ⟨?_, ?_, ?_, ?_, ?_, ?_, ?_, ?_, ?_, ?_⟩
  · exact ⟨63, 3, slotAt (fun t => { t with slot := 100 }) (forced A.tourCfg 0x0A000000 (sqAt 63 fun q =>
    { q with opened := [(3, { cell := rawCell, endSlot := some 90 })] })), 90, by decide +kernel⟩
  · exact ⟨0, 0, up, by decide +kernel⟩
  · exact ⟨63, sqAt 63 (fun q => { q with recirc := [{ hdr := { fid := 9 }, bytes := List.replicate 600 1 }, {}] }),
    { hdr := { fid := 9 }, bytes := List.replicate 600 1 }, [{}], by decide +kernel⟩
  · exact ⟨63, up, by decide +kernel⟩
  · exact ⟨0, port0Up, by decide +kernel⟩
  · exact ⟨5, up, by decide +kernel⟩
  · exact ⟨1023, sqAt 63 (fun q => { q with pause := [(127, t10 + 1)] }), 7, by decide +kernel⟩
  · exact ⟨1023, sqAt 63 (fun q => { q with pause := [(127, t10)] }), 7, by decide +kernel⟩
  · exact ⟨0, port0Up.modSq 0 (fun q => { q with xoff := [(7, true)] }), 7, by decide +kernel⟩
  · exact ⟨1023, sqAt 63 (fun q => { q with pause := [(127, t10 + 1)] }), 7, by decide +kernel⟩

/-- Witnesses of `Obligations.CellsAtTheCore`. -/
theorem witness_CellsAtTheCore :
    (∃ (i : Nat) (l : Nat) (s : State), Up s ∧ (s.xing i l = [] ∨ s.coreTurn i l = false)) ∧
    (∃ (i : Nat) (l : Nat) (ue : Option EccErr) (c : RawCell) (rest : List RawCell) (s : State), Up s ∧ s.xing i l = c
      :: rest ∧ s.coreTurn i l = true ∧ (List.map (fun g => ((List.foldl (fun s f => s.startFrame i l f.1.1 f.1.2 (if
      f.2 = 0 then ue else none)) s (s.undecided i c).zipIdx).piecesOf i g).2.1.length) (List.foldl (routeSeg
      ((List.foldl (fun s f => s.startFrame i l f.1.1 f.1.2 (if f.2 = 0 then ue else none)) s (s.undecided i
      c).zipIdx).sq i).verdicts) [] c.segs)).sum ≤ (List.foldl (fun s f => s.startFrame i l f.1.1 f.1.2 (if f.2 = 0
      then ue else none)) s (s.undecided i c).zipIdx).mayTake i i) ∧
    (∃ (i : Nat) (l : Nat) (ue : Option EccErr) (c : RawCell) (rest : List RawCell) (s : State), Up s ∧ s.xing i l = c
      :: rest ∧ s.coreTurn i l = true ∧ (List.foldl (fun s f => s.startFrame i l f.1.1 f.1.2 (if f.2 = 0 then ue else
      none)) s (s.undecided i c).zipIdx).mayTake i i < (List.map (fun g => ((List.foldl (fun s f => s.startFrame i l
      f.1.1 f.1.2 (if f.2 = 0 then ue else none)) s (s.undecided i c).zipIdx).piecesOf i g).2.1.length) (List.foldl
      (routeSeg ((List.foldl (fun s f => s.startFrame i l f.1.1 f.1.2 (if f.2 = 0 then ue else none)) s (s.undecided i
      c).zipIdx).sq i).verdicts) [] c.segs)).sum) ∧
    (∃ (i : Nat) (e : Nat) (c : Nat) (s : State), Up s ∧ ((s.ctxIn i { eport := e, cls := c }).owner ≠ none ∨ (s.ctxIn
      i { eport := e, cls := c }).deferred = [])) ∧
    (∃ (i : Nat) (e : Nat) (c : Nat) (s : State) (d : Deferred) (ds : List Deferred), Up s ∧ (s.ctxIn i
      { eport := e, cls := c }).owner = none ∧ (s.ctxIn i { eport := e, cls := c }).deferred = d :: ds ∧ d.cells ≠ []) ∧
    (∃ (i : Nat) (s : State) (q : Nat), Up s ∧ (3 ≤ s.seenLevel i q ∨ (List.filter (fun k => match tget (s.sq i).cells
      k with | some x => 16 * x.ctx.eport + x.ctx.cls == q | none => false) (s.sq i).heldCells) = [])) ∧
    (∃ (i : Nat) (s : State) (q : Nat), Up s ∧ s.seenLevel i q < 3 ∧ (List.filter (fun k => match tget (s.sq i).cells
      k with | some x => 16 * x.ctx.eport + x.ctx.cls == q | none => false) (s.sq i).heldCells) ≠ []) ∧
    (∃ (i : Nat) (s : State), Up s ∧ (s.sq i).blitz = []) ∧
    (∃ (i : Nat) (s : State) (b : BlitzRec) (bs : List BlitzRec) (h : EccErr), Up s ∧ (s.sq i).blitz = b :: bs ∧
      ((s.modSq i fun q => { q with blitz := bs }).blitzLook i b (some h)).2.2 = true) ∧
    (∃ (i : Nat) (s : State) (b : BlitzRec) (bs : List BlitzRec) (x : Option EccErr), Up s ∧ (s.sq i).blitz = b :: bs
      ∧ ((s.modSq i fun q => { q with blitz := bs }).blitzLook i b x).2.2 = false) := by
  refine ⟨?_, ?_, ?_, ?_, ?_, ?_, ?_, ?_, ?_, ?_⟩
  · exact ⟨0, 0, up, by decide +kernel⟩
  · exact ⟨63, 3, none, rawCell, [], sqAt 63 (fun q =>
    { q with xing := [(3, [rawCell])], verdicts := routedTo 1023 15 }), by decide +kernel⟩
  · exact ⟨0, 0, none, rawCell, [], forced (A.bufQuotaOwn 0) 0 (sqAt 0 (fun q =>
    { q with xing := [(0, [rawCell])], verdicts := routedTo 0 3 })), by decide +kernel⟩
  · exact ⟨0, 0, 0, up, by decide +kernel⟩
  · exact ⟨0, 5, 3, sqAt 0 (fun q => { q with ctxIn := [(83,
    { next := 4194303, deferred := [{ fid := 9, cells := [1, 2], done := true }] })], cells := [(1,
    { st := .deferred }), (2, { st := .deferred })] }), { fid := 9, cells := [1, 2], done := true }, [], by
    decide +kernel⟩
  · exact ⟨0, up, 83, by decide +kernel⟩
  · exact ⟨0, sqAt 0 (fun q => { q with viewLevel := [(83, 2)], heldCells := [1, 2], cells := [(1,
    { ctx := { eport := 5, cls := 3 }, st := .held }), (2, { st := .held })] }), 83, by decide +kernel⟩
  · exact ⟨3, up, by decide +kernel⟩
  · exact ⟨0, blitzing bridged, blitzRec, [], { double := false }, by decide +kernel⟩
  · exact ⟨0, blitzing up, blitzRec, [], none, by decide +kernel⟩

/-- Witnesses of `Obligations.SlotCycle`. -/
theorem witness_SlotCycle :
    (∃ (s : State), Up s ∧ s.mayRelease = false) ∧
    (∃ (d0 : Nat) (d1 : Nat) (d2 : Nat) (s : State), Up s ∧ s.mayRelease = true ∧ ((s.majority fun c => if c = 0 then
      d0 else if c = 1 then d1 else d2) = none)) ∧
    (∃ (d0 : Nat) (d1 : Nat) (d2 : Nat) (s : State) (w : Nat), Up s ∧ s.mayRelease = true ∧ ((s.majority fun c => if c
      = 0 then d0 else if c = 1 then d1 else d2) = some w)) ∧
    (∃ (s : State), Up s ∧ s.tour.released = true ∧ s.tour.unfinished = 0 ∧ s.triad.hold = none) ∧
    (∃ (s : State), Up s ∧ (s.tour.released = false ∨ s.tour.unfinished ≠ 0 ∨ s.triad.hold.isSome = true)) ∧
    (∃ (s : State), Up s ∧ s.tour.released = true ∧ s.tour.unfinished ≠ 0 ∧ s.tour.releasedAt + s.stallTime ≤
      s.elapsed) ∧
    (∃ (s : State), Up s ∧ (s.tour.released = false ∨ s.tour.unfinished = 0 ∨ s.elapsed < s.tour.releasedAt +
      s.stallTime)) := by
  refine ⟨?_, ?_, ?_, ?_, ?_, ?_, ?_⟩
  · exact ⟨up, by decide +kernel⟩
  · exact ⟨1, 2, 3, slotAt id, by decide +kernel⟩
  · exact ⟨1, 1, 3, slotAt (fun t => { t with slot := 7 }), 1, by decide +kernel⟩
  · exact ⟨slotAt (fun t => { t with slot := 2 ^ 64 - 1, released := true }), by decide +kernel⟩
  · exact ⟨up, by decide +kernel⟩
  · exact ⟨slotAt (fun t => { t with released := true, unfinished := 2 ^ 63 + 2 }), by decide +kernel⟩
  · exact ⟨slotAt (fun t => { t with released := true, unfinished := 2, releasedAt := t10 }), by decide +kernel⟩

/-- Witnesses of `Obligations.PeriodsAndTheStart`. -/
theorem witness_PeriodsAndTheStart :
    (∃ (s : State), Up s ∧ (s.tour.boundary = false ∨ s.triad.hold.isSome = true ∨ s.triad.lost = true)) ∧
    (∃ (s : State), Up s ∧ s.tour.boundary = true ∧ s.triad.hold = none ∧ s.triad.lost = false) ∧
    (∃ (s : State), Up s ∧ (s.tour.running = true ∨ s.turnDue = false)) ∧
    (∃ (s : State) (x : Turn), Up s ∧ s.tour.running = false ∧ s.turnDue = true ∧ s.book.turn = some x) := by
  refine ⟨?_, ?_, ?_, ?_⟩
  · exact ⟨slotAt id, by decide +kernel⟩
  · exact ⟨slotAt fun t => { t with boundary := true, slot := 64, x := 6, rejoin := 4 }, by decide +kernel⟩
  · exact ⟨slotAt id, by decide +kernel⟩
  · exact ⟨withTurn 0x400, { epoch := 1, mask := 0x400 }, by decide +kernel⟩

/-- Witnesses of `Obligations.MeshHousekeeping`. -/
theorem witness_MeshHousekeeping :
    (∃ (i : Nat) (k : Nat) (c : Cell) (s : State), Up s ∧ tget (s.sq i).cells k = some c) ∧
    (∃ (e : Nat) (isq : Nat) (p : Nat) (c : Nat) (s : State), Up s ∧ (s.ctxOut e (reseqKey isq
      { eport := p, cls := c })).gapCount < 4) ∧
    (∃ (e : Nat) (isq : Nat) (p : Nat) (c : Nat) (s : State) (m : Parked), Up s ∧ 4 ≤ (s.ctxOut e (reseqKey isq
      { eport := p, cls := c })).gapCount ∧ (s.ctxOut e (reseqKey isq { eport := p, cls := c })).lowest = some m) ∧
    (∃ (e : Nat) (s : State), Up s ∧ (s.sq e).claims = []) ∧
    (∃ (e : Nat) (s : State) (c : Claim) (cs : List Claim), Up s ∧ sortBy (fun x => (x.from_ + 128 - (s.sq e).rotP) %
      64) (s.sq e).claims = c :: cs ∧ (∀ (f : QFrame), (s.queue c.queue).frames.getLast? = some f → f.eligible =
      false)) ∧
    (∃ (s : State), Up s ∧ s.book.old = none) ∧
    (∃ (s : State) (x : OldEpoch), Up s ∧ s.book.old = some x ∧ 0 < s.waitSecond x.epoch ∧ s.elapsed < x.swapAt + usT
      100) ∧
    (∃ (s : State) (x : OldEpoch), Up s ∧ s.book.old = some x ∧ (s.waitSecond x.epoch = 0 ∨ x.swapAt + usT 100 ≤
      s.elapsed)) ∧
    (∃ (s : State), Up s ∧ s.buf.state = 3 ∧ s.buf.recovEnd ≤ s.elapsed ∧ s.buf.pending = []) ∧
    (∃ (s : State), Up s ∧ (s.buf.state ≠ 3 ∨ s.elapsed < s.buf.recovEnd ∨ s.buf.pending ≠ [])) := by
  refine ⟨?_, ?_, ?_, ?_, ?_, ?_, ?_, ?_, ?_, ?_⟩
  · exact ⟨3, 5, { reserved := true }, slotAt (fun t => { t with slot := 5000 }) (sqAt 3 fun q =>
    { q with cells := [(5, { reserved := true })] }), by decide +kernel⟩
  · exact ⟨5, 3, 80, 2, parked 3, by decide +kernel⟩
  · exact ⟨5, 3, 80, 2, parked 4, { seq := 4, hsq := 3, idx := 1 }, by decide +kernel⟩
  · exact ⟨5, up, by decide +kernel⟩
  · exact ⟨5, claimed [], { from_ := 3, queue := 1281, cells := 2 }, [], by decide +kernel, by decide +kernel, by
    intro f h; have e : ((claimed []).queue 1281).frames.getLast? = none := (by decide +kernel); rw [e] at h; cases h⟩
  · exact ⟨up, by decide +kernel⟩
  · exact ⟨(sqAt 3 (fun q => { q with recirc := [{ sm := { epoch := 0 } }] }) oldEpoch),
    { epoch := 0, mask := 1, swapAt := t10 }, by decide +kernel⟩
  · exact ⟨oldEpoch, { epoch := 0, mask := 1, swapAt := t10 }, by decide +kernel⟩
  · exact ⟨{ up with buf := { state := 3, recovEnd := t10 } }, by decide +kernel⟩
  · exact ⟨up, by decide +kernel⟩

/-- Witnesses of `Obligations.FramesLeave`. -/
theorem witness_FramesLeave :
    (∃ (p : Nat) (s : State), Up s ∧ ((List.foldl State.tagQueue s (List.map (fun x => 16 * p + x) (List.range
      16))).maySelect p = false ∨ (List.foldl State.tagQueue s (List.map (fun x => 16 * p + x) (List.range
      16))).pickQueue p = none)) ∧
    (∃ (p : Nat) (s : State) (q : Nat), Up s ∧ (List.foldl State.tagQueue s (List.map (fun x => 16 * p + x)
      (List.range 16))).maySelect p = true ∧ (List.foldl State.tagQueue s (List.map (fun x => 16 * p + x) (List.range
      16))).pickQueue p = some q) ∧
    (∃ (p : Nat) (s : State), Up s ∧ ((s.eport p).tx ≠ none ∨ (s.eport p).selected = [])) ∧
    (∃ (p : Nat) (s : State) (fid : Nat) (ids : List Nat) (q : Nat) (f : QFrame), Up s ∧ (s.eport p).tx = none ∧
      (s.eport p).selected = fid :: ids ∧ s.frameAt p fid = some (q, f) ∧ s.reachable p = true ∧ s.ready
      (s.queueSquare p) p f = true ∧ s.gateOpen p (q % 16) = true ∧ s.paused p (q % 16) = false ∧ s.recircRoom p f =
      true) ∧
    (∃ (p : Nat) (s : State) (fid : Nat) (ids : List Nat) (q : Nat) (f : QFrame), Up s ∧ (s.eport p).tx = none ∧
      (s.eport p).selected = fid :: ids ∧ s.frameAt p fid = some (q, f) ∧ (s.reachable p = false ∨ s.ready
      (s.queueSquare p) p f = false ∨ s.gateOpen p (q % 16) = false ∨ s.paused p (q % 16) = true ∨ s.recircRoom p f =
      false)) ∧
    (∃ (p : Nat) (s : State) (x : Tx), Up s ∧ (s.eport p).tx = some x) := by
  refine ⟨?_, ?_, ?_, ?_, ?_, ?_⟩
  · exact ⟨0, up, by decide +kernel⟩
  · exact ⟨0, queued qframe (fnAt 1 3 { st := .on } port0Up), 3, by decide +kernel⟩
  · exact ⟨0, sending, by decide +kernel⟩
  · exact ⟨0, chosen { qframe with selected := true }, 9, [], 3, { qframe with selected := true }, by decide +kernel⟩
  · exact ⟨0, chosen { qframe with bytes := [] }, 9, [], 3, { qframe with bytes := [] }, by decide +kernel⟩
  · exact ⟨0, sending, { fid := 9, cls := 3, hdr := { fid := 9, length := 64 } }, by decide +kernel⟩

/-- Witnesses of `Obligations.GatesAndWindows`. -/
theorem witness_GatesAndWindows :
    (∃ (p : Nat) (s : State), Up s ∧ (s.eport p).loadGate = none) ∧
    (∃ (p : Nat) (s : State), Up s ∧ (s.eport p).loadGate = some 0) ∧
    (∃ (p : Nat) (s : State) (n : Nat), Up s ∧ (s.eport p).loadGate = some n ∧ n ≠ 0 ∧ gclCode s.book.current (4096 *
      mapSize s.book.map 9) n ≠ 0) ∧
    (∃ (p : Nat) (s : State) (n : Nat), Up s ∧ (s.eport p).loadGate = some n ∧ n ≠ 0 ∧ gclCode s.book.current (4096 *
      mapSize s.book.map 9) n = 0) ∧
    (∃ (p : Nat) (s : State), Up s ∧ (s.eport p).pendGate = none) ∧
    (∃ (p : Nat) (s : State) (g : GateList) (st : Nat), Up s ∧ (s.eport p).pendGate = some (g, st) ∧ st ≤ s.nowNs) ∧
    (∃ (p : Nat) (s : State) (g : GateList) (st : Nat), Up s ∧ (s.eport p).pendGate = some (g, st) ∧ s.nowNs < st) ∧
    (∃ (p : Nat) (s : State) (g : GateList), Up s ∧ (s.eport p).gate = some g) ∧
    (∃ (p : Nat) (s : State), Up s ∧ (s.eport p).gate = none) ∧
    (∃ (s : State) (i : Nat), Up s ∧ s.elapsed < (s.sq i).qsampAt + s.qsampPeriod i) ∧
    (∃ (s : State) (i : Nat), Up s ∧ (s.sq i).qsampAt + s.qsampPeriod i ≤ s.elapsed) ∧
    (∃ (s : State), Up s ∧ s.time.bwWin = s.nowNs / s.bwLen) ∧
    (∃ (s : State), Up s ∧ s.time.bwWin ≠ s.nowNs / s.bwLen) ∧
    (∃ (s : State) (i : Nat), Up s ∧ (s.sq i).postcards = []) ∧
    (∃ (s : State) (i : Nat) (x : Postcard) (xs : List Postcard), Up s ∧ (s.sq i).postcards = x :: xs ∧ s.elapsed <
      x.at_ + usT 10) ∧
    (∃ (s : State) (i : Nat) (x : Postcard) (xs : List Postcard), Up s ∧ (s.sq i).postcards = x :: xs ∧ x.at_ + usT 10
      ≤ s.elapsed) := by
  refine ⟨?_, ?_, ?_, ?_, ?_, ?_, ?_, ?_, ?_, ?_, ?_, ?_, ?_, ?_, ?_, ?_⟩
  · exact ⟨0, up, by decide +kernel⟩
  · exact ⟨0, gateLoad 0 booked, by decide +kernel⟩
  · exact ⟨0, gateLoad 1 booked, 1, by decide +kernel⟩
  · exact ⟨0, gateLoad 1 (gateBook 1 1000 4088), 1, by decide +kernel⟩
  · exact ⟨0, written (A.qsampCfg 0) 0x10064 (queued qframe), by decide +kernel⟩
  · exact ⟨0, up.modEport 0 (fun e => { e with pendGate := some (oneGate, 0) }), oneGate, 0, by decide +kernel⟩
  · exact ⟨0, up.modEport 0 (fun e => { e with pendGate := some (oneGate, 1) }), oneGate, 1, by decide +kernel⟩
  · exact ⟨0, up.modEport 0 (fun e => { e with gate := some oneGate }), oneGate, by decide +kernel⟩
  · exact ⟨0, up, by decide +kernel⟩
  · exact ⟨sqAt 5 (fun q => { q with qsampAt := t10 }), 5, by decide +kernel⟩
  · exact ⟨written (A.qsampCfg 0) 0x10064 (queued qframe), 0, by decide +kernel⟩
  · exact ⟨written (A.qsampCfg 0) 0x10064 (queued qframe), by decide +kernel⟩
  · exact ⟨inTime fun x => { x with bwWin := 5 }, by decide +kernel⟩
  · exact ⟨up, 3, by decide +kernel⟩
  · exact ⟨sqAt 3 (fun q => { q with postcards := [{ at_ := t10 - usT 10 + 1 }] }), 3, { at_ := t10 - usT 10 + 1 },
    [], by decide +kernel⟩
  · exact ⟨sqAt 3 (fun q =>
    { q with postcards := [{ at_ := t10 - usT 10, bytes := List.replicate 64 0 }] ++ List.replicate 8 {} }), 3,
    { at_ := t10 - usT 10, bytes := List.replicate 64 0 }, List.replicate 8 {}, by decide +kernel⟩

/-- Witnesses of `Obligations.BadGateListIsRefused`. -/
theorem witness_BadGateListIsRefused :
    (∃ (p : Nat) (n : Nat) (base : Nat) (cycle : Nat) (count : Nat) (off : Nat) (s : State), Up s ∧ (s.eport
      p).loadGate = some n ∧ n ≠ 0 ∧ n < 1024 ∧ gclHeader s.book.current n = (base, cycle, count, off) ∧ (count = 0 ∨
      256 < count ∨ cycle < 1000 ∨ off % 8 ≠ 0 ∨ 4096 * mapSize s.book.map 9 < off + 8 * count)) := by
  exact ⟨0, 1, 0, 0, 0, 0, gateLoad 1 booked, by decide +kernel⟩

/-- Witnesses of `Obligations.ReductionRoutines`. -/
theorem witness_ReductionRoutines :
    (∃ (s : State), Up s ∧ takeFirst (fun f => !f.hdr.bc) s.red.inbox = none) ∧
    (∃ (s : State) (f : WholeFrame) (rest : List WholeFrame), Up s ∧ takeFirst (fun f => !f.hdr.bc) s.red.inbox = some
      (f, rest) ∧ f.hdr.red.isSome = false) ∧
    (∃ (s : State) (f : WholeFrame) (rest : List WholeFrame) (key : Nat), Up s ∧ takeFirst (fun f => !f.hdr.bc)
      s.red.inbox = some (f, rest) ∧ f.hdr.red.isSome = true ∧ s.isOn 3 (beAt f.bytes ((redAt f).2 + 2) 2 % 512) =
      true ∧ s.isOn 4 (engineOf (beAt f.bytes ((redAt f).2 + 2) 2 % 512)) = true ∧ (s.chan (beAt f.bytes ((redAt f).2
      + 2) 2 % 512)).inq.length < s.inqMax ∧ s.engineDescs (engineOf (beAt f.bytes ((redAt f).2 + 2) 2 % 512)) < 1024
      ∧ (({ s with red := { s.red with inbox := rest } }.count (chanCtr (beAt f.bytes ((redAt f).2 + 2) 2 % 512) 0)
      1).svcTake (engineOf (beAt f.bytes ((redAt f).2 + 2) 2 % 512)) (beAt f.bytes ((redAt f).2 + 12) 2)).2 = some
      key) ∧
    (∃ (s : State) (f : WholeFrame) (rest : List WholeFrame), Up s ∧ takeFirst (fun f => !f.hdr.bc) s.red.inbox = some
      (f, rest) ∧ f.hdr.red.isSome = true ∧ (s.isOn 3 (beAt f.bytes ((redAt f).2 + 2) 2 % 512) = false ∨ s.isOn 4
      (engineOf (beAt f.bytes ((redAt f).2 + 2) 2 % 512)) = false ∨ s.inqMax ≤ (s.chan (beAt f.bytes ((redAt f).2 + 2)
      2 % 512)).inq.length ∨ 1024 ≤ s.engineDescs (engineOf (beAt f.bytes ((redAt f).2 + 2) 2 % 512)) ∨
      (({ s with red := { s.red with inbox := rest } }.count (chanCtr (beAt f.bytes ((redAt f).2 + 2) 2 % 512) 0)
      1).svcTake (engineOf (beAt f.bytes ((redAt f).2 + 2) 2 % 512)) (beAt f.bytes ((redAt f).2 + 12) 2)).2 = none)) ∧
    (∃ (e : Nat) (s : State), Up s ∧ (s.engineRuns e = false ∨ s.nextRoutine e = none)) ∧
    (∃ (e : Nat) (s : State) (c : Nat) (i : Nat) (ds : List Nat), Up s ∧ s.engineRuns e = true ∧ s.nextRoutine e =
      some c ∧ (s.chan c).due = i :: ds) ∧
    (∃ (e : Nat) (s : State) (c : Nat), Up s ∧ s.engineRuns e = true ∧ s.nextRoutine e = some c ∧ (s.chan c).due = []
      ∧ (s.chan c).inq = []) ∧
    (∃ (e : Nat) (s : State) (c : Nat) (d : InDesc) (ds : List InDesc), Up s ∧ s.engineRuns e = true ∧ s.nextRoutine e
      = some c ∧ (s.chan c).due = [] ∧ (s.chan c).inq = d :: ds ∧ d.udpLen ≠ 40 + beAt d.hdr 12 2) ∧
    (∃ (e : Nat) (s : State) (c : Nat) (d : InDesc) (ds : List InDesc), Up s ∧ s.engineRuns e = true ∧ s.nextRoutine e
      = some c ∧ (s.chan c).due = [] ∧ (s.chan c).inq = d :: ds ∧ d.udpLen = 40 + beAt d.hdr 12 2 ∧ beAt d.hdr 0 1 %
      16 = 0 ∧ s.senderOk c d = false) ∧
    (∃ (e : Nat) (s : State) (c : Nat) (d : InDesc) (ds : List InDesc), Up s ∧ s.engineRuns e = true ∧ s.nextRoutine e
      = some c ∧ (s.chan c).due = [] ∧ (s.chan c).inq = d :: ds ∧ d.udpLen = 40 + beAt d.hdr 12 2 ∧ beAt d.hdr 0 1 %
      16 = 0 ∧ s.senderOk c d = true ∧ ((s.redSlot c (beAt d.hdr 8 4 % (s.chan c).window)).state = 0 ∨ (s.redSlot c
      (beAt d.hdr 8 4 % (s.chan c).window)).state = 3 ∧ keyAfter ((beAt d.hdr 4 4, beAt d.hdr 8 4)) (s.redSlot c (beAt
      d.hdr 8 4 % (s.chan c).window)).key = true)) ∧
    (∃ (e : Nat) (s : State) (c : Nat) (d : InDesc) (ds : List InDesc), Up s ∧ s.engineRuns e = true ∧ s.nextRoutine e
      = some c ∧ (s.chan c).due = [] ∧ (s.chan c).inq = d :: ds ∧ d.udpLen = 40 + beAt d.hdr 12 2 ∧ beAt d.hdr 0 1 %
      16 = 0 ∧ s.senderOk c d = true ∧ (s.redSlot c (beAt d.hdr 8 4 % (s.chan c).window)).state = 1 ∧ (s.redSlot c
      (beAt d.hdr 8 4 % (s.chan c).window)).key = ((beAt d.hdr 4 4, beAt d.hdr 8 4)) ∧ (s.redSlot c (beAt d.hdr 8 4 %
      (s.chan c).window)).len = beAt d.hdr 12 2 ∧ bit (s.redSlot c (beAt d.hdr 8 4 % (s.chan c).window)).bitmap (beAt
      d.hdr 14 1) = false) := by
  refine ⟨?_, ?_, ?_, ?_, ?_, ?_, ?_, ?_, ?_, ?_, ?_⟩
  · exact ⟨up, by decide +kernel⟩
  · exact ⟨redIn {} up, {}, [], by decide +kernel⟩
  · exact ⟨redIn (redFrame 0) (redOn []), redFrame 0, [], 0, by decide +kernel⟩
  · exact ⟨redIn (redFrame 1) (redOn []), redFrame 1, [], by decide +kernel⟩
  · exact ⟨3, up, by decide +kernel⟩
  · exact ⟨0, (redOn []).modChan 0 (fun x => { x with due := [3] }), 0, 3, [], by decide +kernel⟩
  · exact ⟨0, (redOn []).modEngine 0 (fun x => { x with running := some 0 }), 0, by decide +kernel⟩
  · exact ⟨0, redOn [contrib 0 4 45], 0, contrib 0 4 45, [], by decide +kernel⟩
  · exact ⟨0, redOn [contrib 2 4 44], 0, contrib 2 4 44, [], by decide +kernel⟩
  · exact ⟨0, redOn [contrib 1 4 44], 0, contrib 1 4 44, [], by decide +kernel⟩
  · exact ⟨0, red3, 0, contrib 1 4 44, [], by decide +kernel⟩

/-- Witnesses of `Obligations.ReductionEngines`. -/
theorem witness_ReductionEngines :
    (∃ (s : State) (c : Nat) (i : Nat), Up s ∧ (s.engineRuns (engineOf c) = false ∨ s.isOff 3 c = true ∨ s.timedOut c
      i = false ∨ (s.chan c).due.contains i = true)) ∧
    (∃ (s : State) (c : Nat) (i : Nat) (k : Nat), Up s ∧ s.engineRuns (engineOf c) = true ∧ s.isOff 3 c = false ∧
      ((s.redSlot c i).state = 1 ∨ (s.redSlot c i).state = 2) ∧ s.chanTimeout c ≤ s.sinceUs (s.redSlot c i).t0 ∧
      (s.chan c).due.contains i = false ∧ (s.engine (engineOf c)).running = some k ∧ k ≠ c ∧ s.urgent c = false) ∧
    (∃ (s : State) (c : Nat) (i : Nat), Up s ∧ s.engineRuns (engineOf c) = true ∧ s.isOff 3 c = false ∧ ((s.redSlot c
      i).state = 1 ∨ (s.redSlot c i).state = 2) ∧ s.chanTimeout c ≤ s.sinceUs (s.redSlot c i).t0 ∧ (s.chan c).due = []
      ∧ (∀ (k : Nat), k ≠ c → (s.chan k).ready = false) ∧ ((s.engine (engineOf c)).running = none ∨ (s.engine
      (engineOf c)).running = some c) ∧ (s.redSlot c i).state = 1 ∧ bit (s.chanWord c 0) 52 = true) ∧
    (∃ (s : State) (c : Nat) (i : Nat), Up s ∧ s.engineRuns (engineOf c) = true ∧ s.isOff 3 c = false ∧ ((s.redSlot c
      i).state = 1 ∨ (s.redSlot c i).state = 2) ∧ s.chanTimeout c ≤ s.sinceUs (s.redSlot c i).t0 ∧ (s.chan c).due = []
      ∧ (∀ (k : Nat), k ≠ c → (s.chan k).ready = false) ∧ ((s.engine (engineOf c)).running = none ∨ (s.engine
      (engineOf c)).running = some c) ∧ ((s.redSlot c i).state = 2 ∨ bit (s.chanWord c 0) 52 = false)) ∧
    (∃ (s : State) (e : Nat), Up s ∧ (s.red.ver = 0 ∨ (s.engine e).powered = false)) ∧
    (∃ (s : State) (e : Nat) (w : Nat), Up s ∧ s.red.ver ≠ 0 ∧ (s.engine e).powered = true ∧ (((s.modEngine e fun x =>
      { x with cstore := x.cstore.set w (s.red.patch.getD w 0) }).faultEvent 17 0 w).engineRuns e = false ∨
      ((s.modEngine e fun x => { x with cstore := x.cstore.set w (s.red.patch.getD w 0) }).faultEvent 17 0
      w).nextRoutine e = none)) ∧
    (∃ (s : State) (e : Nat) (w : Nat) (c : Nat), Up s ∧ s.red.ver ≠ 0 ∧ (s.engine e).powered = true ∧ ((s.modEngine e
      fun x => { x with cstore := x.cstore.set w (s.red.patch.getD w 0) }).faultEvent 17 0 w).engineRuns e = true ∧
      ((s.modEngine e fun x => { x with cstore := x.cstore.set w (s.red.patch.getD w 0) }).faultEvent 17 0
      w).nextRoutine e = some c) ∧
    (∃ (s : State) (e : Nat), Up s ∧ (bit s.power.cur.redPwr e = false ∨ s.isOff 4 e = false)) ∧
    (∃ (s : State) (e : Nat), Up s ∧ bit s.power.cur.redPwr e = true ∧ s.isOff 4 e = true ∧ (s.engine e).powered =
      false ∧ (s.fn 4 e).byPhase = false) ∧
    (∃ (s : State) (e : Nat), Up s ∧ bit s.power.cur.redPwr e = true ∧ s.isOff 4 e = true ∧ (s.engine e).powered =
      true ∧ (s.fn 4 e).byPhase = false) ∧
    (∃ (s : State) (e : Nat), Up s ∧ bit s.power.cur.redPwr e = true ∧ s.isOff 4 e = true ∧ (s.fn 4 e).byPhase = true) := by
  refine ⟨?_, ?_, ?_, ?_, ?_, ?_, ?_, ?_, ?_, ?_, ?_⟩
  · exact ⟨up, 0, 0, by decide +kernel⟩
  · exact ⟨(redOn [] [(0, { state := 1, bitmap := 1 })]).modEngine 0 (fun x => { x with running := some 1 }), 0, 0, 1,
    by decide +kernel⟩
  · exact ⟨redOn [] [(0, { state := 1, bitmap := 1 })] (2 ^ 52), 0, 0, by decide +kernel, by decide +kernel, by
    decide +kernel, by decide +kernel, by decide +kernel, by decide +kernel, fun k _ => quiet _ (by decide +kernel) k,
    by decide +kernel, by decide +kernel, by decide +kernel⟩
  · exact ⟨redOn [] [(0, { state := 1, bitmap := 1 })], 0, 0, by decide +kernel, by decide +kernel, by decide +kernel,
    by decide +kernel, by decide +kernel, by decide +kernel, fun k _ => quiet _ (by decide +kernel) k, by
    decide +kernel, by decide +kernel⟩
  · exact ⟨up, 0, by decide +kernel⟩
  · exact ⟨redOn [], 0, 7, by decide +kernel⟩
  · exact ⟨redOn [contrib 0 4 44], 0, 7, 0, by decide +kernel⟩
  · exact ⟨redOn [], 0, by decide +kernel⟩
  · exact ⟨up.modEngine 3 (fun x => { x with powered := false }), 3, by decide +kernel⟩
  · exact ⟨up, 3, by decide +kernel⟩
  · exact ⟨fnAt 4 3 { st := .off, byPhase := true }, 3, by decide +kernel⟩

/-- Witnesses of `Obligations.StoreVoteAndHolds`. -/
theorem witness_StoreVoteAndHolds :
    (∃ (c : Nat) (s : State), Up s ∧ c < 3 ∧ (s.triad.lost = true ∨ s.triad.hold = some HoldKind.store)) ∧
    (∃ (c : Nat) (s : State), Up s ∧ c < 3 ∧ s.triad.lost = false ∧ s.triad.hold ≠ some HoldKind.store ∧ (s.chn
      c).presented ≠ none) ∧
    (∃ (c : Nat) (s : State), Up s ∧ c < 3 ∧ s.triad.lost = false ∧ s.triad.hold ≠ some HoldKind.store ∧ (s.chn
      c).presented = none ∧ (s.chn c).failed = false ∧ (s.chn c).act = false) ∧
    (∃ (c : Nat) (s : State), Up s ∧ c < 3 ∧ s.triad.lost = false ∧ s.triad.hold ≠ some HoldKind.store ∧ (s.chn
      c).presented = none ∧ (s.chn c).failed = true ∧ s.triad.storeWait = false) ∧
    (∃ (c : Nat) (s : State), Up s ∧ c < 3 ∧ s.triad.lost = false ∧ s.triad.hold = none ∧ s.triad.simplex = false ∧
      (s.chn c).presented = none ∧ (∀ k < 3, (s.chn k).failed = false ∧ (s.chn k).act = true ∧ (s.chn k).later = []) ∧
      (∀ k < 3, (s.chn k).presented = none) ∧ s.triad.issued = none) ∧
    (∃ (c : Nat) (a : W64) (d : W64) (b : BitVec 8) (s : State) (k : Nat), Up s ∧ c < 3 ∧ s.triad.lost = false ∧
      s.triad.hold = none ∧ s.triad.simplex = false ∧ (s.chn c).presented = none ∧ (∀ k < 3, (s.chn k).failed = false
      ∧ (s.chn k).act = true ∧ (s.chn k).later = []) ∧ k < 3 ∧ k ≠ c ∧ (s.chn k).presented = some
      { addr := a, data := d, be := b } ∧ s.triad.issued = none ∧ (∀ m < 3, m ≠ k → (s.chn m).presented = none)) ∧
    (∃ (c : Nat) (s : State) (v : StoreVal), Up s ∧ c < 3 ∧ s.triad.lost = false ∧ s.triad.hold = none ∧
      s.triad.simplex = false ∧ (s.chn c).presented = none ∧ (∀ k < 3, (s.chn k).failed = false ∧ (s.chn k).act = true
      ∧ (s.chn k).later = []) ∧ s.triad.issued = some v ∧ (∀ k < 3, k ≠ c → (s.chn k).presented = some v)) ∧
    (∃ (s : State), Up s ∧ (s.triad.storeWait = false ∨ s.windowRuns = false ∨ s.elapsed < s.triad.storeAt +
      s.storeWin)) ∧
    (∃ (s : State), Up s ∧ s.triad.storeWait = true ∧ s.windowRuns = true ∧ s.triad.storeAt + s.storeWin ≤ s.elapsed ∧
      s.triad.issued = none) ∧
    (∃ (s : State) (v : StoreVal) (c : Nat), Up s ∧ s.triad.storeWait = true ∧ s.windowRuns = true ∧ s.triad.storeAt +
      s.storeWin ≤ s.elapsed ∧ s.triad.issued = some v ∧ (∀ k < 3, (s.chn k).later = []) ∧ List.filter (fun k =>
      (s.chn k).presented.isNone) s.voters = [c]) ∧
    (∃ (s : State), Up s ∧ s.triad.hold = some HoldKind.reaction) ∧
    (∃ (d0 : Nat) (d1 : Nat) (d2 : Nat) (s : State) (k : HoldKind), Up s ∧ s.triad.simplex = false ∧ (∀ c < 3, (s.chn
      c).failed = false) ∧ s.triad.hold = some k ∧ (k = HoldKind.slot ∨ k = HoldKind.store ∧ s.time.bcTxDue = []) ∧
      (d0 = d1 ∨ d1 = d2 ∨ d0 = d2)) ∧
    (∃ (d0 : Nat) (d1 : Nat) (d2 : Nat) (s : State), Up s ∧ s.triad.simplex = false ∧ (∀ c < 3, (s.chn c).failed =
      false) ∧ s.triad.lost = false ∧ d0 ≠ d1 ∧ d1 ≠ d2 ∧ d0 ≠ d2 ∧ s.triad.hold = some HoldKind.slot ∧
      s.triad.failedHolds < atLeast1 (fld (s.inForce A.triadCfg) 11 8)) ∧
    (∃ (d0 : Nat) (d1 : Nat) (d2 : Nat) (s : State), Up s ∧ s.triad.simplex = false ∧ (∀ c < 3, (s.chn c).failed =
      false) ∧ s.triad.lost = false ∧ d0 ≠ d1 ∧ d1 ≠ d2 ∧ d0 ≠ d2 ∧ s.triad.hold = some HoldKind.slot ∧ atLeast1 (fld
      (s.inForce A.triadCfg) 11 8) ≤ s.triad.failedHolds) ∧
    (∃ (d0 : Nat) (d1 : Nat) (d2 : Nat) (s : State), Up s ∧ s.triad.simplex = false ∧ (∀ c < 3, (s.chn c).failed =
      false) ∧ s.triad.lost = false ∧ d0 ≠ d1 ∧ d1 ≠ d2 ∧ d0 ≠ d2 ∧ s.triad.hold = some HoldKind.store ∧
      s.time.bcTxDue = [] ∧ s.triad.failedStores < atLeast1 (fld (s.inForce A.triadCfg) 11 8)) ∧
    (∃ (d0 : Nat) (d1 : Nat) (d2 : Nat) (s : State), Up s ∧ s.triad.simplex = false ∧ (∀ c < 3, (s.chn c).failed =
      false) ∧ s.triad.lost = false ∧ d0 ≠ d1 ∧ d1 ≠ d2 ∧ d0 ≠ d2 ∧ s.triad.hold = some HoldKind.store ∧
      s.time.bcTxDue = [] ∧ atLeast1 (fld (s.inForce A.triadCfg) 11 8) ≤ s.triad.failedStores) := by
  refine ⟨?_, ?_, ?_, ?_, ?_, ?_, ?_, ?_, ?_, ?_, ?_, ?_, ?_, ?_, ?_, ?_⟩
  · exact ⟨2, { up with triad := { lost := true } }, by decide +kernel⟩
  · exact ⟨0, stores fun _ => some sv, by decide +kernel⟩
  · exact ⟨0, up.modChn 0 fun x => { x with act := false }, by decide +kernel⟩
  · exact ⟨0, failed [0], by decide +kernel⟩
  · exact ⟨2, up, by decide +kernel⟩
  · exact ⟨2, 8, 5, 255, stores (fun c => if c = 0 then some sv else none), 0, by decide +kernel⟩
  · exact ⟨2, stores (fun c => if c = 2 then none else some sv) (some sv), sv, by decide +kernel⟩
  · exact ⟨up, by decide +kernel⟩
  · exact ⟨stores (fun c => if c = 0 then some sv else if c = 1 then some sv2 else none), by decide +kernel⟩
  · exact ⟨stores (fun c => if c = 2 then none else some sv) (some sv), sv, 2, by decide +kernel⟩
  · exact ⟨holding (some .reaction), by decide +kernel⟩
  · exact ⟨1, 2, 1, live3 (fun _ x => { x with act := false, outvoted := true }) (holding (some .slot) 2), .slot, by
    decide +kernel⟩
  · exact ⟨1, 2, 3, holding (some .slot), by decide +kernel⟩
  · exact ⟨1, 2, 3, holding (some .slot) 15, by decide +kernel⟩
  · exact ⟨1, 2, 3, holding (some .store), by decide +kernel⟩
  · exact ⟨1, 2, 3, { up with triad := { hold := some .store, failedStores := 15 } }, by decide +kernel⟩

/-- Witnesses of `Obligations.ChannelHealth`. -/
theorem witness_ChannelHealth :
    (∃ (s : State), Up s ∧ (s.fwRuns = false ∨ s.elapsed < s.triad.ckptAt + msT 1)) ∧
    (∃ (s : State) (c : Nat), Up s ∧ c < 3 ∧ s.fwRuns = true ∧ s.triad.ckptAt + msT 1 ≤ s.elapsed ∧ (s.chn c).failed =
      false) ∧
    (∃ (s : State), Up s ∧ (s.boot.stage ≠ 2 ∨ s.triad.bitten = true ∨ s.elapsed ≤ s.triad.ckptAt + msT 11)) ∧
    (∃ (s : State), Up s ∧ s.boot.stage = 2 ∧ s.triad.bitten = false ∧ s.triad.ckptAt + msT 11 < s.elapsed ∧
      s.boot.castle ≠ 3) ∧
    (∃ (s : State), Up s ∧ s.boot.stage = 2 ∧ s.triad.bitten = false ∧ s.triad.ckptAt + msT 11 < s.elapsed ∧
      s.boot.castle = 3) ∧
    (∃ (s : State) (c : Nat), Up s ∧ s.elapsed < (s.chn c).testAt + msT 100) ∧
    (∃ (s : State) (c : Nat), Up s ∧ (s.chn c).testAt + msT 100 ≤ s.elapsed) ∧
    (∃ (s : State) (c : Nat), Up s ∧ (s.chn c).failed = true ∧ (s.chn c).rejoin = 2) ∧
    (∃ (s : State) (c : Nat), Up s ∧ ((s.chn c).failed = false ∨ (s.chn c).rejoin ≠ 2)) := by
  refine ⟨?_, ?_, ?_, ?_, ?_, ?_, ?_, ?_, ?_⟩
  · exact ⟨lostTriad, by decide +kernel⟩
  · exact ⟨up, 2, by decide +kernel⟩
  · exact ⟨{ up with triad := { ckptAt := t10 - msT 11 } }, by decide +kernel⟩
  · exact ⟨{ up with triad := { ckptAt := t10 - msT 11 - 1 } }, by decide +kernel⟩
  · exact ⟨castleIn 3 (fun b => { b with castleS := t10 }), by decide +kernel⟩
  · exact ⟨up.modChn 0 (fun x => { x with testAt := t10 }), 0, by decide +kernel⟩
  · exact ⟨up, 2, by decide +kernel⟩
  · exact ⟨up.modChn 2 (fun x => { x with failed := true, rejoin := 2, cleared := true }), 2, by decide +kernel⟩
  · exact ⟨up, 2, by decide +kernel⟩

/-- Witnesses of `Obligations.FaultEventsAreCounted`. -/
theorem witness_FaultEventsAreCounted :
    (∃ (n : Nat) (s : State), srcExists n = false) ∧
    (∃ (n : Nat) (s : State), srcExists n = true ∧ s.fault.first = none) ∧
    (∃ (n : Nat) (s : State) (m : Nat), srcExists n = true ∧ m ≠ n ∧ m ≠ 4) ∧
    (∃ (s : State) (cfg : Nat) (now : Tick) (x : Src), (x.start + faultWindow cfg ≤ now ∨ x.st = SrcSt.idle)) ∧
    (∃ (s : State) (cfg : Nat) (now : Tick) (x : Src), now < x.start + faultWindow cfg ∧ x.st ≠ SrcSt.idle) := by
  refine ⟨?_, ?_, ?_, ?_, ?_⟩
  · exact ⟨24, up, by decide +kernel⟩
  · exact ⟨20, atNow (5 * tickNs), by decide +kernel⟩
  · exact ⟨0, sevSrc 64 .active, 64, by decide +kernel⟩
  · exact ⟨up, 0x101, usT 2, { st := .active, start := usT 1 }, by decide +kernel⟩
  · exact ⟨up, 0x102, usT 2 - 1, { st := .active, start := usT 1, count := 255 }, by decide +kernel⟩

/-- Witnesses of `Obligations.SecondChannelFails`. -/
theorem witness_SecondChannelFails :
    (∃ (c : Nat) (l : Nat) (s : State), s.triad.lost = false ∧ (s.chn c).failed = false ∧ (s.liveChns = [c, l] ∨
      s.liveChns = [l, c]) ∧ rbit (s.inForce A.triadCfg) 16 = true) ∧
    (∃ (c : Nat) (l : Nat) (s : State), s.triad.lost = false ∧ (s.chn c).failed = false ∧ (s.liveChns = [c, l] ∨
      s.liveChns = [l, c]) ∧ rbit (s.inForce A.triadCfg) 16 = false) ∧
    (∃ (c : Nat) (s : State), s.triad.lost = false ∧ (s.chn c).failed = false ∧ s.liveChns = [c]) := by
  refine ⟨?_, ?_, ?_⟩
  · exact ⟨2, 0, forced A.triadCfg 0x18000 (failed [1]), by decide +kernel⟩
  · exact ⟨2, 0, forced A.triadCfg 0x08000 (failed [1]), by decide +kernel⟩
  · exact ⟨2, failed [0, 1] { up with triad := { simplex := true } }, by decide +kernel⟩

/-- Witnesses of `Obligations.FaultRecovery`. -/
theorem witness_FaultRecovery :
    (∃ (s : State) (n : Nat), Up s ∧ ((s.src n).st = SrcSt.idle ∨ s.elapsed < (s.src n).last + s.quietOf n)) ∧
    (∃ (s : State) (n : Nat), Up s ∧ (s.src n).st ≠ SrcSt.idle ∧ (s.src n).last + s.quietOf n ≤ s.elapsed) ∧
    (∃ (s : State), Up s ∧ s.fwRuns = true ∧ s.triad.aliveAt + usT 500 ≤ s.elapsed) ∧
    (∃ (s : State), Up s ∧ (s.fwRuns = false ∨ s.elapsed < s.triad.aliveAt + usT 500)) ∧
    (∃ (s : State), Up s ∧ s.boot.recovDirty = []) ∧
    (∃ (s : State), Up s ∧ s.boot.recovDirty ≠ []) ∧
    (∃ (s : State) (i : Nat) (u : Tick), Up s ∧ (s.sq i).lastSince = some u ∧ u + msT 1 ≤ s.elapsed) ∧
    (∃ (s : State) (i : Nat) (u : Tick), Up s ∧ (s.sq i).lastSince = some u ∧ s.elapsed < u + msT 1) ∧
    (∃ (s : State) (i : Nat), Up s ∧ (s.sq i).lastSince = none) := by
  refine ⟨?_, ?_, ?_, ?_, ?_, ?_, ?_, ?_, ?_⟩
  · exact ⟨up, 22, by decide +kernel⟩
  · exact ⟨written (A.faultQuiet 22) 1 ((sevSrc 22).modSrc 22 fun x =>
    { x with last := t10 - msT 1, recov := 65535 }), 22, by decide +kernel⟩
  · exact ⟨{ up with triad := { aliveAt := t10 - usT 500 } }, by decide +kernel⟩
  · exact ⟨{ up with triad := { aliveAt := t10 - usT 500 + 1 } }, by decide +kernel⟩
  · exact ⟨up, by decide +kernel⟩
  · exact ⟨boots (fun b => { b with recovDirty := [22, 1023] }) (sevSrc 22), by decide +kernel⟩
  · exact ⟨sqAt 63 (fun q => { q with lastSince := some (t10 - msT 1) }), 63, t10 - msT 1, by decide +kernel⟩
  · exact ⟨sqAt 63 (fun q => { q with lastSince := some t10 }), 63, t10, by decide +kernel⟩
  · exact ⟨up, 63, by decide +kernel⟩

/-- Witnesses of `Obligations.PowerAndGovernor`. -/
theorem witness_PowerAndGovernor :
    (∃ (i : Nat) (s : State), Up s ∧ s.jobDue (6 + i) (usT 10) = true) ∧
    (∃ (i : Nat) (s : State), Up s ∧ s.jobDue (6 + i) (usT 10) = false) ∧
    (∃ (i : Nat) (s : State), Up s ∧ (s.sq i).trailing = true ∧ s.since (s.vsq i).lastRaise (usT 100) = true) ∧
    (∃ (i : Nat) (s : State), Up s ∧ (s.sq i).trailing = false ∧ s.since (s.vsq i).recorded (msT 10) = true ∧ (s.vsq
      i).margin < ↑s.guard ∧ s.since (s.vsq i).lastRaise (usT 100) = true) ∧
    (∃ (i : Nat) (s : State), Up s ∧ (s.sq i).trailing = false ∧ s.since (s.vsq i).recorded (msT 10) = true ∧ ↑s.guard
      + 5 < (s.vsq i).margin ∧ s.since (s.vsq i).lastRaise (msT 10) = true ∧ s.since (s.vsq i).lastLower (msT 10) =
      true) ∧
    (∃ (i : Nat) (s : State), Up s ∧ (s.sq i).trailing = false ∧ (s.since (s.vsq i).recorded (msT 10) = false ∨
      ↑s.guard ≤ (s.vsq i).margin ∧ (s.vsq i).margin ≤ ↑s.guard + 5)) ∧
    (∃ (s : State), Up s ∧ s.jobDue 5 (secT 3600) = false) ∧
    (∃ (s : State), Up s ∧ s.jobDue 5 (secT 3600) = true) ∧
    (∃ (s : State), Up s ∧ s.jobDue 0 (usT 10) = false) ∧
    (∃ (s : State), Up s ∧ s.jobDue 0 (usT 10) = true) ∧
    (∃ (s : State), Up s ∧ s.jobDue 1 (msT 1) = false) ∧
    (∃ (s : State), Up s ∧ s.jobDue 1 (msT 1) = true) ∧
    (∃ (s : State), Up s ∧ s.jobDue 2 (usT 40) = false) ∧
    (∃ (s : State), Up s ∧ s.jobDue 2 (usT 40) = true ∧ s.power.cap < s.power.est ∧ s.power.tcap ≠ 0) ∧
    (∃ (s : State), Up s ∧ s.jobDue 2 (usT 40) = true ∧ s.power.cap < s.power.est ∧ s.power.tcap = 0) ∧
    (∃ (s : State), Up s ∧ s.jobDue 2 (usT 40) = true ∧ s.power.est ≤ s.power.cap ∧ s.power.tcap ≠ 0 ∧ s.capRoom =
      true ∧ s.since s.power.capOkAt (msT 1) = true ∧ 101 * s.power.tcap / 100 < s.phaseTempo) ∧
    (∃ (s : State), Up s ∧ s.jobDue 2 (usT 40) = true ∧ s.power.est ≤ s.power.cap ∧ s.power.tcap ≠ 0 ∧ s.capRoom =
      true ∧ s.since s.power.capOkAt (msT 1) = true ∧ s.phaseTempo ≤ 101 * s.power.tcap / 100) ∧
    (∃ (s : State), Up s ∧ s.jobDue 2 (usT 40) = true ∧ s.power.est ≤ s.power.cap ∧ (s.power.tcap = 0 ∨ s.capRoom =
      false ∨ s.since s.power.capOkAt (msT 1) = false)) ∧
    (∃ (s : State), Up s ∧ s.power.tempo = 600 ∧ s.power.cap < s.power.est ∧ s.power.overAt.isSome = true ∧ s.since
      s.power.overAt (usT 200) = true ∧ s.power.unatt = false) ∧
    (∃ (s : State), Up s ∧ (s.power.tempo ≠ 600 ∨ s.power.est ≤ s.power.cap ∨ s.power.overAt = none ∨ s.since
      s.power.overAt (usT 200) = false ∨ s.power.unatt = true)) := by
  refine ⟨?_, ?_, ?_, ?_, ?_, ?_, ?_, ?_, ?_, ?_, ?_, ?_, ?_, ?_, ?_, ?_, ?_, ?_, ?_, ?_⟩
  · exact ⟨63, up, by decide +kernel⟩
  · exact ⟨3, inPower fun p => { p with jobs := [(9, some t10)] }, by decide +kernel⟩
  · exact ⟨63, sqAt 63 (fun q => { q with lastRecorded := true }), by decide +kernel⟩
  · exact ⟨63, up, by decide +kernel⟩
  · exact ⟨63, inPower (fun p =>
    { p with vsq := [(63, { setpoint := 652, margin := 16, lastLower := some (t10 - msT 10) })] }), by decide +kernel⟩
  · exact ⟨63, inPower (fun p => { p with vsq := [(63, { margin := 10 })] }), by decide +kernel⟩
  · exact ⟨inPower fun p => { p with jobs := [(5, some t10)] }, by decide +kernel⟩
  · exact ⟨up, by decide +kernel⟩
  · exact ⟨inPower fun p => { p with jobs := [(0, some t10)] }, by decide +kernel⟩
  · exact ⟨up, by decide +kernel⟩
  · exact ⟨inPower fun p => { p with jobs := [(1, some t10)] }, by decide +kernel⟩
  · exact ⟨up, by decide +kernel⟩
  · exact ⟨inPower fun p => { p with jobs := [(2, some t10)] }, by decide +kernel⟩
  · exact ⟨inPower fun p => { p with est := 2001, tcap := 700, tempo := 630 }, by decide +kernel⟩
  · exact ⟨inPower fun p => { p with est := 2001, tempo := 1350 }, by decide +kernel⟩
  · exact ⟨inPower fun p => { p with est := 1900, tcap := 1336, capOkAt := some (t10 - msT 1) }, by decide +kernel⟩
  · exact ⟨inPower fun p => { p with est := 1900, tcap := 1337, capOkAt := some (t10 - msT 1) }, by decide +kernel⟩
  · exact ⟨inPower fun p => { p with est := 2000, tcap := 1337 }, by decide +kernel⟩
  · exact ⟨inPower fun p => { p with est := 2001, tempo := 600, overAt := some (t10 - usT 200) }, by decide +kernel⟩
  · exact ⟨inPower fun p => { p with est := 2001, tempo := 601, overAt := some 0 }, by decide +kernel⟩

/-- Witnesses of `Obligations.PhasesAndTemperature`. -/
theorem witness_PhasesAndTemperature :
    (∃ (c : Cmd) (s : State), Takes s c ∧ BitVec.toNat c.p0 < 8 ∧ c.p1 = 0 ∧ c.p2 = 0 ∧ s.phaseDefined (BitVec.toNat
      c.p0) = true) ∧
    (∃ (c : Cmd) (s : State), Takes s c ∧ BitVec.toNat c.p0 < 8 ∧ c.p1 = 0 ∧ c.p2 = 0 ∧ s.phaseDefined (BitVec.toNat
      c.p0) = false) ∧
    (∃ (c : Cmd) (s : State) (bs : List Byte), Takes s c ∧ BitVec.toNat c.p0 < 8 ∧ c.p2 = 0 ∧ phaseBytesOk bs = true) ∧
    (∃ (c : Cmd) (s : State) (bs : List Byte), Takes s c ∧ BitVec.toNat c.p0 < 8 ∧ c.p2 = 0 ∧ phaseBytesOk bs = false) ∧
    (∃ (c : Cmd) (s : State), Takes s c ∧ c.p0 = 0 ∧ c.p1 = 0 ∧ 400 ≤ c.p2.toNat ∧ c.p2.toNat ≤ 2000) ∧
    (∃ (c : Cmd) (s : State), Takes s c ∧ c.p0 = 0 ∧ c.p1 = 0 ∧ (c.p2.toNat < 400 ∨ 2000 < c.p2.toNat)) ∧
    (∃ (s : State), Up s ∧ s.jobDue 3 (usT 10) = false) ∧
    (∃ (s : State) (ts : List Int), Up s ∧ s.jobDue 3 (usT 10) = true ∧ ts ≠ []) ∧
    (∃ (s : State), Up s ∧ s.jobDue 4 (usT 40) = false) ∧
    (∃ (s : State), Up s ∧ s.jobDue 4 (usT 40) = true ∧ s.power.temps ≠ [] ∧ s.thermThr ≤ s.hotTemp ∧ s.power.ttherm ≠
      0) ∧
    (∃ (s : State), Up s ∧ s.jobDue 4 (usT 40) = true ∧ s.power.temps ≠ [] ∧ s.thermThr ≤ s.hotTemp ∧ s.power.ttherm =
      0) ∧
    (∃ (s : State), Up s ∧ s.jobDue 4 (usT 40) = true ∧ s.hotTemp < s.thermThr ∧ s.power.ttherm ≠ 0 ∧ s.thermRoom =
      true ∧ s.since s.power.thermOkAt (msT 1) = true ∧ 101 * s.power.ttherm / 100 < s.phaseTempo) ∧
    (∃ (s : State), Up s ∧ s.jobDue 4 (usT 40) = true ∧ s.hotTemp < s.thermThr ∧ s.power.ttherm ≠ 0 ∧ s.thermRoom =
      true ∧ s.since s.power.thermOkAt (msT 1) = true ∧ s.phaseTempo ≤ 101 * s.power.ttherm / 100) ∧
    (∃ (s : State), Up s ∧ s.jobDue 4 (usT 40) = true ∧ (s.power.temps = [] ∨ s.hotTemp < s.thermThr) ∧
      (s.power.ttherm = 0 ∨ s.thermRoom = false ∨ s.since s.power.thermOkAt (msT 1) = false)) ∧
    (∃ (s : State), Up s ∧ (s.power.schedOn = false ∨ s.schedEn = false ∨ (schedDue s.book.current s.nowNs) ≤
      s.power.schedLast)) ∧
    (∃ (s : State), Up s ∧ s.power.schedOn = true ∧ s.schedEn = true ∧ s.power.schedLast < (schedDue s.book.current
      s.nowNs) ∧ s.phaseDefined (schedPhase s.book.current (((schedDue s.book.current s.nowNs) - 1) % schedCount
      s.book.current)) = true) ∧
    (∃ (s : State), Up s ∧ s.power.schedOn = true ∧ s.schedEn = true ∧ s.power.schedLast < (schedDue s.book.current
      s.nowNs) ∧ s.phaseDefined (schedPhase s.book.current (((schedDue s.book.current s.nowNs) - 1) % schedCount
      s.book.current)) = false) := by
  refine ⟨?_, ?_, ?_, ?_, ?_, ?_, ?_, ?_, ?_, ?_, ?_, ?_, ?_, ?_, ?_, ?_, ?_⟩
  · exact ⟨cmd 0, up, by decide +kernel⟩
  · exact ⟨cmd 7, up, by decide +kernel⟩
  · exact ⟨cmd 7 0 0, up, phaseBytes 150, by decide +kernel⟩
  · exact ⟨cmd 7 0 0, up, phaseBytes 151, by decide +kernel⟩
  · exact ⟨cmd 0 0 400, up, by decide +kernel⟩
  · exact ⟨cmd 0 0 399, up, by decide +kernel⟩
  · exact ⟨inPower fun p => { p with jobs := [(3, some t10)] }, by decide +kernel⟩
  · exact ⟨up, List.replicate 84 5 ++ [700], by decide +kernel⟩
  · exact ⟨inPower fun p => { p with jobs := [(4, some t10)] }, by decide +kernel⟩
  · exact ⟨inPower fun p => { p with temps := [(0, 800)], ttherm := 700, tempo := 700 }, by decide +kernel⟩
  · exact ⟨inPower fun p => { p with temps := [(0, 800)], tempo := 1350 }, by decide +kernel⟩
  · exact ⟨inPower fun p => { p with temps := [(0, 776)], ttherm := 1336, thermOkAt := some (t10 - msT 1) }, by
    decide +kernel⟩
  · exact ⟨inPower fun p => { p with temps := [(0, 776)], ttherm := 1337, thermOkAt := some (t10 - msT 1) }, by
    decide +kernel⟩
  · exact ⟨inPower fun p => { p with temps := [(0, 777)], ttherm := 1337 }, by decide +kernel⟩
  · exact ⟨up, by decide +kernel⟩
  · exact ⟨schedAt 0, by decide +kernel⟩
  · exact ⟨schedAt 5, by decide +kernel⟩

/-- Witnesses of `Obligations.CountersAndEvents`. -/
theorem witness_CountersAndEvents :
    (∃ (o : Nat) (n : Nat) (s : State) (k : Nat), 0 < n ∧ k ≠ o) ∧
    (∃ (n : Nat) (s : State), (s.ringIs n 4 = false ∨ 256 ≤ (s.ring n).evq.length)) ∧
    (∃ (n : Nat) (s : State), s.ringIs n 4 = true ∧ (s.ring n).evq.length < 256 ∧ (s.ring n).fetched = []) ∧
    (∃ (n : Nat) (s : State), s.ringIs n 4 = true ∧ (s.ring n).evq.length < 256 ∧ (s.ring n).evq = [] ∧ (s.ring
      n).fetched ≠ []) ∧
    (∃ (n : Nat) (s : State) (m : Nat), s.ringIs n 4 = true ∧ (s.ring n).evq.length < 256 ∧ m ≠ n) := by
  refine ⟨?_, ?_, ?_, ?_, ?_⟩
  · exact ⟨8, 1, { up with cnt := [(16, 3)] }, 16, by decide +kernel⟩
  · exact ⟨5, up, by decide +kernel⟩
  · exact ⟨1, up.modRing 1 fun r => { r with evq := List.replicate 255 {} }, by decide +kernel⟩
  · exact ⟨1, up.modRing 1 fun r => { r with fetched := [List.replicate 32 0] }, by decide +kernel⟩
  · exact ⟨1, up, 0, by decide +kernel⟩
end Sys2Proof.Tests
end

section
/-!
SUPPORT. The shared operations that the learn engine and the LEARN commands use: a posted event leaves everything but
its ring, the counters and the outside; a served command that is turned away returns and nothing more.
-/

namespace Sys2Proof.Machine

/-! ### The frame of a posted event (R295) -/

/-- What posting an event may touch: pending bits, rings, counters and what leaves the device. -/
def PostFrame (s t : State) : Prop := t = { s with regs := t.regs, host := t.host, io := t.io, cnt := t.cnt }

theorem PostFrame.refl (s : State) : PostFrame s s := rfl

theorem PostFrame.trans {s t u : State} (h : PostFrame s t) (k : PostFrame t u) : PostFrame s u := by
  unfold PostFrame at *
  rw [k, h]

theorem PostFrame.of_return {n : Nat} {s t : State} (h : ReturnFrame n s t) : PostFrame s t := by
  obtain ⟨hst, -⟩ := h
  unfold PostFrame
  rw [hst]

theorem PostFrame.book {s t : State} (h : PostFrame s t) : t.book = s.book := by rw [h]

theorem PostFrame.count (s : State) (o n : Nat) : PostFrame s (s.count o n) := by
  unfold State.count
  split <;> rfl

theorem PostFrame.fillEvent (s : State) (n : Nat) : PostFrame s (s.fillEvent n) := by
  unfold State.fillEvent
  dsimp only
  split
  · exact PostFrame.trans (t := s.modRing n _) rfl (.of_return (.ringReturn n _ _ _))
  · exact .refl s

theorem PostFrame.fillEvents (s : State) (n : Nat) : PostFrame s (s.fillEvents n) := by
  unfold State.fillEvents
  generalize List.range _ = l
  induction l generalizing s with
  | nil => exact .refl s
  | cons a l ih => exact (PostFrame.fillEvent s n).trans (ih _)

theorem PostFrame.postAt (s : State) (ring type sub src : Nat) (payload : List Byte) (time : Nat) :
    PostFrame s (s.postAt ring type sub src payload time) := by
  unfold State.postAt
  dsimp only
  split
  · exact PostFrame.trans (by rfl) (.fillEvents _ ring)
  · exact PostFrame.trans (by rfl) (.count _ _ _)

/-! ### A served command that runs to its answer -/

/-- A served command whose effect is to answer at once, with nothing changed: it returns and nothing else happens. -/
theorem yields_returns {i : Instr} {op st res : Nat} {c : Cmd} {ok : Bool} {f : State → CmdOut} {s : State}
    (hx : exec i s = gated s (runCmd op c ok f)) (ho : op < 65536) (ht : Takes s c) (hok : ok = true)
    (hf : f (accepted op c s) = .ret (accepted op c s) st res) : Yields i s fun t => Returns s t c op st res := by
  obtain ⟨hs, hr⟩ := ht
  refine ⟨_, hx.trans (gated_up hs.1 _), ?_⟩
  rw [runCmd_served hs (.inr ⟨hr, hok⟩), hf]
  exact ⟨returns_of_effect ho rfl, completeCmd_accepted _ _ _ _ _,
    (accepted_frame op c s).trans (.completeCmd _ _ _ _ _)⟩

/-- A served command whose effect lets it wait. -/
theorem yields_later {i : Instr} {op : Nat} {c : Cmd} {ok : Bool} {f : State → CmdOut} {s t : State}
    {P : State → Prop} (hx : exec i s = gated s (runCmd op c ok f)) (ht : Takes s c) (hok : ok = true)
    (hf : f (accepted op c s) = .later t) (hp : P t) : Yields i s P := by
  obtain ⟨hs, hr⟩ := ht
  refine ⟨_, hx.trans (gated_up hs.1 _), ?_⟩
  rw [runCmd_served hs (.inr ⟨hr, hok⟩), hf]
  exact hp

end Sys2Proof.Machine
end

section
/-! SUPPORT. The learn engine, the LEARN commands, ageing and the fragment sweep (R90, R125 to R129). -/

namespace Sys2Proof.Machine

/-! ### Entries of the learn cache -/

@[simp] theorem State.learnNote_book (s : State) (type : Nat) (key : W64) (port prev : Nat) :
    (s.learnNote type key port prev).book = s.book := by
  unfold State.learnNote
  dsimp only
  split
  · rw [(PostFrame.postAt _ _ _ _ _ _ _).book]
    split
    · rfl
    · exact (PostFrame.count s _ _).book
  · rfl

@[simp] theorem State.learnMod_learn (s : State) (n : Nat) (f : LearnEnt → LearnEnt) :
    (s.learnMod n f).book.learn = tmod s.book.learn n f := rfl

theorem State.learnErase_learn (s : State) (f : LearnEnt → Bool) :
    (s.learnErase f).book.learn = s.book.learn.filter fun e => !f e.2 := rfl

@[simp] theorem State.learnFull_book (s : State) (key : W64) (port : Nat) : (s.learnFull key port).book = s.book := by
  rw [State.learnFull, State.learnNote_book, (PostFrame.count s _ _).book]

/-- An entry goes into way `w` of its set where that is the first empty one. -/
theorem State.learnPut_first {s : State} {x : LearnEnt} {w : Nat} (hw : w < 4)
    (he : thas s.book.learn (4 * learnSet x.key + w) = false)
    (hb : ∀ v < w, thas s.book.learn (4 * learnSet x.key + v) = true) :
    ∃ t, s.learnPut x = some t ∧ t.book.learn = SMap.insert s.book.learn (4 * learnSet x.key + w) x := by
  have hf : (List.range 4).find? (fun k => !thas s.book.learn (4 * learnSet x.key + k)) = some w := by
    rw [List.find?_range_eq_some]
    exact ⟨by simp [he], List.mem_range.mpr hw, fun v hv => by simp [hb v hv]⟩
  rw [State.learnPut, hf]
  exact ⟨_, rfl, rfl⟩

theorem State.learnPut_full {s : State} {x : LearnEnt}
    (h : ∀ w < 4, thas s.book.learn (4 * learnSet x.key + w) = true) : s.learnPut x = none := by
  rw [State.learnPut, Option.map_eq_none_iff, List.find?_eq_none]
  intro w hw
  simp [h w (List.mem_range.mp hw)]

/-! ### The rules of the learn engine (R127) -/

theorem State.applyLearn_new {s : State} {key : W64} {w : Nat} (port : Nat) (st : Bool) (hw : w < 4)
    (hf : s.learnFind key = none) (he : thas s.book.learn (4 * learnSet key + w) = false)
    (hb : ∀ v < w, thas s.book.learn (4 * learnSet key + v) = true) :
    (s.applyLearn key port st).1.book.learn =
      SMap.insert s.book.learn (4 * learnSet key + w) { key := key, port := port, static := st } ∧
    (s.applyLearn key port st).2 = stOk := by
  obtain ⟨t, ht, hl⟩ := State.learnPut_first (x := { key := key, port := port, static := st }) hw he hb
  simp [State.applyLearn, hf, ht, hl]

theorem State.applyLearn_full {s : State} {key : W64} (port : Nat) (st : Bool) (hf : s.learnFind key = none)
    (h : ∀ w < 4, thas s.book.learn (4 * learnSet key + w) = true) :
    s.applyLearn key port st = (s.learnFull key port, stNoSpace) := by
  simp [State.applyLearn, hf, State.learnPut_full (x := { key := key, port := port, static := st }) h]

section
variable {s : State} {key : W64} {n : Nat} {x : LearnEnt} (hf : s.learnFind key = some (n, x))
include hf

theorem State.applyLearn_own_port : s.applyLearn key x.port false = (s, stOk) := by
  simp [State.applyLearn, hf]

theorem State.applyLearn_static {port : Nat} (st : Bool) (hp : x.port ≠ port) (hx : x.static = true) :
    s.applyLearn key port st = (s.count (devCtr 1) 1, stBusy) := by
  simp [State.applyLearn, hf, hp, hx]

theorem State.applyLearn_held {port : Nat} (st : Bool) (hp : x.port ≠ port) (hx : x.static = false)
    (hh : s.inHold x = true) :
    (s.applyLearn key port st).1.book.learn = tmod s.book.learn n (fun y => { y with flap := true }) ∧
    (s.applyLearn key port st).2 = stBusy := by
  have hc := (PostFrame.count s (devCtr 2) 1).book
  simp only [State.applyLearn, hf, hp, hx, hh, if_true, if_false, Bool.false_eq_true, and_true]
  split <;> simp [hc]

theorem State.applyLearn_moved {port : Nat} (st : Bool) (hp : x.port ≠ port) (hx : x.static = false)
    (hh : s.inHold x = false) :
    (s.applyLearn key port st).1.book.learn = tmod s.book.learn n (fun y => { y with
      port := port, static := st, moved := true, moveT := s.nowUs32, flap := false }) ∧
    (s.applyLearn key port st).2 = stOk := by
  simp [State.applyLearn, hf, hp, hx, hh]

end

/-! ### The engine's rotation (R127, R129) -/

theorem learnEventApply_idle {s : State} (hu : Up s) (h : s.isOff 7 0 = true ∨ s.learnNext = none) :
    exec .learnEventApply s = .next s := by
  change execLearnEventApply s = _
  rw [execLearnEventApply, gated_up hu]
  rcases h with h | h
  · simp [h]
  · simp [h]

theorem learnEventApply_command {s : State} (hu : Up s) {c : LearnCmd} {cs : List LearnCmd}
    (ho : s.isOff 7 0 = false) (hn : s.learnNext = some 64) (hc : s.book.learnCmds = c :: cs) :
    exec .learnEventApply s = .next
      ((({ s with book := { s.book with learnRot := 64, learnCmds := cs } }).applyLearnCmd c).1.finishCmd c.ring c.tag
        (({ s with book := { s.book with learnRot := 64, learnCmds := cs } }).applyLearnCmd c).2.1
        (b2n (({ s with book := { s.book with learnRot := 64, learnCmds := cs } }).applyLearnCmd c).2.2)) := by
  change execLearnEventApply s = _
  rw [execLearnEventApply, gated_up hu]
  simp [ho, hn, hc]

theorem learnEventApply_event {s : State} (hu : Up s) {k : Nat} {ev : LearnEv} {evs : List LearnEv}
    (ho : s.isOff 7 0 = false) (hn : s.learnNext = some k) (hk : k ≠ 64) (hq : (s.sq k).learnQ = ev :: evs) :
    exec .learnEventApply s = .next ((({ s with book := { s.book with learnRot := k } }).modSq k fun q => { q with
      learnQ := evs }).applyLearn ev.key ev.port false).1 := by
  change execLearnEventApply s = _
  rw [execLearnEventApply, gated_up hu]
  simp [ho, hn, hk, hq]

/-! ### The LEARN commands (R6, R15, R129, R293) -/

/-- The answer of the LEARN command `op` in the state in which it was accepted: the checks in their order, else the
command joins the engine's rotation. -/
def learnAnswer (op : Nat) (c : Cmd) (s : State) : CmdOut :=
  let port := bits c.p1.toNat 10 0
  if (op = 0 ∨ op = 3) ∧ s.portExists port = false then .ret s stTarget 0
  else if (op = 0 ∨ op = 3) ∧ s.portUnreachable port = true then .ret s stUnreachable 0
  else if op ≤ 1 ∧ c.p0.toNat % 16 ≠ 1 then .ret s stInvalid 0
  else if s.isOn 7 0 = false then .ret s stBusy 0
  else .later { s with book := { s.book with learnCmds := s.book.learnCmds ++ [{
    op := op, key := c.p0, port := port, static := bit c.p1.toNat 14, ring := c.ring, tag := c.tag, opcode := 0x23 }] } }

/-- P1 and P2 of a LEARN command hold no reserved bit (R293). -/
def learnParamsOk (c : Cmd) : Bool := p1Below c 15 && bits c.p1.toNat 11 11 == 0 && p2Below c 0

theorem learnCmd_eq (op : Nat) (c : Cmd) : learnCmd op c = runCmd 0x23 c (learnParamsOk c) (learnAnswer op c) := by
  have hop : op ≤ 1 ↔ op = 0 ∨ op = 1 := by omega
  funext s
  unfold learnCmd learnParamsOk
  congr 1
  funext u
  simp [learnAnswer, hop]

theorem learnParamsOk_of {c : Cmd} (h1 : c.p1.toNat < 32768) (hb : bits c.p1.toNat 11 11 = 0) (h2 : c.p2 = 0) :
    learnParamsOk c = true := by
  simp [learnParamsOk, p1Below, p2Below, h1, hb, h2]

/-- The instruction of a LEARN command runs that command. -/
theorem exec_learn {op : Nat} {i : Cmd → Instr}
    (h : (op, i) ∈ [(0, Instr.learnInsert), (1, .learnDelete), (2, .learnFlushAll), (3, .learnFlushPort)]) (c : Cmd)
    (s : State) : exec (i c) s = gated s (runCmd 0x23 c (learnParamsOk c) (learnAnswer op c)) := by
  rw [← learnCmd_eq]
  simp only [List.mem_cons, Prod.mk.injEq, List.not_mem_nil, or_false] at h
  obtain ⟨rfl, rfl⟩ | ⟨rfl, rfl⟩ | ⟨rfl, rfl⟩ | ⟨rfl, rfl⟩ := h <;> rfl

/-- The checks of a LEARN command read nothing that its acceptance changes. -/
theorem learnAnswer_accepted (op : Nat) (c : Cmd) (s : State) : learnAnswer op c (accepted 0x23 c s) =
    (let port := bits c.p1.toNat 10 0
    if (op = 0 ∨ op = 3) ∧ s.portExists port = false then .ret (accepted 0x23 c s) stTarget 0
    else if (op = 0 ∨ op = 3) ∧ s.portUnreachable port = true then .ret (accepted 0x23 c s) stUnreachable 0
    else if op ≤ 1 ∧ c.p0.toNat % 16 ≠ 1 then .ret (accepted 0x23 c s) stInvalid 0
    else if s.isOn 7 0 = false then .ret (accepted 0x23 c s) stBusy 0
    else .later { accepted 0x23 c s with book := { s.book with learnCmds := s.book.learnCmds ++ [{
      op := op, key := c.p0, port := port, static := bit c.p1.toNat 14, ring := c.ring, tag := c.tag,
      opcode := 0x23 }] } }) := rfl

/-- A command that names no port, or one that exists and is reachable, is judged by its key and the engine's state. -/
theorem learnAnswer_of_port {op : Nat} {c : Cmd} {s : State}
    (h : op = 1 ∨ op = 2 ∨
      (s.portExists (bits c.p1.toNat 10 0) = true ∧ s.portUnreachable (bits c.p1.toNat 10 0) = false)) :
    learnAnswer op c (accepted 0x23 c s) =
      if op ≤ 1 ∧ c.p0.toNat % 16 ≠ 1 then .ret (accepted 0x23 c s) stInvalid 0
      else if s.isOn 7 0 = false then .ret (accepted 0x23 c s) stBusy 0
      else .later { accepted 0x23 c s with book := { s.book with learnCmds := s.book.learnCmds ++ [{
        op := op, key := c.p0, port := bits c.p1.toNat 10 0, static := bit c.p1.toNat 14, ring := c.ring, tag := c.tag,
        opcode := 0x23 }] } } := by
  have hexists : ¬((op = 0 ∨ op = 3) ∧ s.portExists (bits c.p1.toNat 10 0) = false) := by grind
  have hreach : ¬((op = 0 ∨ op = 3) ∧ s.portUnreachable (bits c.p1.toNat 10 0) = true) := by grind
  rw [learnAnswer_accepted]
  exact (if_neg hexists).trans (if_neg hreach)

/-- A command's effect on the Book beside its acceptance: the command waits. -/
theorem waits_accepted_book (op : Nat) (c : Cmd) (s : State) (b : Book) :
    Waits { s with book := b } { accepted op c s with book := b } c op := by
  obtain ⟨hring, -, hother⟩ := accepted_waits op c s
  exact ⟨hring, rfl, hother⟩

/-! ### Ageing (R128) -/

/-- The visit of the sweeper to entry `n`, before ageing: the visit is noted, HIT cleared, MOVED kept in the hold. -/
def State.swept (s : State) (n : Nat) : State :=
  ({ s with book := { s.book with sweptAt := SMap.insert s.book.sweptAt n s.elapsed } }).learnMod n fun y =>
    { y with hit := 0, moved := s.inHold y }

/-- Entry `n`, whose contents are `x`, ages out: it is removed and its age notification made (R128, R129). -/
def State.agedOut (s : State) (n : Nat) (x : LearnEnt) : State :=
  ({ s with book := { s.book with learn := SMap.erase s.book.learn n } }).learnNote 0x22 x.key x.port 0

theorem State.agedOut_learn (s : State) (n : Nat) (x : LearnEnt) :
    (s.agedOut n x).book.learn = SMap.erase s.book.learn n := by
  rw [State.agedOut, State.learnNote_book]

theorem tget_learnMod {s : State} {n : Nat} {x : LearnEnt} (f : LearnEnt → LearnEnt)
    (h : tget s.book.learn n = some x) : tget (s.learnMod n f).book.learn n = some (f x) := by
  rw [State.learnMod_learn, tget_tmod, if_pos rfl, h, Option.map_some]

theorem tget_swept {s : State} {n : Nat} {x : LearnEnt} (h : tget s.book.learn n = some x) :
    tget (s.swept n).book.learn n = some { x with hit := 0, moved := s.inHold x } :=
  tget_learnMod _ h

theorem tget_swept_ne (s : State) {n m : Nat} (h : m ≠ n) :
    tget (s.swept n).book.learn m = tget s.book.learn m := by
  rw [State.swept, State.learnMod_learn, tget_tmod, if_neg h]

theorem tget_agedOut (s : State) (n : Nat) (x : LearnEnt) : tget (s.agedOut n x).book.learn n = none := by
  rw [State.agedOut_learn, tget_erase, if_pos rfl]

theorem tget_agedOut_ne (s : State) {n m : Nat} (x : LearnEnt) (h : m ≠ n) :
    tget (s.agedOut n x).book.learn m = tget s.book.learn m := by
  rw [State.agedOut_learn, tget_erase, if_neg h]

theorem ageSweepVisit_not_due {s : State} (hu : Up s) {n : Nat} (h : s.isOn 7 0 = false ∨ s.sweepDue n = false) :
    exec (.ageSweepVisit n) s = .next s := by
  change execAgeSweepVisit n s = _
  rw [execAgeSweepVisit, gated_up hu]
  rcases h with h | h
  · simp [h]
  · simp [h]

section
variable {s : State} {n : Nat} (hu : Up s) (ho : s.isOn 7 0 = true) (hd : s.sweepDue n = true)
include hu ho hd

theorem ageSweepVisit_absent (hx : tget s.book.learn n = none) : exec (.ageSweepVisit n) s =
    .next { s with book := { s.book with sweptAt := SMap.insert s.book.sweptAt n s.elapsed } } := by
  change execAgeSweepVisit n s = _
  rw [execAgeSweepVisit, gated_up hu]
  simp [ho, hd, hx]

/-- A visit that is due to an entry that is there: first the sweep of every entry, then the ageing of one that ages. -/
theorem ageSweepVisit_present {x : LearnEnt} (hx : tget s.book.learn n = some x) : exec (.ageSweepVisit n) s =
    .next (if s.agePeriod = 0 ∨ x.static = true then s.swept n
      else if x.hit ≠ 0 then (s.swept n).learnMod n fun y => { y with idle := false }
      else if x.idle = false then (s.swept n).learnMod n fun y => { y with idle := true }
      else (s.swept n).agedOut n x) := by
  change execAgeSweepVisit n s = _
  rw [execAgeSweepVisit, gated_up hu]
  simp only [ho, hd, hx, Bool.not_true, Bool.or_false, Bool.false_eq_true, if_false, Bool.not_eq_true']
  rfl

end

/-! ### The fragment sweep (R90) -/

theorem fragSweep_eq {s : State} (hu : Up s) (i : Nat) : exec (.fragSweep i) s = .next (s.modSq i fun q => { q with
    frag := q.frag.filter fun e => decide (s.elapsed < e.2.created + s.fragLife i) }) := by
  change execFragSweep i s = _
  rw [execFragSweep, gated_up hu]
  simp only [State.fragOld, ← decide_not, Nat.not_le]

/-- Settles O14: the checks of the LEARN commands in their order, and the rules of the engine and the sweeper. -/
theorem learnEngineAndCommands : Obligations.LearnEngineAndCommands := by
  unfold Obligations.LearnEngineAndCommands
  refine ⟨?commands, ?engine, ?rules⟩
  case commands =>
    intro op i hi c s p ht h1 hb h2 hp
    subst hp
    have hok := learnParamsOk_of h1 hb h2
    refine ⟨fun hn he => ?_, fun hn he hr => ?_, fun hport => ⟨fun hop hk => ?_, fun hk => ⟨fun ho => ?_, fun ho => ?_⟩⟩⟩
    · refine yields_returns (exec_learn hi c s) (by decide) ht hok ?_
      simp [learnAnswer_accepted, hn, he]
    · refine yields_returns (exec_learn hi c s) (by decide) ht hok ?_
      simp [learnAnswer_accepted, hn, he, hr]
    · refine yields_returns (exec_learn hi c s) (by decide) ht hok ?_
      rw [learnAnswer_of_port hport, if_pos ⟨hop, hk⟩]
    all_goals have hkey : ¬(op ≤ 1 ∧ c.p0.toNat % 16 ≠ 1) := by omega
    · refine yields_returns (exec_learn hi c s) (by decide) ht hok ?_
      rw [learnAnswer_of_port hport, if_neg hkey, if_pos ho]
    · refine yields_later (exec_learn hi c s) ht hok ?_ (waits_accepted_book 0x23 c s _)
      rw [learnAnswer_of_port hport, if_neg hkey, if_neg (by simp [ho])]
  case engine =>
    intro s hu
    refine ⟨learnEventApply_idle hu, fun c cs u ho hn hc h => h ▸ learnEventApply_command hu ho hn hc,
      fun k ev evs ho hn hk hq => learnEventApply_event hu ho hn hk hq, fun n h => ageSweepVisit_not_due hu h,
      fun n ho hd hx => ageSweepVisit_absent hu ho hd hx, fun n x ho hd hx => ?_, fun i => fragSweep_eq hu i⟩
    have hv := ageSweepVisit_present hu ho hd hx
    have hs := tget_swept hx
    refine ⟨fun h => ⟨_, hv.trans (congrArg _ (if_pos h.symm)), hs⟩, fun hst hp => ?_⟩
    have hages : ¬(s.agePeriod = 0 ∨ x.static = true) := by simp [hp, hst]
    rw [if_neg hages] at hv
    refine ⟨fun hh => ⟨_, hv.trans (congrArg _ (if_pos hh)), tget_learnMod _ hs⟩, fun hh hi => ?_, fun hh hi => ?_⟩
    all_goals rw [if_neg (not_not_intro hh)] at hv
    · exact ⟨_, hv.trans (congrArg _ (if_pos hi)), tget_learnMod _ hs⟩
    · exact ⟨_, hv.trans (congrArg _ (if_neg (by simp [hi]))), tget_agedOut _ n x,
        fun m hm => (tget_agedOut_ne _ x hm).trans (tget_swept_ne s hm)⟩
  case rules =>
    intro key port st s
    refine ⟨fun w hw hf he hb => State.applyLearn_new port st hw hf he hb,
      fun hf h => ⟨State.applyLearn_full port st hf h, by rw [State.learnFull_book]⟩, fun n x hf => ⟨?_,
        State.applyLearn_static hf st, State.applyLearn_held hf st, State.applyLearn_moved hf st⟩, fun c => ?_⟩
    · rintro rfl
      exact State.applyLearn_own_port hf
    · refine ⟨fun h => ?_, fun h => ?_, fun h => ?_⟩ <;>
        simp [State.applyLearnCmd, h, State.learnErase_learn, bne]

end Sys2Proof.Machine
end

section
/-! SUPPORT. Writes of whole registers outside the square blocks (R10, R21, R394, R399). -/

namespace Sys2Proof.Machine

/-! ### The value a register takes (R10) -/

theorem bit_eq_testBit (n i : Nat) : bit n i = n.testBit i := by
  rw [Nat.testBit_eq_decide_div_mod_eq, bit, Bool.beq_eq_decide_eq]

theorem bit_toNat (x : Reg) (i : Nat) : bit x.toNat i = x.getLsbD i := bit_eq_testBit _ _

theorem land_toNat (x : Reg) (m : Nat) : Nat.land x.toNat m = (x &&& BitVec.ofNat 32 m).toNat := by
  have hlt : x.toNat &&& m < 2 ^ 32 := Nat.and_le_left.trans_lt x.isLt
  rw [BitVec.toNat_and, BitVec.toNat_ofNat, ← Nat.mod_eq_of_lt x.isLt, ← Nat.and_mod_two_pow,
    Nat.mod_eq_of_lt x.isLt, Nat.mod_eq_of_lt hlt]
  rfl

/-- Taking the bits of a mask away from a register leaves the others. -/
theorem toNat_sub_and (x m : Reg) : x.toNat - (x &&& m).toNat = (x &&& ~~~m).toNat := by
  have hz : (x &&& ~~~m) &&& (x &&& m) = 0#32 := by ext i; grind
  have hsplit : (x &&& ~~~m) + (x &&& m) = x := by
    rw [BitVec.add_eq_or_of_and_eq_zero _ _ hz]
    ext i; grind
  have hsum := BitVec.toNat_add_of_and_eq_zero hz
  rw [hsplit] at hsum
  omega

/-- The word written, as a register, where no bit is both RW and W1C. -/
theorem writtenWord_eq {r : RegRow} (hd : Nat.land r.rw r.w1c = 0) (old v : Reg) :
    writtenWord r old.toNat v.toNat = ((v &&& BitVec.ofNat 32 r.rw) |||
      (old &&& ~~~BitVec.ofNat 32 r.rw &&& ~~~(BitVec.ofNat 32 r.w1c &&& v))).toNat := by
  have hdis : BitVec.ofNat 32 r.rw &&& BitVec.ofNat 32 r.w1c = 0#32 := by
    rw [← BitVec.ofNat_and]
    exact congrArg (BitVec.ofNat 32) hd
  generalize hR : BitVec.ofNat 32 r.rw = R at *
  generalize hW : BitVec.ofNat 32 r.w1c = W at *
  have hclear : old &&& W &&& v = (old &&& ~~~R) &&& (W &&& v) := by
    ext i hi
    have hbit := congrArg (·[i]) hdis
    grind
  have hlog : Nat.land (old &&& W).toNat v.toNat = (old &&& W &&& v).toNat := (BitVec.toNat_and _ _).symm
  have hz : (v &&& R) &&& (old &&& ~~~R &&& ~~~(W &&& v)) = 0#32 := by ext i; grind
  rw [← BitVec.add_eq_or_of_and_eq_zero _ _ hz, BitVec.toNat_add_of_and_eq_zero hz, writtenWord, land_toNat, land_toNat,
    land_toNat, hR, hW, toNat_sub_and, hlog, hclear, toNat_sub_and]

/-- RW bits take the value written, W1C bits written 1 are cleared, every other bit is kept. -/
theorem bit_writtenWord {r : RegRow} (hd : Nat.land r.rw r.w1c = 0) (old v : Reg) {i : Nat} (hi : i < 32) :
    bit (BitVec.ofNat 32 (writtenWord r old.toNat v.toNat)).toNat i =
      if bit r.rw i then bit v.toNat i else bit old.toNat i && !(bit r.w1c i && bit v.toNat i) := by
  have hmask (m : Nat) : (BitVec.ofNat 32 m).getLsbD i = bit m i := by
    rw [BitVec.getLsbD_ofNat, decide_eq_true hi, Bool.true_and, bit_eq_testBit]
  have hneg (x : Reg) : (~~~x).getLsbD i = !x.getLsbD i := by
    rw [BitVec.getLsbD_not, decide_eq_true hi, Bool.true_and]
  rw [writtenWord_eq hd, BitVec.ofNat_toNat, BitVec.setWidth_eq]
  simp only [bit_toNat, BitVec.getLsbD_or, BitVec.getLsbD_and, hneg, hmask]
  cases bit r.rw i <;> simp

/-! ### The register index (R405) -/

theorem findRow_mem {rs : List RegRow} {o : Nat} {r : RegRow} (h : findRow rs o = some r) : r ∈ rs := by
  induction rs with
  | nil => cases h
  | cons x xs ih =>
    rw [findRow] at h
    split at h
    · exact Option.some.inj h ▸ List.mem_cons_self
    · exact List.mem_cons_of_mem _ (ih h)

theorem globalRows_disjoint : ∀ r ∈ globalRows, Nat.land r.rw r.w1c = 0 := by decide

/-- No bit of a register outside the square blocks is both RW and W1C. -/
theorem regRow_disjoint {a : Nat} {r : RegRow} (ha : a < 0x1000000) (h : regRow a = some r) :
    Nat.land r.rw r.w1c = 0 := by
  have hsq : inSquare a = false := decide_eq_false (by omega)
  rw [regRow, hsq] at h
  exact globalRows_disjoint r (findRow_mem h)

/-! ### What a write does beside changing the register (R21) -/

/-- What a write outside the square blocks may do beside: settings come into force, the reference is chosen anew, and a
vector that it unmasks sends its message, which clears a bit of the PBA. -/
structure WriteFrame (s t : State) : Prop where
  parts : t = { s with regs := t.regs, force := t.force, time := t.time, host := t.host, io := t.io }
  reg : ∀ x, x < 0x1C000 ∨ 0x1C100 ≤ x → t.reg x = s.reg x

theorem WriteFrame.refl (s : State) : WriteFrame s s := ⟨rfl, fun _ _ => rfl⟩

theorem WriteFrame.trans {s t u : State} (h : WriteFrame s t) (k : WriteFrame t u) : WriteFrame s u :=
  ⟨by rw [k.parts, h.parts], fun x hx => (k.reg x hx).trans (h.reg x hx)⟩

theorem WriteFrame.latch (s : State) (as : List Nat) : WriteFrame s (s.latch as) := ⟨rfl, fun _ _ => rfl⟩

theorem WriteFrame.chooseRef (s : State) : WriteFrame s s.chooseRef := ⟨rfl, fun _ _ => rfl⟩

theorem WriteFrame.ite {c : Prop} [Decidable c] {s t : State} (h : WriteFrame s t) :
    WriteFrame s (if c then t else s) := by
  split
  · exact h
  · exact .refl s

theorem WriteFrame.foldl {α : Type} {f : State → α → State} (h : ∀ s a, WriteFrame s (f s a)) (l : List α) (s : State) :
    WriteFrame s (l.foldl f s) := by
  induction l generalizing s with
  | nil => exact .refl s
  | cons a l ih => exact (h s a).trans (ih _)

theorem WriteFrame.latchTelem (s : State) (k : Nat) : WriteFrame s (s.latchTelem k) :=
  (WriteFrame.foldl (f := fun s j => s.setForce (telemKey k j) (s.reg (A.telemCfg + 4 * j)))
    (fun _ _ => ⟨rfl, fun _ _ => rfl⟩) [0, 1, 2] s).trans (.latch _ _)

theorem WriteFrame.sendPending (s : State) {vec : Nat} (hv : vec < 2048) : WriteFrame s (s.sendPending 0 vec) := by
  refine .ite ⟨rfl, fun x hx => ?_⟩
  have hne : x ≠ A.msixPba (vec / 32) := by unfold A.msixPba; omega
  exact (State.reg_setReg _ _ _ _).trans (if_neg hne)

theorem State.useRef_same {s : State} (h : refChanged s s.chooseRef = false) : s.useRef = s.chooseRef := by
  simp [State.useRef, h]

theorem State.useRef_changed {s : State} (h : refChanged s s.chooseRef = true) :
    s.useRef = s.chooseRef.faultEvent 13 := by
  simp [State.useRef, h]

theorem State.afterGlobal_timeCfg (s : State) : s.afterGlobal A.timeCfg = s.useRef := rfl

/-- The pending bits are in no register that acts when written. -/
theorem State.afterGlobal_pba (s : State) {a : Nat} (h : 0x1C000 ≤ a) (h' : a < 0x1C100) : s.afterGlobal a = s := by
  have hne (b : Nat) (hb : b < 0x1C000 ∨ 0x1C100 ≤ b) : a ≠ b := by omega
  have hout : ¬(0x14000 ≤ a ∧ a < 0x1C000 ∧ a % 16 = 12) := by omega
  simp only [State.afterGlobal, hne A.bookLearnCfg (by decide), hne A.bookAgeCfg (by decide),
    hne A.timeBcCfg (by decide), hne A.svcRedCfg (by decide), hne A.hostMgmtCfg (by decide), hne A.telemCfg (by decide),
    hne (A.telemCfg + 4) (by decide), hne (A.telemCfg + 8) (by decide), hne A.timeCfg (by decide), hout, or_self,
    if_false]

theorem WriteFrame.afterGlobal {s : State} {a : Nat} (h : a ≠ A.timeCfg ∨ refChanged s s.chooseRef = false) :
    WriteFrame s (s.afterGlobal a) := by
  unfold State.afterGlobal
  split
  · exact .ite (.latch s _)
  split
  · exact .ite (.latch s _)
  split
  · exact .ite (.latch s _)
  split
  · exact .ite (.latch s _)
  split
  · exact .foldl (fun s k => .ite (.latchTelem s k)) squares s
  split
  · next ht => exact State.useRef_same (h.resolve_left (not_not_intro ht)) ▸ .chooseRef s
  split
  · next hm => exact .sendPending s (by omega)
  · exact .refl s

/-! ### The write itself (R394, R399) -/

/-- A write of a whole register with no function of its own: the register takes its word, and then the write acts. -/
theorem registerWrite_eq {s : State} {a : Nat} {v : Reg} {r : RegRow} (hw : Wired s)
    (hs : s.boot.dpReady = true ∨ a < 0x20000) (ha : a < 0x1000000) (hr : regRow a = some r) (h0 : a ≠ 0x20)
    (hctl : a ≠ A.faultCtl) (hinj : a ≠ A.faultInj) (h4 : a ≠ A.faultCfg 4) (h15 : a ≠ A.faultCfg 15) :
    exec (.registerWrite a v 15 false) s =
      .next ((s.setReg a (BitVec.ofNat 32 (writtenWord r (s.reg a).toNat v.toNat))).afterGlobal a) := by
  have hsq : inSquare a = false := decide_eq_false (by omega)
  have hbc : ¬(0x2000000 ≤ a ∧ a < 0x2040000) := by omega
  have hopen : (!s.boot.dpReady && !alwaysWritable a) = false := by
    rcases hs with h | h
    · simp [h]
    · simp [alwaysWritable, h]
  have hreg : s.hostWriteReg a v 15 = s.writeRow r a v := by
    simp [State.hostWriteReg, State.writeReg, hopen, hr, h0, hctl, hinj, h4, h15, hsq]
  change execRegisterWrite a v 15 false s = _
  rw [execRegisterWrite, atPins_wired hw]
  simp only [Bool.false_eq_true, if_false, hbc, hreg, State.writeRow, hsq]

/-- Settles O26: the fields of the word written, and the frame of what the write does beside. -/
theorem registerWriteFields : Obligations.RegisterWriteFields := by
  unfold Obligations.RegisterWriteFields
  intro a v r s u hw hs ha hr h0 hctl hinj h4 h15 hu
  have hx : exec (.registerWrite a v 15 false) s = .next (u.afterGlobal a) :=
    hu ▸ registerWrite_eq hw hs ha hr h0 hctl hinj h4 h15
  have hbits : ∀ i < 32, bit (u.reg a).toNat i = if bit r.rw i then bit v.toNat i
      else bit (s.reg a).toNat i && !(bit r.w1c i && bit v.toNat i) := by
    intro i hi
    rw [hu, State.reg_setReg, if_pos rfl, bit_writtenWord (regRow_disjoint ha hr) _ _ hi]
  have hother : ∀ x, x ≠ a → u.reg x = s.reg x := fun x hx => by rw [hu, State.reg_setReg, if_neg hx]
  refine ⟨hbits, fun h => ⟨_, hx, ?_⟩, fun ht hc => ?_⟩
  · have hf := WriteFrame.afterGlobal h
    have ha' : (u.afterGlobal a).reg a = u.reg a := by
      by_cases hp : 0x1C000 ≤ a ∧ a < 0x1C100
      · rw [State.afterGlobal_pba u hp.1 hp.2]
      · exact hf.reg a (by omega)
    refine ⟨fun i hi => ha' ▸ hbits i hi, fun x hne hx => (hf.reg x hx).trans (hother x hne), hf.parts.trans ?_⟩
    rw [hu]
    rfl
  · rw [hx, ht, State.afterGlobal_timeCfg, State.useRef_changed hc]

end Sys2Proof.Machine
end

section
/-!
SUPPORT. Lifecycle commands (R25 to R33): how a command that runs to its end answers, what the return of a command leaves
of the lifecycle states, and the functions of a list that change their state together (R31).
-/

namespace Sys2Proof.Machine

/-! ### Commands that run to their end -/

/-- A served command whose effect returns is answered at once. -/
theorem exec_eq_completeCmd {i : Instr} {op st res : Nat} {c : Cmd} {ok : Bool} {f : State → CmdOut} {s u : State}
    (hx : exec i s = gated s (runCmd op c ok f)) (ht : Takes s c) (hok : ok = true)
    (hf : f (accepted op c s) = .ret u st res) :
    exec i s = .next (u.completeCmd c.ring (cmdBytes op c) st res) := by
  obtain ⟨hs, hr⟩ := ht
  rw [hx, gated_up hs.1, runCmd_served hs (.inr ⟨hr, hok⟩), hf]

/-- The newest return after the answer to a command is that command's. -/
theorem answered_completeCmd {op : Nat} (ho : op < 65536) (c : Cmd) (u : State) (st res : Nat) :
    Answered (u.completeCmd c.ring (cmdBytes op c) st res) c op st res := by
  rw [Answered, returns_of_effect ho rfl]
  rfl

/-- The answer to a command whose effect, apart from its acceptance, is that of `u` on the state before. -/
theorem returns_completeCmd {op : Nat} (ho : op < 65536) (c : Cmd) (u : State) (st res : Nat) :
    Returns u ((accepted op c u).completeCmd c.ring (cmdBytes op c) st res) c op st res :=
  ⟨returns_of_effect ho rfl, completeCmd_accepted _ _ _ _ _, (accepted_frame op c u).trans (.completeCmd _ _ _ _ _)⟩

/-! ### What a return leaves -/

theorem ReturnFrame.fns {n : Nat} {s t : State} (h : ReturnFrame n s t) : t.fns = s.fns := by
  obtain ⟨hst, -⟩ := h
  rw [hst]

@[simp] theorem State.completeCmd_fns (s : State) (n : Nat) (d : List Byte) (st res : Nat) :
    (s.completeCmd n d st res).fns = s.fns := (ReturnFrame.completeCmd n s d st res).fns

@[simp] theorem State.completeCmd_fn (s : State) (n : Nat) (d : List Byte) (st res cls inst : Nat) :
    (s.completeCmd n d st res).fn cls inst = s.fn cls inst :=
  congrArg (fun m => SMap.get fnInit m (fnKey cls inst)) (s.completeCmd_fns n d st res)

/-- What a change of lifecycle states that ends with the return of its command may touch: lifecycle states, rings, and
what the return itself touches. -/
def LifeFrame (s t : State) : Prop := t = { s with
  fns := t.fns, regs := t.regs
  host := { s.host with rings := t.host.rings, cmdRot := t.host.cmdRot, vfPending := t.host.vfPending }
  io := { s.io with rets := t.io.rets, hostw := t.io.hostw, msix := t.io.msix } }

theorem LifeFrame.trans {s t u : State} (h : LifeFrame s t) (k : LifeFrame t u) : LifeFrame s u := by
  unfold LifeFrame at *
  rw [k, h]

theorem LifeFrame.of_return {n : Nat} {s t : State} (h : ReturnFrame n s t) : LifeFrame s t := by
  have hfns := h.fns
  obtain ⟨hst, hhost, hio, -⟩ := h
  unfold LifeFrame
  rw [← hhost, ← hio, hfns]
  exact hst

theorem LifeFrame.foldl {α : Type} {f : State → α → State} (h : ∀ s a, LifeFrame s (f s a)) (l : List α) (s : State) :
    LifeFrame s (l.foldl f s) := by
  induction l generalizing s with
  | nil => rfl
  | cons a l ih => exact (h s a).trans (ih _)

/-! ### Functions that change their state together (R31) -/

theorem State.isOn_eq_true {s : State} {cls inst : Nat} : s.isOn cls inst = true ↔ (s.fn cls inst).st = .on := by
  simp [State.isOn]

theorem State.isOff_eq_true {s : State} {cls inst : Nat} : s.isOff cls inst = true ↔ (s.fn cls inst).st = .off := by
  simp [State.isOff]

theorem State.isDraining_eq_true {s : State} {cls inst : Nat} :
    s.isDraining cls inst = true ↔ (s.fn cls inst).st = .draining := by
  simp [State.isDraining]

/-- The functions of a list that are in state `l` take `x`. -/
def State.setWhere (s : State) (l : Life) (x : Fn) (fs : List (Nat × Nat)) : State :=
  fs.foldl (fun s f => if (s.fn f.1 f.2).st == l then s.setFn f.1 f.2 x else s) s

theorem State.setWhere_eq (s : State) (l : Life) (x : Fn) (fs : List (Nat × Nat)) :
    s.setWhere l x fs = { s with fns := (s.setWhere l x fs).fns } := by
  unfold State.setWhere
  induction fs generalizing s with
  | nil => rfl
  | cons f fs ih =>
    rw [List.foldl_cons]
    split
    · rw [ih]
      rfl
    · exact ih s

/-- A function that is in another state keeps what it has. -/
theorem State.fn_setWhere_keeps {l : Life} {s : State} {d j : Nat} (x : Fn) (fs : List (Nat × Nat))
    (h : (s.fn d j).st ≠ l) : (s.setWhere l x fs).fn d j = s.fn d j := by
  unfold State.setWhere
  induction fs generalizing s with
  | nil => rfl
  | cons f fs ih =>
    have hstep : (if (s.fn f.1 f.2).st == l then s.setFn f.1 f.2 x else s).fn d j = s.fn d j := by
      split
      · next hl =>
        have hkey : fnKey d j ≠ fnKey f.1 f.2 := by
          intro hkey
          simp only [State.fn, hkey] at h
          exact h (eq_of_beq hl)
        rw [State.fn_setFn, if_neg hkey]
      · rfl
    rw [List.foldl_cons, ih (hstep ▸ h), hstep]

/-- A function that the list does not name keeps what it has. -/
theorem State.fn_setWhere_ne {l : Life} {x : Fn} {s : State} {fs : List (Nat × Nat)} {d j : Nat}
    (hne : ∀ f ∈ fs, fnKey d j ≠ fnKey f.1 f.2) : (s.setWhere l x fs).fn d j = s.fn d j := by
  unfold State.setWhere
  induction fs generalizing s with
  | nil => rfl
  | cons f fs ih =>
    obtain ⟨hf, hfs⟩ := List.forall_mem_cons.mp hne
    rw [List.foldl_cons, ih hfs]
    split
    · rw [State.fn_setFn, if_neg hf]
    · rfl

/-- A function of the list that is in state `l` takes `x`, where that is in another state. -/
theorem State.fn_setWhere_mem {l : Life} {x : Fn} (hx : x.st ≠ l) {s : State} {fs : List (Nat × Nat)} {f : Nat × Nat}
    (hf : f ∈ fs) (h : (s.fn f.1 f.2).st = l) : (s.setWhere l x fs).fn f.1 f.2 = x := by
  induction fs generalizing s with
  | nil => cases hf
  | cons g fs ih =>
    rw [State.setWhere, List.foldl_cons]
    by_cases hkey : fnKey f.1 f.2 = fnKey g.1 g.2
    · have hg : (s.fn g.1 g.2).st = l := by simpa only [State.fn, hkey] using h
      have htake : (s.setFn g.1 g.2 x).fn f.1 f.2 = x := by rw [State.fn_setFn, if_pos hkey]
      rw [if_pos (beq_iff_eq.mpr hg)]
      exact (State.fn_setWhere_keeps x fs (by rwa [htake])).trans htake
    · have hmem : f ∈ fs := (List.mem_cons.mp hf).resolve_left (fun h => hkey (h ▸ rfl))
      refine ih hmem ?_
      split
      · rwa [State.fn_setFn, if_neg hkey]
      · exact h

/-! ### Function numbers of commands (R30) -/

theorem cmdInst_lt (c : Cmd) : cmdInst c < 65536 := Nat.mod_lt _ (by decide)

/-- No function is contained in itself: a contained function has another number. -/
theorem fnKey_ne_of_contained {s t : State} {cls inst : Nat} (hi : inst < 65536) (he : s.instExists cls inst = true)
    {f : Nat × Nat} (hf : f ∈ t.contained cls inst) : fnKey cls inst ≠ fnKey f.1 f.2 := by
  unfold State.contained at hf
  split at hf
  · simp only [List.mem_map, List.mem_range] at hf
    obtain ⟨k, hk, rfl⟩ := hf
    have hb : inst < 1024 ∨ inst = 1089 := by
      simp [State.instExists] at he
      omega
    simp only [fnKey]
    omega
  · simp only [List.mem_map, List.mem_range] at hf
    obtain ⟨k, hk, rfl⟩ := hf
    have hb : inst < 64 := of_decide_eq_true he
    simp only [fnKey]
    omega
  · simp only [List.mem_map] at hf
    obtain ⟨n, hn, rfl⟩ := hf
    have hb : n < 4096 := by
      simp only [State.ringsOf, List.mem_filter, Bool.and_eq_true, decide_eq_true_eq] at hn
      exact hn.2.1.1
    simp only [fnKey]
    omega
  · cases hf

end Sys2Proof.Machine
end

section
/-! SUPPORT. DISABLE (R25, R26, R30, R31, R33). -/

namespace Sys2Proof.Machine

/-! ### What a function contains (R31) -/

/-- A key of a map is a key of the map with an entry inserted. -/
theorem SMap.key_mem_insert {α : Type} {m : SMap α} {n : Nat} (h : n ∈ m.map Prod.fst) (k : Nat) (x : α) :
    n ∈ (SMap.insert m k x).map Prod.fst := by
  induction m with
  | nil => cases h
  | cons e m ih =>
    unfold SMap.insert
    split
    · exact List.mem_cons_of_mem _ h
    · split
      · next hk => simpa [hk] using h
      · exact List.mem_cons.mpr ((List.mem_cons.mp h).imp_right ih)

theorem ReturnFrame.ring_fn {n : Nat} {s t : State} (h : ReturnFrame n s t) (m : Nat) :
    (t.ring m).fn = (s.ring m).fn := by
  obtain ⟨-, -, -, hother, hown, -⟩ := h
  by_cases hm : m = n
  · rw [hm, hown]
  · rw [hother m hm]

/-- Acceptance keeps every entry of the ring table. -/
theorem key_mem_accepted {op : Nat} {c : Cmd} {s : State} {n : Nat} (h : n ∈ s.host.rings.map Prod.fst) :
    n ∈ (accepted op c s).host.rings.map Prod.fst := by
  change n ∈ (SMap.upd (fun _ => {}) s.host.rings c.ring fun r => { r with
    fetched := r.fetched.drop 1, accepted := some (cmdBytes op c) }).map Prod.fst
  rw [SMap.upd, SMap.set, if_neg (by simp)]
  exact SMap.key_mem_insert h _ _

/-- What a function contains stays in it where the ring table keeps its entries, with their functions, and no ring's
lifecycle state changes. -/
theorem State.contained_of_rings {s t : State} (hkey : ∀ n ∈ s.host.rings.map Prod.fst, n ∈ t.host.rings.map Prod.fst)
    (hring : ∀ n, (t.ring n).fn = (s.ring n).fn) {cls : Nat} (hoff : cls = 6 → ∀ n < 4096, t.isOff 5 n = s.isOff 5 n)
    {inst : Nat} {f : Nat × Nat} (h : f ∈ s.contained cls inst) : f ∈ t.contained cls inst := by
  by_cases hcls : cls = 6
  · subst hcls
    simp only [State.contained, State.ringsOf, List.mem_map, List.mem_filter, Bool.and_eq_true, decide_eq_true_eq] at h ⊢
    obtain ⟨n, ⟨hn, ⟨hlt, hon⟩, hfn⟩, rfl⟩ := h
    exact ⟨n, ⟨List.mem_map.mp (hkey n (List.mem_map.mpr hn)), ⟨hlt, hoff rfl n hlt ▸ hon⟩, hring n ▸ hfn⟩, rfl⟩
  · have heq : t.contained cls inst = s.contained cls inst := by
      unfold State.contained
      split
      · rfl
      · rfl
      · exact absurd rfl hcls
      · rfl
    exact heq ▸ h

/-! ### Begin of DRAINING (R26, R31) -/

/-- The functions whose state `beginDrain` changes: the function itself, then those that it contains. -/
def State.drainStates (s : State) (cls inst us : Nat) : State :=
  let s1 := s.setFn cls inst { st := .draining, own := true, since := s.elapsed, deadline := s.elapsed + usT us }
  s1.setWhere .on { st := .draining, own := false, since := s.elapsed, deadline := s.elapsed + usT us
                    inside := some (fnKey cls inst) } (s1.contained cls inst)

/-- With a timeout, DRAINING begins with the change of states, and then rings release descriptors (R298). -/
theorem State.beginDrain_eq {us : Nat} (h : 0 < us) (s : State) (cls inst : Nat) :
    ∃ (ns : List Nat) (f : Ring → Ring), s.beginDrain cls inst us false = ns.foldl (fun s n => s.modRing n f) (s.drainStates cls inst us) :=
  ⟨_, _, if_neg h.ne'⟩

theorem State.foldl_modRing_fns (ns : List Nat) (f : Ring → Ring) (s : State) :
    (ns.foldl (fun s n => s.modRing n f) s).fns = s.fns := by
  induction ns generalizing s with
  | nil => rfl
  | cons n ns ih => exact ih _

theorem State.beginDrain_fn {us : Nat} (h : 0 < us) (s : State) (cls inst d j : Nat) :
    (s.beginDrain cls inst us false).fn d j = (s.drainStates cls inst us).fn d j := by
  obtain ⟨ns, f, heq⟩ := State.beginDrain_eq h s cls inst
  rw [heq, State.fn, State.foldl_modRing_fns, ← State.fn]

theorem LifeFrame.setFn (s : State) (cls inst : Nat) (x : Fn) : LifeFrame s (s.setFn cls inst x) := rfl

theorem LifeFrame.setWhere (s : State) (l : Life) (x : Fn) (fs : List (Nat × Nat)) : LifeFrame s (s.setWhere l x fs) := by
  rw [LifeFrame, State.setWhere_eq]

theorem LifeFrame.modRing (s : State) (n : Nat) (f : Ring → Ring) : LifeFrame s (s.modRing n f) := rfl

theorem LifeFrame.beginDrain {us : Nat} (h : 0 < us) (s : State) (cls inst : Nat) :
    LifeFrame s (s.beginDrain cls inst us false) := by
  obtain ⟨ns, f, heq⟩ := State.beginDrain_eq h s cls inst
  rw [heq]
  exact ((LifeFrame.setFn s cls inst _).trans (.setWhere _ _ _ _)).trans (.foldl (fun s n => .modRing s n f) ns _)

/-- The function that DISABLE names drains under a command of its own. -/
theorem State.drainStates_fn {s : State} {cls inst : Nat} (hi : inst < 65536) (he : s.instExists cls inst = true)
    (us : Nat) : (s.drainStates cls inst us).fn cls inst =
      { st := .draining, own := true, since := s.elapsed, deadline := s.elapsed + usT us } := by
  refine (State.fn_setWhere_ne fun f hf => ?_).trans ?_
  · exact fnKey_ne_of_contained hi he hf
  · rw [State.fn_setFn, if_pos rfl]

/-- A function that it contains and that is ON drains as part of it. -/
theorem State.drainStates_contained {s : State} {cls inst : Nat} (hi : inst < 65536)
    (he : s.instExists cls inst = true) (us : Nat) {f : Nat × Nat} (hf : f ∈ s.contained cls inst)
    (hon : (s.fn f.1 f.2).st = .on) : (s.drainStates cls inst us).isDraining f.1 f.2 = true ∧
      ((s.drainStates cls inst us).fn f.1 f.2).own = false := by
  have hmem (x : Fn) : f ∈ (s.setFn cls inst x).contained cls inst := by
    refine State.contained_of_rings (s := s) (t := s.setFn cls inst x) (fun _ h => h) (fun _ => rfl) (fun hcls n hn => ?_) hf
    have hne : fnKey 5 n ≠ fnKey cls inst := by
      simp only [fnKey]
      omega
    rw [State.isOff, State.fn_setFn, if_neg hne, ← State.isOff]
  have hst (x : Fn) : ((s.setFn cls inst x).fn f.1 f.2).st = .on := by
    rw [State.fn_setFn, if_neg (fnKey_ne_of_contained hi he hf).symm, hon]
  rw [State.isDraining_eq_true, State.drainStates, State.fn_setWhere_mem (by simp) (hmem _) (hst _)]
  exact ⟨rfl, rfl⟩

/-! ### The command -/

/-- The answer of DISABLE in the state in which it was accepted. -/
def disableAnswer (c : Cmd) (s : State) : CmdOut :=
  if 10 < cmdCls c ∨ (10000000 < c.p2.toNat ∧ c.p2.toNat ≠ 4294967295) then .ret s stInvalid 0
  else if !s.instExists (cmdCls c) (cmdInst c) then .ret s stTarget 0
  else if s.instUnreachable (cmdCls c) (cmdInst c) then .ret s stUnreachable 0
  else
    let us := if c.p2.toNat = 4294967295 then defaultTimeout (cmdCls c) else c.p2.toNat
    .ret (s.disableFn (cmdCls c) (cmdInst c) us false).1 (s.disableFn (cmdCls c) (cmdInst c) us false).2 0

theorem exec_disable (c : Cmd) (s : State) :
    exec (.disable c) s = gated s (runCmd 0x11 c (fnParamsOk c && p1Below c 0) (disableAnswer c)) := rfl

theorem disableParamsOk {c : Cmd} (h : fnParamsOk c = true) (h1 : c.p1 = 0) : (fnParamsOk c && p1Below c 0) = true := by
  simp [h, h1, p1Below]

/-- A DISABLE of a reachable function, with a timeout in range, is judged by the function's state. -/
theorem disableAnswer_of_fn {c : Cmd} {s : State} (hc : cmdCls c ≤ 10)
    (he : s.instExists (cmdCls c) (cmdInst c) = true) (hu : s.instUnreachable (cmdCls c) (cmdInst c) = false) {us : Nat}
    (hus : us = if c.p2.toNat = 4294967295 then defaultTimeout (cmdCls c) else c.p2.toNat)
    (ht : c.p2.toNat ≤ 10000000 ∨ c.p2.toNat = 4294967295) :
    disableAnswer c (accepted 0x11 c s) = .ret ((accepted 0x11 c s).disableFn (cmdCls c) (cmdInst c) us false).1
      ((accepted 0x11 c s).disableFn (cmdCls c) (cmdInst c) us false).2 0 := by
  have hrange : ¬(10 < cmdCls c ∨ (10000000 < c.p2.toNat ∧ c.p2.toNat ≠ 4294967295)) := by omega
  have he' : (accepted 0x11 c s).instExists (cmdCls c) (cmdInst c) = true := he
  have hu' : (accepted 0x11 c s).instUnreachable (cmdCls c) (cmdInst c) = false := hu
  simp [disableAnswer, hrange, he', hu', hus]

theorem State.disableFn_off {s : State} {cls inst : Nat} (h : (s.fn cls inst).st = .off) (us : Nat) (ph : Bool) :
    s.disableFn cls inst us ph = (s, stAlreadyOff) := by
  simp [State.disableFn, h]

theorem State.disableFn_on {s : State} {cls inst : Nat} (h : (s.fn cls inst).st = .on) (us : Nat) (ph : Bool) :
    s.disableFn cls inst us ph = (s.beginDrain cls inst us ph, stOk) := by
  simp [State.disableFn, h]

theorem State.disableFn_inside {s : State} {cls inst : Nat} (h : (s.fn cls inst).st = .draining)
    (ho : (s.fn cls inst).own = false) (us : Nat) (ph : Bool) :
    s.disableFn cls inst us ph = (s, stAlreadyDraining) := by
  simp [State.disableFn, h, ho]

theorem State.disableFn_own {s : State} {cls inst : Nat} (h : (s.fn cls inst).st = .draining)
    (ho : (s.fn cls inst).own = true) (us : Nat) : s.disableFn cls inst us false =
      (s.modFn cls inst fun f => { f with deadline := min f.deadline (s.elapsed + usT us), byPhase := false },
        stAlreadyDraining) := by
  simp [State.disableFn, h, ho]

section
variable {c : Cmd} {s : State} {us : Nat} (h : 0 < us)
include h

/-- The state in which DISABLE of a function that is ON answers. -/
theorem disable_on_fn (d j : Nat) :
    (answer 0x11 c s stOk 0 fun u => u.beginDrain (cmdCls c) (cmdInst c) us false).fn d j =
      ((accepted 0x11 c s).drainStates (cmdCls c) (cmdInst c) us).fn d j := by
  rw [answer, State.completeCmd_fn, State.beginDrain_fn h]

theorem disable_on_contained (he : s.instExists (cmdCls c) (cmdInst c) = true) {f : Nat × Nat}
    (hf : f ∈ s.contained (cmdCls c) (cmdInst c)) (hon : s.isOn f.1 f.2 = true) :
    (answer 0x11 c s stOk 0 fun u => u.beginDrain (cmdCls c) (cmdInst c) us false).isDraining f.1 f.2 = true ∧
    ((answer 0x11 c s stOk 0 fun u => u.beginDrain (cmdCls c) (cmdInst c) us false).fn f.1 f.2).own = false := by
  have hmem : f ∈ (accepted 0x11 c s).contained (cmdCls c) (cmdInst c) :=
    State.contained_of_rings (s := s) (t := accepted 0x11 c s) (fun _ => key_mem_accepted)
      (accepted_frame 0x11 c s).ring_fn (fun _ _ _ => rfl) hf
  rw [State.isDraining, disable_on_fn h, ← State.isDraining]
  exact State.drainStates_contained (s := accepted 0x11 c s) (cmdInst_lt c) he us hmem (State.isOn_eq_true.mp hon)

theorem disable_on_frame :
    LifeFrame s (answer 0x11 c s stOk 0 fun u => u.beginDrain (cmdCls c) (cmdInst c) us false) := by
  have hacc : LifeFrame s (accepted 0x11 c s) := .of_return (accepted_frame 0x11 c s)
  have hdrain := LifeFrame.beginDrain h (accepted 0x11 c s) (cmdCls c) (cmdInst c)
  exact (hacc.trans hdrain).trans (.of_return (.completeCmd c.ring _ _ _ _))

end

/-- Settles O10: DISABLE is judged by the function's state, and DRAINING begins for it and what it contains. -/
theorem disableByLifecycleState : Obligations.DisableByLifecycleState := by
  unfold Obligations.DisableByLifecycleState
  refine ⟨fun c s ht hp h1 hc he hu us hus hrange => ?_, fun c s ht hp h1 => ?_⟩
  all_goals have hok := disableParamsOk hp h1
  · have hf := disableAnswer_of_fn (s := s) hc he hu hus hrange
    have hx := exec_disable c s
    have hon (h : (s.fn (cmdCls c) (cmdInst c)).st = .on) : exec (.disable c) s =
        .next (answer 0x11 c s stOk 0 fun u => u.beginDrain (cmdCls c) (cmdInst c) us false) := by
      refine exec_eq_completeCmd hx ht hok ?_
      rw [hf, State.disableFn_on (s := accepted 0x11 c s) h]
    refine ⟨fun h => ?off, fun h ho => ?inside, fun h ho => ?own, hon, fun h hpos => ?on⟩
    case off =>
      exact yields_returns hx (by decide) ht hok (by rw [hf, State.disableFn_off (s := accepted 0x11 c s) h])
    case inside =>
      exact yields_returns hx (by decide) ht hok (by rw [hf, State.disableFn_inside (s := accepted 0x11 c s) h ho])
    case own =>
      refine ⟨_, exec_eq_completeCmd hx ht hok ?_, returns_completeCmd (by decide) c _ _ _⟩
      rw [hf, State.disableFn_own (s := accepted 0x11 c s) h ho]
      rfl
    case on =>
      exact ⟨_, hon h, answered_completeCmd (by decide) c _ _ _,
        (disable_on_fn hpos _ _).trans (State.drainStates_fn (s := accepted 0x11 c s) (cmdInst_lt c) he us),
        fun f hf hfon => disable_on_contained hpos he hf hfon, disable_on_frame hpos⟩
  · have hx := exec_disable c s
    refine ⟨fun h => ?cls, fun hlo hhi => ?timeout, fun hc ht2 he => ?target⟩
    case cls =>
      exact yields_returns hx (by decide) ht hok (by simp [disableAnswer, h])
    case timeout =>
      exact yields_returns hx (by decide) ht hok (by simp [disableAnswer, hlo, hhi.ne])
    case target =>
      have hrange : ¬(10 < cmdCls c ∨ (10000000 < c.p2.toNat ∧ c.p2.toNat ≠ 4294967295)) := by omega
      have he' : (accepted 0x11 c s).instExists (cmdCls c) (cmdInst c) = false := he
      exact yields_returns hx (by decide) ht hok (by simp [disableAnswer, hrange, he'])

end Sys2Proof.Machine
end

section
/-! SUPPORT. The end of a drain (R27, R28). -/

namespace Sys2Proof.Machine

/-! ### The number of a posted event (R295) -/

theorem ReturnFrame.evSeq {n : Nat} {s t : State} (h : ReturnFrame n s t) : t.host.evSeq = s.host.evSeq := by
  obtain ⟨-, hhost, -⟩ := h
  rw [hhost]

@[simp] theorem State.count_host (s : State) (o n : Nat) : (s.count o n).host = s.host := by
  unfold State.count
  split <;> rfl

@[simp] theorem State.fillEvents_evSeq (s : State) (n : Nat) : (s.fillEvents n).host.evSeq = s.host.evSeq := by
  unfold State.fillEvents
  generalize List.range _ = l
  induction l generalizing s with
  | nil => rfl
  | cons a l ih =>
    refine (ih _).trans ?_
    unfold State.fillEvent
    dsimp only
    split
    · exact (ReturnFrame.ringReturn n _ _ _).evSeq
    · rfl

/-- A posted event takes the next number of its ring, whether or not the ring takes the event. -/
theorem State.postAt_evSeq (s : State) (ring type sub src : Nat) (payload : List Byte) (time : Nat) :
    (s.postAt ring type sub src payload time).host.evSeq = SMap.set (fun _ => 0) s.host.evSeq ring
      ((SMap.get (fun _ => 0) s.host.evSeq ring + 1) % 2147483648) := by
  unfold State.postAt
  dsimp only
  split
  · rw [State.fillEvents_evSeq]
    rfl
  · rw [State.count_host]

/-! ### OFF of a queue and of the boundary clock service (R27, R28, R267) -/

/-- A queue enters OFF: its tag goes, and its lifecycle event is posted. -/
theorem State.enterOff_queue (s : State) (q o : Nat) : s.enterOff 1 q o =
    ((s.setFn 1 q { byPhase := (s.fn 1 q).byPhase }).modQueue q fun x => { x with tag := none }).post 1 o q
      (lifePayload 1 (s.fn 1 q).discarded (toUs (s.elapsed - (s.fn 1 q).since))) := rfl

/-- What the end of the service's drain may touch before its lifecycle event: lifecycle states, its own part of the time
state, and what is in force. -/
def BcFrame (s t : State) : Prop := t = { s with fns := t.fns, time := t.time, force := t.force }

theorem BcFrame.trans {s t u : State} (h : BcFrame s t) (k : BcFrame t u) : BcFrame s u := by
  unfold BcFrame at *
  rw [k, h]

/-- A port that leaves the service takes no message with it. -/
theorem State.bcLeave_frame (s : State) (p : Nat) :
    BcFrame s (s.bcLeave p) ∧ (s.bcLeave p).time.bcTxDue = s.time.bcTxDue ∧ (s.bcLeave p).fns = s.fns ∧
      (s.bcLeave p).force = s.force := by
  unfold State.bcLeave
  split
  · exact ⟨rfl, rfl, rfl, rfl⟩
  · exact ⟨rfl, rfl, rfl, rfl⟩

theorem State.foldl_bcLeave_frame (ps : List Nat) (s : State) :
    BcFrame s (ps.foldl State.bcLeave s) ∧ (ps.foldl State.bcLeave s).time.bcTxDue = s.time.bcTxDue ∧
      (ps.foldl State.bcLeave s).fns = s.fns ∧ (ps.foldl State.bcLeave s).force = s.force := by
  induction ps generalizing s with
  | nil => exact ⟨rfl, rfl, rfl, rfl⟩
  | cons p ps ih =>
    obtain ⟨hframe, hdue, hfns, hforce⟩ := s.bcLeave_frame p
    obtain ⟨hframe', hdue', hfns', hforce'⟩ := ih (s.bcLeave p)
    exact ⟨hframe.trans hframe', hdue'.trans hdue, hfns'.trans hfns, hforce'.trans hforce⟩

/-- The service's own part of OFF: its ports leave, its stamps and Sync records go, and its register is latched. -/
theorem State.offActions_bc (s : State) :
    BcFrame s (s.offActions 9 0) ∧ (s.offActions 9 0).fns = s.fns ∧ (s.offActions 9 0).evtRing = s.evtRing ∧
      (s.offActions 9 0).time.bcTxDue = s.time.bcTxDue ∧ (s.offActions 9 0).time.bcStamps = [] ∧
      (s.offActions 9 0).time.bcSync = [] := by
  obtain ⟨hframe, hdue, hfns, hforce⟩ := s.foldl_bcLeave_frame (s.time.bcPorts.map fun e => e.1)
  have hne : A.hostCfg ≠ A.timeBcCfg := by decide
  refine ⟨hframe.trans rfl, hfns, ?_, hdue, rfl, rfl⟩
  refine congrArg (fun r => fld r 27 16) ?_
  exact (SMap.get_set_ne regReset _ _ hne).trans (congrArg (SMap.get regReset · A.hostCfg) hforce)

/-- OFF of the service once no message of it waits. -/
theorem State.enterOff_bc (s : State) (o : Nat) (h : s.time.bcTxDue = []) :
    (s.enterOff 9 0 o).isOff 9 0 = true ∧ (s.enterOff 9 0 o).time.bcTxDue = [] ∧
      (s.enterOff 9 0 o).time.bcStamps = [] ∧ (s.enterOff 9 0 o).time.bcSync = [] ∧
      (s.enterOff 9 0 o).host.evSeq = (s.post 1 1 0 []).host.evSeq ∧
      s.enterOff 9 0 o = { s with
        fns := (s.enterOff 9 0 o).fns, time := (s.enterOff 9 0 o).time, force := (s.enterOff 9 0 o).force
        regs := (s.enterOff 9 0 o).regs, host := (s.enterOff 9 0 o).host, cnt := (s.enterOff 9 0 o).cnt
        io := (s.enterOff 9 0 o).io } := by
  obtain ⟨hframe, hfns, hring, hdue, hstamps, hsync⟩ :=
    (s.setFn 9 0 { byPhase := (s.fn 9 0).byPhase }).offActions_bc
  have heq : s.enterOff 9 0 o = ((s.setFn 9 0 { byPhase := (s.fn 9 0).byPhase }).offActions 9 0).postLife 9 0 o
    (s.fn 9 0).discarded (toUs (s.elapsed - (s.fn 9 0).since)) := rfl
  rw [heq]
  generalize (s.setFn 9 0 { byPhase := (s.fn 9 0).byPhase }).offActions 9 0 = u at *
  have hpost : PostFrame u (u.postLife 9 0 o (s.fn 9 0).discarded (toUs (s.elapsed - (s.fn 9 0).since))) :=
    .postAt _ _ _ _ _ _ _
  have hseq : (u.postLife 9 0 o (s.fn 9 0).discarded (toUs (s.elapsed - (s.fn 9 0).since))).host.evSeq =
      (s.post 1 1 0 []).host.evSeq := by
    rw [State.postLife, State.post, State.post, State.postAt_evSeq, State.postAt_evSeq, hring, hframe]
    rfl
  refine ⟨?_, ?_, ?_, ?_, hseq, ?_⟩
  · rw [hpost, State.isOff, State.fn, hfns]
    simp [State.setFn]
  · rw [hpost, hdue]
    exact h
  · rw [hpost, hstamps]
  · rw [hpost, hsync]
  · rw [hpost, hframe]
    rfl

/-! ### The two events (R27) -/

theorem drainComplete_eq {s : State} (hu : Up s) (cls inst : Nat) : exec (.drainComplete cls inst) s =
    .next (if s.isDraining cls inst && (s.fn cls inst).own && !s.hasWork cls inst then
      s.enterOff cls inst (b2n (s.fn cls inst).timedOut) else s) := by
  change execDrainComplete cls inst s = _
  rw [execDrainComplete, gated_up hu]
  rfl

theorem drainTimeout_eq {s : State} (hu : Up s) (cls inst : Nat) : exec (.drainTimeout cls inst) s =
    .next (if s.isDraining cls inst && (s.fn cls inst).own && decide ((s.fn cls inst).deadline ≤ s.elapsed) then
      s.drainEnds cls inst else s) := by
  change execDrainTimeout cls inst s = _
  rw [execDrainTimeout, gated_up hu]
  rfl

/-- A function without work has drained when its timeout ends. -/
theorem State.drainEnds_idle {s : State} {cls inst : Nat} (h : s.hasWork cls inst = false) :
    s.drainEnds cls inst = s.enterOff cls inst (b2n (s.fn cls inst).timedOut) := by
  simp [State.drainEnds, State.timeOut, h]

theorem State.hasWork_bc (s : State) : s.hasWork 9 0 = !s.time.bcTxDue.isEmpty := Bool.or_false _

/-- The end of the service's timeout discards the messages that wait, and nothing else changes. -/
theorem State.timeOut_bc (s : State) :
    BcFrame s (s.timeOut 9 0) ∧ (s.timeOut 9 0).time.bcTxDue = [] ∧ (s.timeOut 9 0).evtRing = s.evtRing := by
  unfold State.timeOut
  split
  · exact ⟨rfl, rfl, rfl⟩
  · next h =>
    rw [State.hasWork_bc] at h
    exact ⟨rfl, by simpa using h, rfl⟩

/-- The service's drain ends at its timeout. -/
theorem State.drainEnds_bc (s : State) : ∃ u o, BcFrame s u ∧ u.time.bcTxDue = [] ∧ u.evtRing = s.evtRing ∧
    s.drainEnds 9 0 = u.enterOff 9 0 o := by
  obtain ⟨hframe, hdue, hring⟩ := s.timeOut_bc
  refine ⟨s.timeOut 9 0, _, hframe, hdue, hring, if_neg ?_⟩
  simp [State.hasWork_bc, hdue]

/-- Settles O12: the two events that end a drain, and OFF as a queue and the boundary clock service enter it. -/
theorem drainEnds : Obligations.DrainEnds := by
  unfold Obligations.DrainEnds
  refine ⟨fun cls inst s hu hd ho hw => ⟨?_, fun ht => ?_⟩, fun q o s => s.enterOff_queue q o,
    fun cls inst s hu h => ?_, fun s hu hd ho ht => ?_, fun cls inst s hu h => ?_⟩
  · simp [drainComplete_eq hu, hd, ho, hw]
  · simp [drainTimeout_eq hu, hd, ho, ht, State.drainEnds_idle hw]
  · rw [drainComplete_eq hu]
    rcases h with h | h <;> simp [h]
  · obtain ⟨u, o, hframe, hdue, hring, heq⟩ := s.drainEnds_bc
    obtain ⟨hoff, hdue', hstamps, hsync, hseq, hrest⟩ := u.enterOff_bc o hdue
    refine ⟨u.enterOff 9 0 o, by simp [drainTimeout_eq hu, hd, ho, ht, heq], hoff, hdue', hstamps, hsync, ?_, ?_⟩
    · rw [hseq, State.post, State.post, State.postAt_evSeq, State.postAt_evSeq, hring, hframe]
    · rw [hrest, hframe]
  · rw [drainTimeout_eq hu]
    rcases h with h | h
    · simp [h]
    · simp [Nat.not_le.mpr h]

end Sys2Proof.Machine
end

section
/-! SUPPORT. The operations of the fault unit, of the pools and of the queues leave the lifecycle states (R25). -/

namespace Sys2Proof.Machine

theorem foldl_fns {α : Type} {f : State → α → State} (h : ∀ s a, (f s a).fns = s.fns) (l : List α) (s : State) :
    (l.foldl f s).fns = s.fns := by
  induction l generalizing s with
  | nil => rfl
  | cons a l ih => exact (ih _).trans (h s a)

/-! ### Counters, events and the fault unit -/

theorem PostFrame.fns {s t : State} (h : PostFrame s t) : t.fns = s.fns := by rw [h]

@[simp] theorem State.count_fns (s : State) (o n : Nat) : (s.count o n).fns = s.fns := (PostFrame.count s o n).fns

@[simp] theorem State.countPort_fns (s : State) (p w n : Nat) : (s.countPort p w n).fns = s.fns := by
  unfold State.countPort
  split
  · exact s.count_fns _ _
  · rfl

theorem State.postAt_fns (s : State) (ring type sub src : Nat) (payload : List Byte) (time : Nat) :
    (s.postAt ring type sub src payload time).fns = s.fns := (PostFrame.postAt s ring type sub src payload time).fns

@[simp] theorem State.post_fns (s : State) (type sub src : Nat) (payload : List Byte) :
    (s.post type sub src payload).fns = s.fns := s.postAt_fns _ _ _ _ _ _

@[simp] theorem State.logReg_fns (s : State) (a v : Nat) : (s.logReg a v).fns = s.fns := by
  unfold State.logReg
  split <;> rfl

@[simp] theorem State.latchFirst_fns (s : State) (n sev : Nat) : (s.latchFirst n sev).fns = s.fns := by
  unfold State.latchFirst
  split <;> rfl

@[simp] theorem State.logFault_fns (s : State) (r : List Nat) : (s.logFault r).fns = s.fns := by
  simp only [State.logFault, apply_ite State.fns, State.post_fns, ite_self]

@[simp] theorem State.recordFault_fns (s : State) (n detail concerned cause : Nat) (forced : Bool) :
    (s.recordFault n detail concerned cause forced).1.fns = s.fns := by
  simp only [State.recordFault, apply_ite State.fns, State.post_fns, State.logFault_fns, State.latchFirst_fns,
    State.modSrc_fns, ite_self]

@[simp] theorem State.loseTriad_fns (s : State) : s.loseTriad.fns = s.fns := by
  simp only [State.loseTriad, apply_ite State.fns, State.recordFault_fns, State.post_fns, ite_self]

@[simp] theorem State.failChannel_fns (s : State) (c : Nat) : (s.failChannel c).fns = s.fns := by
  unfold State.failChannel
  dsimp only
  split
  · rfl
  · split <;> simp [apply_ite State.fns]

@[simp] theorem State.react_fns (s : State) (n code : Nat) : (s.react n code).fns = s.fns := by
  simp only [State.react, State.addToX, State.beginHold]
  repeat' split
  all_goals simp

@[simp] theorem State.faultEvent_fns (s : State) (n detail concerned cause : Nat) (forced : Bool) :
    (s.faultEvent n detail concerned cause forced).fns = s.fns := by
  simp only [State.faultEvent, apply_ite State.fns, State.react_fns, State.recordFault_fns, ite_self]

/-! ### Cells and the frames of a queue -/

@[simp] theorem State.badFree_fns (s : State) (i k r owner : Nat) (foreign : Bool) :
    (s.badFree i k r owner foreign).fns = s.fns := by
  simp [State.badFree, State.sqFault]

@[simp] theorem State.freeCell_fns (s : State) (i k r : Nat) : (s.freeCell i k r).fns = s.fns := by
  unfold State.freeCell
  repeat' split
  all_goals simp

@[simp] theorem State.freeByHeader_fns (s : State) (i k : Nat) : (s.freeByHeader i k).fns = s.fns := by
  unfold State.freeByHeader
  split <;> simp

@[simp] theorem State.dropRef_fns (s : State) (e : Nat) (r : CellRef) : (s.dropRef e r).fns = s.fns := by
  unfold State.dropRef
  repeat' split
  all_goals simp

@[simp] theorem State.tagQueue_fns (s : State) (q : Nat) : (s.tagQueue q).fns = s.fns := by
  unfold State.tagQueue State.setTag
  split <;> rfl

@[simp] theorem State.removeFrames_fns (s : State) (q : Nat) (gone : QFrame → Bool) :
    (s.removeFrames q gone).fns = s.fns := by
  simp [State.removeFrames, foldl_fns]

/-! ### Returns of transmit frames -/

@[simp] theorem State.bcLost_fns (s : State) (fid : Nat) : (s.bcLost fid).fns = s.fns := by
  unfold State.bcLost
  split <;> rfl

@[simp] theorem State.ringReturn_fns (s : State) (n : Nat) (bs : List Byte) (word : Nat) :
    (s.ringReturn n bs word).fns = s.fns := (ReturnFrame.ringReturn n s bs word).fns

@[simp] theorem State.flushTx_fns (s : State) (n : Nat) : (s.flushTx n).fns = s.fns := by
  refine foldl_fns (fun s _ => ?_) _ s
  unfold State.flushTxOne
  split
  · exact foldl_fns (fun s d => s.ringReturn_fns _ _ _) _ _
  · rfl

@[simp] theorem State.reportTx_fns (s : State) (h : FrameHdr) (status stamp : Nat) :
    (s.reportTx h status stamp).fns = s.fns := by
  unfold State.reportTx
  dsimp only
  split <;> simp [apply_ite State.fns]

@[simp] theorem State.discardFrames_fns (s : State) (q w : Nat) (gone : QFrame → Bool) :
    (s.discardFrames q w gone).fns = s.fns := by
  simp [State.discardFrames, foldl_fns]

/-! ### PFC, held frames and a port that goes down (R188, R195, R196) -/

@[simp] theorem State.pfcSquare_fns (s : State) (i : Nat) : (s.pfcSquare i).fns = s.fns := by
  refine foldl_fns (fun s p => ?_) _ s
  unfold State.pfcPort State.sendPfc
  dsimp only
  repeat' split
  all_goals simp [foldl_fns]

@[simp] theorem State.discardHeld_fns (s : State) (i q w : Nat) : (s.discardHeld i q w).fns = s.fns := by
  simp [State.discardHeld, foldl_fns]

@[simp] theorem State.queuesDown_fns (s : State) (p : Nat) : (s.queuesDown p).fns = s.fns := by
  have habort : (s.abortTx p).fns = s.fns := by
    unfold State.abortTx
    split <;> simp
  simp [State.queuesDown, apply_ite State.fns, foldl_fns, habort]

/-! ### Lifecycle states under the discard of a port's frames (R27, R196) -/

/-- An operation after which every function is in the state it was in. -/
def SameLife (s t : State) : Prop := ∀ cls inst, (t.fn cls inst).st = (s.fn cls inst).st

theorem SameLife.of_fns {s t : State} (h : t.fns = s.fns) : SameLife s t := fun cls inst => by
  rw [State.fn, h, ← State.fn]

theorem SameLife.trans {s t u : State} (h : SameLife s t) (k : SameLife t u) : SameLife s u :=
  fun cls inst => (k cls inst).trans (h cls inst)

theorem SameLife.foldl {α : Type} {f : State → α → State} (h : ∀ s a, SameLife s (f s a)) (l : List α) (s : State) :
    SameLife s (l.foldl f s) := by
  induction l generalizing s with
  | nil => exact .of_fns rfl
  | cons a l ih => exact (h s a).trans (ih _)

theorem SameLife.modFn (s : State) (cls inst : Nat) {f : Fn → Fn} (hf : ∀ x, (f x).st = x.st) :
    SameLife s (s.modFn cls inst f) := fun d j => by
  rw [State.modFn, State.fn_setFn]
  split
  · next hkey => rw [hf, State.fn, State.fn, hkey]
  · rfl

theorem SameLife.chargeQueue (s : State) (q n : Nat) : SameLife s (s.chargeQueue q n) := by
  unfold State.chargeQueue
  dsimp only
  repeat' split
  · exact .modFn _ _ _ fun _ => rfl
  · exact .modFn _ _ _ fun _ => rfl
  · exact .of_fns rfl
  · exact .of_fns rfl

theorem SameLife.dropLossless (s : State) (p : Nat) : SameLife s (s.dropLossless p) := by
  unfold State.dropLossless
  refine SameLife.trans (.foldl (fun s q => ?_) _ s) (.of_fns rfl)
  refine SameLife.trans (.of_fns ?_) (.chargeQueue _ _ _)
  rw [foldl_fns fun s i => s.discardHeld_fns i _ _, State.discardFrames_fns]

theorem SameLife.mgmtUpdate (s : State) : SameLife s s.mgmtUpdate := by
  unfold State.mgmtUpdate State.mgmtDown
  dsimp only
  have hdown (l : Link → Link) :
      (((s.modMgmt fun m => { m with up := false }).queuesDown 1089).modLink 1089 l).fns = s.fns :=
    State.queuesDown_fns _ _
  repeat' split
  · exact .of_fns rfl
  · exact SameLife.trans (.of_fns (hdown _)) (.dropLossless _ _)
  · exact .of_fns (hdown _)
  · exact .of_fns rfl

end Sys2Proof.Machine
end

section
/-! SUPPORT. ENABLE (R25, R28, R30, R31, R33, R76, R190, R236 to R240, R269, R278, R303, R334). -/

namespace Sys2Proof.Machine

/-! ### The command -/

/-- The answer of ENABLE in the state in which it was accepted. -/
def enableAnswer (c : Cmd) (ctx : HostRead) (bc : Option BcCfg) (s : State) : CmdOut :=
  if 10 < cmdCls c then .ret s stInvalid 0
  else if !s.instExists (cmdCls c) (cmdInst c) then .ret s stTarget 0
  else if s.instUnreachable (cmdCls c) (cmdInst c) then .ret s stUnreachable 0
  else match (s.fn (cmdCls c) (cmdInst c)).st with
    | .on => .ret s stAlreadyOn 0
    | .draining => .ret s stBusy 0
    | .off => .ret (s.enableOff (cmdCls c) (cmdInst c) ctx bc).1 (s.enableOff (cmdCls c) (cmdInst c) ctx bc).2 0

theorem exec_enable (c : Cmd) (ctx : HostRead) (bc : Option BcCfg) (s : State) : exec (.enable c ctx bc) s =
    gated s (runCmd 0x10 c (fnParamsOk c && p1Below c 0 && p2Below c 0) (enableAnswer c ctx bc)) := rfl

theorem enableParamsOk {c : Cmd} (h : fnParamsOk c = true) (h1 : c.p1 = 0) (h2 : c.p2 = 0) :
    (fnParamsOk c && p1Below c 0 && p2Below c 0) = true := by
  simp [h, h1, h2, p1Below, p2Below]

/-- An ENABLE of a reachable function is judged by the function's state. -/
theorem enableAnswer_of_fn {c : Cmd} {s : State} (hc : cmdCls c ≤ 10)
    (he : s.instExists (cmdCls c) (cmdInst c) = true) (hu : s.instUnreachable (cmdCls c) (cmdInst c) = false)
    (ctx : HostRead) (bc : Option BcCfg) : enableAnswer c ctx bc s = match (s.fn (cmdCls c) (cmdInst c)).st with
      | .on => .ret s stAlreadyOn 0
      | .draining => .ret s stBusy 0
      | .off => .ret (s.enableOff (cmdCls c) (cmdInst c) ctx bc).1 (s.enableOff (cmdCls c) (cmdInst c) ctx bc).2 0 := by
  have hrange : ¬10 < cmdCls c := by omega
  simp only [enableAnswer, hrange, he, hu, if_false, Bool.not_true, Bool.false_eq_true]

/-! ### A function that enters ON with what it contains (R28, R31) -/

/-- A function of a class that contains nothing, or whose contents stay as they are. -/
theorem State.turnOn_alone {cls : Nat} (h0 : cls ≠ 0) (h2 : cls ≠ 2) (s : State) (inst : Nat) :
    s.turnOn cls inst = (s.setFn cls inst { st := .on }).post 1 3 inst (lifePayload cls 0 0) := by
  simp [State.turnOn, h0, h2, State.postLife]

/-- The states after a port enters ON: its own, and those of its queues that were OFF. -/
def State.onStates (s : State) (cls inst : Nat) : State :=
  let s1 := s.setFn cls inst { st := .on }
  s1.setWhere .off { st := .on } (s1.contained cls inst)

theorem State.onStates_isOn {s : State} {cls inst : Nat} (hi : inst < 65536) (he : s.instExists cls inst = true) :
    (s.onStates cls inst).isOn cls inst = true := by
  have hfn : (s.onStates cls inst).fn cls inst = { st := .on } := by
    refine (State.fn_setWhere_ne fun f hf => fnKey_ne_of_contained hi he hf).trans ?_
    rw [State.fn_setFn, if_pos rfl]
  rw [State.isOn_eq_true, hfn]

theorem State.onStates_contained {s : State} {cls inst : Nat} (hi : inst < 65536) (he : s.instExists cls inst = true)
    {f : Nat × Nat} (hf : f ∈ (s.setFn cls inst { st := .on }).contained cls inst) : (s.onStates cls inst).fn f.1 f.2 =
      if s.isOff f.1 f.2 then { st := .on } else s.fn f.1 f.2 := by
  have hself : (s.setFn cls inst { st := .on }).fn f.1 f.2 = s.fn f.1 f.2 := by
    rw [State.fn_setFn, if_neg (fnKey_ne_of_contained hi he hf).symm]
  by_cases hoff : (s.fn f.1 f.2).st = .off
  · rw [if_pos (State.isOff_eq_true.mpr hoff)]
    exact State.fn_setWhere_mem (by simp) hf (hself ▸ hoff)
  · rw [if_neg (by simpa [State.isOff] using hoff)]
    exact (State.fn_setWhere_keeps _ _ (hself ▸ hoff)).trans hself

theorem State.turnOn_recirc (s : State) (inst : Nat) :
    s.turnOn 2 inst = (s.onStates 2 inst).post 1 3 inst (lifePayload 2 0 0) := rfl

theorem SameLife.post (s : State) (type sub src : Nat) (payload : List Byte) :
    SameLife s (s.post type sub src payload) := .of_fns (s.post_fns type sub src payload)

/-- A front-panel port enters ON with its link and its alternation restarted, the management port with its link judged
anew. -/
theorem State.turnOn_port (s : State) (inst : Nat) : s.turnOn 0 inst =
    (if inst < 1024 then
      ((s.onStates 0 inst).modLink inst fun l => { cause := l.cause, lane := l.lane }).modSq (inst / 16) fun q => { q with
        alt := SMap.set (fun _ => false) q.alt (inst % 16) false
        altCore := SMap.set (fun _ => false) q.altCore (inst % 16) false }
    else (s.onStates 0 inst).mgmtUpdate).post 1 3 inst (lifePayload 0 0 0) := by
  have hst : s.onStates 0 inst = ((s.setFn 0 inst { st := .on }).contained 0 inst).foldl
      (fun s f => if s.isOff f.1 f.2 then s.setFn f.1 f.2 { st := .on } else s) (s.setFn 0 inst { st := .on }) := rfl
  rw [hst]
  unfold State.turnOn
  simp only [true_and, true_or, if_true, State.postLife]

theorem State.turnOn_port_life (s : State) (inst : Nat) : SameLife (s.onStates 0 inst) (s.turnOn 0 inst) := by
  rw [State.turnOn_port]
  generalize s.onStates 0 inst = u
  refine SameLife.trans ?_ (.post _ _ _ _ _)
  split
  · exact .of_fns rfl
  · exact .mgmtUpdate _

theorem State.turnOn_port_isOn {s : State} {inst : Nat} (hi : inst < 65536) (he : s.instExists 0 inst = true) :
    (s.turnOn 0 inst).isOn 0 inst = true := by
  rw [State.isOn_eq_true, s.turnOn_port_life inst 0 inst]
  exact State.isOn_eq_true.mp (State.onStates_isOn hi he)

/-- What the ENABLE of a recirculation port may touch: lifecycle states, and what its event and its return touch. -/
def OnFrame (s t : State) : Prop :=
  t = { s with fns := t.fns, regs := t.regs, host := t.host, cnt := t.cnt, io := t.io }

theorem OnFrame.trans {s t u : State} (h : OnFrame s t) (k : OnFrame t u) : OnFrame s u := by
  unfold OnFrame at *
  rw [k, h]

theorem OnFrame.of_post {s t : State} (h : PostFrame s t) : OnFrame s t := by
  unfold OnFrame
  rw [h]

theorem OnFrame.onStates (s : State) (cls inst : Nat) : OnFrame s (s.onStates cls inst) := by
  rw [OnFrame, State.onStates, State.setWhere_eq]
  rfl

/-! ### Registers latched (R21) -/

theorem SMap.get_foldl_set {α : Type} [DecidableEq α] (d g : Nat → α) {as : List Nat} {a : Nat} (h : a ∈ as)
    (m : SMap α) : SMap.get d (as.foldl (fun f b => SMap.set d f b (g b)) m) a = g a := by
  have hkeep (bs : List Nat) (m : SMap α) (hm : SMap.get d m a = g a) :
      SMap.get d (bs.foldl (fun f b => SMap.set d f b (g b)) m) a = g a := by
    induction bs generalizing m with
    | nil => exact hm
    | cons b bs ih =>
      refine ih _ ?_
      rw [SMap.get_set]
      split
      · next hab => rw [hab]
      · exact hm
  induction as generalizing m with
  | nil => cases h
  | cons b bs ih =>
    rcases List.mem_cons.mp h with rfl | hmem
    · exact hkeep bs _ (SMap.get_set_same d m a _)
    · exact ih hmem _

/-- A latched register has in force what was last written to it. -/
theorem State.inForce_latch {s : State} {as : List Nat} {a : Nat} (h : a ∈ as) : (s.latch as).inForce a = s.reg a :=
  SMap.get_foldl_set regReset s.reg h s.force

/-! ### Reduction channels (R179, R236 to R240) -/

/-- Two states agree in what services memory is given out by: its owners, its pools, and whether the mesh runs. -/
def SameSvc (s t : State) : Prop := t.red = s.red ∧ t.force = s.force ∧ t.tour = s.tour

section
variable {s t : State} (h : SameSvc s t)
include h

theorem SameSvc.svcPick (n : Nat) : t.svcPick n = s.svcPick n := by
  obtain ⟨hred, hforce, htour⟩ := h
  have hblocks : t.poolBlocks = s.poolBlocks := by rw [State.poolBlocks, State.inForce, hforce]; rfl
  have hcount (k : Nat) : t.poolCount k = s.poolCount k := by rw [State.poolCount, htour, hblocks]; rfl
  simp only [State.svcPick, State.svcLowest, hcount, hred]

theorem SameSvc.svcTake (tag n : Nat) :
    SameSvc (s.svcTake tag n).1 (t.svcTake tag n).1 ∧ (t.svcTake tag n).2 = (s.svcTake tag n).2 := by
  have hpick := h.svcPick n
  obtain ⟨hred, hforce, htour⟩ := h
  have hquota : t.svcOwned 5 = s.svcOwned 5 ∧ t.svcHostMax = s.svcHostMax := by
    simp only [State.svcOwned, State.svcHostMax, State.inForce, hred, hforce, and_self]
  unfold State.svcTake
  rw [hpick, hquota.1, hquota.2]
  split
  · exact ⟨⟨hred, hforce, htour⟩, rfl⟩
  · split
    · exact ⟨⟨hred, hforce, htour⟩, rfl⟩
    · dsimp only
      refine ⟨?_, rfl⟩
      split <;> simp [SameSvc, State.count, hred, hforce, htour]

theorem SameSvc.svcGive (key tag : Nat) : SameSvc (s.svcGive key tag) (t.svcGive key tag) := by
  obtain ⟨hred, hforce, htour⟩ := h
  unfold State.svcGive
  rw [hred]
  split
  · exact ⟨rfl, hforce, htour⟩
  · exact ⟨hred, hforce, htour⟩

end

theorem SameSvc.foldl_svcGive (ks : List Nat) (tag : Nat) {s t : State} (h : SameSvc s t) :
    SameSvc (ks.foldl (fun s k => s.svcGive k tag) s) (ks.foldl (fun s k => s.svcGive k tag) t) := by
  induction ks generalizing s t with
  | nil => exact h
  | cons k ks ih => exact ih (h.svcGive k tag)

theorem SameSvc.accStep {s t : State} (h : SameSvc s t) (tag bytes : Nat) (ks : Option (List Nat)) :
    SameSvc (accStep tag bytes (s, ks)).1 (accStep tag bytes (t, ks)).1 ∧
      (Machine.accStep tag bytes (t, ks)).2 = (Machine.accStep tag bytes (s, ks)).2 := by
  obtain ⟨hsvc, hkey⟩ := h.svcTake tag bytes
  unfold Machine.accStep
  dsimp only
  cases ks with
  | none => exact ⟨h, rfl⟩
  | some ks =>
    dsimp only
    rw [hkey]
    cases (s.svcTake tag bytes).2 with
    | none => exact ⟨hsvc.foldl_svcGive ks tag, rfl⟩
    | some k => exact ⟨hsvc, rfl⟩

/-- Whether accumulator buffers are to be had is a matter of services memory alone. -/
theorem SameSvc.takeAccs {s t : State} (h : SameSvc s t) (tag bytes n : Nat) :
    (t.takeAccs tag bytes n).2 = (s.takeAccs tag bytes n).2 := by
  unfold State.takeAccs
  generalize (some [] : Option (List Nat)) = ks
  induction List.range n generalizing s t ks with
  | nil => rfl
  | cons k l ih =>
    obtain ⟨hsvc, hks⟩ := h.accStep tag bytes ks
    rw [List.foldl_cons, List.foldl_cons, ← Prod.mk.eta (p := Machine.accStep tag bytes (t, ks)),
      ← Prod.mk.eta (p := Machine.accStep tag bytes (s, ks)), hks]
    exact ih hsvc _

/-- Acceptance of a command has no part in whether a channel is granted. -/
theorem accepted_enableChan (op : Nat) (cmd : Cmd) (s : State) (c : Nat) :
    ((accepted op cmd s).enableChan c).2 = (s.enableChan c).2 := by
  have hsvc : SameSvc s (accepted op cmd s) := ⟨rfl, rfl, rfl⟩
  have hword (i : Nat) : (accepted op cmd s).chanWord c i = s.chanWord c i := rfl
  have hvalid : (accepted op cmd s).chanValid c = s.chanValid c := rfl
  have hslots : (accepted op cmd s).engineSlots (engineOf c) = s.engineSlots (engineOf c) := rfl
  have hver : (accepted op cmd s).red.ver = s.red.ver := rfl
  unfold State.enableChan
  simp only [hword, hvalid, hslots, hver]
  split
  · rfl
  split
  · rfl
  split
  · rfl
  · rw [hsvc.takeAccs]
    split <;> rfl

/-- A channel that is granted is ON, with the window and the block size of its record. -/
theorem State.enableChan_ok {s : State} {c : Nat} (h : (s.enableChan c).2 = stOk) :
    (s.enableChan c).1.isOn 3 c = true ∧ ((s.enableChan c).1.chan c).window = chanWindow (s.chanWord c 0) ∧
      ((s.enableChan c).1.chan c).blockBytes = bits (s.chanWord c 1) 13 0 := by
  revert h
  unfold State.enableChan
  dsimp only
  split
  · exact fun h : stBusy = stOk => absurd h (by decide)
  split
  · exact fun h : stInvalid = stOk => absurd h (by decide)
  split
  · exact fun h : stNoSpace = stOk => absurd h (by decide)
  split
  · exact fun h : stNoSpace = stOk => absurd h (by decide)
  · intro _
    refine ⟨?_, ?_, ?_⟩
    · rw [State.isOn, State.fn_setFn, if_pos rfl]
      rfl
    · exact congrArg Chan.window ((State.chan_modChan _ _ _ _).trans (if_pos rfl))
    · exact congrArg Chan.blockBytes ((State.chan_modChan _ _ _ _).trans (if_pos rfl))

/-! ### Rings (R278, R295, R351) -/

theorem State.readContext_eq (s : State) (n : Nat) : ∃ io, s.readContext n = { s with io := io } := by
  unfold State.readContext
  dsimp only
  split
  · exact ⟨_, rfl⟩
  · exact ⟨_, rfl⟩

/-- The queue of events of ring `n` apart, ring `n` is as before. -/
def RingQueue (n : Nat) (s t : State) : Prop := t.ring n = { s.ring n with evq := (t.ring n).evq }

theorem RingQueue.trans {n : Nat} {s t u : State} (h : RingQueue n s t) (k : RingQueue n t u) : RingQueue n s u := by
  unfold RingQueue at *
  rw [k, h]

theorem RingQueue.fetched {n : Nat} {s t : State} (h : RingQueue n s t) : (t.ring n).fetched = (s.ring n).fetched := by
  rw [h]

theorem State.fillEvents_of_none {s : State} {n : Nat} (h : (s.ring n).fetched = []) : s.fillEvents n = s := by
  simp [State.fillEvents, h]

theorem State.fillEvents_ring_ne (s : State) {n m : Nat} (h : n ≠ m) : (s.fillEvents m).ring n = s.ring n := by
  unfold State.fillEvents
  generalize List.range _ = l
  induction l generalizing s with
  | nil => rfl
  | cons a l ih =>
    refine (ih _).trans ?_
    unfold State.fillEvent
    dsimp only
    split
    · next e es d ds _ _ =>
      obtain ⟨-, -, -, hother, -⟩ := ReturnFrame.ringReturn m
        (s.modRing m fun r => { r with evq := es, fetched := ds }) (eventBytes e) e.seq
      rw [hother n h, State.ring_modRing, if_neg h]
    · rfl

/-- An event posted to any ring at most joins the queue of ring `n`, which has no descriptor to write it to. -/
theorem RingQueue.postAt {n : Nat} {s : State} (h : (s.ring n).fetched = []) (ring type sub src : Nat)
    (payload : List Byte) (time : Nat) : RingQueue n s (s.postAt ring type sub src payload time) := by
  unfold State.postAt
  dsimp only
  split
  · by_cases hn : n = ring
    · subst hn
      rw [State.fillEvents_of_none]
      · simp only [RingQueue, State.ring_modRing, if_true]
        rfl
      · rw [State.ring_modRing, if_pos rfl]
        exact h
    · rw [RingQueue, State.fillEvents_ring_ne _ hn, State.ring_modRing, if_neg hn]
      rfl
  · rw [RingQueue, State.ring, State.count_host]
    rfl

theorem State.releaseBootEvent_fns (s : State) : s.releaseBootEvent.fns = s.fns := by
  unfold State.releaseBootEvent
  repeat' split
  · exact State.postAt_fns _ _ _ _ _ _ _
  · rfl
  · rfl

theorem RingQueue.releaseBootEvent {n : Nat} {s : State} (h : (s.ring n).fetched = []) :
    RingQueue n s s.releaseBootEvent := by
  unfold State.releaseBootEvent
  repeat' split
  · exact RingQueue.postAt (s := { s with host := { s.host with bootEvent := none } }) h _ _ _ _ _ _
  · rfl
  · rfl

/-- A ring whose context is valid enters ON with it, and its event is posted. -/
theorem State.startRing_posted (s : State) (n : Nat) (x : List Byte) :
    (((s.startRing n x).postLife 5 n 3 0 0).releaseBootEvent).isOn 5 n = true ∧
      (((s.startRing n x).postLife 5 n 3 0 0).releaseBootEvent).ring n = { s.ringOf x with
        evq := ((((s.startRing n x).postLife 5 n 3 0 0).releaseBootEvent).ring n).evq } := by
  have hring : (s.startRing n x).ring n = s.ringOf x := (State.ring_modRing _ _ _ _).trans (if_pos rfl)
  have hnone : ((s.startRing n x).ring n).fetched = [] := by rw [hring]; rfl
  have hpost : RingQueue n (s.startRing n x) ((s.startRing n x).postLife 5 n 3 0 0) := .postAt hnone _ _ _ _ _ _
  have hrel := RingQueue.releaseBootEvent (hpost.fetched.trans hnone)
  refine ⟨?_, hring ▸ hpost.trans hrel⟩
  rw [State.isOn, State.fn, State.releaseBootEvent_fns, State.postLife, State.post_fns, ← State.fn, State.startRing,
    State.fn_setFn, if_pos rfl]
  rfl

end Sys2Proof.Machine
end

section
/-! SUPPORT. ENABLE of a function that is OFF, by its class (R28, R31, R33, R76, R190, R236, R269, R278, R303, R334). -/

namespace Sys2Proof.Machine

/-! ### What the event and the return of ENABLE leave -/

@[simp] theorem State.post_fn (s : State) (type sub src : Nat) (payload : List Byte) (cls inst : Nat) :
    (s.post type sub src payload).fn cls inst = s.fn cls inst :=
  congrArg (fun m => SMap.get fnInit m (fnKey cls inst)) (s.post_fns type sub src payload)

theorem State.post_inForce (s : State) (type sub src : Nat) (payload : List Byte) (a : Nat) :
    (s.post type sub src payload).inForce a = s.inForce a := by
  have hpost : PostFrame s (s.post type sub src payload) := .postAt _ _ _ _ _ _ _
  rw [hpost]
  rfl

theorem State.post_chan (s : State) (type sub src : Nat) (payload : List Byte) (c : Nat) :
    (s.post type sub src payload).chan c = s.chan c := by
  have hpost : PostFrame s (s.post type sub src payload) := .postAt _ _ _ _ _ _ _
  rw [hpost]
  rfl

@[simp] theorem State.completeCmd_isOn (s : State) (n : Nat) (d : List Byte) (st res cls inst : Nat) :
    (s.completeCmd n d st res).isOn cls inst = s.isOn cls inst := by
  rw [State.isOn, State.completeCmd_fn, State.isOn]

theorem State.completeCmd_inForce (s : State) (n : Nat) (d : List Byte) (st res a : Nat) :
    (s.completeCmd n d st res).inForce a = s.inForce a := by
  obtain ⟨hst, -⟩ := ReturnFrame.completeCmd n s d st res
  rw [hst]
  rfl

theorem State.completeCmd_chan (s : State) (n : Nat) (d : List Byte) (st res c : Nat) :
    (s.completeCmd n d st res).chan c = s.chan c := by
  obtain ⟨hst, -⟩ := ReturnFrame.completeCmd n s d st res
  rw [hst]
  rfl

theorem State.completeCmd_ring_ne (s : State) {n m : Nat} (h : m ≠ n) (d : List Byte) (st res : Nat) :
    (s.completeCmd n d st res).ring m = s.ring m := by
  obtain ⟨-, -, -, hother, -⟩ := ReturnFrame.completeCmd n s d st res
  exact hother m h

theorem accepted_ring_ne (op : Nat) (c : Cmd) (s : State) {m : Nat} (h : m ≠ c.ring) :
    (accepted op c s).ring m = s.ring m := by
  obtain ⟨-, -, -, hother, -⟩ := accepted_frame op c s
  exact hother m h

/-! ### What an acceptance leaves -/

theorem accepted_engine (op : Nat) (c : Cmd) (s : State) (e : Nat) : (accepted op c s).engine e = s.engine e := rfl

theorem accepted_bcCfgOk (op : Nat) (c : Cmd) (s : State) (y : BcCfg) :
    (accepted op c s).bcCfgOk y = s.bcCfgOk y := rfl

theorem accepted_reserveOk (op : Nat) (c : Cmd) (s : State) (inst : Nat) :
    (accepted op c s).reserveOk inst = s.reserveOk inst := rfl

theorem OnFrame.of_return {n : Nat} {s t : State} (h : ReturnFrame n s t) : OnFrame s t := .of_post (.of_return h)

/-! ### A recirculation port (R31) -/

/-- A recirculation port that enters ON takes each of its queues that was OFF with it. -/
theorem State.onStates_recirc {s : State} {inst k : Nat} (hi : inst < 65536) (he : s.instExists 2 inst = true)
    (hk : k < 16) : (s.onStates 2 inst).fn 1 (16 * (1024 + inst) + k) =
      if s.isOff 1 (16 * (1024 + inst) + k) then { st := .on } else s.fn 1 (16 * (1024 + inst) + k) := by
  have hmem : (1, 16 * (1024 + inst) + k) ∈ (s.setFn 2 inst { st := .on }).contained 2 inst :=
    List.mem_map.mpr ⟨k, List.mem_range.mpr hk, rfl⟩
  have hqueue := State.onStates_contained hi he hmem
  dsimp only at hqueue
  exact hqueue

/-! ### A VF (R303) -/

/-- The registers that a VF latches: its doorbell area and its allowances. -/
def vfLatches (inst : Nat) : List Nat :=
  [A.hostDbLo inst, A.hostDbHi inst] ++ (List.range 256).map fun w => A.hostVfAllow (256 * (inst - 1) + w)

/-- The state in which a VF that latches `as` enters ON. -/
def State.vfLatched (s : State) (as : List Nat) (inst : Nat) : State :=
  { s.latch as with host := { s.host with vfZero := SMap.set (fun _ => false) s.host.vfZero inst false } }

theorem State.enableOff_vf (s : State) (inst : Nat) (ctx : HostRead) (bc : Option BcCfg) :
    s.enableOff 6 inst ctx bc = ((s.vfLatched (vfLatches inst) inst).turnOn 6 inst, stOk) := rfl

theorem State.inForce_vfLatched {s : State} {as : List Nat} {inst a : Nat} (h : a ∈ as) :
    (s.vfLatched as inst).inForce a = s.reg a := State.inForce_latch h

/-! ### What ENABLE does from OFF -/

/-- The state in which ENABLE of a function that is OFF answers, before its return, and its status. -/
def enabled (c : Cmd) (ctx : HostRead) (bc : Option BcCfg) (s : State) : State × Nat :=
  (accepted 0x10 c s).enableOff (cmdCls c) (cmdInst c) ctx bc

/-- The command ran to its end from OFF. -/
def EnableRuns (c : Cmd) (ctx : HostRead) (bc : Option BcCfg) (s : State) : Prop :=
  exec (.enable c ctx bc) s =
    .next ((enabled c ctx bc s).1.completeCmd c.ring (cmdBytes 0x10 c) (enabled c ctx bc s).2 0)

section
variable {c : Cmd} {ctx : HostRead} {bc : Option BcCfg} {s : State} (hx : EnableRuns c ctx bc s)
include hx

theorem EnableRuns.exec {u : State} {st : Nat} (hen : enabled c ctx bc s = (u, st)) :
    exec (.enable c ctx bc) s = .next (u.completeCmd c.ring (cmdBytes 0x10 c) st 0) := by
  rw [show Machine.exec (.enable c ctx bc) s = _ from hx, hen]

theorem EnableRuns.answered {u : State} {st : Nat} (hen : enabled c ctx bc s = (u, st)) {P : State → Prop}
    (hp : P (u.completeCmd c.ring (cmdBytes 0x10 c) st 0)) :
    Yields (.enable c ctx bc) s fun t => Answered t c 0x0010 st 0 ∧ P t :=
  ⟨_, hx.exec hen, answered_completeCmd (by decide) c u st 0, hp⟩

theorem EnableRuns.returns {st : Nat} (hen : enabled c ctx bc s = (accepted 0x10 c s, st)) :
    Yields (.enable c ctx bc) s fun t => Returns s t c 0x0010 st 0 :=
  ⟨_, hx.exec hen, returns_completeCmd (by decide) c s st 0⟩

/-- Classes 1, 7, 8 and 10, and an engine with power (R334). -/
theorem EnableRuns.alone (h : cmdCls c = 1 ∨ cmdCls c = 7 ∨ cmdCls c = 8 ∨ cmdCls c = 10 ∨
    (cmdCls c = 4 ∧ (s.engine (cmdInst c)).powered = true)) :
    Machine.exec (.enable c ctx bc) s = .next (answer 0x10 c s stOk 0 fun u =>
      (u.setFn (cmdCls c) (cmdInst c) { st := .on }).post 1 3 (cmdInst c) (lifePayload (cmdCls c) 0 0)) := by
  have hen : enabled c ctx bc s = ((accepted 0x10 c s).turnOn (cmdCls c) (cmdInst c), stOk) := by
    unfold enabled
    rcases h with h | h | h | h | ⟨h, hpow⟩
    · rw [h]; rfl
    · rw [h]; rfl
    · rw [h]; rfl
    · rw [h]; rfl
    · rw [h]
      exact if_pos hpow
  rw [hx.exec hen, State.turnOn_alone (by omega) (by omega)]
  rfl

theorem EnableRuns.unpowered (h : cmdCls c = 4) (hpow : (s.engine (cmdInst c)).powered = false) :
    Yields (.enable c ctx bc) s fun t => Returns s t c 0x0010 stBusy 0 := by
  refine hx.returns ?_
  rw [enabled, h]
  exact if_neg (by simp [accepted_engine, hpow])

/-- The boundary clock service, with the configuration `y` that it is to take (R269). -/
theorem EnableRuns.service {y : BcCfg} (hy : y = bc.getD s.time.bcCfg) (h : cmdCls c = 9) :
    (s.bcCfgOk y = true → Machine.exec (.enable c ctx bc) s = .next (answer 0x10 c s stOk 0 fun u =>
      (({ u with time := { u.time with bcCfg := y, bcClass := y.clockClass } }).setFn 9 (cmdInst c) { st := .on }).post
        1 3 (cmdInst c) (lifePayload 9 0 0))) ∧
    (s.bcCfgOk y = false → Yields (.enable c ctx bc) s fun t => Returns s t c 0x0010 stInvalid 0) := by
  subst hy
  refine ⟨fun hok => ?_, fun hbad => hx.returns ?_⟩
  · refine hx.exec ?_
    rw [enabled, h]
    exact if_pos hok
  · rw [enabled, h]
    exact if_neg (by rw [accepted_bcCfgOk]; exact ne_true_of_eq_false hbad)

/-- A recirculation port takes its queues that are OFF with it (R31). -/
theorem EnableRuns.recirc (h : cmdCls c = 2) (he : s.instExists 2 (cmdInst c) = true) :
    Yields (.enable c ctx bc) s fun t => Answered t c 0x0010 stOk 0 ∧ t.isOn 2 (cmdInst c) = true ∧
      (∀ k < 16, t.fn 1 (16 * (1024 + cmdInst c) + k) =
        if s.isOff 1 (16 * (1024 + cmdInst c) + k) then { st := .on } else s.fn 1 (16 * (1024 + cmdInst c) + k)) ∧
      OnFrame s t := by
  have hen : enabled c ctx bc s = ((accepted 0x10 c s).turnOn 2 (cmdInst c), stOk) := by
    rw [enabled, h]
    rfl
  have hi := cmdInst_lt c
  refine hx.answered hen ⟨?_, fun k hk => ?_, ?_⟩
  · rw [State.completeCmd_isOn, State.turnOn_recirc, State.isOn, State.post_fn, ← State.isOn]
    exact State.onStates_isOn hi he
  · rw [State.completeCmd_fn, State.turnOn_recirc, State.post_fn]
    exact State.onStates_recirc (s := accepted 0x10 c s) hi he hk
  · have hacc : OnFrame s (accepted 0x10 c s) := .of_return (accepted_frame 0x10 c s)
    have hpost : OnFrame ((accepted 0x10 c s).onStates 2 (cmdInst c)) ((accepted 0x10 c s).turnOn 2 (cmdInst c)) := by
      rw [State.turnOn_recirc]
      exact .of_post (.postAt _ _ _ _ _ _ _)
    exact ((hacc.trans (.onStates _ _ _)).trans hpost).trans (.of_return (.completeCmd c.ring _ _ _ _))

/-- A port that is turned ON is ON after the return. -/
theorem EnableRuns.port (he : s.instExists 0 (cmdInst c) = true)
    (hen : enabled c ctx bc s = ((accepted 0x10 c s).turnOn 0 (cmdInst c), stOk)) :
    Yields (.enable c ctx bc) s fun t => Answered t c 0x0010 stOk 0 ∧ t.isOn 0 (cmdInst c) = true := by
  refine hx.answered hen ?_
  rw [State.completeCmd_isOn]
  exact State.turnOn_port_isOn (s := accepted 0x10 c s) (cmdInst_lt c) he

/-- A channel whose record and buffers are granted (R236 to R240). -/
theorem EnableRuns.channel (h : cmdCls c = 3) (hok : (s.enableChan (cmdInst c)).2 = stOk) :
    Yields (.enable c ctx bc) s fun t => Answered t c 0x0010 stOk 0 ∧ t.isOn 3 (cmdInst c) = true ∧
      (t.chan (cmdInst c)).window = chanWindow (s.chanWord (cmdInst c) 0) ∧
      (t.chan (cmdInst c)).blockBytes = bits (s.chanWord (cmdInst c) 1) 13 0 := by
  have hok' : ((accepted 0x10 c s).enableChan (cmdInst c)).2 = stOk := (accepted_enableChan _ _ _ _).trans hok
  obtain ⟨hon, hwindow, hbytes⟩ := State.enableChan_ok hok'
  have hen : enabled c ctx bc s =
      (((accepted 0x10 c s).enableChan (cmdInst c)).1.postLife 3 (cmdInst c) 3 0 0, stOk) := by
    rw [enabled, h]
    exact if_pos hok'
  refine hx.answered hen ⟨?_, ?_, ?_⟩
  · rw [State.completeCmd_isOn, State.isOn, State.postLife, State.post_fn]
    exact hon
  · rw [State.completeCmd_chan, State.postLife, State.post_chan, hwindow]
    rfl
  · rw [State.completeCmd_chan, State.postLife, State.post_chan, hbytes]
    rfl

/-- A VF latches its doorbell area (R303). -/
theorem EnableRuns.vf (h : cmdCls c = 6) :
    Yields (.enable c ctx bc) s fun t => Answered t c 0x0010 stOk 0 ∧ t.isOn 6 (cmdInst c) = true ∧
      t.inForce (A.hostDbLo (cmdInst c)) = s.reg (A.hostDbLo (cmdInst c)) ∧
      t.inForce (A.hostDbHi (cmdInst c)) = s.reg (A.hostDbHi (cmdInst c)) := by
  obtain ⟨u, hen, hforce⟩ : ∃ u : State, enabled c ctx bc s = (u.turnOn 6 (cmdInst c), stOk) ∧
      ∀ a ∈ [A.hostDbLo (cmdInst c), A.hostDbHi (cmdInst c)], u.inForce a = s.reg a := by
    refine ⟨(accepted 0x10 c s).vfLatched (vfLatches (cmdInst c)) (cmdInst c), ?_, fun a ha =>
      State.inForce_vfLatched (s := accepted 0x10 c s) (List.mem_append_left _ ha)⟩
    rw [enabled, h, State.enableOff_vf]
  have halone := State.turnOn_alone (cls := 6) (by decide) (by decide) u (cmdInst c)
  have hkept (a : Nat) : (u.turnOn 6 (cmdInst c)).inForce a = u.inForce a := by
    rw [halone, State.post_inForce]
    rfl
  refine hx.answered hen ⟨?_, ?_, ?_⟩
  · rw [State.completeCmd_isOn, State.isOn, halone, State.post_fn, State.fn_setFn, if_pos rfl]
    rfl
  · rw [State.completeCmd_inForce, hkept]
    exact hforce _ (by simp)
  · rw [State.completeCmd_inForce, hkept]
    exact hforce _ (by simp)

/-- A ring whose context cannot be read (R301). -/
theorem EnableRuns.ring_unread (h : cmdCls c = 5) (hctx : ctx = .err) :
    Yields (.enable c ctx bc) s fun t => Answered t c 0x0010 stHostErr 0 := by
  subst hctx
  have hen : enabled c .err bc s =
      (((accepted 0x10 c s).readContext (cmdInst c)).bufferReadFailed (cmdInst c) 0, stHostErr) := by
    rw [enabled, h]
    rfl
  exact ⟨_, hx.exec hen, answered_completeCmd (by decide) c _ _ _⟩

/-- A ring whose context is read and valid (R278). -/
theorem EnableRuns.ring_valid {bs : List Byte} (h : cmdCls c = 5) (hne : cmdInst c ≠ c.ring) (hctx : ctx = .ok bs)
    (hok : s.ctxValid bs = true) :
    Yields (.enable c ctx bc) s fun t => Answered t c 0x0010 stOk 0 ∧ t.isOn 5 (cmdInst c) = true ∧
      t.ring (cmdInst c) = { s.ringOf bs with evq := (t.ring (cmdInst c)).evq } := by
  subst hctx
  obtain ⟨io, hread⟩ := (accepted 0x10 c s).readContext_eq (cmdInst c)
  have hen : enabled c (.ok bs) bc s = ((((({ accepted 0x10 c s with io := io } : State).startRing (cmdInst c)
      bs).postLife 5 (cmdInst c) 3 0 0).releaseBootEvent), stOk) := by
    rw [enabled, h, State.enableOff, hread]
    exact if_pos hok
  obtain ⟨hon, hring⟩ := ({ accepted 0x10 c s with io := io } : State).startRing_posted (cmdInst c) bs
  refine hx.answered hen ⟨?_, ?_⟩
  · rw [State.completeCmd_isOn, hon]
  · rw [State.completeCmd_ring_ne _ hne]
    exact hring

/-- A ring whose context is read and bad (R278). -/
theorem EnableRuns.ring_bad {bs : List Byte} (h : cmdCls c = 5) (hctx : ctx = .ok bs) (hbad : s.ctxValid bs = false) :
    Yields (.enable c ctx bc) s fun t => Answered t c 0x0010 stInvalid 0 ∧ t.fns = s.fns ∧
      (∀ n, n ≠ c.ring → t.ring n = s.ring n) := by
  subst hctx
  obtain ⟨io, hread⟩ := (accepted 0x10 c s).readContext_eq (cmdInst c)
  have hen : enabled c (.ok bs) bc s = ({ accepted 0x10 c s with io := io }, stInvalid) := by
    rw [enabled, h, State.enableOff, hread]
    exact if_neg (ne_true_of_eq_false hbad)
  refine hx.answered hen ⟨State.completeCmd_fns _ _ _ _ _, fun n hn => ?_⟩
  rw [State.completeCmd_ring_ne _ hn]
  exact accepted_ring_ne 0x10 c s hn

end

/-- Settles O11: ENABLE is judged by the function's state, and from OFF by its class. -/
theorem enableByLifecycleState : Obligations.EnableByLifecycleState := by
  unfold Obligations.EnableByLifecycleState
  intro c x b s ht hp h1 h2 hc he hu
  have hok := enableParamsOk hp h1 h2
  have hexec := exec_enable c x b s
  have hans := enableAnswer_of_fn (s := accepted 0x10 c s) hc he hu x b
  have hfn : (accepted 0x10 c s).fn (cmdCls c) (cmdInst c) = s.fn (cmdCls c) (cmdInst c) := rfl
  rw [hfn] at hans
  refine ⟨fun hon => ?on, fun hdraining => ?draining, fun hoff => ?off⟩
  case on =>
    exact yields_returns hexec (by decide) ht hok (by rw [hans, hon])
  case draining =>
    exact yields_returns hexec (by decide) ht hok (by rw [hans, hdraining])
  case off =>
    have hx : EnableRuns c x b s := exec_eq_completeCmd hexec ht hok (by rw [hans, hoff]; rfl)
    refine ⟨hx.alone, hx.unpowered, fun y hy hcls => hx.service hy hcls, fun hcls => hx.recirc hcls (hcls ▸ he),
      fun hcls hi hparse hres => hx.port (hcls ▸ he) ?admitted, fun hcls hi hparse hres => hx.returns ?refused,
      fun hcls hi => hi ▸ hx.port (hcls ▸ he) ?mgmt, hx.channel, hx.vf, hx.ring_unread,
      fun bs hcls hctx hvalid => hx.ring_valid hcls ?other hctx hvalid, fun bs hcls hctx hbad => hx.ring_bad hcls hctx hbad⟩
    case admitted =>
      rw [enabled, hcls]
      exact (if_neg (by omega)).trans ((if_neg hparse).trans (if_pos hres))
    case refused =>
      rw [enabled, hcls]
      exact (if_neg (by omega)).trans ((if_neg hparse).trans (if_neg (by simp [accepted_reserveOk, hres])))
    case mgmt =>
      rw [enabled, hcls]
      exact if_pos hi
    case other =>
      intro hring
      obtain ⟨⟨-, haccepts, -⟩, -⟩ := ht
      have hringoff : s.isOff 5 c.ring = true := State.isOff_eq_true.mpr (by rw [← hring, ← hcls]; exact hoff)
      simp [State.accepts, hringoff] at haccepts

end Sys2Proof.Machine
end

section
/-! SUPPORT. A Blitz mismatch whose count is not its square's only one (R163, R176). -/

namespace Sys2Proof.Machine
open Sys2Proof.Tests

/-- A Blitz record of a finished frame to port 448, the first of square 28. -/
def strayRec : BlitzRec := { eport := 448, hdr := { fid := 9 }, done := some (0, 60, false) }

/-- Square 28 with that record at the head and the postcards of a full telemetry frame. One cell is parked at egress,
and its record names square 267 as its ingress, which the board does not have. -/
def straySq (q : Sq) : Sq := { q with
  blitz := [strayRec]
  postcards := List.replicate 7 {}
  ctxIn := [(7168, { owner := some 5, kept := true })]
  cells := [(0, { isq := 267 })]
  ctxOut := [(reseqKey 28 { eport := 448 }, { parked := [{ seq := 1, hsq := 28 }] })]
  viewGf := 1048576 }

/-- Square 28 so, its telemetry and its port ON, and a frame of two cells waiting in the services outbox. -/
def stray : State :=
  Tests.bookAt 1 0 (2 ^ 40 + 3) (Tests.bookAt 5 0x800 1088 (sqAt 28 straySq (fnAt 8 28 { st := .on }
    (fnAt 1 7168 { st := .on } (fnAt 0 448 { st := .on } (forced (telemKey 28 0) 0x10000000 { booked with
      red := { outbox := [{ hdr := { fid := 5 }, bytes := List.replicate 241 0, ctx := { eport := 448 } }] } }))))))

/-- The lookup of the record, with no double-bit error. -/
def strayLook : State × Decision × Bool := (stray.modSq 28 fun q => { q with blitz := [] }).blitzLook 28 strayRec none

/-- The lookup is a mismatch, and the square has counted none so far. -/
theorem stray_mismatch : Up stray ∧ (stray.sq 28).blitz = [strayRec] ∧ strayLook.2.2 = false ∧
    strayLook.1.counter (sqWord 28 11) = 0 := by
  decide +kernel

/-- The mismatch counts once, and the postcard of the frame it ends sends the parked cell back to its ingress square:
the rejected free of requester 267 is counted at 0x800 + 8 · 267, which is the same word. -/
theorem stray_counts_twice : (ran (.blitzRecordLookup 28 none) stray).counter (sqWord 28 11) = 2 := by
  decide +kernel

/-- Refutes O44: BLITZ_RECORD_LOOKUP in an `Up` state may count the mismatch word of its square twice. The statement
bounds no cell's ingress square, and the word of a rejected free for a square 267 is the mismatch word of square 28. -/
theorem not_cellsAtTheCore : ¬ Obligations.CellsAtTheCore := by
  unfold Obligations.CellsAtTheCore
  intro h
  obtain ⟨hup, hblitz, hbad, hzero⟩ := stray_mismatch
  obtain ⟨-, -, hlookup⟩ := h
  obtain ⟨-, hrecord⟩ := hlookup 28 stray hup
  obtain ⟨-, -, hmismatch⟩ := hrecord strayRec [] none strayLook hblitz rfl
  obtain ⟨t, hexec, -, hcount, -⟩ := hmismatch hbad
  have hone : t.counter (sqWord 28 11) = bumpWord (strayLook.1.counter (sqWord 28 11)) 1 :=
    hcount (by decide) (by decide)
  have htwo : t.counter (sqWord 28 11) = 2 := by
    have hran := stray_counts_twice
    simpa only [ran, hexec] using hran
  rw [htwo, hzero] at hone
  exact absurd hone (by decide)

end Sys2Proof.Machine
end

section
/-! SUPPORT. Write-one restarts and the reads that latch (R48, R170, R261, R319, R395). -/

namespace Sys2Proof.Machine

/-! ### What a read returns while the device runs (R392, R404) -/

section
variable {s : State} {a : Nat} (hrun : s.running = true) (hreg : regRow a ≠ none)
include hrun hreg

theorem State.readReg_running (ha : inSquare a = false) : s.readReg a = BitVec.ofNat 32 (
    if a < 0x10000 then s.readGlobal a
    else if a < 0x20000 then s.readHost a
    else if a < 0x30000 then s.readTriad a
    else if a < 0x40000 then s.readFault a
    else if a < 0x50000 then s.readPower a
    else if a < 0x60000 then s.readTime a
    else if a < 0x80000 then s.readBoot a
    else if a < 0x100000 then s.readBook a
    else if a < 0x200000 then s.readTour a
    else s.readServices a) := by
  have hstage : s.boot.stage ≠ 4 := by
    intro h
    simp [State.running, h] at hrun
  simp [State.readReg, hreg, hstage, ha]

end

theorem State.readReg_timeNowHi {s : State} (h : s.running = true) : s.readReg A.timeNowHi = s.time.latchHi := by
  rw [State.readReg_running h (by decide) (by decide)]
  simp [A.timeNowHi, State.readTime, A.timeStat, A.timeNowLo]

theorem State.readReg_timeNowFrac {s : State} (h : s.running = true) :
    s.readReg A.timeNowFrac = s.time.latchFrac := by
  rw [State.readReg_running h (by decide) (by decide)]
  simp [A.timeNowHi, A.timeNowFrac, State.readTime, A.timeStat, A.timeNowLo]

theorem State.readReg_faultFirstTHi {s : State} (h : s.running = true) :
    s.readReg A.faultFirstTHi = s.fault.latchHi := by
  rw [State.readReg_running h (by decide) (by decide)]
  simp [A.faultFirstTHi, State.readFault, A.faultCtl, A.faultFirst, A.faultFirstTLo]

theorem State.readReg_tourExclHi {s : State} (h : s.running = true) :
    s.readReg A.tourExclHi = s.reg A.tourExclHi := by
  rw [State.readReg_running h (by decide) (by decide)]
  simp [A.tourExclHi, State.readTour, State.stored, A.tourStat, A.tourExclLo, A.tourSlot, A.bufStateReg, A.bufGfree]

/-! ### The restarts and the reads -/

/-- Bits [79:72] and up of device time are what its high half in ns counts (R261). -/
theorem State.nowNs_high (s : State) : s.nowNs / 2 ^ 32 = s.now / 2 ^ 72 := by
  rw [State.nowNs, toNs, Nat.div_div_eq_div_mul]
  rfl

theorem fomMinRst_eq {s : State} (hw : Wired s) (k j : Nat) (v : Reg) : exec (.fomMinRst k j v) s = .next (
    if s.boot.dpReady = false then s.accErr 3 (A.laneFom k j)
    else if rbit v 16 then s.modLane (16 * k + j) fun l => { l with fomMin := l.fom } else s) := by
  change execFomMinRst k j v s = _
  rw [execFomMinRst, atPins_wired hw]
  simp

theorem hwmRst_eq {s : State} (hw : Wired s) (k : Nat) (v : Reg) : exec (.hwmRst k v) s = .next (
    if s.boot.dpReady = false then s.accErr 3 (A.reseqStat k)
    else if rbit v 31 then s.modSq k fun q => { q with reseqHwm := q.parkedCount } else s) := by
  change execHwmRst k v s = _
  rw [execHwmRst, atPins_wired hw]
  simp

theorem firstClr_eq {s : State} (hw : Wired s) (v : Reg) : exec (.firstClr v) s = .next (
    if s.boot.dpReady = false then s.accErr 3 A.faultCtl
    else if rbit v 0 then { s with fault := { s.fault with first := none } } else s) := by
  change execFirstClr v s = _
  rw [execFirstClr, atPins_wired hw]
  simp

theorem timeNowLoRead_latches {s : State} (hw : Wired s) : Yields .timeNowLoRead s fun t =>
    t = { s with time := { s.time with latchHi := t.time.latchHi, latchFrac := t.time.latchFrac }
                 io := { s.io with latched := BitVec.ofNat 32 s.nowNs } } ∧
    t.readReg A.timeNowHi = BitVec.ofNat 32 (s.now / 2 ^ 72) ∧
    t.readReg A.timeNowFrac = BitVec.ofNat 32 (s.now / 2 ^ 24 % 2 ^ 16) := by
  have hx : exec .timeNowLoRead s = .next { s with
      time := { s.time with latchHi := BitVec.ofNat 32 (s.nowNs / 2 ^ 32)
                            latchFrac := BitVec.ofNat 32 (s.now / 2 ^ 24 % 65536) }
      io := { s.io with latched := BitVec.ofNat 32 s.nowNs } } := by
    change execTimeNowLoRead s = _
    rw [execTimeNowLoRead, atPins_wired hw]
  refine ⟨_, hx, rfl, (State.readReg_timeNowHi ?_).trans ?_, State.readReg_timeNowFrac hw.1.2⟩
  · exact hw.1.2
  · rw [← s.nowNs_high]

/-- What a read latches beside a register is no register (R395). -/
theorem State.reg_setReg_io (s : State) (a b : Nat) (v : Reg) (io : Io) :
    ({ s.setReg a v with io := io } : State).reg b = if b = a then v else s.reg b := s.reg_setReg a b v

theorem State.running_setReg_io (s : State) (a : Nat) (v : Reg) (io : Io) :
    ({ s.setReg a v with io := io } : State).running = s.running := rfl

theorem State.setReg_io_frame (s : State) (a : Nat) (v : Reg) (io : Io) :
    ({ s.setReg a v with io := io } : State) =
      { s with regs := ({ s.setReg a v with io := io } : State).regs, io := io } := rfl

/-- A read that latches `v` into register `a` and answers `w`. -/
theorem atPins_latchingRead {s : State} (hw : Wired s) (a : Nat) (v w : State → Reg) : (atPins s fun s =>
    let s1 := s.setReg a (v s)
    { s1 with io := { s1.io with latched := w s } }) =
      .next { s.setReg a (v s) with io := { s.io with latched := w s } } := by
  rw [atPins_wired hw]
  simp only [State.setReg_io]

theorem tourExclLoRead_latches {s : State} (hw : Wired s) : Yields .tourExclLoRead s fun t =>
    t = { s with regs := t.regs, io := { s.io with latched := BitVec.ofNat 32 s.exclMask } } ∧
    t.readReg A.tourExclHi = BitVec.ofNat 32 (s.exclMask / 2 ^ 32) ∧ (∀ a, a ≠ A.tourExclHi → t.reg a = s.reg a) := by
  have hx : exec .tourExclLoRead s = .next { s.setReg A.tourExclHi (BitVec.ofNat 32 (s.exclMask / 2 ^ 32)) with
      io := { s.io with latched := BitVec.ofNat 32 s.exclMask } } :=
    atPins_latchingRead hw A.tourExclHi (fun s => BitVec.ofNat 32 (s.exclMask / 2 ^ 32)) fun s =>
      BitVec.ofNat 32 s.exclMask
  refine ⟨_, hx, State.setReg_io_frame _ _ _ _, (State.readReg_tourExclHi ?_).trans ?_, fun a ha => ?_⟩
  · rw [State.running_setReg_io, hw.1.2]
  · rw [State.reg_setReg_io, if_pos rfl]
  · rw [State.reg_setReg_io, if_neg ha]

theorem faultFirstTLoRead_latches {s : State} (hw : Wired s) : Yields .faultFirstTLoRead s fun t =>
    t = { s with fault := { s.fault with latchHi := t.fault.latchHi }
                 io := { s.io with latched := BitVec.ofNat 32 s.fault.firstT } } ∧
    t.readReg A.faultFirstTHi = BitVec.ofNat 32 (s.fault.firstT / 2 ^ 32) := by
  have hx : exec .faultFirstTLoRead s = .next { s with
      fault := { s.fault with latchHi := BitVec.ofNat 32 (s.fault.firstT / 2 ^ 32) }
      io := { s.io with latched := BitVec.ofNat 32 s.fault.firstT } } := by
    change execFaultFirstTLoRead s = _
    rw [execFaultFirstTLoRead, atPins_wired hw]
  exact ⟨_, hx, rfl, State.readReg_faultFirstTHi hw.1.2⟩

/-- Settles O29: each restart by its bit and by DP_READY, and each latching read by the register it latches into. -/
theorem restartsAndLatchedReads : Obligations.RestartsAndLatchedReads := by
  unfold Obligations.RestartsAndLatchedReads
  refine ⟨fun k j v s hw => ?_, fun s hw =>
    ⟨timeNowLoRead_latches hw, tourExclLoRead_latches hw, faultFirstTLoRead_latches hw⟩⟩
  rw [fomMinRst_eq hw, hwmRst_eq hw, firstClr_eq hw]
  exact ⟨fun hready => by simp [hready], fun hearly => by simp [hearly]⟩

end Sys2Proof.Machine
end

section
/-! SUPPORT. Writes of PORT_MAP and LANE_RATE (R40, R41, R399). -/

namespace Sys2Proof.Machine

/-! ### The addresses of a square block (R405) -/

theorem A.sq_eq (k : Nat) : A.sq k = 0x1000000 + k * 0x40000 := rfl

section
variable {k o : Nat} (hk : k < 64) (ho : o < 0x40000)
include hk ho

theorem inSquare_sq : inSquare (A.sq k + o) = true := by
  rw [inSquare, A.sq_eq]
  exact decide_eq_true (by omega)

theorem squareOf_sq : squareOf (A.sq k + o) = k := by
  simp only [squareOf, A.sq_eq]
  omega

theorem offsetOf_sq : offsetOf (A.sq k + o) = o := by
  simp only [offsetOf, A.sq_eq]
  omega

theorem regRow_sq : regRow (A.sq k + o) = findRow squareRows o := by
  rw [regRow, inSquare_sq hk ho, if_pos rfl, offsetOf_sq hk ho]

end

/-- The register that a write of PORT_MAP (`false`) or LANE_RATE (`true`) of square `k` names. -/
def mapReg (k : Nat) (isRate : Bool) : Nat := if isRate then A.laneRate k else A.portMap k

theorem mapReg_eq (k : Nat) (isRate : Bool) : mapReg k isRate = A.sq k + if isRate then 4 else 0 := by
  cases isRate <;> rfl

/-! ### The map and the rates in force (R41) -/

/-- A latch of other registers leaves what is in force. -/
theorem SMap.get_foldl_set_ne {α : Type} [DecidableEq α] (d g : Nat → α) {as : List Nat} {a : Nat} (h : a ∉ as)
    (m : SMap α) : SMap.get d (as.foldl (fun f b => SMap.set d f b (g b)) m) a = SMap.get d m a := by
  induction as generalizing m with
  | nil => rfl
  | cons b bs ih =>
    obtain ⟨hb, hbs⟩ := not_or.mp (mt List.mem_cons.mpr h)
    exact (ih hbs _).trans (SMap.get_set_ne d m _ hb)

theorem State.inForce_latch_ne {s : State} {as : List Nat} {a : Nat} (h : a ∉ as) :
    (s.latch as).inForce a = s.inForce a := SMap.get_foldl_set_ne regReset s.reg h s.force

/-- The settings that a port of a square latches as it starts are not the square's map and rates. -/
theorem mapReg_notMem_portRegs (k i : Nat) (isRate : Bool) : mapReg k isRate ∉ portRegs k i := by
  simp only [mapReg_eq, portRegs, A.portCfg, A.portParse, A.pfcThr, A.pfcCfg, List.mem_cons, List.not_mem_nil, or_false]
  split <;> omega

/-- Ports that start with the map leave what is in force of the map itself. -/
theorem State.startPorts_inForce (k : Nat) (isRate : Bool) (is : List Nat) (s : State) :
    (is.foldl (fun s i => if s.portExists (16 * k + i) && s.isOff 0 (16 * k + i) then s.latch (portRegs k i)
      else s) s).inForce (mapReg k isRate) = s.inForce (mapReg k isRate) := by
  induction is generalizing s with
  | nil => rfl
  | cons i is ih =>
    refine (ih _).trans ?_
    dsimp only
    split
    · exact State.inForce_latch_ne (mapReg_notMem_portRegs k i isRate)
    · rfl

theorem State.latch_withForce (s : State) (as : List Nat) (f : SMap Reg) :
    ({ s.latch as with force := f } : State) = { s with force := f } := rfl

/-- Ports that start with the map change nothing but settings in force. -/
theorem State.startPorts_frame (k : Nat) (is : List Nat) (s : State) :
    ∃ f, is.foldl (fun s i => if s.portExists (16 * k + i) && s.isOff 0 (16 * k + i) then s.latch (portRegs k i)
      else s) s = { s with force := f } := by
  induction is generalizing s with
  | nil => exact ⟨_, rfl⟩
  | cons i is ih =>
    rw [List.foldl_cons]
    split
    · obtain ⟨f, hf⟩ := ih (s.latch (portRegs k i))
      exact ⟨f, hf.trans (State.latch_withForce _ _ _)⟩
    · exact ih s

/-- A pending map changes nothing but settings in force. -/
theorem State.applyMap_frame (s : State) (k : Nat) : ∃ f, s.applyMap k = { s with force := f } := by
  unfold State.applyMap
  split
  · obtain ⟨f, hf⟩ := State.startPorts_frame k (List.range 16) (s.latch [A.portMap k, A.laneRate k])
    exact ⟨f, hf.trans (State.latch_withForce _ _ _)⟩
  · exact ⟨_, rfl⟩

/-- A map that no port holds back is in force, with its rates. -/
theorem State.applyMap_inForce {s : State} {k : Nat} (h : s.mapBlockers k = []) (isRate : Bool) :
    (s.applyMap k).inForce (mapReg k isRate) = s.reg (mapReg k isRate) := by
  unfold State.applyMap
  rw [h]
  split
  · rw [State.startPorts_inForce]
    exact State.inForce_latch (by cases isRate <;> simp [mapReg])
  · next hpend =>
    simp only [State.mapPending, List.isEmpty_nil, Bool.and_true, Bool.or_eq_true, bne_iff_ne, not_or, not_not] at hpend
    obtain ⟨hmap, hrate⟩ := hpend
    cases isRate
    · exact hmap.symm
    · exact hrate.symm

theorem State.applyMap_blocked {s : State} {k : Nat} (h : s.mapBlockers k ≠ []) : s.applyMap k = s := by
  unfold State.applyMap
  rw [if_neg]
  simp [h]

theorem mapPort_base_le (m r i : Nat) : (mapPort m r i).1 ≤ i := Nat.div_mul_le_self _ _

/-- With every port of the square OFF none holds a map back. -/
theorem State.mapBlockers_off {s : State} {k : Nat} (h : ∀ i < 16, s.isOff 0 (16 * k + i) = true) :
    s.mapBlockers k = [] := by
  refine List.filter_eq_nil_iff.mpr fun i hi => ?_
  have hbase := mapPort_base_le (s.inForce (A.portMap k)).toNat (s.inForce (A.laneRate k)).toNat i
  simp [h _ (Nat.lt_of_le_of_lt hbase (List.mem_range.mp hi))]

/-! ### The write (R40, R399) -/

theorem portMapWrite_early {s : State} (hw : Wired s) {k : Nat} (hr : s.boot.dpReady = false) (isRate : Bool)
    (v : Reg) : exec (.portMapWrite k isRate v) s = .next (s.accErr 3 (mapReg k isRate)) := by
  change execPortMapWrite k isRate v s = _
  have hlow : alwaysWritable (mapReg k isRate) = false := by
    simp only [alwaysWritable, mapReg_eq, A.sq_eq, decide_eq_false_iff_not]
    omega
  rw [execPortMapWrite, atPins_wired hw, ← mapReg]
  simp [State.hostWriteReg, hr, hlow]

theorem portMapWrite_ready {s : State} (hw : Wired s) {k : Nat} (hk : k < 64) (hr : s.boot.dpReady = true)
    (isRate : Bool) (v : Reg) : exec (.portMapWrite k isRate v) s = .next (s.writeMap k isRate v) := by
  change execPortMapWrite k isRate v s = _
  have hsq : inSquare (mapReg k isRate) = true := by
    rw [mapReg_eq]
    exact inSquare_sq hk (by split <;> decide)
  have hne : ∀ a < 0x1000000, mapReg k isRate ≠ a := by
    intro a ha
    rw [mapReg_eq, A.sq_eq]
    omega
  have hreg : s.writeReg (mapReg k isRate) v = s.writeMap k isRate v := by
    have hrow : regRow (mapReg k isRate) = some ⟨if isRate then 4 else 0, 1, 4, 0xFFFFFFFF, 0, 0⟩ := by
      rw [mapReg_eq, regRow_sq hk (by split <;> decide)]
      cases isRate <;> rfl
    have hk' : squareOf (mapReg k isRate) = k := by
      rw [mapReg_eq]
      exact squareOf_sq hk (by split <;> decide)
    have ho : offsetOf (mapReg k isRate) = if isRate then 4 else 0 := by
      rw [mapReg_eq]
      exact offsetOf_sq hk (by split <;> decide)
    simp only [State.writeReg, hrow, hsq, hk', ho, if_neg (hne 0x20 (by decide)),
      if_neg (hne A.faultCtl (by decide)), if_neg (hne A.faultInj (by decide)),
      if_neg (hne (A.faultCfg 4) (by decide)), if_neg (hne (A.faultCfg 15) (by decide))]
    cases isRate <;> simp
  have hsome : regRow (mapReg k isRate) ≠ none := by
    rw [mapReg_eq, regRow_sq hk (by split <;> decide)]
    cases isRate <;> decide
  rw [execPortMapWrite, atPins_wired hw, ← mapReg]
  simp [State.hostWriteReg, hr, hsome, hreg]

/-- A map and rates that are valid: the register takes the value, and the map comes into force where no port holds it
back. -/
theorem portMapWrite_valid {s : State} (hw : Wired s) {k : Nat} (hk : k < 64) (hr : s.boot.dpReady = true)
    {isRate : Bool} {v : Reg} (hmap : s.writeMap k isRate v = (s.setReg (mapReg k isRate) v).applyMap k) :
    Yields (.portMapWrite k isRate v) s fun t =>
      t.reg (mapReg k isRate) = v ∧ t = { s with regs := t.regs, force := t.force } ∧
      ((∀ i < 16, s.isOff 0 (16 * k + i) = true) → t.inForce (mapReg k isRate) = v ∧
        t.inForce (mapReg k !isRate) = s.reg (mapReg k !isRate)) ∧
      ((s.setReg (mapReg k isRate) v).mapBlockers k ≠ [] → t.force = s.force) := by
  have hx := portMapWrite_ready hw hk hr isRate v
  obtain ⟨f, hf⟩ := (s.setReg (mapReg k isRate) v).applyMap_frame k
  have hv : (s.setReg (mapReg k isRate) v).reg (mapReg k isRate) = v := by rw [State.reg_setReg, if_pos rfl]
  have hother : (s.setReg (mapReg k isRate) v).reg (mapReg k !isRate) = s.reg (mapReg k !isRate) := by
    rw [State.reg_setReg, if_neg]
    rw [mapReg_eq, mapReg_eq]
    cases isRate <;> simp
  refine ⟨_, hx, ?_⟩
  rw [hmap]
  refine ⟨?_, ?_, fun hoff => ?_, fun hblocked => ?_⟩
  · rw [hf]
    exact hv
  · rw [hf]
    rfl
  · have hnone : (s.setReg (mapReg k isRate) v).mapBlockers k = [] := State.mapBlockers_off hoff
    exact ⟨(State.applyMap_inForce hnone _).trans hv, (State.applyMap_inForce hnone _).trans hother⟩
  · rw [State.applyMap_blocked hblocked]
    rfl

/-- Settles O28: a write before DP_READY, of a bad map, and of a valid one. -/
theorem portMapWrite : Obligations.PortMapWrite := by
  unfold Obligations.PortMapWrite
  intro k v s hw hk
  refine ⟨fun hr => ⟨portMapWrite_early hw hr false v, portMapWrite_early hw hr true v⟩,
    fun hr => ⟨fun hbad => ?_, fun hbad => ?_, fun hok => ?_, fun hok => ?_⟩⟩
  · rw [portMapWrite_ready hw hk hr]
    simp [State.writeMap, hbad]
  · rw [portMapWrite_ready hw hk hr]
    simp [State.writeMap, hbad]
  · exact portMapWrite_valid (isRate := false) hw hk hr (by simp [State.writeMap, hok, mapReg])
  · exact portMapWrite_valid (isRate := true) hw hk hr (by simp [State.writeMap, hok, mapReg])

end Sys2Proof.Machine
end

section
/-!
SUPPORT. The fault unit, the pools, the queues and the discard of held frames leave the links, the lanes, the settings
in force, the link state vector, the reference clocks, the management port and the names of frames alone.
-/

namespace Sys2Proof.Machine

/-! ### What those operations leave alone -/

/-- The parts of the device that no event, no cell and no discarded frame changes. -/
structure Wires where
  links : SMap Link
  lanes : SMap Lane
  force : SMap Reg
  lsv : SMap Bool
  refclk : Nat
  mgmt : MgmtLink
  bcPorts : SMap Nat
  elapsed : Tick
  nextFid : Nat

def State.wires (s : State) : Wires where
  links := s.links
  lanes := s.lanes
  force := s.force
  lsv := s.book.lsv
  refclk := s.nv.refclk
  mgmt := s.host.mgmt
  bcPorts := s.time.bcPorts
  elapsed := s.time.elapsed
  nextFid := s.nextFid

theorem foldl_wires {α : Type} {f : State → α → State} (h : ∀ s a, (f s a).wires = s.wires) (l : List α) (s : State) :
    (l.foldl f s).wires = s.wires := by
  induction l generalizing s with
  | nil => rfl
  | cons a l ih => exact (ih _).trans (h s a)

section
variable {s t : State} (h : t.wires = s.wires)
include h

theorem links_of_wires : t.links = s.links := congrArg Wires.links h
theorem lanes_of_wires : t.lanes = s.lanes := congrArg Wires.lanes h
theorem force_of_wires : t.force = s.force := congrArg Wires.force h
theorem lsv_of_wires : t.book.lsv = s.book.lsv := congrArg Wires.lsv h
theorem refclk_of_wires : t.nv.refclk = s.nv.refclk := congrArg Wires.refclk h
theorem mgmt_of_wires : t.host.mgmt = s.host.mgmt := congrArg Wires.mgmt h
theorem bcPorts_of_wires : t.time.bcPorts = s.time.bcPorts := congrArg Wires.bcPorts h
theorem elapsed_of_wires : t.elapsed = s.elapsed := congrArg Wires.elapsed h
theorem nextFid_of_wires : t.nextFid = s.nextFid := congrArg Wires.nextFid h

theorem link_of_wires (p : Nat) : t.link p = s.link p := by rw [State.link, links_of_wires h, ← State.link]
theorem lane_of_wires (l : Nat) : t.lane l = s.lane l := by rw [State.lane, lanes_of_wires h, ← State.lane]
theorem inForce_of_wires (a : Nat) : t.inForce a = s.inForce a := by
  rw [State.inForce, force_of_wires h, ← State.inForce]

end

/-! ### The basic updates -/

@[simp] theorem State.setReg_wires (s : State) (a : Nat) (v : Reg) : (s.setReg a v).wires = s.wires := rfl
@[simp] theorem State.orReg_wires (s : State) (a v : Nat) : (s.orReg a v).wires = s.wires := rfl
@[simp] theorem State.modSq_wires (s : State) (i : Nat) (f : Sq → Sq) : (s.modSq i f).wires = s.wires := rfl
@[simp] theorem State.modQueue_wires (s : State) (q : Nat) (f : Queue → Queue) : (s.modQueue q f).wires = s.wires := rfl
@[simp] theorem State.modEport_wires (s : State) (p : Nat) (f : EPort → EPort) : (s.modEport p f).wires = s.wires := rfl
@[simp] theorem State.modRing_wires (s : State) (n : Nat) (f : Ring → Ring) : (s.modRing n f).wires = s.wires := rfl
@[simp] theorem State.modChn_wires (s : State) (c : Nat) (f : Chn → Chn) : (s.modChn c f).wires = s.wires := rfl
@[simp] theorem State.modSrc_wires (s : State) (n : Nat) (f : Src → Src) : (s.modSrc n f).wires = s.wires := rfl
@[simp] theorem State.setFn_wires (s : State) (c i : Nat) (x : Fn) : (s.setFn c i x).wires = s.wires := rfl
@[simp] theorem State.modFn_wires (s : State) (c i : Nat) (f : Fn → Fn) : (s.modFn c i f).wires = s.wires := rfl

/-! ### Counters, events and the fault unit -/

@[simp] theorem State.count_wires (s : State) (o n : Nat) : (s.count o n).wires = s.wires := by
  unfold State.count
  split <;> rfl

@[simp] theorem State.countPort_wires (s : State) (p w n : Nat) : (s.countPort p w n).wires = s.wires := by
  simp only [State.countPort, apply_ite State.wires, State.count_wires, ite_self]

theorem ReturnFrame.wires {n : Nat} {s t : State} (h : ReturnFrame n s t) : t.wires = s.wires := by
  obtain ⟨hst, hhost, -⟩ := h
  rw [hst, State.wires, hhost]
  rfl

@[simp] theorem State.ringReturn_wires (s : State) (n : Nat) (bs : List Byte) (word : Nat) :
    (s.ringReturn n bs word).wires = s.wires := (ReturnFrame.ringReturn n s bs word).wires

@[simp] theorem State.fillEvents_wires (s : State) (n : Nat) : (s.fillEvents n).wires = s.wires := by
  refine foldl_wires (fun s _ => ?_) _ s
  unfold State.fillEvent
  dsimp only
  split <;> simp

@[simp] theorem State.post_wires (s : State) (type sub src : Nat) (payload : List Byte) :
    (s.post type sub src payload).wires = s.wires := by
  unfold State.post State.postAt
  dsimp only
  split
  · exact (State.fillEvents_wires _ _).trans rfl
  · exact (State.count_wires _ _ _).trans rfl

@[simp] theorem State.logReg_wires (s : State) (a v : Nat) : (s.logReg a v).wires = s.wires := by
  unfold State.logReg
  split <;> rfl

@[simp] theorem State.latchFirst_wires (s : State) (n sev : Nat) : (s.latchFirst n sev).wires = s.wires := by
  unfold State.latchFirst
  split <;> rfl

@[simp] theorem State.logFault_wires (s : State) (r : List Nat) : (s.logFault r).wires = s.wires := by
  have hlog (b : Boot) : ({ s with boot := b } : State).wires = s.wires := rfl
  have hnv (x : List (List Nat)) (b : Boot) :
      ({ s with nv := { s.nv with faultLog := x }, boot := b } : State).wires = s.wires := rfl
  simp only [State.logFault, apply_ite State.wires, State.post_wires, hlog, hnv, ite_self]

@[simp] theorem State.recordFault_wires (s : State) (n detail concerned cause : Nat) (forced : Bool) :
    (s.recordFault n detail concerned cause forced).1.wires = s.wires := by
  simp only [State.recordFault, apply_ite State.wires, State.post_wires, State.logFault_wires,
    State.latchFirst_wires, State.modSrc_wires, ite_self]

/-- The Triad's own parts are none of them. -/
theorem State.withTriad_wires (s : State) (x : Triad) : ({ s with triad := x } : State).wires = s.wires := rfl

@[simp] theorem State.loseTriad_wires (s : State) : s.loseTriad.wires = s.wires := by
  simp only [State.loseTriad, apply_ite State.wires, State.recordFault_wires, State.post_wires,
    State.withTriad_wires, ite_self]

@[simp] theorem State.failChannel_wires (s : State) (c : Nat) : (s.failChannel c).wires = s.wires := by
  unfold State.failChannel
  dsimp only
  split
  · rfl
  · split <;> simp only [apply_ite State.wires, State.loseTriad_wires, State.post_wires, State.withTriad_wires,
      State.modChn_wires, ite_self]

@[simp] theorem State.addToX_wires (s : State) (i source : Nat) : (s.addToX i source).wires = s.wires := by
  unfold State.addToX
  split <;> rfl

@[simp] theorem State.beginHold_wires (s : State) (k : HoldKind) : (s.beginHold k).wires = s.wires := by
  unfold State.beginHold
  split <;> rfl

@[simp] theorem State.react_wires (s : State) (n code : Nat) : (s.react n code).wires = s.wires := by
  unfold State.react
  repeat' split
  all_goals simp

@[simp] theorem State.faultEvent_wires (s : State) (n detail concerned cause : Nat) (forced : Bool) :
    (s.faultEvent n detail concerned cause forced).wires = s.wires := by
  simp only [State.faultEvent, apply_ite State.wires, State.react_wires, State.recordFault_wires, ite_self]

@[simp] theorem State.sqFault_wires (s : State) (i j : Nat) : (s.sqFault i j).wires = s.wires :=
  s.faultEvent_wires _ _ _ _ _

/-! ### Cells and the frames of a queue -/

@[simp] theorem State.badFree_wires (s : State) (i k r owner : Nat) (foreign : Bool) :
    (s.badFree i k r owner foreign).wires = s.wires := by
  simp [State.badFree]

@[simp] theorem State.freeCell_wires (s : State) (i k r : Nat) : (s.freeCell i k r).wires = s.wires := by
  unfold State.freeCell
  repeat' split
  all_goals simp

@[simp] theorem State.freeByHeader_wires (s : State) (i k : Nat) : (s.freeByHeader i k).wires = s.wires := by
  unfold State.freeByHeader
  split <;> simp

@[simp] theorem State.dropRef_wires (s : State) (e : Nat) (r : CellRef) : (s.dropRef e r).wires = s.wires := by
  unfold State.dropRef
  repeat' split
  all_goals simp

@[simp] theorem State.tagQueue_wires (s : State) (q : Nat) : (s.tagQueue q).wires = s.wires := by
  unfold State.tagQueue State.setTag
  split <;> rfl

@[simp] theorem State.removeFrames_wires (s : State) (q : Nat) (gone : QFrame → Bool) :
    (s.removeFrames q gone).wires = s.wires := by
  simp [State.removeFrames, foldl_wires]

/-! ### Returns of transmit frames -/

@[simp] theorem State.bcLost_wires (s : State) (fid : Nat) : (s.bcLost fid).wires = s.wires := by
  unfold State.bcLost
  split <;> rfl

@[simp] theorem State.flushTx_wires (s : State) (n : Nat) : (s.flushTx n).wires = s.wires := by
  refine foldl_wires (fun s _ => ?_) _ s
  unfold State.flushTxOne
  split
  · exact foldl_wires (fun s d => s.ringReturn_wires _ _ _) _ _
  · rfl

@[simp] theorem State.reportTx_wires (s : State) (h : FrameHdr) (status stamp : Nat) :
    (s.reportTx h status stamp).wires = s.wires := by
  unfold State.reportTx
  dsimp only
  split <;> simp [apply_ite State.wires]

@[simp] theorem State.discardFrames_wires (s : State) (q w : Nat) (gone : QFrame → Bool) :
    (s.discardFrames q w gone).wires = s.wires := by
  simp [State.discardFrames, foldl_wires]

/-! ### PFC, held frames and a port that goes down (R188, R195, R196) -/

@[simp] theorem State.sendPfc_wires (s : State) (p : Nat) (pris : List (Nat × Nat)) :
    (s.sendPfc p pris).wires = s.wires := by
  unfold State.sendPfc
  split
  · rfl
  · exact (State.modSq_wires _ _ _).trans (foldl_wires (fun s e => s.countPort_wires _ _ _) _ _)

@[simp] theorem State.pfcSquare_wires (s : State) (i : Nat) : (s.pfcSquare i).wires = s.wires := by
  refine foldl_wires (fun s p => ?_) _ s
  simp only [State.pfcPort, apply_ite State.wires, State.sendPfc_wires, State.modSq_wires, ite_self]

@[simp] theorem State.discardHeld_wires (s : State) (i q w : Nat) : (s.discardHeld i q w).wires = s.wires := by
  simp [State.discardHeld, foldl_wires]

@[simp] theorem State.queuesDown_wires (s : State) (p : Nat) : (s.queuesDown p).wires = s.wires := by
  have habort : (s.abortTx p).wires = s.wires := by
    unfold State.abortTx
    split
    · rfl
    · exact (State.reportTx_wires _ _ _ _).trans ((State.countPort_wires _ _ _ _).trans
        ((State.removeFrames_wires _ _ _).trans (State.modEport_wires _ _ _)))
  simp [State.queuesDown, apply_ite State.wires, foldl_wires, habort]

@[simp] theorem State.chargeQueue_wires (s : State) (q n : Nat) : (s.chargeQueue q n).wires = s.wires := by
  unfold State.chargeQueue
  dsimp only
  repeat' split
  all_goals rfl

end Sys2Proof.Machine
end

section
/-! SUPPORT. Lane detectors, the steps of bring-up and LINK_UP (R43, R46 to R55, R58, R189). -/

namespace Sys2Proof.Machine

/-! ### What each detector does -/

section
variable {s : State} (hw : Wired s)
include hw

theorem losClear_eq (l ns : Nat) : exec (.losClear l ns) s = .next (
    if s.portLive (s.portBase l) && decide (s.losQual (s.portBase l) ≤ ns) then
      (s.modLane l fun x => { x with
        los := false, sig := true
        train := if s.trains (s.portBase l) = true ∧ x.train = 0 then 1 else x.train }).tryUpHold (s.portBase l)
    else s) := by
  change execLosClear l ns s = _
  rw [execLosClear, atPins_wired hw]

theorem lolClear_eq (l a b : Nat) : exec (.lolClear l a b) s = .next (
    if s.portLive (s.portBase l) && decide (a ≤ 300 ∧ b ≤ 300) then
      (s.modLane l fun x => { x with lol := false, cdr := true }).tryUpHold (s.portBase l)
    else s) := by
  change execLolClear l a b s = _
  rw [execLolClear, atPins_wired hw]

theorem linkTrainingComplete_eq (l : Nat) (ok : Bool) : exec (.linkTrainingComplete l ok) s = .next (
    if s.portLive (s.portBase l) && s.trains (s.portBase l) then
      (s.modLane l fun x => { x with train := if ok then 2 else 3 }).tryUpHold (s.portBase l)
    else s) := by
  change execLinkTrainingComplete l ok s = _
  rw [execLinkTrainingComplete, atPins_wired hw]

theorem amLock_eq (l pos : Nat) (aligned : Bool) {u : State}
    (hu : u = s.modLane l (Lane.match_ (s.amSpacing (s.portBase l)) pos)) : exec (.amLock l pos aligned) s = .next (
    if s.portLive (s.portBase l) then
      (if (u.portLanes (s.portBase l)).all (fun k => (u.lane k).am) then u.deskewTo (s.portBase l) aligned
        else u).tryUpHold (s.portBase l)
    else s) := by
  change execAmLock l pos aligned s = _
  rw [execAmLock, atPins_wired hw, hu]

theorem fecCodewordLock_eq (p : Nat) : exec (.fecCodewordLock p) s = .next (
    if s.portLive p then (s.modLink p fun x => { x with fec := true, ucwRun := 0 }).tryUpHold p else s) := by
  change execFecCodewordLock p s = _
  rw [execFecCodewordLock, atPins_wired hw]

theorem autonegComplete_eq (p : Nat) (partner : List Ability) : exec (.autonegComplete p partner) s = .next (
    if s.portLive p && rbit (s.portCfg p) 29 && partner.contains (s.advertised p) then
      (s.modLink p fun x => { x with anDone := true }).tryUpHold p else s) := by
  change execAutonegComplete p partner s = _
  rw [execAutonegComplete, atPins_wired hw]

theorem adaptOk_eq (p : Nat) : exec (.adaptOk p) s = .next (
    if s.portLive p && s.fomHeld p then (s.modLink p fun x => { x with adapt := true }).tryUpHold p else s) := by
  change execAdaptOk p s = _
  rw [execAdaptOk, gated_up hw.1]

theorem faultSequenceClear_eq (p : Nat) (a b : Bool) : exec (.faultSequenceClear p a b) s = .next (
    if s.portLive p then (s.modLink p fun x => { x with rxLf := x.rxLf && !a, rxRf := x.rxRf && !b }).tryUpHold p
    else s) := by
  change execFaultSequenceClear p a b s = _
  rw [execFaultSequenceClear, atPins_wired hw]

end

theorem State.fomHeld_iff (s : State) (p : Nat) : s.fomHeld p = true ↔
    ∀ k ∈ s.portLanes p, ∃ t, (s.lane k).fomOkAt = some t ∧ t + msT 1 ≤ s.elapsed := by
  rw [State.fomHeld, List.all_eq_true]
  refine forall₂_congr fun k _ => ?_
  cases (s.lane k).fomOkAt <;> simp

/-- What a lane shows leaves the map of its square. -/
theorem State.modLane_portLanes (s : State) (l : Nat) (f : Lane → Lane) (p : Nat) :
    (s.modLane l f).portLanes p = s.portLanes p := rfl

/-! ### Markers and deskew (R52, R53) -/

theorem Lane.match_first {x : Lane} (h : x.cand = none) (d pos : Nat) : x.match_ d pos = { x with cand := some pos } := by
  rw [Lane.match_, h]

theorem Lane.match_candidate {x : Lane} {c : Nat} (h : x.cand = some c) (ham : x.am = false) (d pos : Nat) :
    x.match_ d pos = if pos = c + d then { x with am := true, misses := 0, cand := some pos }
      else if pos < c + d then x else { x with cand := some pos } := by
  simp only [Lane.match_, h, ham, Bool.false_eq_true, if_false]

theorem State.deskewTo_aligned (s : State) (p : Nat) :
    s.deskewTo p true = s.modLink p fun x => { x with deskew := true } := rfl

theorem State.deskewTo_skewed {s : State} {p : Nat} (hup : (s.link p).up = false) (hd : (s.link p).deskew = false) :
    s.deskewTo p false = s.modLink p fun x => { x with cause := 7, lane := 255 } := by
  simp [State.deskewTo, hup, hd]

/-! ### LINK_UP (R50, R58, R189) -/

theorem State.setLsv_link (s : State) (p q : Nat) (b : Bool) : (s.setLsv p b).link q = s.link q := rfl

theorem State.lsv_setLsv (s : State) (p : Nat) (b : Bool) :
    SMap.get (fun _ => false) (s.setLsv p b).book.lsv p = b := SMap.get_set_same _ _ _ _

/-- The link of port `p` as LINK_UP leaves it, with its bit in the link state vector. -/
def State.linkRisen (s : State) (p : Nat) : State :=
  (s.modLink p fun l => { l with
    up := true, upHold := none, holdFrom := none, holdExt := false, discarding := false }).setLsv p true

/-- Every condition of LINK_UP holds, and UP_HOLD, which began at `t0`, has run (R50). -/
def State.mayRise (s : State) (p : Nat) (t0 : Tick) : Bool :=
  s.portLive p && !(s.link p).up && s.linkQualified p && s.noFaultSeq p && decide (t0 + s.upHold p ≤ s.elapsed)

theorem linkUp_idle {s : State} (hu : Up s) {p : Nat} (h : (s.link p).upHold = none) :
    exec (.linkUp p) s = .next s := by
  change execLinkUp p s = _
  rw [execLinkUp, gated_up hu]
  simp only [h]

theorem linkUp_eq {s : State} (hu : Up s) {p : Nat} {t0 : Tick} (h : (s.link p).upHold = some t0) :
    exec (.linkUp p) s = .next (if s.mayRise p t0 then
      (s.linkRisen p).sendPfc p ((s.xoffPris p).map fun k => (k, s.quanta)) else s) := by
  change execLinkUp p s = _
  rw [execLinkUp, gated_up hu]
  simp only [h]
  rfl

theorem State.countPort_io (s : State) (p w n : Nat) : (s.countPort p w n).io = s.io := by
  unfold State.countPort State.count
  repeat' split
  all_goals rfl

/-- One PFC frame leaves an up port with the priorities listed, if any (R189). -/
theorem State.sendPfc_io {s : State} {p : Nat} {pris : List (Nat × Nat)} (hne : pris ≠ [])
    (hup : (s.link p).up = true) :
    (s.sendPfc p pris).io = { s.io with pfc := (p, s.pfcFrame pris) :: s.io.pfc } := by
  have hfold : ∀ (es : List (Nat × Nat)) (u : State),
      (es.foldl (fun u e => u.countPort p (16 + e.1) 1) u).io = u.io := by
    intro es
    induction es with
    | nil => exact fun _ => rfl
    | cons e es ih => exact fun u => (ih _).trans (u.countPort_io _ _ _)
  unfold State.sendPfc
  rw [if_neg (by simp [hne, hup])]
  exact hfold pris _

theorem State.linkRisen_link (s : State) (p q : Nat) : (s.linkRisen p).link q = if q = p then { s.link p with
    up := true, upHold := none, holdFrom := none, holdExt := false, discarding := false } else s.link q := by
  unfold State.linkRisen
  rw [State.setLsv_link, State.link_modLink]

theorem State.linkRisen_lsv (s : State) (p : Nat) : SMap.get (fun _ => false) (s.linkRisen p).book.lsv p = true :=
  State.lsv_setLsv _ p true

theorem linkUp_rises {s : State} (hu : Up s) {p : Nat} {t0 : Tick} (h : (s.link p).upHold = some t0)
    (hrise : s.mayRise p t0 = true) : Yields (.linkUp p) s fun t =>
      (t.link p) = { s.link p with
        up := true, upHold := none, holdFrom := none, holdExt := false, discarding := false } ∧
      SMap.get (fun _ => false) t.book.lsv p = true ∧ (∀ x, x ≠ p → t.link x = s.link x) ∧
      (s.xoffPris p = [] → t.io = s.io ∧ t.cnt = s.cnt ∧ t.sqs = s.sqs) ∧
      (s.xoffPris p ≠ [] → t.io = { s.io with
        pfc := (p, s.pfcFrame ((s.xoffPris p).map fun k => (k, s.quanta))) :: s.io.pfc }) := by
  refine ⟨_, linkUp_eq hu h, ?_⟩
  rw [if_pos hrise]
  have hwires := (s.linkRisen p).sendPfc_wires p ((s.xoffPris p).map fun k => (k, s.quanta))
  have hself : (s.linkRisen p).link p = _ := (s.linkRisen_link p p).trans (if_pos rfl)
  refine ⟨(link_of_wires hwires p).trans hself, ?_, fun x hx => ?_, fun hnone => ?_, fun hsome => ?_⟩
  · rw [lsv_of_wires hwires, s.linkRisen_lsv]
  · rw [link_of_wires hwires, s.linkRisen_link, if_neg hx]
  · rw [hnone]
    exact ⟨rfl, rfl, rfl⟩
  · refine State.sendPfc_io (by simpa using hsome) ?_
    rw [hself]

/-- Settles O33: each detector by its guard, and LINK_UP by its conditions and UP_HOLD. -/
theorem linkBringUp : Obligations.LinkBringUp := by
  unfold Obligations.LinkBringUp
  refine ⟨fun l p s hw => ⟨fun hdead => ?_, fun hdead => ?_, fun hlive => ?_, fun hlive => ?_⟩,
    fun d pos x => ⟨fun h => Lane.match_first h d pos, fun c h ham => ?_⟩,
    fun p s => ⟨s.deskewTo_aligned p, State.deskewTo_skewed⟩, fun p s hu h => linkUp_idle hu h,
    fun p t0 s hu h => ⟨fun hlive hdown hqual hseq ht => linkUp_rises hu h ?_, fun hshort => ?_⟩⟩
  · refine ⟨fun ns => ?_, fun a b => ?_, fun pos b => ?_, fun b => ?_⟩
    · rw [losClear_eq hw, hdead]
      rfl
    · rw [lolClear_eq hw, hdead]
      rfl
    · rw [amLock_eq hw l pos b rfl, hdead]
      rfl
    · rw [linkTrainingComplete_eq hw, hdead]
      rfl
  · refine ⟨?_, fun x => ?_, ?_, fun a b => ?_⟩
    · rw [fecCodewordLock_eq hw, hdead]
      rfl
    · rw [autonegComplete_eq hw, hdead]
      rfl
    · rw [adaptOk_eq hw, hdead]
      rfl
    · rw [faultSequenceClear_eq hw, hdead]
      rfl
  · refine ⟨fun ns hns => ?_, fun ns hns => ?_, fun a b ha hb => ?_, fun a b hab => ?_, fun htr b => ?_,
      fun htr b => ?_, fun pos b u hu => ⟨fun ⟨k, hk, ham⟩ => ?_, fun hall => ?_⟩⟩
    · rw [losClear_eq hw, if_pos (by simp [hlive, hns])]
    · rw [losClear_eq hw, if_neg (by simp [hns])]
    · rw [lolClear_eq hw, if_pos (by simp [hlive, ha, hb])]
    · rw [lolClear_eq hw, if_neg]
      simp only [Bool.and_eq_true, decide_eq_true_eq]
      rintro ⟨-, ha, hb⟩
      omega
    · rw [linkTrainingComplete_eq hw, if_pos (by simp [hlive, htr])]
    · rw [linkTrainingComplete_eq hw, if_neg (by simp [htr])]
    · have hlanes : u.portLanes (s.portBase l) = s.portLanes (s.portBase l) := hu ▸ rfl
      have hnot : (u.portLanes (s.portBase l)).all (fun k => (u.lane k).am) = false :=
        List.all_eq_false.mpr ⟨k, hlanes ▸ hk, by simp [ham]⟩
      rw [amLock_eq hw l pos b hu, if_pos hlive, hnot]
      rfl
    · have hlanes : u.portLanes (s.portBase l) = s.portLanes (s.portBase l) := hu ▸ rfl
      have hyes : (u.portLanes (s.portBase l)).all (fun k => (u.lane k).am) = true :=
        List.all_eq_true.mpr (hlanes ▸ hall)
      rw [amLock_eq hw l pos b hu, if_pos hlive, if_pos hyes]
  · refine ⟨?_, fun x hen hmem => ?_, fun x hmem => ?_, fun hfom => ?_, fun a b => ?_⟩
    · rw [fecCodewordLock_eq hw, if_pos hlive]
    · rw [autonegComplete_eq hw, if_pos (by simp [hlive, hen, hmem])]
    · rw [autonegComplete_eq hw, if_neg (by simp [hmem])]
    · rw [adaptOk_eq hw, if_pos (by simp [hlive, (s.fomHeld_iff p).mpr hfom])]
    · rw [faultSequenceClear_eq hw, if_pos hlive]
  · rw [Lane.match_candidate h ham]
    refine ⟨fun hpos => if_pos hpos, fun hlt => ?_, fun hgt => ?_⟩
    · rw [if_neg (by omega), if_pos hlt]
    · rw [if_neg (by omega), if_neg (by omega)]
  · simp [State.mayRise, hlive, hdown, hqual, hseq, ht]
  · rw [linkUp_eq hu h, if_neg]
    simp only [State.mayRise, Bool.and_eq_true, Bool.not_eq_true', decide_eq_true_eq]
    rintro ⟨⟨⟨⟨hlive, hdown⟩, hqual⟩, hseq⟩, ht⟩
    rcases hshort with h | h | h | h | h
    · simp [h] at hlive
    · simp [h] at hdown
    · simp [h] at hqual
    · simp [h] at hseq
    · exact absurd ht (Nat.not_le.mpr h)

end Sys2Proof.Machine
end

section
/-! SUPPORT. A link that goes down, what its receiver marks, and the end of LINK_HOLD (R46, R47, R51, R52, R54 to R59, R196). -/

namespace Sys2Proof.Machine

/-! ### The lowest cause (R56) -/

/-- Cause `c` counts before or with `d`: it is lower, or has a lane no higher. -/
def CauseLe (c d : Nat × Nat) : Prop := c.1 < d.1 ∨ (c.1 = d.1 ∧ c.2 ≤ d.2)

theorem CauseLe.refl (c : Nat × Nat) : CauseLe c c := .inr ⟨rfl, le_rfl⟩

theorem CauseLe.trans {c d e : Nat × Nat} (h : CauseLe c d) (k : CauseLe d e) : CauseLe c e := by
  unfold CauseLe at *
  omega

theorem lowerCause_le (a b : Nat × Nat) : CauseLe (lowerCause a b) a ∧ CauseLe (lowerCause a b) b := by
  unfold lowerCause CauseLe
  split <;> omega

theorem lowerCause_cases (a b : Nat × Nat) : lowerCause a b = a ∨ lowerCause a b = b := by
  unfold lowerCause
  split
  · exact .inr rfl
  · exact .inl rfl

theorem foldl_lowerCause (cs : List (Nat × Nat)) (a : Nat × Nat) :
    cs.foldl lowerCause a ∈ a :: cs ∧ ∀ d ∈ a :: cs, CauseLe (cs.foldl lowerCause a) d := by
  induction cs generalizing a with
  | nil => simp [CauseLe.refl]
  | cons b cs ih =>
    obtain ⟨hmem, hle⟩ := ih (lowerCause a b)
    obtain ⟨hfirst, hrest⟩ := List.forall_mem_cons.mp hle
    obtain ⟨ha, hb⟩ := lowerCause_le a b
    refine ⟨?_, List.forall_mem_cons.mpr ⟨hfirst.trans ha, List.forall_mem_cons.mpr ⟨hfirst.trans hb, hrest⟩⟩⟩
    rw [List.foldl_cons]
    rcases List.mem_cons.mp hmem with h | h
    · rw [h]
      rcases lowerCause_cases a b with hab | hab <;> simp [hab]
    · exact List.mem_cons_of_mem _ (List.mem_cons_of_mem _ h)

theorem lowestCause_spec {l : List (Nat × Nat)} {c : Nat × Nat} (h : lowestCause l = some c) :
    c ∈ l ∧ ∀ d ∈ l, CauseLe c d := by
  cases l with
  | nil => cases h
  | cons a cs =>
    obtain rfl := Option.some.inj h
    exact foldl_lowerCause cs a

/-! ### What the discard of lossless frames leaves (R196) -/

/-- The links after a change of one link. -/
theorem State.modLink_wires (s : State) (p : Nat) (f : Link → Link) :
    (s.modLink p f).wires = { s.wires with links := SMap.upd (fun _ => {}) s.wires.links p f } := rfl

/-- The discard of lossless frames ends the hold of its port, and touches no other link (R196). -/
theorem State.dropLossless_wires (s : State) (p : Nat) : (s.dropLossless p).wires =
    (s.modLink p fun l => { l with holdFrom := none, holdExt := false, discarding := true }).wires := by
  unfold State.dropLossless
  dsimp only
  rw [State.modLink_wires, State.modLink_wires, foldl_wires fun s q => ?_]
  rw [State.chargeQueue_wires, foldl_wires fun s i => s.discardHeld_wires i _ _, State.discardFrames_wires]

/-! ### A port after a condition of R56 -/

/-- What the change of a link leaves at its own port. -/
theorem State.link_modLink_self (s : State) (p : Nat) (f : Link → Link) : (s.modLink p f).link p = f (s.link p) :=
  (s.link_modLink p p f).trans (if_pos rfl)

/-- What stays of port `p`'s link, and of every other, while its receiver marks what it saw. -/
structure LinkMark (p : Nat) (t u : State) : Prop where
  other : ∀ q, q ≠ p → u.link q = t.link q
  up : (u.link p).up = (t.link p).up
  upHold : (u.link p).upHold = (t.link p).upHold
  cause : (u.link p).cause = (t.link p).cause
  lane : (u.link p).lane = (t.link p).lane
  lsv : u.book.lsv = t.book.lsv

theorem LinkMark.of_links {p : Nat} {t u : State} (h : u.links = t.links := by rfl)
    (hv : u.book.lsv = t.book.lsv := by rfl) : LinkMark p t u := by
  have hl : ∀ q, u.link q = t.link q := fun q => by rw [State.link, h, ← State.link]
  exact ⟨fun q _ => hl q, by rw [hl], by rw [hl], by rw [hl], by rw [hl], hv⟩

theorem LinkMark.of_wires {p : Nat} {t u : State} (h : u.wires = t.wires) : LinkMark p t u :=
  .of_links (links_of_wires h) (lsv_of_wires h)

theorem LinkMark.trans {p : Nat} {s t u : State} (h : LinkMark p s t) (k : LinkMark p t u) : LinkMark p s u :=
  ⟨fun q hq => (k.other q hq).trans (h.other q hq), k.up.trans h.up, k.upHold.trans h.upHold, k.cause.trans h.cause,
    k.lane.trans h.lane, k.lsv.trans h.lsv⟩

theorem LinkMark.foldl {α : Type} {p : Nat} {f : State → α → State} (h : ∀ s a, LinkMark p s (f s a)) (l : List α)
    (s : State) : LinkMark p s (l.foldl f s) := by
  induction l generalizing s with
  | nil => exact .of_wires rfl
  | cons a l ih => exact (h s a).trans (ih _)

/-- A mark on the port's own link (R51 to R56). -/
theorem LinkMark.modLink (p : Nat) (s : State) {f : Link → Link}
    (hf : ∀ l, (f l).up = l.up ∧ (f l).upHold = l.upHold ∧ (f l).cause = l.cause ∧ (f l).lane = l.lane := by
      exact fun _ => ⟨rfl, rfl, rfl, rfl⟩) : LinkMark p s (s.modLink p f) := by
  have hself : (s.modLink p f).link p = f (s.link p) := s.link_modLink_self p f
  obtain ⟨hup, hhold, hcause, hlane⟩ := hf (s.link p)
  exact ⟨fun q hq => (s.link_modLink p q f).trans (if_neg hq), by rw [hself, hup], by rw [hself, hhold],
    by rw [hself, hcause], by rw [hself, hlane], rfl⟩

theorem LinkMark.countCw (p : Nat) (s : State) (r : CwRun) : LinkMark p s (s.countCw p r) := by
  unfold State.countCw
  dsimp only
  split
  · next k _ =>
    have hcount : LinkMark p s ((if k = 0 then s.countPort p 28 r.n else (s.countPort p 28 r.n).countPort p 29 r.n).countPort
        p (32 + k) r.n) := .of_wires (by simp [apply_ite State.wires])
    split
    · exact hcount
    · exact hcount.trans (.modLink p _)
  · exact LinkMark.trans (.of_wires (by simp)) (.modLink p _)

theorem LinkMark.countCws (p : Nat) (s : State) (rs : List CwRun) : LinkMark p s (s.countCws p rs) :=
  .foldl (.countCw p) rs s

theorem LinkMark.restartBringUp (p : Nat) (s : State) : LinkMark p s (s.restartBringUp p) :=
  (LinkMark.modLink p s).trans
    (.foldl (fun _ _ => .of_links) _ _)

theorem LinkMark.markSight (p : Nat) (s : State) (hit : Bool) (x : Sight) : LinkMark p s (s.markSight p hit x) := by
  cases x with
  | energyLow k ns =>
    simp only [State.markSight]
    split
    · exact LinkMark.trans (.of_links) (.restartBringUp p _)
    · exact .of_wires rfl
  | clockOff k ppm =>
    simp only [State.markSight]
    split
    · exact LinkMark.trans (.of_links) (.restartBringUp p _)
    · exact .of_wires rfl
  | codewords rs =>
    simp only [State.markSight]
    split
    · exact (LinkMark.countCws p s rs).trans (.modLink p _)
    · exact .countCws p s rs
  | localFault => exact .modLink p s
  | remoteFault => exact .modLink p s
  | markerMiss k =>
    simp only [State.markSight]
    split
    · exact LinkMark.trans (.of_links)
        (.modLink p _)
    · split
      · exact .of_links
      · exact .of_wires rfl
  | deskewLost => exact .modLink p s

/-- Port `p` after a condition with its cause and lane was seen: an up link is down with them, and its bit in the link
state vector is clear; a link not up keeps its cause. No other link changes (R50, R56, R58). -/
structure LinkDown (p cause lane : Nat) (s t : State) : Prop where
  up : (t.link p).up = false
  upHold : (t.link p).upHold = none
  other : ∀ q, q ≠ p → t.link q = s.link q
  wasUp : (s.link p).up = true → (t.link p).cause = cause ∧
    (t.link p).lane = (if cause = 1 ∨ cause = 2 ∨ cause = 6 then lane else 255) ∧
    SMap.get (fun _ => false) t.book.lsv p = false
  wasDown : (s.link p).up = false → (t.link p).cause = (s.link p).cause ∧ (t.link p).lane = (s.link p).lane

theorem LinkDown.mark {p cause lane : Nat} {s t u : State} (h : LinkDown p cause lane s t) (k : LinkMark p t u) :
    LinkDown p cause lane s u where
  up := k.up.trans h.up
  upHold := k.upHold.trans h.upHold
  other q hq := (k.other q hq).trans (h.other q hq)
  wasUp hup := by
    rw [k.cause, k.lane, k.lsv]
    exact h.wasUp hup
  wasDown hdown := by
    rw [k.cause, k.lane]
    exact h.wasDown hdown

/-- The end of the hold leaves the rest of the link. -/
theorem LinkMark.dropLossless (p : Nat) (s : State) : LinkMark p s (s.dropLossless p) :=
  (LinkMark.modLink p s).trans
    (.of_wires (s.dropLossless_wires p))

theorem State.bcLeave_cases (s : State) (p : Nat) : ∃ x, s.bcLeave p = { s with time := x } := by
  unfold State.bcLeave
  split
  · exact ⟨_, rfl⟩
  · exact ⟨_, rfl⟩

theorem LinkMark.bcLeave (p q : Nat) (s : State) : LinkMark p s (s.bcLeave q) := by
  obtain ⟨x, hx⟩ := s.bcLeave_cases q
  rw [hx]
  exact .of_links

/-- The link itself as a down event leaves it, its bit in the link state vector clear (R56, R58). -/
def State.linkFallen (s : State) (p cause lane : Nat) : State :=
  (s.modLink p fun l => { l with
    up := false, upHold := none, cause := cause
    lane := if cause = 1 ∨ cause = 2 ∨ cause = 6 then lane else 255
    secDown := l.secDown || decide (cause ≠ 9 ∧ cause ≠ 10)
    holdFrom := some s.elapsed, holdExt := false, discarding := false }).setLsv p false

theorem State.linkFallen_down {s : State} {p : Nat} (hup : (s.link p).up = true) (cause lane : Nat) :
    LinkDown p cause lane s (s.linkFallen p cause lane) := by
  unfold State.linkFallen
  refine ⟨?_, ?_, fun q hq => ?_, fun _ => ⟨?_, ?_, State.lsv_setLsv _ p false⟩, fun h => by simp [h] at hup⟩
  · rw [State.setLsv_link, State.link_modLink_self]
  · rw [State.setLsv_link, State.link_modLink_self]
  · rw [State.setLsv_link, State.link_modLink, if_neg hq]
  · rw [State.setLsv_link, State.link_modLink_self]
  · rw [State.setLsv_link, State.link_modLink_self]

/-- What a down event does beside the link itself: counts, queues, the port's source, and the hold (R58, R59, R195,
R196). -/
def State.afterFall (s : State) (p cause : Nat) : State :=
  let s1 := (s.orReg (A.linkStat (p / 16) (p % 16)) (2 ^ 24)).countPort p 24 1
  let s2 := (s1.queuesDown p).faultEvent (portSrc p) 1 p cause
  if s2.linkHold = 0 then s2.dropLossless p else s2

theorem State.linkDownEvent_eq (s : State) (p cause lane : Nat) :
    s.linkDownEvent p cause lane = ((s.linkFallen p cause lane).bcLeave p).afterFall p cause := rfl

theorem LinkMark.afterFall (s : State) (p cause : Nat) : LinkMark p s (s.afterFall p cause) := by
  unfold State.afterFall
  dsimp only
  have hwires : LinkMark p s ((((s.orReg (A.linkStat (p / 16) (p % 16)) (2 ^ 24)).countPort p 24 1).queuesDown
      p).faultEvent (portSrc p) 1 p cause) := .of_wires (by
    rw [State.faultEvent_wires, State.queuesDown_wires, State.countPort_wires, State.orReg_wires])
  split
  · exact hwires.trans (.dropLossless p _)
  · exact hwires

theorem State.linkDownEvent_down {s : State} {p : Nat} (hup : (s.link p).up = true) (cause lane : Nat) :
    LinkDown p cause lane s (s.linkDownEvent p cause lane) := by
  rw [State.linkDownEvent_eq]
  exact ((State.linkFallen_down hup cause lane).mark (.bcLeave p p _)).mark (.afterFall _ p cause)

theorem State.downCondition_down (s : State) (p cause lane : Nat) :
    LinkDown p cause lane s (s.downCondition p cause lane) := by
  unfold State.downCondition
  split
  · next hup => exact State.linkDownEvent_down hup cause lane
  · next hup =>
    have hdown : (s.link p).up = false := by simpa using hup
    have hself : (s.modLink p fun l => { l with upHold := none }).link p = { s.link p with upHold := none } :=
      s.link_modLink_self p _
    have hfirst : LinkDown p cause lane s (s.modLink p fun l => { l with upHold := none }) := by
      refine ⟨?_, ?_, fun q hq => (s.link_modLink p q _).trans (if_neg hq), fun h => absurd h hup, fun _ => ?_⟩
      · rw [hself, ← hdown]
      · rw [hself]
      · rw [hself]
        exact ⟨rfl, rfl⟩
    dsimp only
    split
    · exact hfirst.mark (.dropLossless p _)
    · exact hfirst

/-! ### What a port's receiver sees (R56) -/

theorem State.see_down {s : State} {p : Nat} {seen : List Sight} {c : Nat × Nat}
    (h : lowestCause (seen.filterMap (s.causeOf p)) = some c) : LinkDown p c.1 c.2 s (s.see p seen) := by
  unfold State.see
  rw [h]
  exact (s.downCondition_down p c.1 c.2).mark (.foldl (fun s (m : Bool × Sight) => .markSight p s m.1 m.2) _ _)

theorem State.see_hit {s : State} {p : Nat} {x : Sight} {c : Nat × Nat} (h : s.causeOf p x = some c) :
    s.see p [x] = (s.downCondition p c.1 c.2).markSight p true x := by
  simp [State.see, h, lowestCause]

theorem State.see_miss {s : State} {p : Nat} {x : Sight} (h : s.causeOf p x = none) :
    s.see p [x] = s.markSight p false x := by
  simp [State.see, h, lowestCause]

theorem linkDown_eq {s : State} (hu : Up s) (p : Nat) (seen : List Sight) : exec (.linkDown p seen) s =
    .next (if s.portLive p then s.see p seen else s) := by
  change execLinkDown p seen s = _
  rw [execLinkDown, gated_up hu]

section
variable {s : State} (hu : Up s) {p : Nat} (hlive : s.portLive p = true) {x : Sight}
include hu hlive

theorem linkDown_miss (h : s.causeOf p x = none) : exec (.linkDown p [x]) s = .next (s.markSight p false x) := by
  rw [linkDown_eq hu, if_pos hlive, State.see_miss h]

theorem linkDown_hit {c : Nat × Nat} (h : s.causeOf p x = some c) {P : State → Prop}
    (hP : ∀ u : State, P (u.markSight p true x)) : Yields (.linkDown p [x]) s P := by
  refine ⟨_, linkDown_eq hu p [x], ?_⟩
  rw [if_pos hlive, State.see_hit h]
  exact hP _

end

/-! ### The marks (R46, R47, R51, R52, R54, R55) -/

/-- Bring-up that restarts trains lanes anew, and leaves what else they show (R54). -/
theorem State.restartBringUp_lane (s : State) (p l : Nat) :
    ∃ n, (s.restartBringUp p).lane l = { s.lane l with train := n } := by
  have hstep (u : State) (k : Nat) : ∃ n, (u.modLane k fun x => { x with train := b2n (u.trains p && x.sig) }).lane l =
      { u.lane l with train := n } := by
    rw [State.lane_modLane]
    split
    · next h => exact ⟨_, by rw [h]⟩
    · exact ⟨_, rfl⟩
  have hfold (ks : List Nat) : ∀ u : State, ∃ n, (ks.foldl (fun u k => u.modLane k fun x =>
      { x with train := b2n (u.trains p && x.sig) }) u).lane l = { u.lane l with train := n } := by
    induction ks with
    | nil => exact fun u => ⟨_, rfl⟩
    | cons k ks ih =>
      intro u
      obtain ⟨n, hn⟩ := ih (u.modLane k fun x => { x with train := b2n (u.trains p && x.sig) })
      obtain ⟨m, hm⟩ := hstep u k
      exact ⟨n, hn.trans (by rw [hm])⟩
  exact hfold (s.portLanes p) (s.modLink p fun l => { l with adapt := false, anDone := false })

theorem State.energyLow_lane (u : State) (p k ns : Nat) :
    ((u.markSight p true (.energyLow k ns)).lane (p + k)).los = true ∧
      ((u.markSight p true (.energyLow k ns)).lane (p + k)).sig = false := by
  obtain ⟨n, hn⟩ := State.restartBringUp_lane
    (u.modLane (p + k) fun l => { l with los := true, sig := false, fomOkAt := none }) p (p + k)
  simp only [State.markSight, if_true, hn, State.lane_modLane, and_self]

theorem State.clockOff_lane (u : State) (p k ppm : Nat) :
    ((u.markSight p true (.clockOff k ppm)).lane (p + k)).lol = true ∧
      ((u.markSight p true (.clockOff k ppm)).lane (p + k)).cdr = false := by
  obtain ⟨n, hn⟩ := State.restartBringUp_lane
    (u.modLane (p + k) fun l => { l with lol := true, cdr := false, fomOkAt := none }) p (p + k)
  simp only [State.markSight, if_true, hn, State.lane_modLane, and_self]

theorem State.modLink_lane (s : State) (p l : Nat) (f : Link → Link) : (s.modLink p f).lane l = s.lane l := rfl

theorem State.markerMiss_lost (u : State) (p k : Nat) :
    ((u.markSight p true (.markerMiss k)).lane (p + k)).am = false ∧
      ((u.markSight p true (.markerMiss k)).link p).deskew = false := by
  refine ⟨?_, ?_⟩
  · simp only [State.markSight, if_true, State.modLink_lane, State.lane_modLane]
  · simp only [State.markSight, if_true, State.link_modLink_self]

theorem State.codewords_lost (u : State) (p : Nat) (rs : List CwRun) :
    ((u.markSight p true (.codewords rs)).link p).fec = false := by
  simp only [State.markSight, if_true, State.link_modLink_self]

/-! ### LINK_HOLD_EXPIRE (R196) -/

theorem linkHoldExpire_idle {s : State} (hu : Up s) {p : Nat} (h : (s.link p).holdFrom = none) :
    exec (.linkHoldExpire p) s = .next s := by
  change execLinkHoldExpire p s = _
  rw [execLinkHoldExpire, gated_up hu]
  simp only [h]

theorem linkHoldExpire_eq {s : State} (hu : Up s) {p : Nat} {t0 : Tick} (h : (s.link p).holdFrom = some t0) :
    exec (.linkHoldExpire p) s = .next (
      if s.elapsed < t0 + s.linkHold then s
      else if s.portDown p = false then s.modLink p fun l => { l with holdFrom := none }
      else if s.linkQualified p && (s.link p).upHold.isSome then s.modLink p fun l => { l with holdExt := true }
      else s.dropLossless p) := by
  change execLinkHoldExpire p s = _
  rw [execLinkHoldExpire, gated_up hu]
  simp only [h, Bool.not_eq_true']

theorem State.dropLossless_link (s : State) (p : Nat) : (s.dropLossless p).link p =
    { s.link p with holdFrom := none, holdExt := false, discarding := true } :=
  (link_of_wires (s.dropLossless_wires p) p).trans (s.link_modLink_self p _)

/-! ### The statement -/

/-- A link goes down with the lowest cause that its receiver sees. -/
theorem linkDown_down {s : State} (hu : Up s) {p : Nat} (hlive : s.portLive p = true) {seen : List Sight}
    {c : Nat × Nat} (h : lowestCause (seen.filterMap (s.causeOf p)) = some c) : Yields (.linkDown p seen) s fun t =>
      (t.link p).up = false ∧ (t.link p).upHold = none ∧ (∀ x, x ≠ p → t.link x = s.link x) ∧
      ((s.link p).up = true → (t.link p).cause = c.1 ∧
        (t.link p).lane = (if c.1 = 1 ∨ c.1 = 2 ∨ c.1 = 6 then c.2 else 255) ∧
        SMap.get (fun _ => false) t.book.lsv p = false) ∧
      ((s.link p).up = false → (t.link p).cause = (s.link p).cause ∧ (t.link p).lane = (s.link p).lane) := by
  refine ⟨_, linkDown_eq hu p seen, ?_⟩
  rw [if_pos hlive]
  have hdown := State.see_down h
  exact ⟨hdown.up, hdown.upHold, hdown.other, hdown.wasUp, hdown.wasDown⟩

/-- The sights of one lane: energy, clock and markers. -/
theorem linkDown_lane {s : State} (hu : Up s) {p : Nat} (hlive : s.portLive p = true) {k : Nat}
    (hk : k < s.portWidth p) :
    (∀ ns, s.losQual p ≤ ns → s.causeOf p (.energyLow k ns) = some (1, k) ∧
      Yields (.linkDown p [.energyLow k ns]) s fun t => (t.lane (p + k)).los = true ∧ (t.lane (p + k)).sig = false) ∧
    (∀ ns, ns < s.losQual p → exec (.linkDown p [.energyLow k ns]) s = .next s) ∧
    (∀ ppm, 1000 < ppm → s.causeOf p (.clockOff k ppm) = some (2, k) ∧
      Yields (.linkDown p [.clockOff k ppm]) s fun t => (t.lane (p + k)).lol = true ∧ (t.lane (p + k)).cdr = false) ∧
    (∀ ppm, ppm ≤ 1000 → exec (.linkDown p [.clockOff k ppm]) s = .next s) ∧
    ((s.lane (p + k)).am = true → s.amMisses p ≤ (s.lane (p + k)).misses + 1 →
      s.causeOf p (.markerMiss k) = some (6, k) ∧
      Yields (.linkDown p [.markerMiss k]) s fun t => (t.lane (p + k)).am = false ∧ (t.link p).deskew = false) ∧
    ((s.lane (p + k)).am = true → (s.lane (p + k)).misses + 1 < s.amMisses p →
      exec (.linkDown p [.markerMiss k]) s = .next (s.modLane (p + k) fun x => { x with misses := x.misses + 1 })) := by
  refine ⟨fun ns hns => ?_, fun ns hns => ?_, fun ppm hppm => ?_, fun ppm hppm => ?_, fun ham hmiss => ?_,
    fun ham hmiss => ?_⟩
  · have hcause : s.causeOf p (.energyLow k ns) = some (1, k) := if_pos ⟨hk, hns⟩
    exact ⟨hcause, linkDown_hit hu hlive hcause fun u => u.energyLow_lane p k ns⟩
  · exact linkDown_miss hu hlive (x := .energyLow k ns) (if_neg (by omega))
  · have hcause : s.causeOf p (.clockOff k ppm) = some (2, k) := if_pos ⟨hk, hppm⟩
    exact ⟨hcause, linkDown_hit hu hlive hcause fun u => u.clockOff_lane p k ppm⟩
  · exact linkDown_miss hu hlive (x := .clockOff k ppm) (if_neg (by omega))
  · have hcause : s.causeOf p (.markerMiss k) = some (6, k) := if_pos ⟨hk, ham, hmiss⟩
    exact ⟨hcause, linkDown_hit hu hlive hcause fun u => u.markerMiss_lost p k⟩
  · rw [linkDown_miss hu hlive (x := .markerMiss k) (if_neg (by omega))]
    simp [State.markSight, hk, ham]

/-- The sights of the port: codewords, fault sequences and deskew. -/
theorem linkDown_port {s : State} (hu : Up s) {p : Nat} (hlive : s.portLive p = true) :
    (∀ rs, s.ucwFires p rs = true → s.causeOf p (.codewords rs) = some (3, 255) ∧
      Yields (.linkDown p [.codewords rs]) s fun t => (t.link p).fec = false) ∧
    (∀ rs, s.ucwFires p rs = false → exec (.linkDown p [.codewords rs]) s = .next (s.countCws p rs)) ∧
    s.causeOf p .localFault = some (4, 255) ∧ (Yields (.linkDown p [.localFault]) s fun t => (t.link p).rxLf = true) ∧
    s.causeOf p .remoteFault = some (5, 255) ∧ (Yields (.linkDown p [.remoteFault]) s fun t => (t.link p).rxRf = true) ∧
    s.causeOf p .deskewLost = some (7, 255) ∧
    (Yields (.linkDown p [.deskewLost]) s fun t => (t.link p).deskew = false) := by
  refine ⟨fun rs hfires => ?_, fun rs hquiet => ?_, rfl, ?_, rfl, ?_, rfl, ?_⟩
  · have hcause : s.causeOf p (.codewords rs) = some (3, 255) := if_pos hfires
    exact ⟨hcause, linkDown_hit hu hlive hcause fun u => u.codewords_lost p rs⟩
  · rw [linkDown_miss hu hlive (x := .codewords rs) (if_neg (by simp [hquiet]))]
    rfl
  · exact linkDown_hit hu hlive rfl fun u => congrArg Link.rxLf (u.link_modLink_self p _)
  · exact linkDown_hit hu hlive rfl fun u => congrArg Link.rxRf (u.link_modLink_self p _)
  · exact linkDown_hit hu hlive rfl fun u => congrArg Link.deskew (u.link_modLink_self p _)

/-- Settles O34: the lowest cause takes the link down, every sight leaves its mark, and the end of LINK_HOLD. -/
theorem linkDownAndHold : Obligations.LinkDownAndHold := by
  unfold Obligations.LinkDownAndHold
  refine ⟨fun l c h => lowestCause_spec h, fun p s hu => ⟨fun seen hdead => ?_, fun seen c hlive h =>
    linkDown_down hu hlive h, fun hlive k hk => linkDown_lane hu hlive hk, fun hlive => linkDown_port hu hlive⟩,
    fun p s hu h => linkHoldExpire_idle hu h, fun p t0 s hu h => ⟨fun hearly => ?_, fun hover => ⟨fun hback => ?_,
      fun hdown hqual hhold => ?_, fun hdown hnot => ?_⟩⟩⟩
  · rw [linkDown_eq hu, hdead]
    rfl
  · rw [linkHoldExpire_eq hu h, if_pos hearly]
  · rw [linkHoldExpire_eq hu h, if_neg (Nat.not_lt.mpr hover), if_pos hback]
  · rw [linkHoldExpire_eq hu h, if_neg (Nat.not_lt.mpr hover), if_neg (by simp [hdown]), if_pos (by simp [hqual, hhold])]
  · refine ⟨_, linkHoldExpire_eq hu h, ?_⟩
    have hno : (s.linkQualified p && (s.link p).upHold.isSome) = false := by
      rcases hnot with hq | hq <;> simp [hq]
    rw [if_neg (Nat.not_lt.mpr hover), if_neg (by simp [hdown]), hno, if_neg Bool.false_ne_true]
    dsimp only
    rw [State.dropLossless_link]
    exact ⟨rfl, rfl, rfl⟩

end Sys2Proof.Machine
end

section
/-! SUPPORT. Figures of merit, reference clocks and error seconds (R48, R49, R51, R56, R60, R67). -/

namespace Sys2Proof.Machine

/-! ### The figure of merit of a block (R48, R49) -/

theorem State.fomTo_good {s : State} {l n : Nat} (h : s.minFom l ≤ fomOf n) : s.fomTo l n = s.modLane l fun x =>
    { x with fom := fomOf n, fomMin := min x.fomMin (fomOf n), fomOkAt := some (x.fomOkAt.getD s.elapsed) } := by
  simp only [State.fomTo, h, decide_true, if_true]
  refine congrArg (s.modLane l) (funext fun x => ?_)
  cases x.fomOkAt <;> rfl

/-- A block below MIN_FOM, apart from the alarm: ADAPT_OK and UP_HOLD end (R49). -/
def State.degraded (s : State) (l n : Nat) : State :=
  (s.modLane l fun x => { x with fom := fomOf n, fomMin := min x.fomMin (fomOf n), fomOkAt := none }).modLink
    (s.portBase l) fun x => { x with adapt := false, upHold := none }

theorem State.fomTo_bad {s : State} {l n : Nat} (h : fomOf n < s.minFom l) : s.fomTo l n =
    if (s.link (s.portBase l)).up then
      (s.degraded l n).faultEvent (portSrc (s.portBase l)) 2 (s.portBase l)
    else s.degraded l n := by
  simp only [State.fomTo, Nat.not_le.mpr h, decide_false, Bool.false_eq_true, if_false]
  rfl

/-- Whether codewords bring a burst depends on the settings in force and on the run before them (R56). -/
theorem State.ucwFires_congr {s t : State} {p : Nat} (hf : t.force = s.force)
    (hr : (t.link p).ucwRun = (s.link p).ucwRun) (rs : List CwRun) : t.ucwFires p rs = s.ucwFires p rs := by
  have hburst : t.ucwBurst p = s.ucwBurst p := by
    rw [State.ucwBurst, State.portCfg, State.inForce, hf, ← State.inForce, ← State.portCfg, ← State.ucwBurst]
  rw [State.ucwFires, hburst, hr, ← State.ucwFires]

/-- A block's figure of merit leaves the port up as it is, with its codewords (R49). -/
theorem State.fomTo_link (s : State) (l n : Nat) : (s.fomTo l n).force = s.force ∧
    ((s.fomTo l n).link (s.portBase l)).ucwRun = (s.link (s.portBase l)).ucwRun ∧
    ((s.fomTo l n).link (s.portBase l)).up = (s.link (s.portBase l)).up := by
  rcases Nat.lt_or_ge (fomOf n) (s.minFom l) with hbad | hgood
  · have hself : (s.degraded l n).link (s.portBase l) =
        { s.link (s.portBase l) with adapt := false, upHold := none } := State.link_modLink_self _ _ _
    rw [State.fomTo_bad hbad]
    split
    · have hw := (s.degraded l n).faultEvent_wires (portSrc (s.portBase l)) 2 (s.portBase l) 0 false
      rw [force_of_wires hw, link_of_wires hw, hself]
      exact ⟨rfl, rfl, rfl⟩
    · rw [hself]
      exact ⟨rfl, rfl, rfl⟩
  · rw [State.fomTo_good hgood]
    exact ⟨rfl, rfl, rfl⟩

theorem fomBlock_eq {s : State} (hu : Up s) (l n : Nat) (cws : List CwRun) : exec (.fomBlock l n cws) s = .next (
    if s.portLive (s.portBase l) then (s.fomTo l n).see (s.portBase l) [.codewords cws] else s) := by
  change execFomBlock l n cws s = _
  rw [execFomBlock, gated_up hu]

section
variable {s : State} (hu : Up s) {l n : Nat} {cws : List CwRun} (hlive : s.portLive (s.portBase l) = true)
include hu hlive

/-- Codewords of the block that end no burst are counted, and nothing else. -/
theorem fomBlock_quiet (h : s.ucwFires (s.portBase l) cws = false) :
    exec (.fomBlock l n cws) s = .next ((s.fomTo l n).countCws (s.portBase l) cws) := by
  obtain ⟨hforce, hrun, -⟩ := s.fomTo_link l n
  have hmiss : (s.fomTo l n).causeOf (s.portBase l) (.codewords cws) = none :=
    if_neg (by simp [State.ucwFires_congr hforce hrun, h])
  rw [fomBlock_eq hu, if_pos hlive, State.see_miss hmiss]
  rfl

theorem fomBlock_burst (h : s.ucwFires (s.portBase l) cws = true) (hup : (s.link (s.portBase l)).up = true) :
    Yields (.fomBlock l n cws) s fun t =>
      (t.link (s.portBase l)).up = false ∧ (t.link (s.portBase l)).cause = 3 := by
  obtain ⟨hforce, hrun, hsame⟩ := s.fomTo_link l n
  have hhit : (s.fomTo l n).causeOf (s.portBase l) (.codewords cws) = some (3, 255) :=
    if_pos ((State.ucwFires_congr hforce hrun cws).trans h)
  have hdown : LinkDown (s.portBase l) 3 255 (s.fomTo l n) ((s.fomTo l n).see (s.portBase l) [.codewords cws]) :=
    State.see_down (c := (3, 255)) (by simp [hhit, lowestCause])
  refine ⟨_, fomBlock_eq hu l n cws, ?_⟩
  rw [if_pos hlive]
  exact ⟨hdown.up, (hdown.wasUp (hsame.trans hup)).1⟩

end

/-! ### Folds over ports -/

/-- A fold over distinct ports whose steps each change one link: each port's link is changed once, by its own step. -/
theorem foldl_links {f : State → Nat → State} {R : Nat → Link → Link → Prop} {J : State → Prop}
    (hJ : ∀ s p, J s → J (f s p)) (hother : ∀ s p q, q ≠ p → (f s p).link q = s.link q)
    (hown : ∀ s p, J s → R p (s.link p) ((f s p).link p)) {ps : List Nat} (hps : ps.Nodup) {s : State} (hs : J s) :
    (∀ q, q ∉ ps → (ps.foldl f s).link q = s.link q) ∧
      ∀ p ∈ ps, R p (s.link p) ((ps.foldl f s).link p) := by
  induction ps generalizing s with
  | nil => exact ⟨fun _ _ => rfl, fun _ h => absurd h List.not_mem_nil⟩
  | cons a ps ih =>
    obtain ⟨ha, hps⟩ := List.nodup_cons.mp hps
    obtain ⟨hout, hin⟩ := ih hps (hJ s a hs)
    refine ⟨fun q hq => ?_, fun p hp => ?_⟩
    · obtain ⟨hqa, hqps⟩ := not_or.mp (mt List.mem_cons.mpr hq)
      exact (hout q hqps).trans (hother s a q hqa)
    · rcases List.mem_cons.mp hp with rfl | hp
      · rw [List.foldl_cons, hout p ha]
        exact hown s p hs
      · have hpa : p ≠ a := fun h => ha (h ▸ hp)
        rw [← hother s a p hpa]
        exact hin p hp

/-! ### The loss of a reference clock (R67) -/

/-- Nothing changes but links, the link state vector and the ports of the boundary clock service. -/
def LinksOnly (s t : State) : Prop := ∃ ls v b, t.wires = { s.wires with links := ls, lsv := v, bcPorts := b }

theorem LinksOnly.of_wires {s t : State} (h : t.wires = s.wires) : LinksOnly s t := ⟨_, _, _, h⟩

theorem LinksOnly.trans {s t u : State} (h : LinksOnly s t) (k : LinksOnly t u) : LinksOnly s u := by
  obtain ⟨_, _, _, h⟩ := h
  obtain ⟨ls, v, b, k⟩ := k
  exact ⟨ls, v, b, by rw [k, h]⟩

theorem LinksOnly.foldl {α : Type} {f : State → α → State} (h : ∀ s a, LinksOnly s (f s a)) (l : List α) (s : State) :
    LinksOnly s (l.foldl f s) := by
  induction l generalizing s with
  | nil => exact .of_wires rfl
  | cons a l ih => exact (h s a).trans (ih _)

theorem LinksOnly.lanes {s t : State} (h : LinksOnly s t) : t.lanes = s.lanes := by
  obtain ⟨_, _, _, h⟩ := h
  exact congrArg Wires.lanes h

theorem LinksOnly.refclk {s t : State} (h : LinksOnly s t) : t.nv.refclk = s.nv.refclk := by
  obtain ⟨_, _, _, h⟩ := h
  exact congrArg Wires.refclk h

theorem LinksOnly.modLink (s : State) (p : Nat) (f : Link → Link) : LinksOnly s (s.modLink p f) := ⟨_, _, _, rfl⟩

theorem LinksOnly.dropLossless (s : State) (p : Nat) : LinksOnly s (s.dropLossless p) :=
  (LinksOnly.modLink s p _).trans (.of_wires (s.dropLossless_wires p))

theorem LinksOnly.bcLeave (s : State) (p : Nat) : LinksOnly s (s.bcLeave p) := by
  unfold State.bcLeave
  split
  · exact .of_wires rfl
  · exact ⟨_, _, _, rfl⟩

theorem LinksOnly.afterFall (s : State) (p cause : Nat) : LinksOnly s (s.afterFall p cause) := by
  unfold State.afterFall
  dsimp only
  have hwires : LinksOnly s ((((s.orReg (A.linkStat (p / 16) (p % 16)) (2 ^ 24)).countPort p 24 1).queuesDown
      p).faultEvent (portSrc p) 1 p cause) := .of_wires (by
    rw [State.faultEvent_wires, State.queuesDown_wires, State.countPort_wires, State.orReg_wires])
  split
  · exact hwires.trans (.dropLossless _ p)
  · exact hwires

theorem LinksOnly.linkFallen (s : State) (p cause lane : Nat) : LinksOnly s (s.linkFallen p cause lane) :=
  ⟨_, _, _, rfl⟩

theorem LinksOnly.downCondition (s : State) (p cause lane : Nat) : LinksOnly s (s.downCondition p cause lane) := by
  unfold State.downCondition
  split
  · rw [State.linkDownEvent_eq]
    exact ((LinksOnly.linkFallen s p cause lane).trans (.bcLeave _ p)).trans (.afterFall _ p cause)
  · dsimp only
    split
    · exact (LinksOnly.modLink s p _).trans (.dropLossless _ p)
    · exact .modLink s p _

/-- The lanes of reference clock `k` (R64). -/
def clockLanes (k : Nat) : List Nat := (List.range 64).map (64 * k + ·)

theorem mem_clockLanes {k l : Nat} : l ∈ clockLanes k ↔ 64 * k ≤ l ∧ l < 64 * k + 64 := by
  simp only [clockLanes, List.mem_map, List.mem_range]
  exact ⟨fun ⟨a, ha, h⟩ => by omega, fun h => ⟨l - 64 * k, by omega, by omega⟩⟩

theorem nodup_clockLanes (k : Nat) : (clockLanes k).Nodup :=
  List.nodup_range.map fun _ _ h => Nat.add_left_cancel h

/-- The lanes as the loss of their clock leaves them, the clock marked absent (R67). -/
def State.clockGone (s : State) (k : Nat) : State :=
  (clockLanes k).foldl (fun s l => s.modLane l fun x => { x with
      sig := false, cdr := false, am := false, fomOkAt := none, train := 0, cand := none, misses := 0 })
    { s with nv := { s.nv with refclk := setBit s.nv.refclk k false } }

/-- A port on the lanes of a lost clock goes down with cause 8, and starts over at step 3 (R67). -/
def State.portUnclocked (s : State) (p : Nat) : State :=
  (s.downCondition p 8 255).modLink p fun l => { l with adapt := false, fec := false, deskew := false }

theorem refclkLoss_eq {s : State} (hu : Up s) (k : Nat) : exec (.refclkLoss k) s = .next (
    (((clockLanes k).filter (s.clockGone k).portLive).foldl State.portUnclocked (s.clockGone k)).faultEvent
      (32 + k) 0 k) := by
  change execRefclkLoss k s = _
  rw [execRefclkLoss, gated_up hu]
  rfl

theorem foldl_modLane_frame (f : Lane → Lane) (ls : List Nat) (s : State) :
    ∃ m, ls.foldl (fun s l => s.modLane l f) s = { s with lanes := m } := by
  induction ls generalizing s with
  | nil => exact ⟨_, rfl⟩
  | cons l ls ih =>
    obtain ⟨m, hm⟩ := ih (s.modLane l f)
    exact ⟨m, hm⟩

/-- What `f` leaves of every lane holds of each lane it was applied to. -/
theorem foldl_modLane_lane {f : Lane → Lane} {Q : Lane → Prop} (hf : ∀ x, Q (f x)) {l : Nat} (ls : List Nat)
    {s : State} (h : l ∈ ls ∨ Q (s.lane l)) : Q ((ls.foldl (fun s l => s.modLane l f) s).lane l) := by
  induction ls generalizing s with
  | nil => exact h.resolve_left List.not_mem_nil
  | cons a ls ih =>
    refine ih ?_
    by_cases hla : l = a
    · refine .inr ?_
      rw [State.lane_modLane, if_pos hla]
      exact hf _
    · rw [State.lane_modLane, if_neg hla]
      exact h.imp_left fun hmem => (List.mem_cons.mp hmem).resolve_left hla

theorem State.clockGone_frame (s : State) (k : Nat) : ∃ m, s.clockGone k =
    { s with nv := { s.nv with refclk := setBit s.nv.refclk k false }, lanes := m } :=
  foldl_modLane_frame _ _ _

/-- The link of a port that its clock's loss took down, from what it was before (R67). -/
def Link.Unclocked (l m : Link) : Prop :=
  m.up = false ∧ m.upHold = none ∧ m.adapt = false ∧ m.fec = false ∧ m.deskew = false ∧ (l.up = true → m.cause = 8)

theorem State.portUnclocked_own (s : State) (p : Nat) : Link.Unclocked (s.link p) ((s.portUnclocked p).link p) := by
  have hdown := s.downCondition_down p 8 255
  have hself : (s.portUnclocked p).link p = { (s.downCondition p 8 255).link p with
      adapt := false, fec := false, deskew := false } := State.link_modLink_self _ _ _
  rw [hself]
  exact ⟨hdown.up, hdown.upHold, rfl, rfl, rfl, fun hup => (hdown.wasUp hup).1⟩

theorem State.portUnclocked_other (s : State) (p q : Nat) (h : q ≠ p) : (s.portUnclocked p).link q = s.link q :=
  ((State.link_modLink _ p q _).trans (if_neg h)).trans ((s.downCondition_down p 8 255).other q h)

theorem LinksOnly.portUnclocked (s : State) (p : Nat) : LinksOnly s (s.portUnclocked p) :=
  (LinksOnly.downCondition s p 8 255).trans (.modLink _ p _)

theorem bit_setBit_false (v k : Nat) : bit (setBit v k false) k = false := by
  unfold setBit
  split
  · next h => exact h
  · next h =>
    have hodd : v / 2 ^ k % 2 = 1 := by simpa [bit] using h
    have hdiv : (v - 2 ^ k) / 2 ^ k = v / 2 ^ k - 1 := by simpa using Nat.sub_mul_div v (2 ^ k) 1
    simp only [bit, Bool.false_eq_true, if_false, hdiv, beq_eq_false_iff_ne]
    omega

theorem refclkLoss_down {s : State} (hu : Up s) (k : Nat) : Yields (.refclkLoss k) s fun t =>
    bit t.nv.refclk k = false ∧
    (∀ l, 64 * k ≤ l → l < 64 * k + 64 → (t.lane l).sig = false ∧ (t.lane l).cdr = false ∧ (t.lane l).am = false) ∧
    (∀ p, 64 * k ≤ p → p < 64 * k + 64 → s.portLive p = true →
      (t.link p).up = false ∧ (t.link p).upHold = none ∧ (t.link p).adapt = false ∧ (t.link p).fec = false ∧
      (t.link p).deskew = false ∧ ((s.link p).up = true → (t.link p).cause = 8)) ∧
    (∀ p, p < 64 * k ∨ 64 * k + 64 ≤ p → t.link p = s.link p) := by
  refine ⟨_, refclkLoss_eq hu k, ?_⟩
  have hwires := (((clockLanes k).filter (s.clockGone k).portLive).foldl State.portUnclocked
    (s.clockGone k)).faultEvent_wires (32 + k) 0 k 0 false
  have honly : LinksOnly (s.clockGone k) (((clockLanes k).filter (s.clockGone k).portLive).foldl
    State.portUnclocked (s.clockGone k)) := .foldl .portUnclocked _ _
  obtain ⟨m, hm⟩ := s.clockGone_frame k
  have hlinks : ∀ q, (s.clockGone k).link q = s.link q := fun q => by rw [hm]; rfl
  have hlive : ∀ q, (s.clockGone k).portLive q = s.portLive q := fun q => by rw [hm]; rfl
  obtain ⟨hout, hin⟩ := foldl_links (f := State.portUnclocked) (R := fun _ => Link.Unclocked) (J := fun _ => True)
    (fun _ _ h => h) State.portUnclocked_other (fun s p _ => s.portUnclocked_own p)
    ((nodup_clockLanes k).filter (s.clockGone k).portLive) (s := s.clockGone k) trivial
  refine ⟨?_, fun l hlo hhi => ?_, fun p hlo hhi hp => ?_, fun p hp => ?_⟩
  · rw [refclk_of_wires hwires, honly.refclk, hm]
    exact bit_setBit_false _ _
  · rw [lane_of_wires hwires, State.lane, honly.lanes, ← State.lane]
    exact foldl_modLane_lane (Q := fun x => x.sig = false ∧ x.cdr = false ∧ x.am = false)
      (fun _ => ⟨rfl, rfl, rfl⟩) _ (.inl (mem_clockLanes.mpr ⟨hlo, hhi⟩))
  · have hmem : p ∈ (clockLanes k).filter (s.clockGone k).portLive :=
      List.mem_filter.mpr ⟨mem_clockLanes.mpr ⟨hlo, hhi⟩, (hlive p).trans hp⟩
    rw [link_of_wires hwires, ← hlinks p]
    exact hin p hmem
  · have hmem : p ∉ (clockLanes k).filter (s.clockGone k).portLive := fun h => by
      have := mem_clockLanes.mp (List.mem_filter.mp h).1
      omega
    rw [link_of_wires hwires, hout p hmem, hlinks]

theorem refclkReturn_eq {s : State} (hw : Wired s) (k : Nat) : exec (.refclkReturn k) s =
    .next { s with nv := { s.nv with refclk := setBit s.nv.refclk k true } } := by
  change execRefclkReturn k s = _
  rw [execRefclkReturn, atPins_wired hw]

/-! ### Error seconds (R60) -/

/-- Only links and counters change. -/
def SecondFrame (s t : State) : Prop := ∃ ls c, t = { s with links := ls, cnt := c }

theorem SecondFrame.trans {s t u : State} (h : SecondFrame s t) (k : SecondFrame t u) : SecondFrame s u := by
  obtain ⟨_, _, rfl⟩ := h
  obtain ⟨ls, c, rfl⟩ := k
  exact ⟨ls, c, rfl⟩

theorem SecondFrame.countPort (s : State) (p w n : Nat) : SecondFrame s (s.countPort p w n) := by
  unfold State.countPort State.count
  repeat' split
  all_goals exact ⟨_, _, rfl⟩

theorem SecondFrame.retireSecond (s : State) (p : Nat) (line : List SecClass) :
    SecondFrame s (s.retireSecond p line) := by
  unfold State.retireSecond
  split
  · exact ⟨_, _, rfl⟩
  · next c rest =>
    have hlink (x : Bool) : SecondFrame s (s.modLink p fun l => { l with uas := x, secs := rest }) := ⟨_, _, rfl⟩
    dsimp only
    generalize (if (s.link p).uas then _ else _ : Bool) = x
    split
    · exact (hlink x).trans (.countPort _ _ _ _)
    · cases c with
      | clean => exact hlink x
      | es => exact (hlink x).trans (.countPort _ _ _ _)
      | ses => exact ((hlink x).trans (.countPort _ _ _ _)).trans (.countPort _ _ _ _)

/-- The end of one second of a port whose delay line is not full. -/
def Link.SecondEnds (ses : Nat) (l m : Link) : Prop :=
  (l.secOn = false → m = { l with secOn := true, secDown := !l.up, secUcw := 0 }) ∧
  (l.secOn = true → l.secs.length < 10 → m = { l with
    secs := l.secs ++ [if l.secDown = true ∨ ses ≤ l.secUcw then .ses else if l.secUcw = 0 then .clean else .es]
    secDown := !l.up, secUcw := 0 })

theorem secClass_eq (down : Bool) (ucw ses : Nat) : secClass down ucw ses =
    if down = true ∨ ses ≤ ucw then .ses else if ucw = 0 then .clean else .es := by
  simp only [secClass, Bool.or_eq_true, decide_eq_true_eq]

theorem State.portSecond_own (s : State) (p : Nat) :
    Link.SecondEnds (s.sesUcw p) (s.link p) ((s.portSecond p).link p) := by
  refine ⟨fun hon => ?_, fun hon hshort => ?_⟩
  · simp only [State.portSecond, hon, Bool.false_eq_true, if_false, State.link_modLink_self]
  · have hline : ¬((s.link p).secs ++ [secClass (s.link p).secDown (s.link p).secUcw (s.sesUcw p)]).length = 11 := by
      rw [List.length_append, List.length_singleton]
      omega
    rw [← secClass_eq]
    simp only [State.portSecond, hon, if_true, if_neg hline, State.link_modLink_self]

theorem SecondFrame.portSecond (s : State) (p : Nat) : SecondFrame s (s.portSecond p) := by
  unfold State.portSecond
  dsimp only
  split
  · split
    · exact SecondFrame.trans ⟨_, _, rfl⟩ (.retireSecond _ p _)
    · exact ⟨_, _, rfl⟩
  · exact ⟨_, _, rfl⟩

theorem SecondFrame.foldl {α : Type} {f : State → α → State} (h : ∀ s a, SecondFrame s (f s a)) (l : List α)
    (s : State) : SecondFrame s (l.foldl f s) := by
  induction l generalizing s with
  | nil => exact ⟨_, _, rfl⟩
  | cons a l ih => exact (h s a).trans (ih _)

/-- A counter has no part in a link. -/
theorem State.countPort_link (s : State) (p w n q : Nat) : (s.countPort p w n).link q = s.link q :=
  link_of_wires (s.countPort_wires p w n) q

theorem State.retireSecond_other (s : State) (p q : Nat) (line : List SecClass) (h : q ≠ p) :
    (s.retireSecond p line).link q = s.link q := by
  unfold State.retireSecond
  split
  · rfl
  · next c rest =>
    have hlink (x : Bool) : (s.modLink p fun l => { l with uas := x, secs := rest }).link q = s.link q :=
      (s.link_modLink p q _).trans (if_neg h)
    dsimp only
    generalize (if (s.link p).uas then _ else _ : Bool) = x
    split
    · rw [State.countPort_link, hlink]
    · cases c with
      | clean => exact hlink x
      | es => rw [State.countPort_link, hlink]
      | ses => rw [State.countPort_link, State.countPort_link, hlink]

theorem State.portSecond_other (s : State) (p q : Nat) (h : q ≠ p) : (s.portSecond p).link q = s.link q := by
  have hlink (f : Link → Link) : (s.modLink p f).link q = s.link q := (s.link_modLink p q f).trans (if_neg h)
  unfold State.portSecond
  dsimp only
  split
  · split
    · exact (State.retireSecond_other _ p q _ h).trans (hlink _)
    · exact hlink _
  · exact hlink _

theorem State.withTime_link (s : State) (x : TimeSt) (p : Nat) : ({ s with time := x } : State).link p = s.link p := rfl

/-- The front-panel ports in ON or DRAINING. -/
def State.livePorts (s : State) : List Nat := (List.range 1024).filter s.portLive

theorem State.mem_livePorts {s : State} {p : Nat} : p ∈ s.livePorts ↔ s.portLive p = true := by
  simp only [State.livePorts, List.mem_filter, List.mem_range, and_iff_right_iff_imp]
  intro hp
  simp only [State.portLive, Bool.and_eq_true, decide_eq_true_eq] at hp
  exact hp.1.1

theorem State.secondBoundary_eq (s : State) : s.secondBoundary = s.livePorts.foldl State.portSecond s := rfl

theorem errorSecond_eq {s : State} (hu : Up s) : exec .errorSecond s = .next (
    if s.time.second = s.nowNs / 1000000000 then s
    else { s.secondBoundary with time := { s.secondBoundary.time with second := s.nowNs / 1000000000 } }) := by
  change execErrorSecond s = _
  rw [execErrorSecond, gated_up hu]

theorem errorSecond_boundary {s : State} (hu : Up s) (h : s.time.second ≠ s.nowNs / 1000000000) :
    Yields .errorSecond s fun t =>
      (∀ p, s.portLive p = true → (s.link p).secOn = false →
        t.link p = { s.link p with secOn := true, secDown := !(s.link p).up, secUcw := 0 }) ∧
      (∀ p, s.portLive p = true → (s.link p).secOn = true → (s.link p).secs.length < 10 →
        t.link p = { s.link p with
          secs := (s.link p).secs ++ [if (s.link p).secDown = true ∨ s.sesUcw p ≤ (s.link p).secUcw then .ses
            else if (s.link p).secUcw = 0 then .clean else .es]
          secDown := !(s.link p).up, secUcw := 0 }) ∧
      (∀ p, s.portLive p = false → t.link p = s.link p) ∧
      t = { s with links := t.links, cnt := t.cnt, time := { s.time with second := s.nowNs / 1000000000 } } := by
  refine ⟨_, errorSecond_eq hu, ?_⟩
  rw [if_neg h]
  obtain ⟨hout, hin⟩ := foldl_links (f := State.portSecond) (R := fun p => Link.SecondEnds (s.sesUcw p))
    (J := fun u => u.force = s.force)
    (fun u p hu => by
      obtain ⟨_, _, hframe⟩ := SecondFrame.portSecond u p
      rw [hframe]
      exact hu)
    State.portSecond_other
    (fun u p hu => by
      have hses : u.sesUcw p = s.sesUcw p := by
        rw [State.sesUcw, State.inForce, hu, ← State.inForce, ← State.sesUcw]
      rw [← hses]
      exact u.portSecond_own p)
    (ps := s.livePorts) (List.nodup_range.filter _) (s := s) rfl
  rw [s.secondBoundary_eq]
  simp only [State.withTime_link]
  refine ⟨fun p hp => (hin p (State.mem_livePorts.mpr hp)).1, fun p hp => (hin p (State.mem_livePorts.mpr hp)).2,
    fun p hp => hout p fun hmem => ?_, ?_⟩
  · exact Bool.false_ne_true (hp.symm.trans (State.mem_livePorts.mp hmem))
  · obtain ⟨_, _, hframe⟩ := SecondFrame.foldl SecondFrame.portSecond s.livePorts s
    rw [hframe]

/-- Settles O35: the figure of merit with its codewords, the reference clocks, and the end of a second. -/
theorem linkQualityAndClocks : Obligations.LinkQualityAndClocks := by
  unfold Obligations.LinkQualityAndClocks
  refine ⟨fun l n cws s hu hlive => ⟨fun hquiet => ⟨fun hgood => ?_, fun hbad hup => ?_, fun hbad hdown => ?_⟩,
    fun hburst hup => fomBlock_burst hu hlive hburst hup⟩, fun l n cws s hu hdead => ?_,
    ⟨fun k s hu _ => refclkLoss_down hu k, fun k s hw => refclkReturn_eq hw k⟩,
    fun s hu => ⟨fun hsame => ?_, errorSecond_boundary hu⟩⟩
  · rw [fomBlock_quiet hu hlive hquiet, State.fomTo_good hgood]
  · rw [fomBlock_quiet hu hlive hquiet, State.fomTo_bad hbad, if_pos hup]
    rfl
  · rw [fomBlock_quiet hu hlive hquiet, State.fomTo_bad hbad, hdown]
    rfl
  · rw [fomBlock_eq hu, hdead]
    rfl
  · rw [errorSecond_eq hu, if_pos hsame]

end Sys2Proof.Machine
end

section
/-!
SUPPORT. Cells that pass the pull buffer or the resequencer, and frames that are admitted and stored, leave the links,
the lanes, the settings in force, the management port and the names of frames alone.
-/

namespace Sys2Proof.Machine

/-! ### Frames whose fault is known, and the pull buffer (R142, R153, R157) -/

@[simp] theorem State.stompTx_wires (s : State) (p fid c : Nat) : (s.stompTx p fid c).wires = s.wires := rfl

@[simp] theorem State.judgeFrame_wires (s : State) (q fid : Nat) : (s.judgeFrame q fid).wires = s.wires := by
  unfold State.judgeFrame
  repeat' split
  all_goals simp

@[simp] theorem State.takePos_wires (s : State) (e port : Nat) (fids : List Nat) (r : CellRef) (skip : Bool) :
    (s.takePos e port fids r skip).wires = s.wires := by
  simp only [State.takePos, apply_ite State.wires, State.modSq_wires, ite_self]

@[simp] theorem State.takeAll_wires (s : State) (e : Nat) : (s.takeAll e).wires = s.wires := by
  refine foldl_wires (fun s p => foldl_wires (fun s f => ?_) _ _) _ s
  unfold State.takeFrame'
  split
  · rfl
  · exact foldl_wires (fun s _ => s.takePos_wires _ _ _ _ _) _ _

@[simp] theorem State.takeDiscards_wires (s : State) (e : Nat) : (s.takeDiscards e).wires = s.wires :=
  foldl_wires (fun s _ => s.takePos_wires _ _ _ _ _) _ _

@[simp] theorem State.markLate_wires (s : State) (q : Nat) (fids : List Nat) : (s.markLate q fids).wires = s.wires :=
  foldl_wires (fun s _ => s.stompTx_wires _ _ _) _ _

@[simp] theorem State.readPos_wires (s : State) (e : Nat) (p : PullPos) (c : Cell) :
    (s.readPos e p c).1.wires = s.wires := by
  unfold State.readPos State.readCell State.noteCrc
  split
  · simp [apply_ite State.wires]
  · rfl

@[simp] theorem State.passHead_wires (s : State) (e : Nat) : (s.passHead e).wires = s.wires := by
  unfold State.passHead
  repeat' split
  all_goals simp [apply_ite State.wires, foldl_wires]

@[simp] theorem passCells_wires (e n : Nat) (s : State) : (passCells e n s).wires = s.wires := by
  induction n generalizing s with
  | zero => rfl
  | succ n ih =>
    unfold passCells
    repeat' split
    · rfl
    · rw [ih, State.passHead_wires]
    · rfl

@[simp] theorem State.moveCells_wires (s : State) (e : Nat) : (s.moveCells e).wires = s.wires := by
  simp [State.moveCells]

/-! ### The resequencer (R154 to R157) -/

@[simp] theorem State.creditShapers_wires (s : State) (q n : Nat) : (s.creditShapers q n).wires = s.wires := rfl

@[simp] theorem State.linkSeg_wires (s : State) (q : Nat) (c : Cell) (r : CellRef) (g : Seg) :
    (s.linkSeg q c r g).wires = s.wires := by
  unfold State.linkSeg
  split
  · simp
  · simp only [apply_ite State.wires, State.creditShapers_wires, State.modQueue_wires, ite_self]

@[simp] theorem State.noteDepth_wires (s : State) (e q : Nat) : (s.noteDepth e q).wires = s.wires := by
  simp only [State.noteDepth, apply_ite State.wires, State.modQueue_wires, ite_self]

@[simp] theorem State.linkCell_wires (s : State) (e : Nat) (c : Ctx) (r : CellRef) :
    (s.linkCell e c r).1.wires = s.wires := by
  unfold State.linkCell
  dsimp only
  split
  · rfl
  · simp [apply_ite State.wires, foldl_wires]

@[simp] theorem State.setCtxOut_wires (s : State) (e k : Nat) (x : CtxOut) : (s.setCtxOut e k x).wires = s.wires := rfl

@[simp] theorem State.gapFrame_wires (s : State) (q : Nat) (run : Option Nat) : (s.gapFrame q run).wires = s.wires := by
  unfold State.gapFrame
  split <;> simp

@[simp] theorem State.linkNext_wires (s : State) (e k : Nat) (c : Ctx) (r : CellRef) :
    (s.linkNext e k c r).wires = s.wires := by
  unfold State.linkNext
  dsimp only
  split <;> simp

@[simp] theorem State.drainParked_wires (e k : Nat) (c : Ctx) (n : Nat) (s : State) :
    (State.drainParked e k c n s).wires = s.wires := by
  induction n generalizing s with
  | zero => rfl
  | succ n ih =>
    unfold State.drainParked
    dsimp only
    split
    · rfl
    · rw [ih, State.linkNext_wires, State.setCtxOut_wires]

@[simp] theorem State.drainAll_wires (s : State) (e k : Nat) (c : Ctx) : (s.drainAll e k c).wires = s.wires :=
  State.drainParked_wires e k c _ s

@[simp] theorem State.declareGap_wires (s : State) (e k : Nat) (c : Ctx) (w : Nat) :
    (s.declareGap e k c w).wires = s.wires := by
  unfold State.declareGap
  dsimp only
  split
  · rfl
  · simp

@[simp] theorem State.park_wires (s : State) (e k seq slot : Nat) (r : CellRef) :
    (s.park e k seq slot r).wires = s.wires := rfl

@[simp] theorem State.entry_wires (s : State) (e isq : Nat) (c : Ctx) (seq slot : Nat) (r : CellRef) :
    (s.entry e isq c seq slot r).wires = s.wires := by
  unfold State.entry
  dsimp only
  repeat' split
  all_goals simp

@[simp] theorem State.settleCell_wires (s : State) (i k : Nat) : (s.settleCell i k).wires = s.wires := by
  unfold State.settleCell
  repeat' split
  all_goals simp

/-! ### Frames that are admitted and stored (R148, R173, R185 to R192) -/

@[simp] theorem State.setCtxIn_wires (s : State) (i : Nat) (c : Ctx) (x : CtxIn) : (s.setCtxIn i c x).wires = s.wires := rfl

@[simp] theorem State.alloc_wires (s : State) (i r : Nat) (c : Cell) : (s.alloc i r c).1.wires = s.wires := by
  unfold State.alloc
  split <;> simp

@[simp] theorem State.numberCell_wires (s : State) (i k : Nat) (c : Ctx) (held kept : Bool) :
    (s.numberCell i k c held kept).wires = s.wires := by
  simp only [State.numberCell, apply_ite State.wires, State.settleCell_wires, State.modSq_wires,
    State.setCtxIn_wires, ite_self]

@[simp] theorem State.storePiece_wires (s : State) (i typ owner : Nat) (c : Ctx) (held : Bool) (epoch : Nat)
    (p : Piece) : (s.storePiece i typ owner c held epoch p).wires = s.wires := by
  have halloc := s.alloc_wires i owner ({ typ := typ, isq := i, ctx := c, epoch := epoch, segs := p.segs
                                          bad := p.segs.any (fun g => g.badEnd), st := .deferred } : Cell).sealed
  unfold State.storePiece
  dsimp only
  split
  · next hs => rwa [hs] at halloc
  · next hs =>
    rw [hs] at halloc
    rw [State.modSq_wires]
    split
    · rw [State.numberCell_wires]
      exact halloc
    · exact halloc

@[simp] theorem State.storeGroup_wires (s : State) (i typ owner : Nat) (g : Group) :
    (s.storeGroup i typ owner g).wires = s.wires :=
  (foldl_wires (fun s _ => s.storePiece_wires _ _ _ _ _ _ _) _ _).trans
    ((State.count_wires _ _ _).trans (s.setCtxIn_wires i _ _))

@[simp] theorem State.storeWhole_wires (s : State) (i typ owner : Nat) (v : Verdict) (bs : List Byte) :
    (s.storeWhole i typ owner v bs).wires = s.wires := by
  unfold State.storeWhole
  dsimp only
  cases v.main <;> cases v.copy <;> simp

@[simp] theorem State.accept_wires (s : State) (i : Nat) (h : FrameHdr) (q need : Nat) :
    (s.accept i h q need).wires = s.wires := by
  simp [State.accept]

@[simp] theorem State.holdFrame_wires (s : State) (i typ : Nat) (h : FrameHdr) (q need : Nat) :
    (s.holdFrame i typ h q need).1.wires = s.wires := by
  unfold State.holdFrame
  dsimp only
  split <;> simp

@[simp] theorem State.takeIn_wires (s : State) (i lane typ owner : Nat) (h : FrameHdr) (c : Ctx) :
    (s.takeIn i lane typ owner h c).1.wires = s.wires := by
  unfold State.takeIn
  dsimp only
  repeat' split
  all_goals simp

@[simp] theorem State.injectTo_wires (s : State) (i typ owner : Nat) (c : Ctx) (h : FrameHdr) (bs : List Byte) :
    (s.injectTo i typ owner c h bs).1.wires = s.wires := by
  unfold State.injectTo
  dsimp only
  repeat' split
  all_goals simp

end Sys2Proof.Machine
end

section
/-!
SUPPORT. The management port, the messages of the boundary clock service, and frames of the device that wait for cells
(O36).
-/

namespace Sys2Proof.Machine

/-! ### Port 1089 (R68, R69) -/

theorem State.mgmtDown_mgmt (s : State) : s.mgmtDown.host.mgmt = { s.host.mgmt with up := false } := by
  unfold State.mgmtDown
  dsimp only
  split
  · rw [apply_ite (fun t : State => t.host.mgmt), mgmt_of_wires (State.dropLossless_wires _ _)]
    have hdown : ((s.modMgmt fun m => { m with up := false }).queuesDown 1089).host.mgmt =
        { s.host.mgmt with up := false } := mgmt_of_wires (State.queuesDown_wires _ _)
    exact (ite_self _).trans hdown
  · next hup =>
    rw [Bool.not_eq_true] at hup
    rw [← hup]

/-- The port is up exactly where its conditions hold, and nothing else of it changes. -/
theorem State.mgmtUpdate_mgmt (s : State) : s.mgmtUpdate.host.mgmt = { s.host.mgmt with up := s.mgmtReady } := by
  unfold State.mgmtUpdate
  split
  · next hready =>
    rw [hready]
    rfl
  · next hready =>
    rw [Bool.not_eq_true] at hready
    rw [hready, s.mgmtDown_mgmt]

/-- What a change of the port's own state leaves it with: up in a life other than OFF, with synchronisation, a MODE in
use and, where it auto-negotiates, a result that serves. -/
theorem State.mgmtUpdate_modMgmt (s : State) {f : MgmtLink → MgmtLink} {m : MgmtLink} (hm : f s.host.mgmt = m) :
    (s.modMgmt f).mgmtUpdate.host.mgmt = { m with
      up := !s.isOff 0 1089 && m.sync && decide (fld s.mgmtCfg 1 0 ≤ 1) &&
        (!rbit s.mgmtCfg 2 || (m.anDone && !m.halfDuplex && !m.rxRf)) } := by
  subst hm
  exact State.mgmtUpdate_mgmt _

theorem State.elasticGap_shape (s : State) (n : Int) (ds : List Int) : ∃ regs, s.elasticGap n ds =
    { s.modMgmt (fun m => { m with fill := (elastic n ds s.host.mgmt.fill).1 }) with regs := regs } := by
  unfold State.elasticGap
  dsimp only
  split
  · exact ⟨_, rfl⟩
  · exact ⟨_, rfl⟩

theorem mgmtSyncLoss_eq {s : State} (hu : Up s) : exec .mgmtSyncLoss s =
    .next (s.modMgmt fun m => { m with sync := false, anDone := false, anFrom := none }).mgmtUpdate := by
  change execMgmtSyncLoss s = _
  rw [execMgmtSyncLoss, gated_up hu]

theorem mgmtSyncLoss_mgmt {s : State} (hu : Up s) : Yields .mgmtSyncLoss s fun t => t.host.mgmt = { s.host.mgmt with
    sync := false, anDone := false, anFrom := none, up := false } := by
  refine ⟨_, mgmtSyncLoss_eq hu, (s.mgmtUpdate_modMgmt rfl).trans ?_⟩
  rw [Bool.and_false, Bool.false_and, Bool.false_and]

theorem mgmtSyncAcquire_eq {s : State} (hw : Wired s) : exec .mgmtSyncAcquire s = .next (s.modMgmt fun m =>
    if m.sync then m else { m with sync := true, anFrom := some s.elapsed, fill := 16 }).mgmtUpdate := by
  change execMgmtSyncAcquire s = _
  rw [execMgmtSyncAcquire, atPins_wired hw]

theorem mgmtSyncAcquire_mgmt {s : State} (hw : Wired s) {m : MgmtLink} (hsync : m.sync = true)
    (hm : (if s.host.mgmt.sync then s.host.mgmt else { s.host.mgmt with
      sync := true, anFrom := some s.elapsed, fill := 16 }) = m) :
    Yields .mgmtSyncAcquire s fun t => t.host.mgmt = { m with
      up := !s.isOff 0 1089 && decide (fld s.mgmtCfg 1 0 ≤ 1) &&
        (!rbit s.mgmtCfg 2 || (m.anDone && !m.halfDuplex && !m.rxRf)) } := by
  refine ⟨_, mgmtSyncAcquire_eq hw, (s.mgmtUpdate_modMgmt hm).trans ?_⟩
  rw [hsync, Bool.and_true]

theorem mgmtAutoneg_eq {s : State} (hw : Wired s) (sp : Nat) (fd ok rf : Bool) (ds : List Int) :
    exec (.mgmtAutonegComplete sp fd ok rf ds) s = .next (
      if rbit s.mgmtCfg 2 && s.mgmtTimerDone then
        ((s.elasticGap 4 ds).modMgmt fun m => { m with
          anDone := ok
          speed := if fld s.mgmtCfg 1 0 = 1 then sp else 2
          halfDuplex := !fd
          rxRf := rf }).mgmtUpdate
      else s) := by
  change execMgmtAutonegComplete sp fd ok rf ds s = _
  rw [execMgmtAutonegComplete, atPins_wired hw]

theorem mgmtAutoneg_mgmt {s : State} (hw : Wired s) (hen : rbit s.mgmtCfg 2 = true) (htimer : s.mgmtTimerDone = true)
    (sp : Nat) (fd ok rf : Bool) (ds : List Int) :
    Yields (.mgmtAutonegComplete sp fd ok rf ds) s fun t => t.host.mgmt = { s.host.mgmt with
      anDone := ok, speed := if fld s.mgmtCfg 1 0 = 1 then sp else 2, halfDuplex := !fd, rxRf := rf
      fill := (elastic 4 ds s.host.mgmt.fill).1
      up := !s.isOff 0 1089 && s.host.mgmt.sync && decide (fld s.mgmtCfg 1 0 ≤ 1) && (ok && fd && !rf) } := by
  refine ⟨_, mgmtAutoneg_eq hw sp fd ok rf ds, ?_⟩
  rw [hen, htimer, Bool.and_self, if_pos rfl]
  obtain ⟨regs, hgap⟩ := s.elasticGap_shape 4 ds
  refine (State.mgmtUpdate_modMgmt _ rfl).trans ?_
  rw [hgap]
  have hcfg : ({ s.modMgmt (fun m => { m with fill := (elastic 4 ds s.host.mgmt.fill).1 }) with regs := regs } :
    State).mgmtCfg = s.mgmtCfg := rfl
  rw [hcfg, hen, Bool.not_true, Bool.false_or, Bool.not_not]
  rfl

theorem mgmtAutoneg_idle {s : State} (hw : Wired s) (h : rbit s.mgmtCfg 2 = false ∨ s.mgmtTimerDone = false)
    (sp : Nat) (fd ok rf : Bool) (ds : List Int) : exec (.mgmtAutonegComplete sp fd ok rf ds) s = .next s := by
  rw [mgmtAutoneg_eq hw, (Bool.and_eq_false_iff).mpr h]
  rfl

/-! ### Frames of the device that wait for cells (R175) -/

@[simp] theorem State.portIn_wires (s : State) (p n : Nat) : (s.portIn p n).wires = s.wires := by
  rw [State.portIn, State.countPort_wires, State.countPort_wires]

theorem State.portIn_red (s : State) (p n : Nat) : (s.portIn p n).red = s.red := by
  unfold State.portIn State.countPort State.count
  repeat' split
  all_goals rfl

theorem State.injectTo_short {s : State} {i typ owner : Nat} {c : Ctx} {h : FrameHdr} {bs : List Byte}
    (hroom : s.mayTake i owner < cellsOf bs.length) :
    s.injectTo i typ owner c h bs = (s.count (sqCtr i (8 * owner)) 1, none) := if_pos hroom

theorem State.injectTo_taken {s : State} {i typ owner : Nat} {c : Ctx} {h : FrameHdr} {bs : List Byte}
    (hroom : cellsOf bs.length ≤ s.mayTake i owner) : ∃ b, (s.injectTo i typ owner c h bs).2 = some b := by
  rw [State.injectTo, if_neg (Nat.not_lt.mpr hroom)]
  dsimp only
  split
  · exact ⟨_, rfl⟩
  · exact ⟨_, rfl⟩

theorem State.count_red (s : State) (o n : Nat) : (s.count o n).red = s.red := by
  unfold State.count
  split <;> rfl

@[simp] theorem State.flushRedOut_wires (s : State) : s.flushRedOut.wires = s.wires := by
  unfold State.flushRedOut
  split
  · rfl
  · dsimp only
    split
    · rw [State.injectTo_wires]
    · rw [State.portIn_wires]
      exact State.injectTo_wires s _ _ _ _ _ _

/-- A frame alone in the outbox of the services complex stays there where cells are lacking, and leaves it else. -/
theorem State.flushRedOut_one {s : State} {w : WholeFrame} (hw : s.red.outbox = [w]) :
    (s.mayTake s.tour.attSvc 64 < cellsOf w.bytes.length → s.flushRedOut.red.outbox = [w]) ∧
    (cellsOf w.bytes.length ≤ s.mayTake s.tour.attSvc 64 → s.flushRedOut.red.outbox = []) := by
  unfold State.flushRedOut
  rw [hw]
  dsimp only
  refine ⟨fun hroom => ?_, fun hroom => ?_⟩
  · rw [State.injectTo_short hroom]
    exact (congrArg Red.outbox (State.count_red _ _ _)).trans hw
  · obtain ⟨b, hb⟩ := State.injectTo_taken (typ := 3) (c := w.ctx) (h := w.hdr) hroom
    rw [hb]
    exact congrArg Red.outbox (State.portIn_red _ _ _)

@[simp] theorem State.flushHostOut_wires (s : State) : s.flushHostOut.wires = s.wires := by
  unfold State.flushHostOut
  split
  · rfl
  · dsimp only
    split
    · rw [State.injectTo_wires]
    · exact State.injectTo_wires s _ _ _ _ _ _

/-- A frame alone in the outbox of the host interface stays there where cells are lacking, and leaves it else. -/
theorem State.flushHostOut_one {s : State} {w : WholeFrame} (hw : s.host.outbox = [w]) :
    (s.mayTake s.tour.attHost 65 < cellsOf w.bytes.length → s.flushHostOut.host.outbox = [w]) ∧
    (cellsOf w.bytes.length ≤ s.mayTake s.tour.attHost 65 → s.flushHostOut.host.outbox = []) := by
  unfold State.flushHostOut
  rw [hw]
  dsimp only
  refine ⟨fun hroom => ?_, fun hroom => ?_⟩
  · rw [State.injectTo_short hroom]
    exact (congrArg HostIf.outbox (State.count_host _ _ _)).trans hw
  · obtain ⟨b, hb⟩ := State.injectTo_taken (typ := 2) (c := w.ctx) (h := w.hdr) hroom
    rw [hb]

/-! ### Frames that the services complex builds (R247, R389) -/

theorem State.injectBuilt_wires (s : State) (c : Ctx) (h : FrameHdr) (bs : List Byte) :
    (s.injectBuilt c h bs).wires = s.freshFid.1.wires := State.flushRedOut_wires _

/-- What the sending of `bs` to `port` by the services complex leads to: the frame takes the next name, and waits in an
empty outbox exactly where cells are lacking. -/
structure Sent (s : State) (port : Nat) (bs : List Byte) (t : State) : Prop where
  named : t.nextFid = s.nextFid + 1
  ports : t.time.bcPorts = s.time.bcPorts
  waits : s.red.outbox = [] → s.mayTake s.tour.attSvc 64 < cellsOf bs.length →
    (t.red.outbox.map fun w => (w.bytes, w.ctx.eport)) = [(bs, port)]
  leaves : s.red.outbox = [] → cellsOf bs.length ≤ s.mayTake s.tour.attSvc 64 → t.red.outbox = []

/-- The record of the Syncs in flight does not bear on what is sent. -/
theorem Sent.injectBuilt {s u : State} {c : Ctx} {h : FrameHdr} {bs : List Byte}
    (hsync : ∃ x, u = { s with time := { s.time with bcSync := x } }) : Sent s c.eport bs (u.injectBuilt c h bs) := by
  obtain ⟨x, rfl⟩ := hsync
  refine ⟨nextFid_of_wires (State.injectBuilt_wires _ c h bs),
    (bcPorts_of_wires (State.injectBuilt_wires _ c h bs)).trans rfl, fun hout hroom => ?_,
    fun hout hroom => (State.flushRedOut_one (congrArg (· ++ _) hout)).2 hroom⟩
  refine (congrArg (List.map _) ((State.flushRedOut_one (congrArg (· ++ _) hout)).1 ?_)).trans ?_
  · exact hroom
  · rfl

/-! ### Messages of the boundary clock service (R267 to R270) -/

theorem State.bcPorts_bcPortState (s : State) (p st cl : Nat) :
    SMap.get (fun _ => 0) (s.bcPortState p st cl).time.bcPorts p = st := SMap.get_set_same _ _ _ _

/-- A message that is no Follow_Up, and a Follow_Up whose Sync has its stamp, is a frame that the service builds. -/
theorem Sent.sendBc (s : State) {m : BcDue} (hm : m.msgType ≠ 8 ∨ s.syncStamped m.port = true) :
    Sent s m.port m.frame (s.sendBc m) := by
  have hsent : ¬(m.msgType = 8 ∧ (!s.syncStamped m.port) = true) := by
    rintro ⟨htype, hstamp⟩
    rcases hm with hne | hst
    · exact hne htype
    · rw [hst] at hstamp
      cases hstamp
  unfold State.sendBc
  dsimp only
  rw [if_neg hsent]
  refine Sent.injectBuilt (c := { eport := m.port, cls := Config.bcTxClass.toNat }) ?_
  split
  · exact ⟨_, rfl⟩
  · split
    · exact ⟨_, rfl⟩
    · exact ⟨s.time.bcSync, rfl⟩

theorem State.sendBc_unstamped {s : State} {m : BcDue} (htype : m.msgType = 8) (hst : s.syncStamped m.port = false) :
    s.sendBc m = s := if_pos ⟨htype, by rw [hst]; rfl⟩

theorem SMap.mem_insert_self {α : Type} (m : SMap α) (k : Nat) (x : α) : (k, x) ∈ SMap.insert m k x := by
  induction m with
  | nil => exact List.mem_singleton.mpr rfl
  | cons e m ih =>
    unfold SMap.insert
    split
    · exact List.mem_cons_self
    · split
      · exact List.mem_cons_self
      · exact List.mem_cons_of_mem _ ih

/-- The service owns device time once one of its ports is UNCALIBRATED (8) or SLAVE (9). -/
theorem State.bcOwns_bcPortState (s : State) (p cl : Nat) {st : Nat} (hst : st = 8 ∨ st = 9) :
    (s.bcPortState p st cl).bcOwns = true := by
  refine List.any_eq_true.mpr ⟨(p, st), ?_, ?_⟩
  · have hne : st ≠ 0 := by omega
    change _ ∈ SMap.set (fun _ => 0) s.time.bcPorts p st
    rw [SMap.set, if_neg hne]
    exact SMap.mem_insert_self _ _ _
  · rcases hst with rfl | rfl <;> rfl

theorem State.takePtp_none (s : State) (f : WholeFrame) (st cl : Nat) :
    s.takePtp f st cl .none = (s.dropStamp f.hdr.fid).bcPortState f.hdr.iport st cl := ite_self _

theorem State.takePtp_freq (s : State) (f : WholeFrame) (cl : Nat) {st : Nat} {v : Int} (hst : st = 8 ∨ st = 9)
    (hlow : -128000000 ≤ v) (hhigh : v ≤ 128000000) :
    s.takePtp f st cl (.freq v) = ((s.dropStamp f.hdr.fid).bcPortState f.hdr.iport st cl).setFreq v := by
  unfold State.takePtp
  dsimp only
  have hin : ¬(v < -freqMax ∨ freqMax < v) := by
    unfold freqMax
    omega
  rw [if_pos (State.bcOwns_bcPortState _ _ _ hst), State.steer, if_neg hin]

section
variable {s : State} (hu : Up s)
include hu

theorem bcMessageReceive_waits (st cl : Nat) (x : Steer)
    (h : takeFirst (fun (f : WholeFrame) => f.hdr.bc) s.red.inbox = none ∨ s.triad.paused = true ∨
      s.triad.lost = true) : exec (.bcMessageReceive st cl x) s = .next s := by
  change execBcMessageReceive st cl x s = _
  rw [execBcMessageReceive, gated_up hu]
  dsimp only
  split
  · rfl
  · next htake =>
    have hstop : (s.triad.paused || s.triad.lost) = true := by
      rcases h with hnone | hpaused | hlost
      · rw [htake] at hnone
        cases hnone
      · rw [hpaused, Bool.true_or]
      · rw [hlost, Bool.or_true]
    rw [if_pos hstop]

theorem bcMessageReceive_taken {f : WholeFrame} {rest : List WholeFrame}
    (htake : takeFirst (fun (f : WholeFrame) => f.hdr.bc) s.red.inbox = some (f, rest)) (hrun : s.triad.paused = false)
    (hlive : s.triad.lost = false) (st cl : Nat) (x : Steer) : exec (.bcMessageReceive st cl x) s = .next (
      let s1 : State := { s with red := { s.red with inbox := rest } }
      if s.isOff 9 0 then s1.dropStamp f.hdr.fid
      else if bcIgnored (ptpType f.bytes) then { s1.dropStamp f.hdr.fid with time := {
        (s1.dropStamp f.hdr.fid).time with bcIgnored := s.time.bcIgnored + 1 } }
      else s1.takePtp f st cl x) := by
  change execBcMessageReceive st cl x s = _
  rw [execBcMessageReceive, gated_up hu, htake, hrun, hlive]
  rfl

theorem bcMessageDue_eq (m : BcDue) : exec (.bcMessageDue m) s = .next (
    if !s.bcActive m.port || s.triad.lost then s
    else if s.triad.paused then { s with time := { s.time with bcTxDue := s.time.bcTxDue ++ [m] } }
    else s.bcDue m) := by
  change execBcMessageDue m s = _
  rw [execBcMessageDue, gated_up hu]

theorem bcMessageDue_sends {m : BcDue} (hact : s.bcActive m.port = true) (hlive : s.triad.lost = false)
    (hrun : s.triad.paused = false) : exec (.bcMessageDue m) s = .next (
      if s.isOn 9 0 || bcCompletes m.msgType then (s.bcPortState m.port m.state s.time.bcClass).sendBc m
      else s.bcPortState m.port m.state s.time.bcClass) := by
  rw [bcMessageDue_eq hu, hact, hlive, hrun]
  rfl

end

theorem bcMessageDue_sent {s : State} (hu : Up s) {m : BcDue} (hact : s.bcActive m.port = true)
    (hlive : s.triad.lost = false) (hrun : s.triad.paused = false) (hon : s.isOn 9 0 = true ∨ bcCompletes m.msgType = true)
    (hm : m.msgType ≠ 8 ∨ s.syncStamped m.port = true) : Yields (.bcMessageDue m) s fun t =>
      t.nextFid = s.nextFid + 1 ∧ SMap.get (fun _ => 0) t.time.bcPorts m.port = m.state ∧
      (s.red.outbox = [] → s.mayTake s.tour.attSvc 64 < cellsOf m.frame.length →
        (t.red.outbox.map fun w => (w.bytes, w.ctx.eport)) = [(m.frame, m.port)]) ∧
      (s.red.outbox = [] → cellsOf m.frame.length ≤ s.mayTake s.tour.attSvc 64 → t.red.outbox = []) := by
  refine ⟨_, bcMessageDue_sends hu hact hlive hrun, ?_⟩
  rw [if_pos (by rwa [Bool.or_eq_true])]
  have hsent := Sent.sendBc (s.bcPortState m.port m.state s.time.bcClass) hm
  refine ⟨hsent.named, ?_, hsent.waits, hsent.leaves⟩
  rw [hsent.ports]
  exact s.bcPorts_bcPortState _ _ _

/-! ### Frames that the management port receives (R70, R175) -/

theorem State.elastic_shape (s : State) (gap : List Int) (d : Int) : ∃ regs fill,
    ((s.elasticGap 2 gap).elasticFrame d).1 =
      { s with regs := regs, host := { s.host with mgmt := { s.host.mgmt with fill := fill } } } := by
  obtain ⟨regs, hgap⟩ := s.elasticGap_shape 2 gap
  rw [hgap]
  unfold State.elasticFrame
  dsimp only
  split
  · exact ⟨_, _, rfl⟩
  · exact ⟨regs, _, rfl⟩

theorem State.portIn_shape (s : State) (p n : Nat) : ∃ cnt, s.portIn p n = { s with cnt := cnt } := by
  unfold State.portIn State.countPort State.count
  repeat' split
  all_goals exact ⟨_, rfl⟩

/-- A frame of the management port takes its name and goes to the host's port (R70, R175). -/
def State.takeMgmt (s : State) (bs : List Byte) (bad : Bool) : State :=
  let f := (s.portIn 1089 bs.length).freshFid
  let c : Ctx := { eport := 1088, cls := Config.mgmtClass.toNat }
  let h : FrameHdr := { fid := f.2, length := bs.length, iport := 1089, fcsBad := bad
                        ingressNs := s.stamp32, cls := c.cls }
  let w : WholeFrame := { hdr := h, bytes := bs, ctx := c }
  ({ f.1 with host := { f.1.host with outbox := f.1.host.outbox ++ [w] } }).flushHostOut

theorem State.takeMgmt_nextFid (s : State) (bs : List Byte) (bad : Bool) :
    (s.takeMgmt bs bad).nextFid = s.nextFid + 1 := by
  obtain ⟨cnt, hcnt⟩ := s.portIn_shape 1089 bs.length
  unfold State.takeMgmt
  rw [hcnt]
  exact nextFid_of_wires (State.flushHostOut_wires _)

/-- The frame waits in an empty outbox exactly where cells are lacking. -/
theorem State.takeMgmt_outbox {s : State} (bs : List Byte) (bad : Bool) (hout : s.host.outbox = []) :
    (s.mayTake s.tour.attHost 65 < cellsOf bs.length →
      ((s.takeMgmt bs bad).host.outbox.map fun w => (w.bytes, w.hdr.fid, w.hdr.iport, w.ctx.eport)) =
        [(bs, s.nextFid, 1089, 1088)]) ∧
    (cellsOf bs.length ≤ s.mayTake s.tour.attHost 65 → (s.takeMgmt bs bad).host.outbox = []) := by
  obtain ⟨cnt, hcnt⟩ := s.portIn_shape 1089 bs.length
  unfold State.takeMgmt
  rw [hcnt]
  refine ⟨fun hroom => ?_, fun hroom => (State.flushHostOut_one (congrArg (· ++ _) hout)).2 hroom⟩
  refine (congrArg (List.map _) ((State.flushHostOut_one (congrArg (· ++ _) hout)).1 ?_)).trans ?_
  · exact hroom
  · rfl

theorem mgmtFrameReceive_idle {s : State} (hw : Wired s) (bs : List Byte) (bad : Bool) (gap : List Int) (d : Int)
    (h : s.isOff 0 1089 = true ∨ s.host.mgmt.up = false) : exec (.mgmtFrameReceive bs bad gap d) s = .next s := by
  change execMgmtFrameReceive bs bad gap d s = _
  rw [execMgmtFrameReceive, atPins_wired hw, if_pos]
  rcases h with hoff | hdown
  · rw [hoff, Bool.true_or]
  · rw [hdown, Bool.not_false, Bool.or_true]

section
variable {s : State} (hw : Wired s) (hon : s.isOff 0 1089 = false) (hup : s.host.mgmt.up = true)
include hw hon hup

theorem mgmtFrameReceive_eq (bs : List Byte) (bad : Bool) (gap : List Int) (d : Int) :
    exec (.mgmtFrameReceive bs bad gap d) s = .next (
      let e := (s.elasticGap 2 gap).elasticFrame d
      if e.2 then e.1
      else if bs.length + 4 < 64 ∨ e.1.maxFrame 1089 < bs.length + 4 ∨ e.1.isDraining 0 1089 then e.1
      else e.1.takeMgmt bs bad) := by
  change execMgmtFrameReceive bs bad gap d s = _
  rw [execMgmtFrameReceive, atPins_wired hw, hon, hup]
  rfl

theorem mgmtFrameReceive_dropped {bs : List Byte} {gap : List Int} {d : Int} (bad : Bool)
    (h : ((s.elasticGap 2 gap).elasticFrame d).2 = true ∨ bs.length + 4 < 64 ∨ s.maxFrame 1089 < bs.length + 4 ∨
      s.isDraining 0 1089 = true) :
    exec (.mgmtFrameReceive bs bad gap d) s = .next ((s.elasticGap 2 gap).elasticFrame d).1 := by
  rw [mgmtFrameReceive_eq hw hon hup]
  obtain ⟨regs, fill, hshape⟩ := s.elastic_shape gap d
  dsimp only
  rcases h with hover | hdrop
  · rw [if_pos hover]
  · rw [if_pos (c := _ ∨ _) (by rw [hshape]; exact hdrop), ite_self]

theorem mgmtFrameReceive_taken {bs : List Byte} {gap : List Int} {d : Int} (bad : Bool)
    (hpass : ((s.elasticGap 2 gap).elasticFrame d).2 = false) (hlong : 64 ≤ bs.length + 4)
    (hshort : bs.length + 4 ≤ s.maxFrame 1089) (hrun : s.isDraining 0 1089 = false) (hout : s.host.outbox = []) :
    (s.mayTake s.tour.attHost 65 < cellsOf bs.length → Yields (.mgmtFrameReceive bs bad gap d) s fun t =>
      t.nextFid = s.nextFid + 1 ∧ (t.host.outbox.map fun w => (w.bytes, w.hdr.fid, w.hdr.iport, w.ctx.eport)) =
        [(bs, s.nextFid, 1089, 1088)]) ∧
    (cellsOf bs.length ≤ s.mayTake s.tour.attHost 65 → Yields (.mgmtFrameReceive bs bad gap d) s fun t =>
      t.nextFid = s.nextFid + 1 ∧ t.host.outbox = []) := by
  obtain ⟨regs, fill, hshape⟩ := s.elastic_shape gap d
  have hkeep : ¬(bs.length + 4 < 64 ∨ s.maxFrame 1089 < bs.length + 4 ∨ s.isDraining 0 1089 = true) := by
    rw [hrun, not_or, not_or]
    exact ⟨Nat.not_lt.mpr hlong, Nat.not_lt.mpr hshort, Bool.false_ne_true⟩
  have hexec : exec (.mgmtFrameReceive bs bad gap d) s =
      .next (((s.elasticGap 2 gap).elasticFrame d).1.takeMgmt bs bad) := by
    rw [mgmtFrameReceive_eq hw hon hup]
    dsimp only
    rw [hpass, if_neg Bool.false_ne_true, if_neg (by rw [hshape]; exact hkeep)]
  rw [hshape] at hexec
  have hqueue := State.takeMgmt_outbox (s := { s with
    regs := regs, host := { s.host with mgmt := { s.host.mgmt with fill := fill } } }) bs bad hout
  exact ⟨fun hroom => ⟨_, hexec, State.takeMgmt_nextFid _ _ _, hqueue.1 hroom⟩,
    fun hroom => ⟨_, hexec, State.takeMgmt_nextFid _ _ _, hqueue.2 hroom⟩⟩

end

/-- Settles O36: the management port's link, the service's messages, and the management port's frames. -/
theorem managementAndServiceMessages : Obligations.ManagementAndServiceMessages := by
  unfold Obligations.ManagementAndServiceMessages
  refine ⟨fun s hu => ⟨mgmtSyncLoss_mgmt hu, fun hscan => ⟨fun up hup => ?_,
    fun sp fd ok rf ds hen htimer => mgmtAutoneg_mgmt ⟨hu, hscan⟩ hen htimer sp fd ok rf ds,
    fun sp fd ok rf ds h => mgmtAutoneg_idle ⟨hu, hscan⟩ h sp fd ok rf ds⟩⟩,
    fun st cl x s hu => ⟨bcMessageReceive_waits hu st cl x, fun f rest u htake hrun hlive hrest => ?_⟩,
    fun m s hu => ⟨fun hidle => ?_, fun hact hlive => ⟨fun hpaused => ?_, fun hrun => ⟨fun hbegin => ?_,
      fun htype hst => ?_, bcMessageDue_sent hu hact hlive hrun⟩⟩⟩,
    fun bs bad gap d s hw => ⟨mgmtFrameReceive_idle hw bs bad gap d, fun hon hup =>
      ⟨mgmtFrameReceive_dropped hw hon hup bad, mgmtFrameReceive_taken hw hon hup bad⟩⟩⟩
  · subst hup
    refine ⟨fun hsync => mgmtSyncAcquire_mgmt ⟨hu, hscan⟩ rfl (by rw [hsync, if_neg Bool.false_ne_true]),
      fun hsync => mgmtSyncAcquire_mgmt ⟨hu, hscan⟩ hsync (if_pos hsync)⟩
  · subst hrest
    refine ⟨fun hoff => ?_, fun hon hign => ?_, fun hon htype => ⟨?_, State.bcPorts_bcPortState _ _ _ _⟩,
      fun v hon htype hst hlow hhigh => ?_⟩
    · rw [bcMessageReceive_taken hu htake hrun hlive, hoff]
      rfl
    · rw [bcMessageReceive_taken hu htake hrun hlive, hon, hign]
      rfl
    · rw [bcMessageReceive_taken hu htake hrun hlive, hon, htype, ← State.takePtp_none]
      rfl
    · rw [bcMessageReceive_taken hu htake hrun hlive, hon, htype, ← State.takePtp_freq _ _ _ hst hlow hhigh]
      rfl
  · rw [bcMessageDue_eq hu, if_pos]
    rcases hidle with hidle | hlost
    · rw [hidle]
      rfl
    · rw [hlost, Bool.or_true]
  · rw [bcMessageDue_eq hu, hact, hlive, hpaused]
    rfl
  · obtain ⟨hoff, hnot⟩ := hbegin
    rw [bcMessageDue_sends hu hact hlive hrun, hoff, hnot]
    rfl
  · refine ⟨_, bcMessageDue_sends hu hact hlive hrun, ?_⟩
    rw [htype, if_pos (by exact Bool.or_true _), State.sendBc_unstamped (s := s.bcPortState _ _ _) htype hst]
    exact ⟨rfl, rfl, rfl⟩

end Sys2Proof.Machine
end

section
/-!
SUPPORT. How a frame is filled into the cells of a parse lane, and what the crossing towards the core then holds (R16,
R18, R147).
-/

namespace Sys2Proof.Machine

/-! ### A frame cut over cells (R147) -/

theorem flatten_cutFrame {n room : Nat} {bs : List Byte} (hn : bs.length < n) (hroom : 1 ≤ room) :
    (cutFrame n room bs).flatten = bs := by
  induction n generalizing room bs with
  | zero => exact absurd hn (Nat.not_lt_zero _)
  | succ n ih =>
    unfold cutFrame
    split
    · simp
    · have hdrop : (bs.drop room).length < n := by
        rw [List.length_drop]
        omega
      rw [List.flatten_cons, ih hdrop (by decide), List.take_append_drop]

theorem cutFrame_ne_nil (n room : Nat) (bs : List Byte) : cutFrame (n + 1) room bs ≠ [] := by
  unfold cutFrame
  split
  · exact List.cons_ne_nil _ _
  · exact List.cons_ne_nil _ _

/-- The segments of a frame carry its name and, together, its bytes; the first has its frame word. -/
theorem frameSegs_bytes (h : FrameHdr) {bs : List Byte} {room : Nat} (hroom : 17 ≤ room) :
    (frameSegs h bs room).flatMap (fun g => g.bytes) = bs := by
  have hcut : (cutFrame (bs.length + 1) (room - 16) bs).flatten = bs := flatten_cutFrame (by omega) (by omega)
  unfold frameSegs
  dsimp only
  rw [List.flatMap_map, List.flatMap_def]
  exact (congrArg List.flatten (List.zipIdx_map_fst 0 _)).trans hcut

theorem fid_of_mem_frameSegs {h : FrameHdr} {bs : List Byte} {room : Nat} {g : Seg} (hg : g ∈ frameSegs h bs room) :
    g.fid = h.fid := by
  obtain ⟨c, -, rfl⟩ := List.mem_map.mp hg
  rfl

theorem exists_frameSegs_head (h : FrameHdr) (bs : List Byte) (room : Nat) :
    ∃ b rest g, frameSegs h bs room = g :: rest ∧ g.hdr = some { h with fcsBad := b } := by
  obtain ⟨x, xs, hcut⟩ := List.exists_cons_of_ne_nil (cutFrame_ne_nil bs.length (room - 16) bs)
  unfold frameSegs
  dsimp only
  rw [hcut]
  exact ⟨_, _, _, rfl, rfl⟩

/-! ### The cells of a parse lane, in order -/

/-- Cells in a crossing towards the core and on their way into it. -/
def State.laneCells (s : State) (i l : Nat) : List RawCell := s.xing i l ++ SMap.get (fun _ => []) (s.sq i).backlog l

/-- Segments of a parse lane in the order they were filled. -/
def State.laneSegs (s : State) (i l : Nat) : List Seg :=
  (s.laneCells i l).flatMap (fun c => c.segs) ++ (s.openCell i l).cell.segs

theorem State.flatMap_lane (s : State) (i l : Nat) :
    (s.xing i l ++ (SMap.get (fun _ => []) (s.sq i).backlog l ++ [(s.openCell i l).cell])).flatMap (fun c => c.segs) =
      s.laneSegs i l := by
  rw [← List.append_assoc, List.flatMap_append, List.flatMap_singleton]
  rfl

/-- A parse lane reads its square alone. -/
theorem State.lane_of_sq {s t : State} {i : Nat} (h : t.sq i = s.sq i) (l : Nat) :
    t.laneCells i l = s.laneCells i l ∧ t.openCell i l = s.openCell i l ∧ t.laneSegs i l = s.laneSegs i l := by
  unfold State.laneSegs State.laneCells State.xing State.openCell
  rw [h]
  exact ⟨rfl, rfl, rfl⟩

theorem Sq.refill_cells (q : Sq) (l : Nat) :
    SMap.get (fun _ => []) (q.refill l).xing l ++ SMap.get (fun _ => []) (q.refill l).backlog l =
      SMap.get (fun _ => []) q.xing l ++ SMap.get (fun _ => []) q.backlog l := by
  unfold Sq.refill
  dsimp only
  rw [SMap.get_set_same, SMap.get_set_same, List.append_assoc, List.take_append_drop]

theorem State.sq_pushXing (s : State) (i l : Nat) (cs : List RawCell) : (s.pushXing i l cs).sq i =
    ({ s.sq i with backlog := SMap.upd (fun _ => []) (s.sq i).backlog l (· ++ cs) } : Sq).refill l :=
  (State.sq_modSq _ _ _ _).trans (if_pos rfl)

/-- Cells join the crossing behind those on their way into it. -/
theorem State.laneCells_pushXing (s : State) (i l : Nat) (cs : List RawCell) :
    (s.pushXing i l cs).laneCells i l = s.laneCells i l ++ cs := by
  unfold State.laneCells State.xing
  rw [s.sq_pushXing, Sq.refill_cells]
  dsimp only
  rw [SMap.get_upd, if_pos rfl, List.append_assoc]

theorem State.openCell_pushXing (s : State) (i l : Nat) (cs : List RawCell) :
    (s.pushXing i l cs).openCell i l = s.openCell i l := by
  rw [State.openCell, s.sq_pushXing]
  rfl

/-- The open cell of a parse lane is replaced. -/
def State.setOpen (s : State) (i l : Nat) (c : OpenCell) : State :=
  s.modSq i (fun q => { q with opened := SMap.set (fun _ => {}) q.opened l c })

theorem State.sq_setOpen (s : State) (i l : Nat) (c : OpenCell) : (s.setOpen i l c).sq i =
    { s.sq i with opened := SMap.set (fun _ => {}) (s.sq i).opened l c } :=
  (State.sq_modSq _ _ _ _).trans (if_pos rfl)

theorem State.openCell_setOpen (s : State) (i l : Nat) (c : OpenCell) : (s.setOpen i l c).openCell i l = c := by
  rw [State.openCell, s.sq_setOpen]
  exact SMap.get_set_same _ _ _ _

theorem State.laneCells_setOpen (s : State) (i l : Nat) (c : OpenCell) :
    (s.setOpen i l c).laneCells i l = s.laneCells i l := by
  rw [State.laneCells, State.xing, s.sq_setOpen]
  rfl

theorem State.closeCell_eq (s : State) (i l : Nat) : s.closeCell i l =
    if (s.openCell i l).cell.segs = [] then s else (s.pushXing i l [(s.openCell i l).cell]).setOpen i l {} := rfl

theorem State.closeCell_empty (s : State) (i l : Nat) : ((s.closeCell i l).openCell i l).cell.segs = [] := by
  rw [s.closeCell_eq]
  split
  · next hempty => exact hempty
  · rw [State.openCell_setOpen]

/-- A cell that closes keeps its place in the lane. -/
theorem State.laneSegs_closeCell (s : State) (i l : Nat) : (s.closeCell i l).laneSegs i l = s.laneSegs i l := by
  rw [s.closeCell_eq]
  split
  · rfl
  · rw [State.laneSegs, State.openCell_setOpen, State.laneCells_setOpen, State.laneCells_pushXing,
      List.flatMap_append, List.flatMap_singleton, List.append_nil, State.laneSegs]

/-! ### A frame filled into a lane -/

/-- The cell that a frame begins in: the open one where it joins it, else a new one. -/
def State.firstCell (s : State) (i l : Nat) (ctx : Option Ctx) : RawCell :=
  if s.joins i l ctx then (s.openCell i l).cell else { ctx := ctx }

/-- The cells that the segments `gs` of a frame fill, the first behind what `base` holds. -/
def fillCells (base : RawCell) (ctx : Option Ctx) (fid : Nat) (p : Parse) (gs : List Seg) : List RawCell :=
  gs.zipIdx.map (fun g =>
    let b := if g.2 = 0 then base else { ctx := ctx }
    { b with segs := b.segs ++ [g.1], parses := if g.2 = 0 then b.parses ++ [(fid, p)] else b.parses : RawCell })

/-- Later cells of a frame hold it alone. -/
theorem flatMap_fillCells_tail (base : RawCell) (ctx : Option Ctx) (fid : Nat) (p : Parse) (gs : List Seg) (k : Nat) :
    ((gs.zipIdx (k + 1)).map (fun g =>
      let b := if g.2 = 0 then base else { ctx := ctx }
      { b with segs := b.segs ++ [g.1], parses := if g.2 = 0 then b.parses ++ [(fid, p)] else b.parses :
        RawCell })).flatMap (fun c => c.segs) = gs := by
  induction gs generalizing k with
  | nil => rfl
  | cons g gs ih =>
    rw [List.zipIdx_cons, List.map_cons, List.flatMap_cons, ih (k + 1)]
    rfl

theorem flatMap_fillCells {base : RawCell} {ctx : Option Ctx} {fid : Nat} {p : Parse} {gs : List Seg} (hgs : gs ≠ []) :
    (fillCells base ctx fid p gs).flatMap (fun c => c.segs) = base.segs ++ gs := by
  cases gs with
  | nil => exact absurd rfl hgs
  | cons g gs =>
    rw [fillCells, List.zipIdx_cons, List.map_cons, List.flatMap_cons, flatMap_fillCells_tail]
    exact List.append_assoc _ [g] gs

/-- The state in which a frame's last cell stands open, before it may close. -/
def State.filled (s : State) (i l : Nat) (ctx : Option Ctx) (cs : List RawCell) (c : OpenCell) : State :=
  (((if s.joins i l ctx then s else s.closeCell i l).setOpen i l {}).pushXing i l cs).setOpen i l c

theorem State.packFrame_eq {s : State} {i l : Nat} {ctx : Option Ctx} {h : FrameHdr} {p : Parse} {bs : List Byte}
    {cs : List RawCell} {c : RawCell} (hcells : fillCells (s.firstCell i l ctx) ctx h.fid p
      (frameSegs h bs (256 - segBytes (s.firstCell i l ctx).segs)) = cs ++ [c]) (solo : Bool) :
    s.packFrame i l ctx h p bs solo = s.filled i l ctx cs { cell := c, endSlot := some s.tour.slot } ∨
    s.packFrame i l ctx h p bs solo =
      (s.filled i l ctx cs { cell := c, endSlot := some s.tour.slot }).closeCell i l := by
  have hlast := congrArg List.getLast? hcells
  have hinit := congrArg List.dropLast hcells
  rw [List.getLast?_concat] at hlast
  rw [List.dropLast_concat] at hinit
  unfold State.packFrame
  dsimp only
  split
  · next hnone => cases hlast.symm.trans hnone
  · next c' hsome =>
    cases hlast.symm.trans hsome
    rw [← hinit]
    split
    · exact .inr rfl
    · exact .inl rfl

/-- What a lane holds where a frame begins in it: the cells before the frame's first one, and what that one holds. -/
theorem State.laneSegs_firstCell (s : State) (i l : Nat) (ctx : Option Ctx) :
    ((if s.joins i l ctx then s else s.closeCell i l).laneCells i l).flatMap (fun c => c.segs) ++
      (s.firstCell i l ctx).segs = s.laneSegs i l := by
  unfold State.firstCell
  split
  · rfl
  · rw [← s.laneSegs_closeCell, State.laneSegs, State.closeCell_empty]

/-- A frame follows what its lane holds, segment by segment. -/
theorem State.laneSegs_packFrame (s : State) (i l : Nat) (ctx : Option Ctx) (h : FrameHdr) (p : Parse) (bs : List Byte)
    (solo : Bool) : (s.packFrame i l ctx h p bs solo).laneSegs i l =
      s.laneSegs i l ++ frameSegs h bs (256 - segBytes (s.firstCell i l ctx).segs) := by
  obtain ⟨-, rest, g, hsegs, -⟩ := exists_frameSegs_head h bs (256 - segBytes (s.firstCell i l ctx).segs)
  have hne : frameSegs h bs (256 - segBytes (s.firstCell i l ctx).segs) ≠ [] := by
    rw [hsegs]
    exact List.cons_ne_nil _ _
  have hfill := flatMap_fillCells (base := s.firstCell i l ctx) (ctx := ctx) (fid := h.fid) (p := p) hne
  rcases List.eq_nil_or_concat' (fillCells (s.firstCell i l ctx) ctx h.fid p
    (frameSegs h bs (256 - segBytes (s.firstCell i l ctx).segs))) with hnil | ⟨cs, c, hcells⟩
  · rw [hnil] at hfill
    exact absurd (List.append_eq_nil_iff.mp hfill.symm).2 hne
  · rw [hcells, List.flatMap_append, List.flatMap_singleton] at hfill
    have hfilled (e : Option Nat) : (s.filled i l ctx cs { cell := c, endSlot := e }).laneSegs i l =
        s.laneSegs i l ++ frameSegs h bs (256 - segBytes (s.firstCell i l ctx).segs) := by
      rw [State.laneSegs, State.filled, State.openCell_setOpen, State.laneCells_setOpen, State.laneCells_pushXing,
        State.laneCells_setOpen, List.flatMap_append, List.append_assoc]
      dsimp only
      rw [hfill, ← List.append_assoc, s.laneSegs_firstCell]
    rcases State.packFrame_eq hcells solo with hopen | hclosed
    · rw [hopen, hfilled]
    · rw [hclosed, State.laneSegs_closeCell, hfilled]

/-- The first cell of a frame has room for its frame word and a byte. -/
theorem State.room_firstCell (s : State) (i l : Nat) (ctx : Option Ctx) :
    17 ≤ 256 - segBytes (s.firstCell i l ctx).segs := by
  unfold State.firstCell
  split
  · next hjoin =>
    have hroom : segBytes (s.openCell i l).cell.segs + 17 ≤ 256 := by
      unfold State.joins at hjoin
      dsimp only at hjoin
      rw [Bool.and_eq_true, decide_eq_true_eq] at hjoin
      exact hjoin.2
    omega
  · exact (by decide : 17 ≤ 256 - segBytes [])

/-! ### What packing leaves alone -/

/-- Nothing but square `i` differs. -/
structure OnlySq (i : Nat) (s t : State) : Prop where
  shape : ∃ x, t = { s with sqs := x }
  others : ∀ k, k ≠ i → t.sq k = s.sq k

theorem OnlySq.refl (i : Nat) (s : State) : OnlySq i s s := ⟨⟨s.sqs, rfl⟩, fun _ _ => rfl⟩

theorem OnlySq.trans {i : Nat} {s t u : State} (hst : OnlySq i s t) (htu : OnlySq i t u) : OnlySq i s u := by
  obtain ⟨⟨x, rfl⟩, hs⟩ := hst
  obtain ⟨⟨y, rfl⟩, ht⟩ := htu
  exact ⟨⟨y, rfl⟩, fun k hk => (ht k hk).trans (hs k hk)⟩

theorem OnlySq.modSq (s : State) (i : Nat) (f : Sq → Sq) : OnlySq i s (s.modSq i f) :=
  ⟨⟨_, rfl⟩, fun k hk => (State.sq_modSq s i k f).trans (if_neg hk)⟩

theorem OnlySq.closeCell (s : State) (i l : Nat) : OnlySq i s (s.closeCell i l) := by
  rw [s.closeCell_eq]
  split
  · exact .refl i s
  · exact (OnlySq.modSq s i _).trans (.modSq _ i _)

theorem OnlySq.packFrame (s : State) (i l : Nat) (ctx : Option Ctx) (h : FrameHdr) (p : Parse) (bs : List Byte)
    (solo : Bool) : OnlySq i s (s.packFrame i l ctx h p bs solo) := by
  have hpush (u : State) (cs : List RawCell) : OnlySq i u ((u.setOpen i l {}).pushXing i l cs) :=
    (OnlySq.modSq u i _).trans (.modSq _ i _)
  have hfirst : OnlySq i s (if s.joins i l ctx then s else s.closeCell i l) := by
    split
    · exact .refl i s
    · exact .closeCell s i l
  unfold State.packFrame
  dsimp only
  split
  · exact hfirst.trans (hpush _ _)
  · split
    · exact (hfirst.trans (hpush _ _)).trans ((OnlySq.modSq _ i _).trans (.closeCell _ i l))
    · exact (hfirst.trans (hpush _ _)).trans (.modSq _ i _)

end Sys2Proof.Machine
end

section
/-!
SUPPORT. Frames at the MACs: what the MAC counts bears on no decision, and where a frame that it takes goes (O42).
-/

namespace Sys2Proof.Machine

/-! ### What the MAC counts and stamps (R45, R266, R377, R382) -/

/-- The state as a frame that arrives finds it: other counts, a fresh name and a receive stamp. -/
def State.atMac (s : State) (cnt : SMap Nat) (eports : SMap EPort) (fid : Nat) (stamps : List BcStamp) : State :=
  { s with cnt := cnt, eports := eports, nextFid := fid, time := { s.time with bcStamps := stamps } }

/-- The egress ports send the same frames under the same gates. -/
structure SameSend (e e' : SMap EPort) : Prop where
  tx : ∀ p, (SMap.get (fun _ => {}) e' p).tx = (SMap.get (fun _ => {}) e p).tx
  gate : ∀ p, (SMap.get (fun _ => {}) e' p).gate = (SMap.get (fun _ => {}) e p).gate
  pendGate : ∀ p, (SMap.get (fun _ => {}) e' p).pendGate = (SMap.get (fun _ => {}) e p).pendGate

theorem SameSend.refl (e : SMap EPort) : SameSend e e := ⟨fun _ => rfl, fun _ => rfl, fun _ => rfl⟩

theorem SameSend.upd (e : SMap EPort) (p : Nat) {f : EPort → EPort} (htx : ∀ x, (f x).tx = x.tx)
    (hgate : ∀ x, (f x).gate = x.gate) (hpend : ∀ x, (f x).pendGate = x.pendGate) :
    SameSend e (SMap.upd (fun _ => {}) e p f) := by
  refine ⟨fun q => ?_, fun q => ?_, fun q => ?_⟩
  all_goals
    rw [SMap.get_upd]
    split
    · next hq => simp only [hq, htx, hgate, hpend]
    · rfl

theorem State.bwCount_shape (s : State) (p : Nat) (rx : Bool) (n : Nat) :
    ∃ e, s.bwCount p rx n = { s with eports := e } ∧ SameSend s.eports e := by
  unfold State.bwCount
  split
  · refine ⟨_, rfl, .upd _ _ (fun _ => ?_) (fun _ => ?_) (fun _ => ?_)⟩
    all_goals split <;> rfl
  · exact ⟨_, rfl, .refl _⟩

theorem State.countPort_shape (s : State) (p w n : Nat) : ∃ c, s.countPort p w n = { s with cnt := c } := by
  unfold State.countPort State.count
  repeat' split
  all_goals exact ⟨_, rfl⟩

theorem State.noteRxStamp_shape (s : State) (p fid : Nat) (x : Parse) :
    ∃ b, s.noteRxStamp p fid x = { s with time := { s.time with bcStamps := b } } := by
  unfold State.noteRxStamp
  split
  · exact ⟨_, rfl⟩
  · exact ⟨_, rfl⟩

/-- A frame's bytes in the bandwidth window bear on no counter. -/
theorem State.countPort_bwCount (s : State) (p w n : Nat) (rx : Bool) (k : Nat) :
    ∃ e, (s.bwCount p rx k).countPort p w n = { s.countPort p w n with eports := e } := by
  obtain ⟨e, hbw, -⟩ := s.bwCount_shape p rx k
  refine ⟨e, ?_⟩
  rw [hbw]
  unfold State.countPort State.count
  repeat' split
  all_goals rfl

/-- The counts of a whole frame that a port takes in, of one that fails among them. -/
def State.macCounted (s : State) (p n : Nat) (bad : Bool) : State :=
  let s1 := (s.portIn p n).bwCount p true n
  if bad then s1.countPort p 4 1 else s1

theorem State.macCounted_shape (s : State) (p n : Nat) (bad : Bool) :
    ∃ c e, s.macCounted p n bad = { s with cnt := c, eports := e } ∧ SameSend s.eports e := by
  obtain ⟨c, hcount⟩ := s.portIn_shape p n
  unfold State.macCounted
  rw [hcount]
  obtain ⟨e, hbw, hsend⟩ := State.bwCount_shape { s with cnt := c } p true n
  rw [hbw]
  dsimp only
  split
  · obtain ⟨c', hbad⟩ := State.countPort_shape { s with cnt := c, eports := e } p 4 1
    exact ⟨c', e, hbad, hsend⟩
  · exact ⟨c, e, rfl, hsend⟩

/-! ### Decisions that those counts do not bear on -/

section
variable (s : State) (cnt : SMap Nat) (fid : Nat) (stamps : List BcStamp) {eports : SMap EPort}

theorem State.fragRead_atMac (i e : Nat) (p : Parse) : (s.atMac cnt eports fid stamps).fragRead i e p =
    ((s.fragRead i e p).1.atMac cnt eports fid stamps, (s.fragRead i e p).2) := by
  have hon : (s.atMac cnt eports fid stamps).fragOn i = s.fragOn i := rfl
  have hfind : (s.atMac cnt eports fid stamps).fragFind i (datagramKey p) = s.fragFind i (datagramKey p) := rfl
  have hbook : (s.atMac cnt eports fid stamps).book = s.book := rfl
  unfold State.fragRead
  dsimp only
  rw [hon, hfind, hbook]
  split
  · rfl
  · split
    · rfl
    · split
      · rfl
      · rfl

theorem State.settle_atMac (i e : Nat) (p : Parse) : (s.atMac cnt eports fid stamps).settle i e p =
    ((s.settle i e p).1.atMac cnt eports fid stamps, (s.settle i e p).2) := by
  have hlook : (s.atMac cnt eports fid stamps).lookup e p = s.lookup e p := rfl
  have hon : (s.atMac cnt eports fid stamps).fragOn i = s.fragOn i := rfl
  have hslot : (s.atMac cnt eports fid stamps).fragSlot i p = s.fragSlot i p := rfl
  unfold State.settle
  dsimp only
  rw [s.fragRead_atMac, hlook, hon, hslot]
  split
  · rfl
  · split
    · split
      · rfl
      · rfl
    · rfl

/-- What a preview reads of the policer of a reason: what its bucket holds now. -/
def State.tokens (s : State) (i n : Nat) : Int := polNow (s.polRec n) (s.polBucket i n) (toNs s.elapsed)

theorem State.takeToken_snd (s : State) (i n : Nat) : (s.takeToken i n).2 = decide ((polUnit : Int) ≤ s.tokens i n) := by
  unfold State.takeToken State.tokens
  dsimp only
  split
  · next h => exact (decide_eq_true h).symm
  · next h => exact (decide_eq_false h).symm

theorem State.tokens_count (s : State) (o m i n : Nat) : (s.count o m).tokens i n = s.tokens i n := by
  unfold State.count
  split
  · rfl
  · rfl

theorem State.tokens_fragWrite (s : State) (j e : Nat) (p : Parse) (idx : Nat) (r : LookRes) (i n : Nat) :
    (s.fragWrite j e p idx r).tokens i n = s.tokens i n := by
  have hbucket : (s.fragWrite j e p idx r).polBucket i n = s.polBucket i n := by
    unfold State.fragWrite State.polBucket
    dsimp only
    rw [State.sq_modSq]
    split
    · next hi => rw [hi]
    · rfl
  unfold State.tokens
  rw [hbucket]
  rfl

/-- A frame that is injected, or only previewed, leaves the policers alone until it takes its token. -/
theorem State.tokens_noteLookup (s : State) (j e : Nat) (p : Parse) (slot : Option Nat) (r : LookRes)
    (rz : Option (Nat × Nat)) (i n : Nat) : (s.noteLookup j e p true slot r rz).tokens i n = s.tokens i n := by
  unfold State.noteLookup
  dsimp only
  rw [if_pos rfl]
  split
  · rw [State.tokens_count]
    split
    · rw [State.tokens_fragWrite]
    · rfl
  · split
    · rw [State.tokens_fragWrite]
    · rfl

theorem State.hostToken_snd {s t : State} {i : Nat} (h : ∀ n, t.tokens i n = s.tokens i n) (rz : Option (Nat × Nat)) :
    (t.hostToken i rz).2 = (s.hostToken i rz).2 := by
  unfold State.hostToken
  split
  · split
    · dsimp only
      rw [State.takeToken_snd, State.takeToken_snd, h]
    · rfl
  · rfl

/-- Where an injected frame goes does not depend on the state that it leaves. -/
theorem State.forwardFrame_snd (s t : State) (i : Nat) (p : Parse) (r : LookRes) (f : Fwd) (d : Decision) :
    (t.forwardFrame i p true r f d).2 = (s.forwardFrame i p true r f d).2 := by
  unfold State.forwardFrame
  split
  · rfl
  · rfl
  · dsimp only
    split <;> rfl

theorem State.preview_atMac (i e : Nat) (p : Parse) :
    (s.atMac cnt eports fid stamps).preview i e p = s.preview i e p := by
  have htokens (r : LookRes) (slot : Option Nat) (rz : Option (Nat × Nat)) (n : Nat) :
      (((s.settle i e p).1.atMac cnt eports fid stamps).noteLookup i e p true slot r rz).tokens i n =
        ((s.settle i e p).1.noteLookup i e p true slot r rz).tokens i n := by
    rw [State.tokens_noteLookup, State.tokens_noteLookup]
    rfl
  have hresolve (e' : Nat) (r : LookRes) : ((s.settle i e p).1.atMac cnt eports fid stamps).resolve i e' p r =
      (s.settle i e p).1.resolve i e' p r := rfl
  have hbook : ((s.settle i e p).1.atMac cnt eports fid stamps).book = (s.settle i e p).1.book := rfl
  unfold State.preview State.decideFrame
  dsimp only
  rw [s.settle_atMac]
  dsimp only
  rw [hresolve, hbook, State.hostToken_snd (htokens _ _ _)]
  split
  · rfl
  · split
    · rw [State.forwardFrame_snd]
    · rfl

section
variable (hsend : SameSend s.eports eports)
include hsend

theorem State.portIdle_atMac (p : Nat) : (s.atMac cnt eports fid stamps).portIdle p = s.portIdle p := by
  have htx : ((s.atMac cnt eports fid stamps).eport p).tx = (s.eport p).tx := hsend.tx p
  unfold State.portIdle
  rw [htx]
  rfl

theorem State.gateOpen_atMac (p c : Nat) : (s.atMac cnt eports fid stamps).gateOpen p c = s.gateOpen p c := by
  have hgate : ((s.atMac cnt eports fid stamps).eport p).gate = (s.eport p).gate := hsend.gate p
  have hpend : ((s.atMac cnt eports fid stamps).eport p).pendGate = (s.eport p).pendGate := hsend.pendGate p
  unfold State.gateOpen State.gateAt
  rw [hgate, hpend]
  rfl

theorem State.blitzEntry_atMac (port : Nat) (p : Parse) :
    (s.atMac cnt eports fid stamps).blitzEntry port p = s.blitzEntry port p := by
  unfold State.blitzEntry
  simp only [s.portIdle_atMac cnt fid stamps hsend, s.gateOpen_atMac cnt fid stamps hsend]
  rfl

end

end

/-! ### The counters of a port -/

theorem State.count_one (s : State) (o : Nat) : s.count o 1 = s.setCounter o (bumpWord (s.counter o) 1) :=
  if_neg (by decide)

theorem State.counter_count (s : State) (o : Nat) : (s.count o 1).counter o = bumpWord (s.counter o) 1 := by
  rw [s.count_one, State.counter_setCounter, if_pos rfl]

theorem portCtr_ne {p w w' : Nat} (h : w ≠ w') : portCtr p w ≠ portCtr p w' := by
  unfold portCtr
  omega

/-- The counters of front-panel ports lie below those of squares. -/
theorem sqWord_ne_portCtr {p w : Nat} (hp : p < 1024) (hw : w < 64) (i k : Nat) : sqWord i k ≠ portCtr p w := by
  unfold sqWord sqCtr portCtr
  omega

theorem State.counter_countPort_self (s : State) {p : Nat} (hp : p < 1024) (w : Nat) :
    (s.countPort p w 1).counter (portCtr p w) = bumpWord (s.counter (portCtr p w)) 1 := by
  rw [State.countPort, if_pos (.inl hp), State.counter_count]

theorem State.counter_countPort (s : State) {p w n o : Nat} (ho : o ≠ portCtr p w) :
    (s.countPort p w n).counter o = s.counter o := by
  unfold State.countPort
  split
  · unfold State.count
    split
    · rfl
    · exact (State.counter_setCounter _ _ _ _).trans (if_neg ho)
  · rfl

theorem State.counter_bwCount (s : State) (p : Nat) (rx : Bool) (n o : Nat) :
    (s.bwCount p rx n).counter o = s.counter o := by
  obtain ⟨e, h, -⟩ := s.bwCount_shape p rx n
  rw [h]
  rfl

/-- The counts of a frame that arrives are those of frames, of bytes and of failed frames. -/
theorem State.counter_macCounted (s : State) {p o : Nat} (n : Nat) (bad : Bool) (hframes : o ≠ portCtr p 0)
    (hbytes : o ≠ portCtr p 1) (hfailed : o ≠ portCtr p 4) : (s.macCounted p n bad).counter o = s.counter o := by
  have hin : ((s.portIn p n).bwCount p true n).counter o = s.counter o := by
    rw [State.counter_bwCount, State.portIn, State.counter_countPort _ hbytes, State.counter_countPort _ hframes]
  unfold State.macCounted
  dsimp only
  split
  · rw [State.counter_countPort _ hfailed, hin]
  · exact hin

/-! ### A frame that the MAC takes (R18, R147, R161) -/

theorem State.closeCell_atMac (s : State) (c : SMap Nat) (e : SMap EPort) (n : Nat) (b : List BcStamp) (i l : Nat) :
    (s.atMac c e n b).closeCell i l = (s.closeCell i l).atMac c e n b := by
  have hopen : (s.atMac c e n b).openCell i l = s.openCell i l := rfl
  rw [State.closeCell_eq, State.closeCell_eq, hopen]
  split
  · rfl
  · rfl

/-- The frame word with which the MAC names a frame (R147, R266). -/
def State.macHdr (s : State) (p : Nat) (data : List Byte) (bad : Bool) : FrameHdr where
  fid := s.nextFid
  length := data.length
  iport := p
  fcsBad := bad
  otag := (parse (s.parseCfgOf (p / 16) p none) data).otag
  ingressNs := s.stamp32

/-- The lane of a frame in which a new cell begins unless it joins the open one. -/
def State.laneReady (s : State) (i l : Nat) (ctx : Option Ctx) : State :=
  if s.joins i l ctx then s else s.closeCell i l

/-- An 8-lane port takes the other parse lane for its next frame (R74). -/
def State.alternate (s : State) (p : Nat) : State :=
  s.modSq (p / 16) (fun q => { q with alt := SMap.upd (fun _ => false) q.alt (p % 16) (fun x => !x) })

theorem State.laneSegs_alternate (s : State) (p l : Nat) :
    (s.alternate p).laneSegs (p / 16) l = s.laneSegs (p / 16) l := by
  have hsq : (s.alternate p).sq (p / 16) = { s.sq (p / 16) with
      alt := SMap.upd (fun _ => false) (s.sq (p / 16)).alt (p % 16) (fun x => !x) } :=
    (State.sq_modSq _ _ _ _).trans (if_pos rfl)
  unfold State.laneSegs State.laneCells State.xing State.openCell
  rw [hsq]

theorem State.eport_modSq (s : State) (i : Nat) (f : Sq → Sq) (p : Nat) : (s.modSq i f).eport p = s.eport p := rfl

/-- A Blitz frame is in transmission at its egress port at once (R161). -/
theorem State.blitzForward_sends (s : State) (p k out cls : Nat) (h : FrameHdr) (x : Parse) (data : List Byte) :
    (((s.blitzForward p k out cls h x data).eport out).tx.map fun x => (x.fid, x.cls, x.startNs, x.blitz)) =
      some (h.fid, cls, s.nowNs, some data) ∧
    ((s.blitzForward p k out cls h x data).sq (p / 16)).blitz.length = (s.sq (p / 16)).blitz.length + 1 ∧
    (s.blitzForward p k out cls h x data).nextFid = s.nextFid := by
  obtain ⟨c, hcount⟩ := s.countPort_shape p 62 1
  unfold State.blitzForward
  rw [hcount]
  refine ⟨?_, ?_, rfl⟩
  · rw [State.eport_modSq, State.eport_modEport, if_pos rfl]
    rfl
  · rw [State.sq_modSq, if_pos rfl]
    exact List.length_append

/-- A frame that no Blitz entry takes goes into its parse lane where the crossing has room (R18). -/
def State.packAt (s : State) (p l : Nat) (ctx : Option Ctx) (h : FrameHdr) (x : Parse) (data : List Byte) : State :=
  if coreDepth l ≤ (s.xing (p / 16) l).length then s.count (sqWord (p / 16) 0) 1
  else
    let wide := s.portWidth p == 8
    let s2 := s.packFrame (p / 16) l ctx h x data wide
    if wide then s2.alternate p else s2

/-- A frame with its name: by Blitz where an entry takes it, else into its parse lane. -/
def State.takeNamed (s : State) (p : Nat) (h : FrameHdr) (x : Parse) (data : List Byte) : State :=
  match s.blitzEntry p x with
  | some (k, out, cls) => s.blitzForward p k out cls h x data
  | none =>
    let l := s.rxLane p
    let ctx := s.preview (p / 16) s.book.epoch x
    (s.laneReady (p / 16) l ctx).packAt p l ctx h x data

theorem State.takeFrame_eq (s : State) (p : Nat) (data : List Byte) (bad : Bool) : s.takeFrame p data bad =
    (s.freshFid.1.noteRxStamp p s.nextFid (parse (s.parseCfgOf (p / 16) p none) data)).takeNamed p
      (s.macHdr p data bad) (parse (s.parseCfgOf (p / 16) p none) data) data := by rfl

theorem State.laneReady_atMac (s : State) (c : SMap Nat) (e : SMap EPort) (n : Nat) (b : List BcStamp) (i l : Nat)
    (ctx : Option Ctx) : (s.atMac c e n b).laneReady i l ctx = (s.laneReady i l ctx).atMac c e n b := by
  have hjoins : (s.atMac c e n b).joins i l ctx = s.joins i l ctx := rfl
  unfold State.laneReady
  rw [hjoins, s.closeCell_atMac]
  split
  · rfl
  · rfl

section
variable (s : State) (c : SMap Nat) {e : SMap EPort} (hsend : SameSend s.eports e) (p : Nat) (data : List Byte)

theorem State.takeFrame_counted (e : SMap EPort) (bad : Bool) :
    ∃ b, ({ s with cnt := c, eports := e } : State).takeFrame p data bad =
      (s.atMac c e (s.nextFid + 1) b).takeNamed p (s.macHdr p data bad)
        (parse (s.parseCfgOf (p / 16) p none) data) data := by
  obtain ⟨b, hstamp⟩ := State.noteRxStamp_shape ({ s with cnt := c, eports := e } : State).freshFid.1 p s.nextFid
    (parse (s.parseCfgOf (p / 16) p none) data)
  exact ⟨b, (State.takeFrame_eq _ p data bad).trans
    (congrArg (fun x => State.takeNamed x p (s.macHdr p data bad) _ data) hstamp)⟩

include hsend

theorem State.takeFrame_blitz (bad : Bool) {k out cls : Nat}
    (hblitz : s.blitzEntry p (parse (s.parseCfgOf (p / 16) p none) data) = some (k, out, cls)) :
    ∃ b, ({ s with cnt := c, eports := e } : State).takeFrame p data bad =
      (s.atMac c e (s.nextFid + 1) b).blitzForward p k out cls (s.macHdr p data bad)
        (parse (s.parseCfgOf (p / 16) p none) data) data := by
  obtain ⟨b, htake⟩ := s.takeFrame_counted c p data e bad
  refine ⟨b, ?_⟩
  rw [htake, State.takeNamed, s.blitzEntry_atMac c _ b hsend, hblitz]

theorem State.takeFrame_packed (bad : Bool)
    (hblitz : s.blitzEntry p (parse (s.parseCfgOf (p / 16) p none) data) = none) {ctx : Option Ctx}
    (hctx : ctx = s.preview (p / 16) s.book.epoch (parse (s.parseCfgOf (p / 16) p none) data)) :
    ∃ b, ({ s with cnt := c, eports := e } : State).takeFrame p data bad =
      ((s.laneReady (p / 16) (s.rxLane p) ctx).atMac c e (s.nextFid + 1) b).packAt p (s.rxLane p) ctx
        (s.macHdr p data bad) (parse (s.parseCfgOf (p / 16) p none) data) data := by
  obtain ⟨b, htake⟩ := s.takeFrame_counted c p data e bad
  have hpreview := s.preview_atMac c (s.nextFid + 1) b (eports := e) (p / 16) s.book.epoch
    (parse (s.parseCfgOf (p / 16) p none) data)
  have hlane : (s.atMac c e (s.nextFid + 1) b).rxLane p = s.rxLane p := rfl
  have hbook : (s.atMac c e (s.nextFid + 1) b).book = s.book := rfl
  refine ⟨b, ?_⟩
  rw [htake, State.takeNamed, s.blitzEntry_atMac c _ b hsend, hblitz]
  dsimp only
  rw [hlane, hbook, hpreview, ← hctx, s.laneReady_atMac]

end

/-! ### Where the bytes go -/

theorem lt_of_portLive {s : State} {p : Nat} (hlive : s.portLive p = true) : p < 1024 := by
  simp only [State.portLive, Bool.and_eq_true, decide_eq_true_eq] at hlive
  exact hlive.1.1

theorem State.rxLane_lt {s : State} {p : Nat} (hlive : s.portLive p = true) : s.rxLane p < 4 := by
  have hexists : p % s.portWidth p = 0 := by
    simp only [State.portLive, State.portExists, Bool.and_eq_true, decide_eq_true_eq] at hlive
    obtain ⟨⟨hp, hex⟩, -⟩ := hlive
    rw [if_pos hp] at hex
    exact beq_iff_eq.mp hex
  unfold State.rxLane
  dsimp only
  split
  · next hwide =>
    rw [hwide] at hexists
    have hbit (x : Bool) : b2n x ≤ 1 := by cases x <;> decide
    have := hbit (SMap.get (fun _ => false) (s.sq (p / 16)).alt (p % 16))
    omega
  · omega

/-- A full crossing takes nothing: the frame is dropped and counted (R18). -/
theorem State.packAt_full {s : State} {p l : Nat} (hl : l < 4) (hfull : 64 ≤ (s.xing (p / 16) l).length)
    (ctx : Option Ctx) (h : FrameHdr) (x : Parse) (data : List Byte) :
    s.packAt p l ctx h x data = s.count (sqWord (p / 16) 0) 1 := by
  rw [State.packAt, coreDepth, if_pos hl, if_pos hfull]

theorem State.packAt_room {s : State} {p l : Nat} (hl : l < 4) (hroom : (s.xing (p / 16) l).length < 64)
    (ctx : Option Ctx) (h : FrameHdr) (x : Parse) (data : List Byte) :
    (∃ room, 17 ≤ room ∧ (s.packAt p l ctx h x data).laneSegs (p / 16) l =
      s.laneSegs (p / 16) l ++ frameSegs h data room) ∧ OnlySq (p / 16) s (s.packAt p l ctx h x data) := by
  rw [State.packAt, coreDepth, if_pos hl, if_neg (Nat.not_le.mpr hroom)]
  dsimp only
  split
  · exact ⟨⟨_, s.room_firstCell (p / 16) l ctx,
      (State.laneSegs_alternate _ p l).trans (s.laneSegs_packFrame _ _ _ _ _ _ _)⟩,
      (OnlySq.packFrame s (p / 16) l ctx h x data _).trans (.modSq _ _ _)⟩
  · exact ⟨⟨_, s.room_firstCell (p / 16) l ctx, s.laneSegs_packFrame _ _ _ _ _ _ _⟩, .packFrame _ _ _ _ _ _ _ _⟩

theorem OnlySq.laneReady (s : State) (i l : Nat) (ctx : Option Ctx) : OnlySq i s (s.laneReady i l ctx) := by
  unfold State.laneReady
  split
  · exact .refl i s
  · exact .closeCell s i l

theorem State.laneSegs_laneReady (s : State) (i l : Nat) (ctx : Option Ctx) :
    (s.laneReady i l ctx).laneSegs i l = s.laneSegs i l := by
  unfold State.laneReady
  split
  · rfl
  · exact s.laneSegs_closeCell i l

theorem State.fid_ne_of_laneSegs {s : State} {i l fid : Nat}
    (h : ∀ c ∈ (s.openCell i l).cell :: (s.xing i l ++ SMap.get (fun _ => []) (s.sq i).backlog l),
      ∀ g ∈ c.segs, g.fid ≠ fid) : ∀ g ∈ s.laneSegs i l, g.fid ≠ fid := by
  intro g hg
  rcases List.mem_append.mp hg with hcell | hopen
  · obtain ⟨c, hc, hgc⟩ := List.mem_flatMap.mp hcell
    exact h c (List.mem_cons_of_mem _ hc) g hgc
  · exact h _ List.mem_cons_self g hopen

/-- The frame named `fid` can be read back from the cells of a lane: its bytes in order, and its frame word. -/
def laneHolds (cs : List RawCell) (fid p ns : Nat) (data : List Byte) : Prop :=
  ((cs.flatMap fun c => c.segs.filter fun g => g.fid == fid).flatMap fun g => g.bytes) = data ∧
  ∃ c ∈ cs, ∃ g ∈ c.segs, (g.hdr.map fun h => (h.fid, h.length, h.iport, h.ingressNs)) = some (fid, data.length, p, ns)

/-- Behind segments of other frames, the segments of a frame are read back whole. -/
theorem laneHolds_of_segs {cs : List RawCell} {old : List Seg} {h : FrameHdr} {data : List Byte} {room : Nat}
    (hroom : 17 ≤ room) (hcs : (cs.flatMap fun c => c.segs) = old ++ frameSegs h data room)
    (hold : ∀ g ∈ old, g.fid ≠ h.fid) (hlen : h.length = data.length) :
    laneHolds cs h.fid h.iport h.ingressNs data := by
  refine ⟨?_, ?_⟩
  · have hnone : old.filter (fun g => g.fid == h.fid) = [] :=
      List.filter_eq_nil_iff.mpr fun g hg => by simpa using hold g hg
    have hall : (frameSegs h data room).filter (fun g => g.fid == h.fid) = frameSegs h data room :=
      List.filter_eq_self.mpr fun g hg => by simpa using fid_of_mem_frameSegs hg
    rw [← List.filter_flatMap, hcs, List.filter_append, hnone, hall, List.nil_append, frameSegs_bytes h hroom]
  · obtain ⟨b, rest, g, hsegs, hhdr⟩ := exists_frameSegs_head h data room
    have hmem : g ∈ cs.flatMap fun c => c.segs := by
      rw [hcs, hsegs]
      exact List.mem_append_right _ List.mem_cons_self
    obtain ⟨c, hc, hg⟩ := List.mem_flatMap.mp hmem
    exact ⟨c, hc, g, hg, by rw [hhdr, ← hlen]; rfl⟩

/-! ### FRAME_RECEIVE -/

/-- What a frame that is counted in word `w` beside, and goes no further, leaves. -/
theorem macControl_counts (s : State) (p w n : Nat) (t : State)
    (ht : t = ((s.portIn p n).bwCount p true n).countPort p w 1) :
    t.cnt = ((s.portIn p n).countPort p w 1).cnt ∧ t = { s with cnt := t.cnt, eports := t.eports } := by
  subst ht
  obtain ⟨e, h⟩ := (s.portIn p n).countPort_bwCount p w 1 true n
  obtain ⟨c, hin⟩ := s.portIn_shape p n
  obtain ⟨c', hcount⟩ := ({ s with cnt := c } : State).countPort_shape p w 1
  rw [h, hin, hcount]
  exact ⟨rfl, rfl⟩

theorem frameReceive_idle {s : State} (hw : Wired s) {p : Nat} (h : s.portLive p = false ∨ (s.link p).up = false)
    (data : List Byte) (fcsBad errored : Bool) : exec (.frameReceive p data fcsBad errored) s = .next s := by
  change execFrameReceive p data fcsBad errored s = _
  rw [execFrameReceive, atPins_wired hw, if_pos]
  rcases h with hdead | hdown
  · rw [hdead]
    rfl
  · rw [hdown, Bool.not_false, Bool.or_true]

section
variable {s : State} (hw : Wired s) {p : Nat} (hlive : s.portLive p = true) (hup : (s.link p).up = true)
  {data : List Byte} {fcsBad errored bad : Bool} (hbad : bad = (fcsBad || errored))
include hw hlive hup hbad

theorem frameReceive_eq : exec (.frameReceive p data fcsBad errored) s = .next (
    if data.length + 4 < 64 then s.countPort p 5 1
    else if s.maxFrame p < data.length + 4 then s.oversize p data
    else if macControl data 1 then
      if bad then s.macCounted p data.length bad else (s.macCounted p data.length bad).countPort p 7 1
    else if macControl data 0x0101 then
      if bad then s.macCounted p data.length bad
      else (s.macCounted p data.length bad).pfcReceived p (beAt data 16 2 % 256)
        ((List.range 8).map fun k => beAt data (18 + 2 * k) 2)
    else if s.isDraining 0 p then (s.macCounted p data.length bad).countPort p 31 1
    else (s.macCounted p data.length bad).takeFrame p data bad) := by
  subst hbad
  change execFrameReceive p data fcsBad errored s = _
  rw [execFrameReceive, atPins_wired hw, hlive, hup]
  rfl

theorem frameReceive_short (hshort : data.length + 4 < 64) :
    exec (.frameReceive p data fcsBad errored) s = .next (s.countPort p 5 1) := by
  rw [frameReceive_eq hw hlive hup hbad, if_pos hshort]

section
variable (hlong : 64 ≤ data.length + 4)
include hlong

theorem frameReceive_oversize (hover : s.maxFrame p < data.length + 4) :
    exec (.frameReceive p data fcsBad errored) s = .next (s.oversize p data) := by
  rw [frameReceive_eq hw hlive hup hbad, if_neg (Nat.not_lt.mpr hlong), if_pos hover]

variable (hfits : data.length + 4 ≤ s.maxFrame p)
include hfits

theorem frameReceive_whole : exec (.frameReceive p data fcsBad errored) s = .next (
    if macControl data 1 then
      if bad then s.macCounted p data.length bad else (s.macCounted p data.length bad).countPort p 7 1
    else if macControl data 0x0101 then
      if bad then s.macCounted p data.length bad
      else (s.macCounted p data.length bad).pfcReceived p (beAt data 16 2 % 256)
        ((List.range 8).map fun k => beAt data (18 + 2 * k) 2)
    else if s.isDraining 0 p then (s.macCounted p data.length bad).countPort p 31 1
    else (s.macCounted p data.length bad).takeFrame p data bad) := by
  rw [frameReceive_eq hw hlive hup hbad, if_neg (Nat.not_lt.mpr hlong), if_neg (Nat.not_lt.mpr hfits)]

theorem frameReceive_control
    (hctl : macControl data 1 = true ∨ (bad = true ∧ macControl data 0x0101 = true)) :
    Yields (.frameReceive p data fcsBad errored) s fun t =>
      t.cnt = ((s.portIn p data.length).countPort p (if bad then 4 else 7) 1).cnt ∧
      t = { s with cnt := t.cnt, eports := t.eports } := by
  rw [Yields, frameReceive_whole hw hlive hup hbad hlong hfits]
  refine ⟨_, rfl, macControl_counts s p _ data.length _ ?_⟩
  cases bad with
  | true =>
    rcases hctl with hpause | ⟨-, hpfc⟩
    · rw [hpause]
      rfl
    · rw [hpfc]
      exact ite_self _
  | false =>
    rcases hctl with hpause | ⟨hbad', -⟩
    · rw [hpause]
      rfl
    · cases hbad'

variable (hpause : macControl data 1 = false)
include hpause

theorem frameReceive_pfc (hpfc : macControl data 0x0101 = true) (hgood : bad = false) :
    exec (.frameReceive p data fcsBad errored) s = .next (((s.portIn p data.length).bwCount p true
      data.length).pfcReceived p (beAt data 16 2 % 256) ((List.range 8).map fun k => beAt data (18 + 2 * k) 2)) := by
  rw [frameReceive_whole hw hlive hup hbad hlong hfits, hpause, hpfc, hgood]
  rfl

variable (hpfc : macControl data 0x0101 = false)
include hpfc

theorem frameReceive_draining (hdrain : s.isDraining 0 p = true) :
    Yields (.frameReceive p data fcsBad errored) s fun t =>
      t.counter (portCtr p 31) = bumpWord (s.counter (portCtr p 31)) 1 ∧
      t = { s with cnt := t.cnt, eports := t.eports } := by
  refine ⟨(s.macCounted p data.length bad).countPort p 31 1, ?_, ?_, ?_⟩
  · rw [frameReceive_whole hw hlive hup hbad hlong hfits, hpause, hpfc, hdrain]
    rfl
  · rw [State.counter_countPort_self _ (lt_of_portLive hlive), State.counter_macCounted s _ _ (portCtr_ne (by decide))
      (portCtr_ne (by decide)) (portCtr_ne (by decide))]
  · obtain ⟨c, e, hcount, -⟩ := s.macCounted_shape p data.length bad
    obtain ⟨c', hdrop⟩ := ({ s with cnt := c, eports := e } : State).countPort_shape p 31 1
    rw [hcount, hdrop]

variable (hrun : s.isDraining 0 p = false)
include hrun

theorem frameReceive_taken : exec (.frameReceive p data fcsBad errored) s =
    .next ((s.macCounted p data.length bad).takeFrame p data bad) := by
  rw [frameReceive_whole hw hlive hup hbad hlong hfits, hpause, hpfc, hrun]
  rfl

theorem frameReceive_blitz {k out cls : Nat}
    (hblitz : s.blitzEntry p (parse (s.parseCfgOf (p / 16) p none) data) = some (k, out, cls)) :
    Yields (.frameReceive p data fcsBad errored) s fun t =>
      ((t.eport out).tx.map fun x => (x.fid, x.cls, x.startNs, x.blitz)) = some (s.nextFid, cls, s.nowNs, some data) ∧
      (t.sq (p / 16)).blitz.length = (s.sq (p / 16)).blitz.length + 1 ∧ t.nextFid = s.nextFid + 1 := by
  obtain ⟨c, e, hcount, hsend⟩ := s.macCounted_shape p data.length bad
  obtain ⟨b, htake⟩ := s.takeFrame_blitz c hsend p data bad hblitz
  refine ⟨_, frameReceive_taken hw hlive hup hbad hlong hfits hpause hpfc hrun, ?_⟩
  rw [hcount, htake]
  exact State.blitzForward_sends _ p k out cls _ _ data

section
variable (hblitz : s.blitzEntry p (parse (s.parseCfgOf (p / 16) p none) data) = none) {l : Nat} {ctx : Option Ctx}
  (hl : l = s.rxLane p)
  (hctx : ctx = s.preview (p / 16) s.book.epoch (parse (s.parseCfgOf (p / 16) p none) data))
include hblitz hl hctx

theorem frameReceive_full (hfull : 64 ≤ ((s.laneReady (p / 16) l ctx).xing (p / 16) l).length) :
    Yields (.frameReceive p data fcsBad errored) s fun t =>
      t.counter (sqWord (p / 16) 0) = bumpWord (s.counter (sqWord (p / 16) 0)) 1 ∧
      t.sqs = (s.laneReady (p / 16) l ctx).sqs ∧
      t = { s with cnt := t.cnt, eports := t.eports, sqs := t.sqs, nextFid := s.nextFid + 1
                   time := { s.time with bcStamps := t.time.bcStamps } } := by
  obtain ⟨c, e, hcount, hsend⟩ := s.macCounted_shape p data.length bad
  have hkept := State.counter_macCounted s data.length bad (o := sqWord (p / 16) 0)
    (sqWord_ne_portCtr (lt_of_portLive hlive) (by decide) _ _) (sqWord_ne_portCtr (lt_of_portLive hlive) (by decide) _ _)
    (sqWord_ne_portCtr (lt_of_portLive hlive) (by decide) _ _)
  obtain ⟨b, htake⟩ := s.takeFrame_packed c hsend p data bad hblitz hctx
  obtain ⟨⟨q, hready⟩, -⟩ := OnlySq.laneReady s (p / 16) l ctx
  refine ⟨_, frameReceive_taken hw hlive hup hbad hlong hfits hpause hpfc hrun, ?_⟩
  rw [hcount] at hkept ⊢
  rw [htake, ← hl, State.packAt_full (hl ▸ State.rxLane_lt hlive) (by exact hfull)]
  refine ⟨(State.counter_count _ _).trans (congrArg (bumpWord · 1) hkept), ?_⟩
  rw [State.count_one, hready]
  exact ⟨rfl, rfl⟩

theorem frameReceive_room (hroom : ((s.laneReady (p / 16) l ctx).xing (p / 16) l).length < 64)
    (hfresh : ∀ c ∈ (s.openCell (p / 16) l).cell :: (s.xing (p / 16) l ++
      SMap.get (fun _ => []) (s.sq (p / 16)).backlog l), ∀ g ∈ c.segs, g.fid ≠ s.nextFid) :
    Yields (.frameReceive p data fcsBad errored) s fun t =>
      (∀ cs : List RawCell, cs = t.xing (p / 16) l ++
        (SMap.get (fun _ => []) (t.sq (p / 16)).backlog l ++ [(t.openCell (p / 16) l).cell]) →
        laneHolds cs s.nextFid p s.stamp32 data) ∧
      (∀ k, k ≠ p / 16 → t.sq k = s.sq k) ∧
      t = { s with cnt := t.cnt, eports := t.eports, sqs := t.sqs, nextFid := s.nextFid + 1
                   time := { s.time with bcStamps := t.time.bcStamps } } := by
  obtain ⟨c, e, hcount, hsend⟩ := s.macCounted_shape p data.length bad
  obtain ⟨b, htake⟩ := s.takeFrame_packed c hsend p data bad hblitz hctx
  obtain ⟨⟨q, hready⟩, hothers⟩ := OnlySq.laneReady s (p / 16) l ctx
  refine ⟨_, frameReceive_taken hw hlive hup hbad hlong hfits hpause hpfc hrun, ?_⟩
  rw [hcount, htake, ← hl]
  obtain ⟨⟨room, hword, hsegs⟩, ⟨q', hpack⟩, hpacked⟩ := State.packAt_room
    (s := (s.laneReady (p / 16) l ctx).atMac c e (s.nextFid + 1) b) (hl ▸ State.rxLane_lt hlive) hroom ctx
    (s.macHdr p data bad) (parse (s.parseCfgOf (p / 16) p none) data) data
  have hlane : ((s.laneReady (p / 16) l ctx).atMac c e (s.nextFid + 1) b).laneSegs (p / 16) l =
      s.laneSegs (p / 16) l := s.laneSegs_laneReady (p / 16) l ctx
  refine ⟨fun cs hcs => ?_, fun k hk => (hpacked k hk).trans (hothers k hk), ?_⟩
  · refine laneHolds_of_segs (h := s.macHdr p data bad) (old := s.laneSegs (p / 16) l) hword ?_
      (State.fid_ne_of_laneSegs hfresh) rfl
    rw [hcs, State.flatMap_lane, hsegs, hlane]
  · rw [hpack, hready]
    rfl

end

end

end

/-- Settles O42: what the MAC takes of a frame, and where its bytes go. -/
theorem framesAtTheMac : Obligations.FramesAtTheMac := by
  unfold Obligations.FramesAtTheMac
  refine fun p data fcsBad errored bad s hw hbad => ⟨fun h => frameReceive_idle hw h data fcsBad errored,
    fun hlive hup => ⟨frameReceive_short hw hlive hup hbad, fun hlong hover => ⟨fun hdrop => ?_, fun hrun hcut => ?_⟩,
    fun hlong hfits => ⟨frameReceive_control hw hlive hup hbad hlong hfits,
      frameReceive_pfc hw hlive hup hbad hlong hfits,
      frameReceive_draining hw hlive hup hbad hlong hfits, fun hpause hpfc hrun =>
        ⟨fun k out cls => frameReceive_blitz hw hlive hup hbad hlong hfits hpause hpfc hrun,
        fun u l ctx hblitz hl hctx hu => ?_⟩⟩⟩⟩
  · rw [frameReceive_oversize hw hlive hup hbad hlong hover]
    unfold State.oversize
    dsimp only
    rw [if_neg]
    rw [Bool.and_eq_true]
    rintro ⟨hrun, hcut⟩
    rcases hdrop with hdrain | hstop
    · rw [hdrain] at hrun
      cases hrun
    · cases hstop.symm.trans hcut
  · rw [frameReceive_oversize hw hlive hup hbad hlong hover]
    unfold State.oversize
    dsimp only
    rw [hrun, hcut]
    rfl
  · subst hu
    exact ⟨frameReceive_full hw hlive hup hbad hlong hfits hpause hpfc hrun hblitz hl hctx,
      frameReceive_room hw hlive hup hbad hlong hfits hpause hpfc hrun hblitz hl hctx⟩

end Sys2Proof.Machine
end

section
/-!
SUPPORT. Cells that enter the crossings towards the core, and PFC as it is received, ends and is sent again (O43).
-/

namespace Sys2Proof.Machine

/-! ### An open cell that closes (R147) -/

/-- A crossing that takes cells leaves the square's other crossings. -/
theorem State.xing_pushXing_ne (s : State) (i : Nat) {l m : Nat} (cs : List RawCell) (hm : m ≠ l) :
    (s.pushXing i l cs).xing i m = s.xing i m := by
  rw [State.xing, s.sq_pushXing]
  exact SMap.get_set_ne _ _ _ hm

theorem State.openCell_pushXing_lane (s : State) (i l m : Nat) (cs : List RawCell) :
    (s.pushXing i l cs).openCell i m = s.openCell i m := by
  rw [State.openCell, s.sq_pushXing]
  rfl

theorem State.xing_setOpen (s : State) (i l m : Nat) (c : OpenCell) : (s.setOpen i l c).xing i m = s.xing i m := by
  rw [State.xing, s.sq_setOpen]
  rfl

theorem State.openCell_setOpen_ne (s : State) (i : Nat) {l m : Nat} (c : OpenCell) (hm : m ≠ l) :
    (s.setOpen i l c).openCell i m = s.openCell i m := by
  rw [State.openCell, s.sq_setOpen]
  exact SMap.get_set_ne _ _ _ hm

theorem OnlySq.pushXing (s : State) (i l : Nat) (cs : List RawCell) : OnlySq i s (s.pushXing i l cs) := .modSq s i _

section
variable {s : State} (hu : Up s) {i l : Nat}
include hu

theorem packHoldExpire_closes {e : Nat} (hend : (s.openCell i l).endSlot = some e)
    (hdue : e + s.packHold ≤ s.tour.slot) : exec (.packHoldExpire i l) s = .next (s.closeCell i l) := by
  change execPackHoldExpire i l s = _
  simp only [execPackHoldExpire, gated_up hu, hend, if_pos hdue]

theorem packHoldExpire_idle (h : (s.openCell i l).endSlot = none ∨
    ∃ e, (s.openCell i l).endSlot = some e ∧ s.tour.slot < e + s.packHold) :
    exec (.packHoldExpire i l) s = .next s := by
  change execPackHoldExpire i l s = _
  rcases h with hrun | ⟨e, hend, hearly⟩
  · simp only [execPackHoldExpire, gated_up hu, hrun]
  · simp only [execPackHoldExpire, gated_up hu, hend, if_neg (Nat.not_le.mpr hearly)]

/-- A cell due to close goes behind the cells on their way into its crossing. -/
theorem packHoldExpire_joins {e : Nat} (hend : (s.openCell i l).endSlot = some e)
    (hdue : e + s.packHold ≤ s.tour.slot) (hfull : (s.openCell i l).cell.segs ≠ []) :
    Yields (.packHoldExpire i l) s fun t =>
      t.laneCells i l = s.laneCells i l ++ [(s.openCell i l).cell] ∧ t.openCell i l = {} ∧
      (∀ m, m ≠ l → t.xing i m = s.xing i m ∧ t.openCell i m = s.openCell i m) ∧
      (∀ k, k ≠ i → t.sq k = s.sq k) ∧ t = { s with sqs := t.sqs } := by
  obtain ⟨⟨q, hshape⟩, hothers⟩ := OnlySq.closeCell s i l
  refine ⟨_, packHoldExpire_closes hu hend hdue, ?_, ?_, fun m hm => ?_, hothers, by rw [hshape]⟩
  · rw [s.closeCell_eq, if_neg hfull, State.laneCells_setOpen, State.laneCells_pushXing]
  · rw [s.closeCell_eq, if_neg hfull, State.openCell_setOpen]
  · rw [s.closeCell_eq, if_neg hfull, State.xing_setOpen, State.openCell_setOpen_ne _ _ _ hm,
      s.xing_pushXing_ne _ _ hm, State.openCell_pushXing_lane]
    exact ⟨rfl, rfl⟩

end

/-! ### A recirculated frame (R76, R377) -/

/-- The header of a recirculated frame as its second pass begins. -/
def RecircFrame.secondHdr (f : RecircFrame) : FrameHdr := { f.hdr with second := some f.sm }

/-- The parse that a recirculated frame starts its second pass with (R77). -/
def State.secondPassParse (s : State) (f : RecircFrame) : Parse :=
  parse (s.parseCfgOf (f.sm.origPort / 16) f.sm.origPort (some f.sm)) f.bytes

/-- The cells of a recirculated frame: its own, a segment in each. -/
def State.secondPassCells (s : State) (f : RecircFrame) : List RawCell :=
  fillCells {} none f.hdr.fid (s.secondPassParse f) (frameSegs f.secondHdr f.bytes 256)

theorem State.secondPassCells_segs (s : State) (f : RecircFrame) : (s.secondPassCells f).flatMap (fun c => c.segs) =
    frameSegs f.secondHdr f.bytes 256 := by
  obtain ⟨-, rest, g, hsegs, -⟩ := exists_frameSegs_head f.secondHdr f.bytes 256
  refine (flatMap_fillCells ?_).trans (List.nil_append _)
  rw [hsegs]
  exact List.cons_ne_nil _ _

theorem State.secondPassCells_bytes (s : State) (f : RecircFrame) :
    ((s.secondPassCells f).flatMap fun c => c.segs).flatMap (fun g => g.bytes) = f.bytes := by
  rw [s.secondPassCells_segs, frameSegs_bytes _ (by decide)]

theorem State.secondPassCells_fid (s : State) (f : RecircFrame) :
    ∀ c ∈ s.secondPassCells f, ∀ g ∈ c.segs, g.fid = f.hdr.fid := by
  intro c hc g hg
  have hmem := List.mem_flatMap.mpr ⟨c, hc, hg⟩
  rw [s.secondPassCells_segs] at hmem
  exact fid_of_mem_frameSegs (h := f.secondHdr) hmem

/-- Square `i` with its oldest recirculated frame `f` in the recirculation crossing, and `fs` left. -/
def State.recircMoved (s : State) (i : Nat) (f : RecircFrame) (fs : List RecircFrame) : State :=
  (s.modSq i fun q => { q with recirc := fs }).pushXing i 4 (s.secondPassCells f)

theorem State.laneCells_recircMoved (s : State) (i : Nat) (f : RecircFrame) (fs : List RecircFrame) :
    (s.recircMoved i f fs).laneCells i 4 = s.laneCells i 4 ++ s.secondPassCells f := by
  rw [State.recircMoved, State.laneCells_pushXing, State.laneCells, State.xing, State.sq_modSq, if_pos rfl]
  rfl

theorem State.recirc_recircMoved (s : State) (i : Nat) (f : RecircFrame) (fs : List RecircFrame) :
    ((s.recircMoved i f fs).sq i).recirc = fs := by
  rw [State.recircMoved, State.sq_pushXing, State.sq_modSq, if_pos rfl]
  rfl

/-- What a port counts of a frame does not depend on its square. -/
theorem State.cnt_portIn_sqs (s : State) (x : SMap Sq) (p n : Nat) :
    (State.portIn { s with sqs := x } p n).cnt = (s.portIn p n).cnt := by
  unfold State.portIn State.countPort State.count
  repeat' split
  all_goals rfl

theorem OnlySq.recircMoved (s : State) (i : Nat) (f : RecircFrame) (fs : List RecircFrame) :
    OnlySq i s (s.recircMoved i f fs) := (OnlySq.modSq s i _).trans (.pushXing _ i 4 _)

section
variable {s : State} (hu : Up s) {i : Nat}
include hu

theorem recircParse_idle (h : (s.sq i).recirc = [] ∨ 32 ≤ (s.xing i 4).length) :
    exec (.recircParse i) s = .next s := by
  change execRecircParse i s = _
  rw [execRecircParse, gated_up hu]
  rcases h with hnone | hfull
  · simp only [hnone]
  · split
    · rfl
    · exact congrArg _ (if_pos (show coreDepth 4 ≤ _ from hfull))

theorem recircParse_eq {f : RecircFrame} {fs : List RecircFrame} (hf : (s.sq i).recirc = f :: fs)
    (hroom : (s.xing i 4).length < 32) :
    exec (.recircParse i) s = .next ((s.recircMoved i f fs).portIn (1024 + i) f.bytes.length) := by
  change execRecircParse i s = _
  rw [execRecircParse, gated_up hu]
  simp only [hf]
  rw [if_neg (show ¬ coreDepth 4 ≤ (s.xing i 4).length from Nat.not_le.mpr hroom)]
  unfold State.recircMoved State.secondPassCells fillCells
  simp only [ite_self, List.nil_append]
  rfl

/-- A recirculated frame enters its crossing whole, and its port counts it. -/
theorem recircParse_enters {f : RecircFrame} {fs : List RecircFrame} (hf : (s.sq i).recirc = f :: fs)
    (hroom : (s.xing i 4).length < 32) : Yields (.recircParse i) s fun t =>
      (t.sq i).recirc = fs ∧
      (∃ cs : List RawCell, t.laneCells i 4 = s.laneCells i 4 ++ cs ∧
        ((cs.flatMap fun c => c.segs).flatMap fun g => g.bytes) = f.bytes ∧
        ∀ c ∈ cs, ∀ g ∈ c.segs, g.fid = f.hdr.fid) ∧
      t.cnt = (s.portIn (1024 + i) f.bytes.length).cnt ∧
      (∀ k, k ≠ i → t.sq k = s.sq k) ∧ t = { s with sqs := t.sqs, cnt := t.cnt } := by
  obtain ⟨⟨x, hmoved⟩, hothers⟩ := OnlySq.recircMoved s i f fs
  obtain ⟨c, hcount⟩ := (s.recircMoved i f fs).portIn_shape (1024 + i) f.bytes.length
  refine ⟨_, recircParse_eq hu hf hroom, ?_,
    ⟨s.secondPassCells f, ?_, s.secondPassCells_bytes f, s.secondPassCells_fid f⟩, ?_, fun k hk => ?_, ?_⟩
  · rw [hcount]
    exact s.recirc_recircMoved i f fs
  · rw [hcount]
    exact s.laneCells_recircMoved i f fs
  · rw [hmoved, State.cnt_portIn_sqs]
  · rw [hcount]
    exact hothers k hk
  · rw [hcount, hmoved]

end

/-! ### Counts and tags of a port -/

/-- Tagging a port's queues changes the queues alone. -/
theorem State.tagPort_shape (s : State) (p : Nat) : ∃ q, s.tagPort p = { s with queues := q } := by
  unfold State.tagPort
  refine List.foldlRecOn (motive := fun t : State => ∃ q, t = { s with queues := q }) _ _ ⟨s.queues, rfl⟩ ?_
  rintro _ ⟨q, rfl⟩ n -
  unfold State.tagQueue State.setTag
  split
  · exact ⟨q, rfl⟩
  · exact ⟨_, rfl⟩

/-- Count 1 for each of the priorities `ks` of a port, from word `w` of its set. -/
def State.countPris (s : State) (p w : Nat) (ks : List Nat) : State :=
  ks.foldl (fun s k => s.countPort p (w + k) 1) s

theorem State.countPris_shape (s : State) (p w : Nat) (ks : List Nat) :
    ∃ c, s.countPris p w ks = { s with cnt := c } := by
  refine List.foldlRecOn (motive := fun t : State => ∃ c, t = { s with cnt := c }) _ _ ⟨s.cnt, rfl⟩ ?_
  rintro _ ⟨c, rfl⟩ k -
  exact State.countPort_shape _ _ _ _

theorem State.counter_countPris (s : State) {p : Nat} (hp : p < 1024) (w : Nat) {ks : List Nat} (hks : ks.Nodup)
    (k : Nat) : (s.countPris p w ks).counter (portCtr p (w + k)) =
      if k ∈ ks then bumpWord (s.counter (portCtr p (w + k))) 1 else s.counter (portCtr p (w + k)) := by
  induction ks generalizing s with
  | nil => rfl
  | cons j js ih =>
    obtain ⟨hj, hjs⟩ := List.nodup_cons.mp hks
    refine (ih (s.countPort p (w + j) 1) hjs).trans ?_
    by_cases hk : k = j
    · subst hk
      rw [if_neg hj, if_pos List.mem_cons_self, s.counter_countPort_self hp]
    · rw [State.counter_countPort _ (portCtr_ne (by omega))]
      simp only [List.mem_cons, hk, false_or]

/-! ### Pauses (R191) -/

/-- The time until which a received PFC frame's time `n` pauses a priority; a time of 0 ends the pause. -/
def State.pauseEnd (s : State) (p n : Nat) : Tick :=
  if n = 0 then 0 else s.elapsed + n * 512 * tickNs / s.carriedRate p

/-- Priority `k` of a port is paused until `t`. -/
def State.setPause (s : State) (p k : Nat) (t : Tick) : State :=
  s.modSq (p / 16) fun q => { q with pause := SMap.set (fun _ => 0) q.pause (8 * (p % 16) + k) t }

/-- The time until which entry `j` of a square's pauses holds. -/
def State.pauseAt (s : State) (i j : Nat) : Tick := SMap.get (fun _ => 0) (s.sq i).pause j

theorem State.pauseAt_setPause (s : State) (p k j : Nat) (t : Tick) : (s.setPause p k t).pauseAt (p / 16) j =
    if j = 8 * (p % 16) + k then t else s.pauseAt (p / 16) j := by
  rw [State.pauseAt, State.setPause, State.sq_modSq, if_pos rfl]
  exact SMap.get_set _ _ _ _ _

/-- The priorities `ks` of a port take the times `ts` of a received frame. -/
def State.pausePris (s : State) (p : Nat) (ts ks : List Nat) : State :=
  ks.foldl (fun s k => s.setPause p k (s.pauseEnd p (ts.getD k 0))) s

theorem OnlySq.pausePris (s : State) (p : Nat) (ts ks : List Nat) : OnlySq (p / 16) s (s.pausePris p ts ks) := by
  refine List.foldlRecOn (motive := OnlySq (p / 16) s) _ _ (.refl _ s) ?_
  exact fun u hu k _ => hu.trans (.modSq u _ _)

theorem State.pauseAt_pausePris (s : State) (p : Nat) (ts ks : List Nat) (k : Nat) :
    (s.pausePris p ts ks).pauseAt (p / 16) (8 * (p % 16) + k) =
      if k ∈ ks then s.pauseEnd p (ts.getD k 0) else s.pauseAt (p / 16) (8 * (p % 16) + k) := by
  induction ks generalizing s with
  | nil => rfl
  | cons j js ih =>
    refine (ih (s.setPause p j (s.pauseEnd p (ts.getD j 0)))).trans ?_
    have hend (n : Nat) : (s.setPause p j (s.pauseEnd p (ts.getD j 0))).pauseEnd p n = s.pauseEnd p n := rfl
    rw [hend, State.pauseAt_setPause]
    by_cases hk : k = j
    · subst hk
      rw [if_pos rfl, ite_self, if_pos List.mem_cons_self]
    · have hne : 8 * (p % 16) + k ≠ 8 * (p % 16) + j := by omega
      simp only [hne, if_false, List.mem_cons, hk, false_or]

/-- The priorities that a received frame enables. -/
theorem mem_bitList {v n k : Nat} : k ∈ bitList v n ↔ k < n ∧ bit v k = true := by
  rw [bitList, List.mem_filter, List.mem_range]

theorem nodup_bitList (v n : Nat) : (bitList v n).Nodup := List.nodup_range.filter _

/-- The priorities whose reception of PFC is enabled at a port (R191). -/
def State.pfcRxEn (s : State) (p : Nat) : Nat := fld (s.inForce (A.pfcCfg (p / 16) (p % 16))) 31 24

/-- The counts and the pauses of a received PFC frame, before the queues are tagged again. -/
def State.pfcTaken (s : State) (p v : Nat) (ts : List Nat) : State :=
  (s.countPris p 8 (bitList v 8)).pausePris p ts ((bitList v 8).filter (bit (s.pfcRxEn p)))

theorem State.pfcReceived_eq (s : State) (p v : Nat) (ts : List Nat) : s.pfcReceived p v ts =
    if (bitList v 8).any (fun k => !bit (s.pfcRxEn p) k) then ((s.pfcTaken p v ts).tagPort p).countPort p 55 1
    else (s.pfcTaken p v ts).tagPort p := rfl

theorem State.pfcTaken_shape (s : State) (p v : Nat) (ts : List Nat) :
    (∃ c x, s.pfcTaken p v ts = { s with cnt := c, sqs := x }) ∧
    ∀ i, i ≠ p / 16 → (s.pfcTaken p v ts).sq i = s.sq i := by
  obtain ⟨c, hcount⟩ := s.countPris_shape p 8 (bitList v 8)
  unfold State.pfcTaken
  rw [hcount]
  obtain ⟨⟨x, hpause⟩, hothers⟩ :=
    OnlySq.pausePris { s with cnt := c } p ts ((bitList v 8).filter (bit (s.pfcRxEn p)))
  exact ⟨⟨c, x, hpause⟩, hothers⟩

theorem State.counter_pfcTaken (s : State) {p k : Nat} (hp : p < 1024) (hk : k < 8) (v : Nat) (ts : List Nat) :
    (s.pfcTaken p v ts).counter (portCtr p (8 + k)) =
      if bit v k then bumpWord (s.counter (portCtr p (8 + k))) 1 else s.counter (portCtr p (8 + k)) := by
  obtain ⟨⟨x, hpause⟩, -⟩ :=
    OnlySq.pausePris (s.countPris p 8 (bitList v 8)) p ts ((bitList v 8).filter (bit (s.pfcRxEn p)))
  rw [State.pfcTaken, hpause]
  refine (s.counter_countPris hp 8 (nodup_bitList v 8) k).trans ?_
  simp only [mem_bitList, hk, true_and]

theorem State.pauseAt_pfcTaken (s : State) (p : Nat) {k : Nat} (hk : k < 8) (v : Nat) (ts : List Nat) :
    (s.pfcTaken p v ts).pauseAt (p / 16) (8 * (p % 16) + k) =
      if bit v k && bit (s.pfcRxEn p) k then s.pauseEnd p (ts.getD k 0)
      else s.pauseAt (p / 16) (8 * (p % 16) + k) := by
  obtain ⟨c, hcount⟩ := s.countPris_shape p 8 (bitList v 8)
  rw [State.pfcTaken, State.pauseAt_pausePris, hcount]
  simp only [List.mem_filter, mem_bitList, hk, true_and, Bool.and_eq_true]
  rfl

/-- Behind its counts and pauses, a received frame tags the port's queues and may count once more, in word 55. -/
theorem State.pfcReceived_shape (s : State) (p v : Nat) (ts : List Nat) :
    ∃ c q, s.pfcReceived p v ts = { s.pfcTaken p v ts with cnt := c, queues := q } ∧
      ∀ k < 8, (s.pfcReceived p v ts).counter (portCtr p (8 + k)) =
        (s.pfcTaken p v ts).counter (portCtr p (8 + k)) := by
  obtain ⟨q, htag⟩ := (s.pfcTaken p v ts).tagPort_shape p
  rw [s.pfcReceived_eq, htag]
  split
  · obtain ⟨c, hcount⟩ := State.countPort_shape { s.pfcTaken p v ts with queues := q } p 55 1
    exact ⟨c, q, hcount, fun k hk => State.counter_countPort _ (portCtr_ne (by omega))⟩
  · exact ⟨_, q, rfl, fun _ _ => rfl⟩

/-! ### PFC_RECEIVE -/

section
variable {s : State} (hw : Wired s) {p : Nat} (v : BitVec 8) (ts : List Nat)
include hw

theorem pfcReceive_idle (h : s.portLive p = false ∨ (s.link p).up = false) :
    exec (.pfcReceive p v ts) s = .next s := by
  change execPfcReceive p v ts s = _
  rw [execPfcReceive, atPins_wired hw, if_neg]
  rcases h with hdead | hdown
  · simp [hdead]
  · simp [hdown]

theorem pfcReceive_eq (hlive : s.portLive p = true) (hup : (s.link p).up = true) :
    exec (.pfcReceive p v ts) s = .next (s.pfcReceived p v.toNat ts) := by
  change execPfcReceive p v ts s = _
  rw [execPfcReceive, atPins_wired hw, if_pos (by simp [hlive, hup])]

/-- A received frame counts each priority that it enables, and pauses each whose reception is enabled. -/
theorem pfcReceive_pauses (hlive : s.portLive p = true) (hup : (s.link p).up = true) :
    Yields (.pfcReceive p v ts) s fun t =>
      (∀ k < 8, t.counter (portCtr p (8 + k)) =
        if bit v.toNat k then bumpWord (s.counter (portCtr p (8 + k))) 1 else s.counter (portCtr p (8 + k))) ∧
      (∀ k < 8, t.pauseAt (p / 16) (8 * (p % 16) + k) =
        if bit v.toNat k && bit (s.pfcRxEn p) k then s.pauseEnd p (ts.getD k 0)
        else s.pauseAt (p / 16) (8 * (p % 16) + k)) ∧
      (∀ i, i ≠ p / 16 → t.sq i = s.sq i) ∧ t = { s with sqs := t.sqs, cnt := t.cnt, queues := t.queues } := by
  obtain ⟨c, q, hshape, hcounts⟩ := s.pfcReceived_shape p v.toNat ts
  obtain ⟨⟨c', x, htaken⟩, hothers⟩ := s.pfcTaken_shape p v.toNat ts
  refine ⟨_, pfcReceive_eq hw v ts hlive hup, fun k hk => ?_, fun k hk => ?_, fun i hi => ?_, ?_⟩
  · rw [hcounts k hk, s.counter_pfcTaken (lt_of_portLive hlive) hk]
  · rw [hshape]
    exact s.pauseAt_pfcTaken p hk v.toNat ts
  · rw [hshape]
    exact hothers i hi
  · rw [hshape, htaken]

end

/-! ### PFC_PAUSE_EXPIRE and PFC_REFRESH (R189, R191) -/

section
variable {s : State} (hu : Up s) {p k : Nat}
include hu

theorem pfcPauseExpire_early (h : s.elapsed < s.pauseAt (p / 16) (8 * (p % 16) + k)) :
    exec (.pfcPauseExpire p k) s = .next s := by
  change execPfcPauseExpire p k s = _
  rw [execPfcPauseExpire, gated_up hu]
  exact congrArg _ (if_neg (Nat.not_le.mpr h))

theorem pfcPauseExpire_eq (h : s.pauseAt (p / 16) (8 * (p % 16) + k) ≤ s.elapsed) :
    exec (.pfcPauseExpire p k) s = .next ((s.setPause p k 0).tagPort p) := by
  change execPfcPauseExpire p k s = _
  rw [execPfcPauseExpire, gated_up hu]
  exact congrArg _ (if_pos h)

theorem pfcPauseExpire_ends (h : s.pauseAt (p / 16) (8 * (p % 16) + k) ≤ s.elapsed) :
    Yields (.pfcPauseExpire p k) s fun t =>
      t.pauseAt (p / 16) (8 * (p % 16) + k) = 0 ∧
      (∀ j, j ≠ 8 * (p % 16) + k → t.pauseAt (p / 16) j = s.pauseAt (p / 16) j) ∧
      t = { s with sqs := t.sqs, queues := t.queues } := by
  obtain ⟨q, htag⟩ := (s.setPause p k 0).tagPort_shape p
  refine ⟨_, pfcPauseExpire_eq hu h, ?_, fun j hj => ?_, ?_⟩
  · rw [htag]
    exact (s.pauseAt_setPause p k _ 0).trans (if_pos rfl)
  · rw [htag]
    exact (s.pauseAt_setPause p k j 0).trans (if_neg hj)
  · rw [htag]
    rfl

/-- Half of the XOFF time of a priority has passed since its last frame (R189). -/
def State.xoffHalf (s : State) (p k : Nat) : Tick :=
  SMap.get (fun _ => 0) (s.sq (p / 16)).xoffAt (8 * (p % 16) + k) + s.quanta * 256 * tickNs / s.carriedRate p

theorem pfcRefresh_eq : exec (.pfcRefresh p k) s = .next (
    if s.inXoff p k && decide (s.xoffHalf p k ≤ s.elapsed) then s.sendPfc p [(k, s.quanta)] else s) := by
  change execPfcRefresh p k s = _
  rw [execPfcRefresh, gated_up hu]
  rfl

theorem pfcRefresh_idle (h : s.inXoff p k = false ∨ (s.link p).up = false ∨ s.elapsed < s.xoffHalf p k) :
    exec (.pfcRefresh p k) s = .next s := by
  rw [pfcRefresh_eq hu]
  rcases h with hxon | hdown | hearly
  · simp [hxon]
  · have hunsent : s.sendPfc p [(k, s.quanta)] = s := if_pos (.inr (by simp [hdown]))
    rw [hunsent, ite_self]
  · rw [if_neg (by simp [hearly])]

/-- A priority still in XOFF sends its frame again, which its port counts. -/
theorem pfcRefresh_sends (hp : p < 1024) (hxoff : s.inXoff p k = true) (hup : (s.link p).up = true)
    (hhalf : s.xoffHalf p k ≤ s.elapsed) : Yields (.pfcRefresh p k) s fun t =>
      t.io = { s.io with pfc := (p, s.pfcFrame [(k, s.quanta)]) :: s.io.pfc } ∧
      t.counter (portCtr p (16 + k)) = bumpWord (s.counter (portCtr p (16 + k))) 1 ∧
      t = { s with sqs := t.sqs, cnt := t.cnt, io := t.io } := by
  refine ⟨s.sendPfc p [(k, s.quanta)], ?_, State.sendPfc_io (List.cons_ne_nil _ _) hup, ?_⟩
  · rw [pfcRefresh_eq hu, if_pos (by simp [hxoff, hhalf])]
  · rw [State.sendPfc, if_neg (by simp [hup])]
    refine ⟨State.counter_countPort_self _ hp _, ?_⟩
    obtain ⟨c, hcount⟩ := State.countPort_shape
      { s with io := { s.io with pfc := (p, s.pfcFrame [(k, s.quanta)]) :: s.io.pfc } } p (16 + k) 1
    dsimp only [List.foldl_cons, List.foldl_nil]
    rw [hcount]
    rfl

end

/-- Settles O43: a cell that closes, a recirculated frame, and PFC as it is received, ends and is sent again. -/
theorem crossingsAndPauses : Obligations.CrossingsAndPauses := by
  unfold Obligations.CrossingsAndPauses
  refine ⟨fun i l s hu => ⟨fun e => packHoldExpire_joins hu, packHoldExpire_idle hu,
      fun f fs => recircParse_enters hu, recircParse_idle hu⟩,
    fun p s hp => ⟨fun v ts hw => pfcReceive_pauses hw v ts, fun v ts hw => pfcReceive_idle hw v ts,
      fun k hu => pfcPauseExpire_early hu, fun k hu => pfcPauseExpire_ends hu,
      fun k _ hu => pfcRefresh_sends hu hp, fun k hu => pfcRefresh_idle hu⟩⟩

end Sys2Proof.Machine
end

section
/-! SUPPORT. Repair and scrub of the Book's words (R138). -/

namespace Sys2Proof.Machine

/-! ### The marks of bad words -/

theorem State.wordBad_setBadWord (s : State) (h : EccHit) (b : Bool) :
    (s.setBadWord (eccKey h) b).wordBad h h.replica = b := SMap.get_set_same _ _ _ _

/-! ### BOOK_ECC_REPAIR and BOOK_SCRUB -/

section
variable {s : State} (hu : Up s) {h : EccHit}
include hu

theorem bookEccRepair_idle {x : Option Nat} (hx : s.wordBad h h.replica = false ∨ s.repairSource h ≠ x) :
    exec (.bookEccRepair h x) s = .next s := by
  change execBookEccRepair h x s = _
  rw [execBookEccRepair, gated_up hu, if_neg]
  rcases hx with hgood | hother
  · simp [hgood]
  · simp [hother]

theorem bookEccRepair_lost (hbad : s.wordBad h h.replica = true) (hsrc : s.repairSource h = none) :
    exec (.bookEccRepair h none) s = .next (s.faultEvent 15) := by
  change execBookEccRepair h none s = _
  rw [execBookEccRepair, gated_up hu, if_pos (by simp [hbad, hsrc])]

theorem bookEccRepair_eq {j : Nat} (hbad : s.wordBad h h.replica = true) (hsrc : s.repairSource h = some j) :
    exec (.bookEccRepair h (some j)) s = .next (
      if h.area = 2 then { s.setBadWord (eccKey h) false with book := { (s.setBadWord (eccKey h) false).book with
        learn := tmod s.book.learn (h.word / 2) fun y => { y with hit := setBit y.hit (h.replica % 8) true } } }
      else s.setBadWord (eccKey h) false) := by
  change execBookEccRepair h (some j) s = _
  rw [execBookEccRepair, gated_up hu, if_pos (by simp [hbad, hsrc])]
  rfl

theorem bookEccRepair_learnCache {j : Nat} (hbad : s.wordBad h h.replica = true) (hsrc : s.repairSource h = some j)
    (harea : h.area = 2) : Yields (.bookEccRepair h (some j)) s fun t => t.wordBad h h.replica = false ∧
      t = { s with book := { s.book with badWords := t.book.badWords, learn := t.book.learn } } := by
  refine ⟨_, bookEccRepair_eq hu hbad hsrc, ?_⟩
  rw [if_pos harea]
  exact ⟨s.wordBad_setBadWord h false, rfl⟩

theorem bookScrub_none : exec (.bookScrub h 0) s = .next s := by
  change execBookScrub h 0 s = _
  rw [execBookScrub, gated_up hu, if_pos rfl]

theorem bookScrub_single : exec (.bookScrub h 1) s = .next (s.eccSbe h) := by
  change execBookScrub h 1 s = _
  rw [execBookScrub, gated_up hu, if_neg Nat.one_ne_zero, if_pos rfl]

theorem bookScrub_double {n : Nat} (hn : 2 ≤ n) : exec (.bookScrub h n) s = .next (s.eccUe h) := by
  change execBookScrub h n s = _
  rw [execBookScrub, gated_up hu, if_neg (by omega), if_neg (by omega)]

end

/-- Settles O15: a repair takes the mark off a bad word, and a scrub visit acts on the wrong bits that it meets. -/
theorem bookEcc : Obligations.BookEcc := by
  unfold Obligations.BookEcc
  exact fun h s hu => ⟨fun j hbad hsrc harea => (bookEccRepair_eq hu hbad hsrc).trans (congrArg _ (if_neg harea)),
    fun j => bookEccRepair_learnCache hu, bookEccRepair_lost hu, fun x => bookEccRepair_idle hu, bookScrub_none hu,
    bookScrub_single hu, fun n => bookScrub_double hu⟩

end Sys2Proof.Machine
end

section
/-! SUPPORT. Bits of a mask, and a bit set to a value. -/

namespace Sys2Proof.Machine

theorem bit_zero (v : Nat) : bit v 0 = (v % 2 == 1) := by
  rw [bit, Nat.pow_zero, Nat.div_one]

theorem bit_succ (v k : Nat) : bit v (k + 1) = bit (v / 2) k := by
  rw [bit, bit, Nat.div_div_eq_div_mul, Nat.pow_succ']

theorem two_pow_le_of_bit {v k : Nat} (h : bit v k = true) : 2 ^ k ≤ v := by
  by_contra hlt
  simp [bit, Nat.div_eq_of_lt (Nat.not_le.mp hlt)] at h

theorem setBit_zero (v : Nat) (b : Bool) : setBit v 0 b = 2 * (v / 2) + b2n b := by
  rw [setBit, bit_zero]
  cases b <;> simp [b2n] <;> split <;> omega

theorem setBit_succ (v k : Nat) (b : Bool) : setBit v (k + 1) b = 2 * setBit (v / 2) k b + v % 2 := by
  rw [setBit, setBit, bit_succ]
  split
  · omega
  · next hne =>
    cases b with
    | true =>
      simp only [if_true, Nat.pow_succ]
      omega
    | false =>
      have hle : 2 ^ k ≤ v / 2 := two_pow_le_of_bit (by simpa using hne)
      simp only [Bool.false_eq_true, if_false, Nat.pow_succ]
      omega

theorem bit_setBit (v k : Nat) (b : Bool) (j : Nat) : bit (setBit v k b) j = if j = k then b else bit v j := by
  induction k generalizing v j with
  | zero =>
    rw [setBit_zero]
    cases j with
    | zero => cases b <;> simp [bit_zero, b2n, Nat.add_mod]
    | succ j =>
      have hb : b2n b ≤ 1 := by cases b <;> decide
      have hhalf : (2 * (v / 2) + b2n b) / 2 = v / 2 := by omega
      simp [bit_succ, hhalf]
  | succ k ih =>
    rw [setBit_succ]
    cases j with
    | zero => simp [bit_zero, Nat.add_mod]
    | succ j =>
      have hhalf : (2 * setBit (v / 2) k b + v % 2) / 2 = setBit (v / 2) k b := by omega
      simp [bit_succ, hhalf, ih]

theorem bit_setBit_self (v k : Nat) (b : Bool) : bit (setBit v k b) k = b := by rw [bit_setBit, if_pos rfl]

theorem bit_setBit_same {v k j : Nat} {b : Bool} (h : bit v j = b) : bit (setBit v k b) j = b := by
  rw [bit_setBit, h, ite_self]

/-- A fold over a list has what one of its items brings about and no item takes back, in states of which `Q` holds. -/
theorem foldl_of_mem {σ β : Type} {f : σ → β → σ} {Q P : σ → Prop} {b : β} (hQ : ∀ s c, Q s → Q (f s c))
    (hset : ∀ s, Q s → P (f s b)) (hkeep : ∀ s c, Q s → P s → P (f s c)) {l : List β} (hb : b ∈ l) {s : σ} (hs : Q s) :
    P (l.foldl f s) := by
  induction l generalizing s with
  | nil => cases hb
  | cons c l ih =>
    by_cases hl : b ∈ l
    · exact ih hl (hQ s c hs)
    · obtain rfl : b = c := (List.mem_cons.mp hb).resolve_right hl
      have hall := List.foldlRecOn l f (motive := fun s => Q s ∧ P s) ⟨hQ s b hs, hset s hs⟩
        fun t ht c _ => ⟨hQ t c ht.1, hkeep t c ht.1 ht.2⟩
      exact hall.2

/-- A mask folded over a list has the value that one of its items gives a bit and no item takes back. -/
theorem bit_foldl {f : Nat → Nat → Nat} {v : Nat} {b : Bool} (hset : ∀ m, bit (f m v) v = b)
    (hkeep : ∀ m u, bit m v = b → bit (f m u) v = b) {l : List Nat} (hv : v ∈ l) (m : Nat) :
    bit (l.foldl f m) v = b :=
  foldl_of_mem (Q := fun _ => True) (P := fun m => bit m v = b) (fun _ _ h => h) (fun m _ => hset m)
    (fun m u _ => hkeep m u) hv trivial

end Sys2Proof.Machine
end

section
/-! SUPPORT. What a change of the Book's active sides leaves alone, and commands whose effect is on the Book. -/

namespace Sys2Proof.Machine

/-! ### After a change of the active sides (R96, R206, R214, R220, R224, R335) -/

/-- What follows a change of the Book's active sides touches buckets, shapers, tags and gate lists, posts events, and
takes the phase schedule again; nothing else. -/
def TableFrame (s t : State) : Prop := t = { s with
  regs := t.regs, sqs := t.sqs, queues := t.queues, eports := t.eports, host := t.host, cnt := t.cnt, io := t.io
  power := { s.power with schedOn := t.power.schedOn, schedLast := t.power.schedLast } }

theorem TableFrame.refl (s : State) : TableFrame s s := rfl

theorem TableFrame.trans {s t u : State} (h : TableFrame s t) (k : TableFrame t u) : TableFrame s u := by
  unfold TableFrame at *
  rw [k, h]

theorem TableFrame.foldl {α : Type} {f : State → α → State} (h : ∀ s a, TableFrame s (f s a)) (l : List α)
    (s : State) : TableFrame s (l.foldl f s) :=
  List.foldlRecOn l f (motive := TableFrame s) (.refl s) fun t ht a _ => ht.trans (h t a)

theorem TableFrame.of_post {s t : State} (h : PostFrame s t) : TableFrame s t := by
  unfold TableFrame
  rw [h]

theorem TableFrame.book {s t : State} (h : TableFrame s t) : t.book = s.book := by rw [h]

theorem TableFrame.modSq (s : State) (i : Nat) (f : Sq → Sq) : TableFrame s (s.modSq i f) := rfl
theorem TableFrame.modQueue (s : State) (q : Nat) (f : Queue → Queue) : TableFrame s (s.modQueue q f) := rfl
theorem TableFrame.modEport (s : State) (p : Nat) (f : EPort → EPort) : TableFrame s (s.modEport p f) := rfl

theorem TableFrame.repolicy (s s0 : State) (full : Bool) (is : List Nat) : TableFrame s (s.repolicy s0 full is) :=
  .foldl (fun s _ => .foldl (fun s _ => .modSq s _ _) _ s) is s

theorem TableFrame.reshape (s s0 : State) : TableFrame s (s.reshape s0) :=
  (TableFrame.foldl (fun s _ => .modQueue s _ _) _ s).trans (.foldl (fun s _ => .modEport s _ _) _ _)

theorem TableFrame.setTag (s : State) (q : Nat) (x : Option Nat) : TableFrame s (s.setTag q x) := by
  unfold State.setTag
  split <;> rfl

theorem TableFrame.keepTags (s s0 : State) : TableFrame s (s.keepTags s0) := .foldl (fun s _ => .setTag s _ _) _ s

theorem TableFrame.remeter (s s0 : State) (i : Nat) (ms : List Nat) : TableFrame s (s.remeter s0 i ms) := by
  unfold State.remeter
  exact .modSq s i _

/-- Meters, shapers and tags carried over a change of records. -/
theorem TableFrame.carried (s s0 : State) (ms : List Nat) (is : List Nat) :
    TableFrame s (((is.foldl (fun s i => s.remeter s0 i ms) s).reshape s0).keepTags s0) := by
  have hmeters : TableFrame s (is.foldl (fun s i => s.remeter s0 i ms) s) :=
    .foldl (fun s i => .remeter s s0 i ms) is s
  exact (hmeters.trans (.reshape _ s0)).trans (.keepTags _ s0)

theorem TableFrame.startGclLoad (s : State) (p : Nat) : TableFrame s (s.startGclLoad p) := by
  unfold State.startGclLoad
  dsimp only
  split <;> rfl

theorem TableFrame.installSchedule (s : State) : TableFrame s s.installSchedule := by
  unfold State.installSchedule
  dsimp only
  split
  · exact TableFrame.trans (by rfl) (.of_post (.postAt _ _ _ _ _ _ _))
  · rfl

theorem TableFrame.afterBook (s s0 : State) (vs : List Nat) (full : Bool) : TableFrame s (s.afterBook s0 vs full) := by
  have hpol : TableFrame s (if vs.contains 0 then s.repolicy s0 full squares else s) := by
    split
    · exact .repolicy s s0 full squares
    · exact .refl s
  have hrec (u : State) : TableFrame u (if vs.contains 8 then
      ((squares.foldl (fun t i => t.remeter s0 i (changedMeters s0 s)) u).reshape s0).keepTags s0 else u) := by
    split
    · exact .carried u s0 _ squares
    · exact .refl u
  have hsched (u : State) : TableFrame u (if vs.contains 11 then u.installSchedule else u) := by
    split
    · exact .installSchedule u
    · exact .refl u
  exact (hpol.trans (hrec _)).trans (hsched _)

theorem TableFrame.startGclLoads (s : State) : TableFrame s s.startGclLoads := .foldl .startGclLoad _ s

/-- A due turn swaps the Book's sides; what follows touches the tables alone. -/
theorem State.swapTurn_frame {s : State} {x : Turn} (hx : s.book.turn = some x) :
    TableFrame { s with book := s.book.swap x s.elapsed } s.swapTurn := by
  unfold State.swapTurn
  simp only [hx]
  split
  · exact (TableFrame.afterBook _ _ _ _).trans (.startGclLoads _)
  · exact .afterBook _ _ _ _

end Sys2Proof.Machine
end

section
/-! SUPPORT. BOOK_WRITE, BOOK_TURN and BOOK_LOAD (R106, R130, R133, R137, R294). -/

namespace Sys2Proof.Machine

/-- The state with another Book. -/
def State.withBook (s : State) (b : Book) : State := { s with book := b }

/-- A served command that answers with the Book changed and nothing else. -/
theorem yields_book {i : Instr} {op st res : Nat} {c : Cmd} {ok : Bool} {f : State → CmdOut} {s : State} {b : Book}
    (hx : exec i s = gated s (runCmd op c ok f)) (ho : op < 65536) (ht : Takes s c) (hok : ok = true)
    (hf : f (accepted op c s) = .ret ((accepted op c s).withBook b) st res) {P : State → Prop}
    (hP : ∀ t, t.book = b → Returns (s.withBook b) t c op st res → P t) : Yields i s P :=
  ⟨_, exec_eq_completeCmd hx ht hok hf, hP _ (PostFrame.of_return (.completeCmd _ _ _ _ _)).book
    (returns_completeCmd ho c (s.withBook b) st res)⟩

/-- A parameter block that cannot be read is answered HOST_ERR (R301). -/
theorem yields_hostErr {i : Instr} {op : Nat} {c : Cmd} {ok : Bool} {f : List Byte → State → CmdOut} {s : State}
    (hx : exec i s = gated s (runCmd op c ok (withBlock c .err f))) (ho : op < 65536) (ht : Takes s c)
    (hok : ok = true) : Yields i s fun t => Answered t c op stHostErr 0 :=
  ⟨_, exec_eq_completeCmd hx ht hok rfl, answered_completeCmd ho _ _ _ _⟩

/-! ### Words written to a side (R130) -/

theorem Book.foldl_putWord_standby (v : Nat) (off : Nat → Nat) (word : Nat → W64) (ks : List Nat) (b : Book) :
    ∃ bad, ks.foldl (fun b k => b.putWord v true (off k) (word k)) b = { b with
      standby := ks.foldl (fun m k => SMap.set (fun _ => 0) m (bookKey v (off k / 8)) (word k)) b.standby
      badWords := bad } := by
  induction ks generalizing b with
  | nil => exact ⟨_, rfl⟩
  | cons k ks ih =>
    obtain ⟨bad, h⟩ := ih (b.putWord v true (off k) (word k))
    exact ⟨bad, h⟩

theorem Book.foldl_putWord_active (v : Nat) (off : Nat → Nat) (word : Nat → W64) (ks : List Nat) (b : Book) :
    ∃ bad, ks.foldl (fun b k => b.putWord v false (off k) (word k)) b = { b with
      active := ks.foldl (fun m k => SMap.set (fun _ => 0) m (bookKey v (off k / 8)) (word k)) b.active
      badWords := bad } := by
  induction ks generalizing b with
  | nil => exact ⟨_, rfl⟩
  | cons k ks ih =>
    obtain ⟨bad, h⟩ := ih (b.putWord v false (off k) (word k))
    exact ⟨bad, h⟩

/-- A side with the pairs of a write group written. -/
def groupSide (bs : List Byte) (side : SMap W64) : SMap W64 :=
  (List.range (leAt bs 2 1)).foldl (fun m k =>
    SMap.set (fun _ => 0) m (bookKey (leAt bs 0 1) (groupOff bs k / 8)) (groupWord bs k)) side

theorem State.applyGroup_standby (s : State) {bs : List Byte} (hside : leAt bs 1 1 = 1) :
    ∃ bad, s.applyGroup bs = s.withBook { s.book with
      standby := groupSide bs s.book.standby, loaded := setBit s.book.loaded (leAt bs 0 1) true
      badWords := bad } := by
  obtain ⟨bad, h⟩ := Book.foldl_putWord_standby (leAt bs 0 1) (groupOff bs) (groupWord bs)
    (List.range (leAt bs 2 1)) s.book
  refine ⟨bad, ?_⟩
  simp only [State.applyGroup, hside, beq_self_eq_true, if_true, h]
  rfl

theorem State.applyGroup_active (s : State) {bs : List Byte} (hside : leAt bs 1 1 = 0) :
    ∃ b, TableFrame (s.withBook b) (s.applyGroup bs) ∧ b.active = groupSide bs s.book.active ∧
      b.standby = s.book.standby := by
  obtain ⟨bad, h⟩ := Book.foldl_putWord_active (leAt bs 0 1) (groupOff bs) (groupWord bs)
    (List.range (leAt bs 2 1)) s.book
  refine ⟨_, ?_, congrArg Book.active h, ?_⟩
  case refine_2 => exact (congrArg Book.standby h).trans rfl
  have hact : (leAt bs 1 1 == 1) = false := by rw [hside]; rfl
  simp only [State.applyGroup, hact, Bool.false_eq_true, if_false]
  split
  · exact (TableFrame.afterBook _ _ _ _).trans (.startGclLoads _)
  · split
    · exact (TableFrame.afterBook _ _ _ _).trans (.foldl .startGclLoad _ _)
    · exact .afterBook _ _ _ _

theorem State.writeGroup_cases (s : State) (bs : List Byte) :
    (∃ st, st ≠ stOk ∧ s.writeGroup bs = (s, st)) ∨ s.writeGroup bs = (s.applyGroup bs, stOk) := by
  unfold State.writeGroup
  dsimp only
  repeat' split
  · exact .inl ⟨stInvalid, by decide, rfl⟩
  · exact .inl ⟨stTarget, by decide, rfl⟩
  · exact .inl ⟨stBusy, by decide, rfl⟩
  · exact .inr rfl

theorem State.writeGroup_refused {s : State} {bs : List Byte} {st : Nat} (hst : (s.writeGroup bs).2 = st)
    (hne : st ≠ stOk) : s.writeGroup bs = (s, st) := by
  rcases s.writeGroup_cases bs with ⟨st', -, h⟩ | hok
  · rw [h] at hst ⊢
    rw [← hst]
  · exact absurd (hst.symm.trans (congrArg Prod.snd hok)) hne

theorem State.writeGroup_good {s : State} {bs : List Byte} (h : (s.writeGroup bs).2 = stOk) :
    s.writeGroup bs = (s.applyGroup bs, stOk) := by
  rcases s.writeGroup_cases bs with ⟨st, hne, hst⟩ | hok
  · exact absurd ((congrArg Prod.snd hst).symm.trans h) hne
  · exact hok

theorem State.writeGroup_invalid {s : State} {bs : List Byte}
    (h : leAt bs 2 1 = 0 ∨ 32 < leAt bs 2 1 ∨ 1 < leAt bs 1 1) : (s.writeGroup bs).2 = stInvalid := by
  unfold State.writeGroup
  dsimp only
  rw [if_pos]
  tauto

/-- The checks of a write group read nothing but the Book. -/
theorem State.writeGroup_status {s t : State} (h : t.book = s.book) (bs : List Byte) :
    (t.writeGroup bs).2 = (s.writeGroup bs).2 := by
  simp only [State.writeGroup, h, apply_ite Prod.snd]

theorem accepted_writeGroup (op : Nat) (c : Cmd) (s : State) (bs : List Byte) :
    ((accepted op c s).writeGroup bs).2 = (s.writeGroup bs).2 := by
  have hbook : (accepted op c s).book = s.book := rfl
  rw [State.writeGroup_status hbook]

/-! ### BOOK_WRITE -/

theorem bookParamsOk {c : Cmd} (h1 : c.p1 = 0) (h2 : c.p2 = 0) : (p1Below c 0 && p2Below c 0) = true := by
  simp [p1Below, p2Below, h1, h2]

/-- The effect of BOOK_WRITE on the state in which it is accepted. -/
def groupAnswer (bs : List Byte) (s : State) : CmdOut := .ret (s.writeGroup bs).1 (s.writeGroup bs).2 0

theorem exec_bookWrite (c : Cmd) (r : HostRead) (s : State) : exec (.bookWrite c r) s =
    gated s (runCmd 0x20 c (p1Below c 0 && p2Below c 0) (withBlock c r groupAnswer)) := rfl

theorem groupAnswer_of {bs : List Byte} {s t : State} {st : Nat} (h : s.writeGroup bs = (t, st)) :
    groupAnswer bs s = .ret t st 0 := by
  rw [groupAnswer, h]

section
variable {c : Cmd} {bs : List Byte} {s : State} (ht : Takes s c) (h1 : c.p1 = 0) (h2 : c.p2 = 0)
include ht h1 h2

theorem bookWrite_refused {st : Nat} (hst : (s.writeGroup bs).2 = st) (hne : st ≠ stOk) :
    Yields (.bookWrite c (.ok bs)) s fun t => Returns s t c 0x20 st 0 :=
  yields_returns (exec_bookWrite c (.ok bs) s) (by decide) ht (bookParamsOk h1 h2)
    (groupAnswer_of (State.writeGroup_refused ((accepted_writeGroup 0x20 c s bs).trans hst) hne))

theorem bookWrite_standby (h : (s.writeGroup bs).2 = stOk) (hside : leAt bs 1 1 = 1) :
    Yields (.bookWrite c (.ok bs)) s fun t => Returns { s with book := t.book } t c 0x20 stOk 0 ∧
      bit t.book.loaded (leAt bs 0 1) = true ∧
      t.book = { s.book with standby := groupSide bs s.book.standby, loaded := t.book.loaded
                             badWords := t.book.badWords } := by
  obtain ⟨bad, happly⟩ := (accepted 0x20 c s).applyGroup_standby hside
  have hgood := State.writeGroup_good ((accepted_writeGroup 0x20 c s bs).trans h)
  rw [happly] at hgood
  refine yields_book (exec_bookWrite c (.ok bs) s) (by decide) ht (bookParamsOk h1 h2) (groupAnswer_of hgood) ?_
  intro t hb hret
  refine ⟨by rw [hb]; exact hret, ?_, ?_⟩
  · rw [hb]
    exact bit_setBit_self _ _ _
  · rw [hb]
    rfl

theorem bookWrite_active (h : (s.writeGroup bs).2 = stOk) (hside : leAt bs 1 1 = 0) :
    Yields (.bookWrite c (.ok bs)) s fun t => Answered t c 0x20 stOk 0 ∧ t.book.standby = s.book.standby ∧
      t.book.active = groupSide bs s.book.active := by
  obtain ⟨b, hframe, hact, hstand⟩ := (accepted 0x20 c s).applyGroup_active hside
  have hgood := State.writeGroup_good ((accepted_writeGroup 0x20 c s bs).trans h)
  refine ⟨_, exec_eq_completeCmd (exec_bookWrite c (.ok bs) s) ht (bookParamsOk h1 h2) (groupAnswer_of hgood),
    answered_completeCmd (by decide) c _ stOk 0, ?_⟩
  rw [(PostFrame.of_return (.completeCmd _ _ _ _ _)).book, hframe.book]
  exact ⟨hstand, hact⟩

end

end Sys2Proof.Machine
end

section
/-! SUPPORT. BOOK_TURN and BOOK_LOAD (R106, R133, R137). -/

namespace Sys2Proof.Machine

/-! ### BOOK_TURN (R133) -/

/-- The Book with a turn committed: it waits with the next epoch. -/
def Book.committed (b : Book) (mask act : Nat) : Book :=
  { b with turn := some { epoch := (b.epoch + 1) % 256, mask := mask, act := act } }

theorem State.commitTurn_busy {s : State} (h : s.book.turn.isSome = true ∨ s.book.old.isSome = true) (mask act : Nat) :
    s.commitTurn mask act = (s, stBusy) := if_pos h

section
variable {s : State} {mask : Nat} (hturn : s.book.turn = none) (hold : s.book.old = none)
include hturn hold

theorem State.commitTurn_invalid (hbad : s.book.turnValid mask = false) (act : Nat) :
    s.commitTurn mask act = (s, stInvalid) := by
  simp [State.commitTurn, hturn, hold, hbad]

theorem State.commitTurn_good (hgood : s.book.turnValid mask = true) (act : Nat) : s.commitTurn mask act =
    (if !s.tour.running && !bit mask 10 && (act == 0 || decide (act ≤ s.nowNs))
      then (s.withBook (s.book.committed mask act)).swapTurn else s.withBook (s.book.committed mask act), stOk) := by
  rw [State.commitTurn, if_neg (by simp [hturn, hold]), if_neg (by simp [hgood])]
  rfl

theorem State.commitTurn_waits (hgood : s.book.turnValid mask = true) {act : Nat}
    (hwait : s.tour.running = true ∨ bit mask 10 = true ∨ (act ≠ 0 ∧ s.nowNs < act)) :
    s.commitTurn mask act = (s.withBook (s.book.committed mask act), stOk) := by
  rw [s.commitTurn_good hturn hold hgood, if_neg]
  rcases hwait with hrun | hvol | ⟨hne, hlate⟩
  · simp [hrun]
  · simp [hvol]
  · simp [hne, hlate]

theorem State.commitTurn_made (hgood : s.book.turnValid mask = true) (hrun : s.tour.running = false)
    (hvol : bit mask 10 = false) :
    s.commitTurn mask 0 = ((s.withBook (s.book.committed mask 0)).swapTurn, stOk) := by
  rw [s.commitTurn_good hturn hold hgood, if_pos (by simp [hrun, hvol])]

end

/-- The effect of BOOK_TURN on the state in which it is accepted. -/
def turnAnswer (c : Cmd) (s : State) : CmdOut :=
  .ret (s.commitTurn c.p0.toNat c.p1.toNat).1 (s.commitTurn c.p0.toNat c.p1.toNat).2 0

theorem turnAnswer_of {c : Cmd} {s t : State} {st : Nat} (h : s.commitTurn c.p0.toNat c.p1.toNat = (t, st)) :
    turnAnswer c s = .ret t st 0 := by
  rw [turnAnswer, h]

theorem exec_bookTurn (c : Cmd) (s : State) : exec (.bookTurn c) s =
    gated s (runCmd 0x21 c (p0Below c 16 && p2Below c 0) (turnAnswer c)) := rfl

section
variable {c : Cmd} {s : State} (ht : Takes s c) (h0 : c.p0.toNat < 65536) (h2 : c.p2 = 0)
include h0 h2

theorem turnParamsOk : (p0Below c 16 && p2Below c 0) = true := by
  simp [p0Below, p2Below, h0, h2]

include ht

theorem bookTurn_busy (h : s.book.turn.isSome = true ∨ s.book.old.isSome = true) :
    Yields (.bookTurn c) s fun t => Returns s t c 0x21 stBusy 0 :=
  yields_returns (exec_bookTurn c s) (by decide) ht (turnParamsOk h0 h2)
    (turnAnswer_of (State.commitTurn_busy (s := accepted 0x21 c s) h _ _))

variable (hturn : s.book.turn = none) (hold : s.book.old = none)
include hturn hold

theorem bookTurn_invalid (hbad : s.book.turnValid c.p0.toNat = false) :
    Yields (.bookTurn c) s fun t => Returns s t c 0x21 stInvalid 0 :=
  yields_returns (exec_bookTurn c s) (by decide) ht (turnParamsOk h0 h2)
    (turnAnswer_of (State.commitTurn_invalid (s := accepted 0x21 c s) hturn hold hbad _))

theorem bookTurn_waits (hgood : s.book.turnValid c.p0.toNat = true)
    (hwait : s.tour.running = true ∨ bit c.p0.toNat 10 = true ∨ (c.p1.toNat ≠ 0 ∧ s.nowNs < c.p1.toNat)) :
    Yields (.bookTurn c) s fun t =>
      Returns { s with book := s.book.committed c.p0.toNat c.p1.toNat } t c 0x21 stOk 0 :=
  yields_book (exec_bookTurn c s) (by decide) ht (turnParamsOk h0 h2)
    (turnAnswer_of (State.commitTurn_waits (s := accepted 0x21 c s) hturn hold hgood hwait)) fun _ _ hret => hret

theorem bookTurn_made (hgood : s.book.turnValid c.p0.toNat = true) (hrun : s.tour.running = false)
    (hvol : bit c.p0.toNat 10 = false) (h1 : c.p1 = 0) : Yields (.bookTurn c) s fun t => Answered t c 0x21 stOk 0 ∧
      t.book.epoch = (s.book.epoch + 1) % 256 ∧ t.book.turn = none ∧
      t.book.old = some { epoch := s.book.epoch, mask := c.p0.toNat, swapAt := s.elapsed } := by
  have hmade := State.commitTurn_made (s := accepted 0x21 c s) hturn hold hgood hrun hvol
  have hact : c.p1.toNat = 0 := by rw [h1]; rfl
  refine ⟨_, exec_eq_completeCmd (exec_bookTurn c s) ht (turnParamsOk h0 h2) (turnAnswer_of (hact ▸ hmade)),
    answered_completeCmd (by decide) c _ stOk 0, ?_⟩
  rw [(PostFrame.of_return (.completeCmd _ _ _ _ _)).book, (State.swapTurn_frame rfl).book]
  exact ⟨rfl, rfl, rfl⟩

end

end Sys2Proof.Machine
end

section
/-! SUPPORT. BOOK_LOAD (R106, R137). -/

namespace Sys2Proof.Machine

/-! ### BOOK_LOAD (R106, R137) -/

/-- Words written in many areas: nothing but the marks of bad words changes. -/
theorem Book.foldl_clearArea (area lo n : Book → Nat → Nat) (vs : List Nat) (b : Book) :
    vs.foldl (fun b v => b.clearArea (area b v) (lo b v) (n b v)) b = { b with
      badWords := (vs.foldl (fun b v => b.clearArea (area b v) (lo b v) (n b v)) b).badWords } := by
  induction vs generalizing b with
  | nil => rfl
  | cons v vs ih => exact ih (b.clearArea (area b v) (lo b v) (n b v))

/-- The standby sides that an image fills. -/
def Book.imageSides (b : Book) (bs : List Byte) : SMap W64 :=
  (imageSections bs).foldl (applySection bs) (b.clearedStandby bs)

theorem State.loadImage_busy {s : State} (h : s.book.turn.isSome = true ∨ s.book.old.isSome = true) (bs : List Byte)
    (len : Nat) : s.loadImage bs len = (s, stBusy) := if_pos h.symm

/-- A good image fills the standby sides and marks the volumes of its mask loaded. -/
theorem State.loadImage_good {s : State} {bs : List Byte} {len : Nat} (hst : (s.loadImage bs len).2 = stOk) :
    ∃ b, s.loadImage bs len = (s.withBook b, stOk) ∧
      b = { s.book with standby := s.book.imageSides bs, newMap := b.newMap, loaded := b.loaded
                        badWords := b.badWords } ∧
      ∀ v < 13, bit (imageMask bs) v = true → bit b.loaded v = true := by
  unfold State.loadImage at hst ⊢
  dsimp only at hst ⊢
  split
  · next h => rw [if_pos h] at hst; cases hst
  · next h =>
    rw [if_neg h] at hst
    split
    · refine ⟨_, rfl, ?_, fun v hv hmask => bit_foldl (fun m => ?_) (fun m u hm => ?_)
        (List.mem_range.mpr (by omega)) _⟩
      · dsimp only
        rw [Book.foldl_clearArea]
        rfl
      · rw [if_pos hmask]
        exact bit_setBit_self _ _ _
      · split
        · exact bit_setBit_same hm
        · next hu =>
          have hne : v ≠ u := fun heq => hu (heq ▸ hmask)
          split
          · rw [bit_setBit, if_neg hne, hm]
          · exact hm
    · next hbad => rw [if_neg hbad] at hst; cases hst

/-- A bad image leaves the volumes of its mask not loaded. -/
theorem State.loadImage_bad {s : State} {bs : List Byte} {len : Nat} (hst : (s.loadImage bs len).2 = stInvalid) :
    ∃ b, s.loadImage bs len = (s.withBook b, stInvalid) ∧ b = { s.book with loaded := b.loaded } ∧
      ∀ v < 13, bit (imageMask bs) v = true → bit b.loaded v = false := by
  unfold State.loadImage at hst ⊢
  dsimp only at hst ⊢
  split
  · next h => rw [if_pos h] at hst; cases hst
  · next h =>
    rw [if_neg h] at hst
    split
    · next hgood => rw [if_pos hgood] at hst; cases hst
    · refine ⟨_, rfl, rfl, fun v hv hmask => bit_foldl (fun m => ?_) (fun m u hm => ?_)
        (List.mem_range.mpr (by omega)) _⟩
      · rw [if_pos hmask]
        exact bit_setBit_self _ _ _
      · split
        · exact bit_setBit_same hm
        · exact hm

/-- The checks of an image read nothing but the Book. -/
theorem State.loadImage_status {s t : State} (h : t.book = s.book) (bs : List Byte) (len : Nat) :
    (t.loadImage bs len).2 = (s.loadImage bs len).2 := by
  simp only [State.loadImage, h, apply_ite Prod.snd]

theorem accepted_loadImage (op : Nat) (c : Cmd) (s : State) (bs : List Byte) (len : Nat) :
    ((accepted op c s).loadImage bs len).2 = (s.loadImage bs len).2 := by
  have hbook : (accepted op c s).book = s.book := rfl
  rw [State.loadImage_status hbook]

/-- The effect of BOOK_LOAD on the state in which it is accepted. -/
def imageAnswer (c : Cmd) (bs : List Byte) (s : State) : CmdOut :=
  .ret (s.loadImage bs c.p2.toNat).1 (s.loadImage bs c.p2.toNat).2 0

theorem imageAnswer_of {c : Cmd} {bs : List Byte} {s t : State} {st : Nat} (h : s.loadImage bs c.p2.toNat = (t, st)) :
    imageAnswer c bs s = .ret t st 0 := by
  rw [imageAnswer, h]

theorem exec_bookLoad (c : Cmd) (r : HostRead) (s : State) : exec (.bookLoad c r) s =
    gated s (runCmd 0x22 c (p1Below c 0) (withBlock c r (imageAnswer c))) := rfl

section
variable {c : Cmd} {bs : List Byte} {s : State} (ht : Takes s c) (h1 : c.p1 = 0)
include h1

theorem imageParamsOk : p1Below c 0 = true := by simp [p1Below, h1]

include ht

theorem bookLoad_busy (h : s.book.turn.isSome = true ∨ s.book.old.isSome = true) :
    Yields (.bookLoad c (.ok bs)) s fun t => Returns s t c 0x22 stBusy 0 :=
  yields_returns (exec_bookLoad c (.ok bs) s) (by decide) ht (imageParamsOk h1)
    (imageAnswer_of (State.loadImage_busy (s := accepted 0x22 c s) h bs _))

theorem bookLoad_good (hst : (s.loadImage bs c.p2.toNat).2 = stOk) : Yields (.bookLoad c (.ok bs)) s fun t =>
    Returns { s with book := { s.book with
      standby := s.book.imageSides bs, newMap := t.book.newMap, loaded := t.book.loaded
      badWords := t.book.badWords } } t c 0x22 stOk 0 ∧
    ∀ v < 13, bit (imageMask bs) v = true → bit t.book.loaded v = true := by
  obtain ⟨b, hload, hb, hloaded⟩ := State.loadImage_good ((accepted_loadImage 0x22 c s bs _).trans hst)
  refine yields_book (exec_bookLoad c (.ok bs) s) (by decide) ht (imageParamsOk h1) (imageAnswer_of hload) ?_
  intro t ht hret
  rw [ht]
  exact ⟨hb ▸ hret, hloaded⟩

theorem bookLoad_bad (hst : (s.loadImage bs c.p2.toNat).2 = stInvalid) : Yields (.bookLoad c (.ok bs)) s fun t =>
    Returns { s with book := { s.book with loaded := t.book.loaded } } t c 0x22 stInvalid 0 ∧
    ∀ v < 13, bit (imageMask bs) v = true → bit t.book.loaded v = false := by
  obtain ⟨b, hload, hb, hloaded⟩ := State.loadImage_bad ((accepted_loadImage 0x22 c s bs _).trans hst)
  refine yields_book (exec_bookLoad c (.ok bs) s) (by decide) ht (imageParamsOk h1) (imageAnswer_of hload) ?_
  intro t ht hret
  rw [ht]
  exact ⟨hb ▸ hret, hloaded⟩

end

/-- Settles O13: the checks of the Book commands in their order, and what a good group, turn or image changes. -/
theorem bookCommands : Obligations.BookCommands := by
  unfold Obligations.BookCommands
  refine ⟨fun c bs s ht h1 h2 => ⟨?_, fun h => bookWrite_refused ht h1 h2 rfl h, fun h => ?_,
      bookWrite_standby ht h1 h2, bookWrite_active ht h1 h2⟩,
    fun c s ht h0 h2 => ⟨bookTurn_busy ht h0 h2, bookTurn_invalid ht h0 h2, bookTurn_waits ht h0 h2,
      bookTurn_made ht h0 h2⟩,
    fun c bs s ht h1 => ⟨?_, bookLoad_busy ht h1, bookLoad_good ht h1, bookLoad_bad ht h1⟩⟩
  · exact yields_hostErr (exec_bookWrite c .err s) (by decide) ht (bookParamsOk h1 h2)
  · exact bookWrite_refused ht h1 h2 (State.writeGroup_invalid h) (by decide)
  · exact yields_hostErr (exec_bookLoad c .err s) (by decide) ht (imageParamsOk h1)

end Sys2Proof.Machine
end

section
/-!
SUPPORT. The fault unit, the pools, the queues and the pull buffer keep the mesh's timing, the Book in force, the
power settings and the channels; they take no square out of X, no cell out of the resequencer and no claim away.
-/

namespace Sys2Proof.Machine

/-! ### What those operations leave alone -/

/-- The timing of the mesh, the Book, the power settings and device time, without what a port that goes down, a square
that joins X, the phase schedule or a message of the boundary clock service changes in them. -/
def State.beat (s : State) : Tour × Book × Power × TimeSt :=
  ({ s.tour with x := 0, xSource := [], attHost := 0, attSvc := 0 }, { s.book with lsv := [] },
    { s.power with serdes := [], schedOn := false, schedLast := 0 },
    { s.time with bcPorts := [], bcClass := 0, bcStamps := [], bcSync := [] })

/-- The beat and the channels are as before, and no square has left X. -/
structure Timed (s t : State) : Prop where
  beat : t.beat = s.beat
  chans : t.triad.chans = s.triad.chans
  x : ∀ i, bit s.tour.x i = true → bit t.tour.x i = true

/-- Nor have the resequencer's contexts and the claims of any square changed. -/
structure Steady (s t : State) : Prop extends Timed s t where
  ctxOut : ∀ i, (t.sq i).ctxOut = (s.sq i).ctxOut
  claims : ∀ i, (t.sq i).claims = (s.sq i).claims

theorem Timed.refl (s : State) : Timed s s := ⟨rfl, rfl, fun _ h => h⟩

theorem Timed.trans {s t u : State} (h : Timed s t) (k : Timed t u) : Timed s u :=
  ⟨k.beat.trans h.beat, k.chans.trans h.chans, fun i hi => k.x i (h.x i hi)⟩

theorem Timed.foldl {α : Type} {f : State → α → State} (h : ∀ s a, Timed s (f s a)) (l : List α) (s : State) :
    Timed s (l.foldl f s) :=
  List.foldlRecOn l f (motive := Timed s) (.refl s) fun t ht a _ => ht.trans (h t a)

theorem Timed.ite {c : Prop} [Decidable c] {s t u : State} (ht : Timed s t) (hu : Timed s u) :
    Timed s (if c then t else u) := by
  split
  · exact ht
  · exact hu

theorem Steady.refl (s : State) : Steady s s := ⟨.refl s, fun _ => rfl, fun _ => rfl⟩

theorem Steady.trans {s t u : State} (h : Steady s t) (k : Steady t u) : Steady s u :=
  ⟨h.toTimed.trans k.toTimed, fun i => (k.ctxOut i).trans (h.ctxOut i), fun i => (k.claims i).trans (h.claims i)⟩

theorem Steady.foldl {α : Type} {f : State → α → State} (h : ∀ s a, Steady s (f s a)) (l : List α) (s : State) :
    Steady s (l.foldl f s) :=
  List.foldlRecOn l f (motive := Steady s) (.refl s) fun t ht a _ => ht.trans (h t a)

theorem Steady.ite {c : Prop} [Decidable c] {s t u : State} (ht : Steady s t) (hu : Steady s u) :
    Steady s (if c then t else u) := by
  split
  · exact ht
  · exact hu

theorem Steady.thenIf {c : Prop} [Decidable c] {s t u : State} (ht : Steady s t) (hu : Steady t u) :
    Steady s (if c then u else t) := .ite (ht.trans hu) ht

/-- An operation on the other parts of the device. -/
theorem Steady.of_eq {s t : State}
    (h : (t.beat, t.triad.chans, t.tour.x, t.sqs) = (s.beat, s.triad.chans, s.tour.x, s.sqs)) : Steady s t := by
  simp only [Prod.mk.injEq] at h
  obtain ⟨hbeat, hchans, hx, hsqs⟩ := h
  have hsq (i : Nat) : t.sq i = s.sq i := by rw [State.sq, hsqs, ← State.sq]
  exact ⟨⟨hbeat, hchans, fun i h => by rwa [hx]⟩, fun i => by rw [hsq], fun i => by rw [hsq]⟩

theorem Steady.of_post {s t : State} (h : PostFrame s t) : Steady s t := by
  rw [h]
  exact .of_eq rfl

theorem Timed.modSq (s : State) (i : Nat) (f : Sq → Sq) : Timed s (s.modSq i f) := ⟨rfl, rfl, fun _ h => h⟩

theorem Steady.modSq {s : State} {i : Nat} {f : Sq → Sq}
    (h : ∀ q, ((f q).ctxOut, (f q).claims) = (q.ctxOut, q.claims)) : Steady s (s.modSq i f) := by
  have hctx q : (f q).ctxOut = q.ctxOut := congrArg Prod.fst (h q)
  have hclaims q : (f q).claims = q.claims := congrArg Prod.snd (h q)
  refine ⟨.modSq s i f, fun j => ?_, fun j => ?_⟩ <;> rw [s.sq_modSq] <;> split
  · next h => rw [hctx, h]
  · rfl
  · next h => rw [hclaims, h]
  · rfl

/-! ### The basic updates -/

theorem Steady.setReg (s : State) (a : Nat) (v : Reg) : Steady s (s.setReg a v) := .of_eq rfl
theorem Steady.setForce (s : State) (a : Nat) (v : Reg) : Steady s (s.setForce a v) := .of_eq rfl
theorem Steady.latch (s : State) (as : List Nat) : Steady s (s.latch as) := .of_eq rfl
theorem Steady.orReg (s : State) (a v : Nat) : Steady s (s.orReg a v) := .of_eq rfl
theorem Steady.modLane (s : State) (k : Nat) (f : Lane → Lane) : Steady s (s.modLane k f) := .of_eq rfl
theorem Steady.modLink (s : State) (p : Nat) (f : Link → Link) : Steady s (s.modLink p f) := .of_eq rfl
theorem Steady.modQueue (s : State) (q : Nat) (f : Queue → Queue) : Steady s (s.modQueue q f) := .of_eq rfl
theorem Steady.modEport (s : State) (p : Nat) (f : EPort → EPort) : Steady s (s.modEport p f) := .of_eq rfl
theorem Steady.modRing (s : State) (n : Nat) (f : Ring → Ring) : Steady s (s.modRing n f) := .of_eq rfl
theorem Steady.modEngine (s : State) (e : Nat) (f : Engine → Engine) : Steady s (s.modEngine e f) := .of_eq rfl
theorem Steady.setFn (s : State) (cls inst : Nat) (x : Fn) : Steady s (s.setFn cls inst x) := .of_eq rfl
theorem Steady.setLsv (s : State) (p : Nat) (b : Bool) : Steady s (s.setLsv p b) := .of_eq rfl

/-! ### Counters, events and the fault unit -/

theorem Steady.count (s : State) (o n : Nat) : Steady s (s.count o n) := .of_post (.count s o n)

theorem Steady.countPort (s : State) (p w n : Nat) : Steady s (s.countPort p w n) := .ite (.count s _ n) (.refl s)

theorem Steady.post (s : State) (type sub src : Nat) (payload : List Byte) : Steady s (s.post type sub src payload) :=
  .of_post (.postAt s _ _ _ _ _ _)

theorem Steady.logReg (s : State) (a v : Nat) : Steady s (s.logReg a v) := .ite (.refl s) (.setReg s a _)

theorem Steady.latchFirst (s : State) (n sev : Nat) : Steady s (s.latchFirst n sev) := by
  unfold State.latchFirst
  split
  · exact .refl s
  · exact .of_eq rfl

theorem Steady.logFault (s : State) (r : List Nat) : Steady s (s.logFault r) := by
  unfold State.logFault
  exact .ite (.of_eq (by rfl)) (.ite (Steady.trans (.of_eq (by rfl)) (.post _ _ _ _ _)) (.of_eq (by rfl)))

theorem Steady.recordFault (s : State) (n detail concerned cause : Nat) (forced : Bool) :
    Steady s (s.recordFault n detail concerned cause forced).1 := by
  have hsrc (x : Src) (sev : Nat) : Steady s ((s.modSrc n fun _ => x).latchFirst n sev) :=
    Steady.trans (.of_eq (by rfl)) (.latchFirst _ n sev)
  unfold State.recordFault
  dsimp only
  generalize srcAfter (s.faultCfgOf n) forced s.elapsed (s.src n) = x
  have hlog (r : List Nat) : Steady s (if x.st = (s.src n).st then (s.modSrc n fun _ => x).latchFirst n x.st.code
      else ((s.modSrc n fun _ => x).latchFirst n x.st.code).logFault r) :=
    .ite (hsrc x _) ((hsrc x _).trans (.logFault _ r))
  exact .ite (hlog _) ((hlog _).trans (.post _ _ _ _ _))

theorem Steady.addToX (s : State) (i source : Nat) : Steady s (s.addToX i source) := by
  unfold State.addToX
  split
  · exact .refl s
  · exact ⟨⟨rfl, rfl, fun j hj => bit_setBit_same hj⟩, fun _ => rfl, fun _ => rfl⟩

theorem Steady.beginHold (s : State) (k : HoldKind) : Steady s (s.beginHold k) := .ite (.refl s) (.of_eq (by rfl))

/-- The reaction to an event of a source that is no channel's. -/
theorem Steady.react (s : State) {n : Nat} (hn : srcChannel n = none) (code : Nat) : Steady s (s.react n code) := by
  unfold State.react
  rw [hn]
  split
  · split
    · contradiction
    · exact .modSq fun _ => rfl
    · exact .refl s
  · split
    · split
      · exact .addToX s _ n
      · exact .refl s
    · exact .ite (.beginHold s _) (.refl s)

theorem Steady.faultEvent (s : State) {n : Nat} (hn : srcChannel n = none) (detail concerned cause : Nat)
    (forced : Bool) : Steady s (s.faultEvent n detail concerned cause forced) :=
  .ite ((Steady.recordFault s n _ _ _ _).trans (.react _ hn _)) (.refl s)

theorem srcChannel_of_lt {n : Nat} (h : 10 < n) : srcChannel n = none := by
  unfold srcChannel
  split
  · omega
  · split
    · omega
    · split
      · omega
      · rfl

theorem Steady.sqFault (s : State) (i j : Nat) : Steady s (s.sqFault i j) :=
  .faultEvent s (srcChannel_of_lt (by unfold sqSrc; omega)) _ _ _ _

end Sys2Proof.Machine
end

section
/-!
SUPPORT. Cells, frames, queues, ports and functions: their operations keep the mesh's timing, the Book in force, the
channels, the resequencer and the claims.
-/

namespace Sys2Proof.Machine

/-! ### Cells and the frames of a queue (R157, R176, R193) -/

theorem Steady.badFree (s : State) (i k r owner : Nat) (foreign : Bool) : Steady s (s.badFree i k r owner foreign) :=
  ((Steady.count s _ 1).trans (.logReg _ _ _)).trans (.sqFault _ i 2)

theorem Steady.freeCell (s : State) (i k r : Nat) : Steady s (s.freeCell i k r) := by
  unfold State.freeCell
  refine .ite (.modSq fun _ => rfl) ?_
  split
  · exact .badFree s i k r _ _
  · exact .ite (.modSq fun _ => rfl) (.badFree s i k r _ _)

theorem Steady.freeByHeader (s : State) (i k : Nat) : Steady s (s.freeByHeader i k) := by
  unfold State.freeByHeader
  split <;> exact .freeCell s i k _

theorem Steady.dropRef (s : State) (e : Nat) (r : CellRef) : Steady s (s.dropRef e r) :=
  .ite (.refl s) (.ite (.freeByHeader s e _) (.modSq fun _ => rfl))

theorem Steady.tagQueue (s : State) (q : Nat) : Steady s (s.tagQueue q) := .ite (.refl s) (.modQueue s q _)

theorem Steady.removeFrames (s : State) (q : Nat) (gone : QFrame → Bool) : Steady s (s.removeFrames q gone) := by
  unfold State.removeFrames
  exact ((((Steady.modQueue s q _).trans (.modEport _ _ _)).trans (.modSq (by intro; rfl))).trans
    (.foldl (fun s r => .dropRef s _ r) _ _)).trans (.tagQueue _ q)

/-! ### Returns of transmit frames -/

theorem Steady.ringReturn (s : State) (n : Nat) (bs : List Byte) (word : Nat) : Steady s (s.ringReturn n bs word) :=
  .of_post (.of_return (.ringReturn n s bs word))

theorem Steady.flushTx (s : State) (n : Nat) : Steady s (s.flushTx n) := by
  refine .foldl (fun s _ => ?_) _ s
  unfold State.flushTxOne
  split
  · exact (Steady.modRing s n _).trans (.foldl (fun s _ => .ringReturn s n _ _) _ _)
  · exact .refl s

theorem Steady.bcLost (s : State) (fid : Nat) : Steady s (s.bcLost fid) := .ite (.of_eq (by rfl)) (.refl s)

theorem Steady.reportTx (s : State) (h : FrameHdr) (status stamp : Nat) : Steady s (s.reportTx h status stamp) := by
  have hlost : Steady s (if h.built && status != 0 then s.bcLost h.fid else s) := .ite (.bcLost s _) (.refl s)
  unfold State.reportTx
  dsimp only
  split
  · exact hlost
  · exact (hlost.trans (.modRing _ _ _)).trans (.flushTx _ _)

theorem Steady.discardFrames (s : State) (q w : Nat) (gone : QFrame → Bool) : Steady s (s.discardFrames q w gone) :=
  ((Steady.removeFrames s q gone).trans (.count _ _ _)).trans (.foldl (fun s _ => .reportTx s _ 11 0) _ _)

theorem Steady.chargeQueue (s : State) (q n : Nat) : Steady s (s.chargeQueue q n) := by
  unfold State.chargeQueue
  refine .ite (.ite (.setFn s 1 q _) ?_) (.refl s)
  split
  · exact .setFn s _ _ _
  · exact .refl s

/-! ### Frames whose fault is known, and the pull buffer (R142, R153, R157) -/

theorem Steady.judgeFrame (s : State) (q fid : Nat) : Steady s (s.judgeFrame q fid) := by
  unfold State.judgeFrame
  split
  · exact .refl s
  · split
    · exact .refl s
    · exact .ite (.modEport s _ _) ((((Steady.removeFrames s q _).trans (.countPort _ _ _ _)).trans
        (.chargeQueue _ q 1)).trans (.reportTx _ _ _ _))

theorem Steady.cutLost (s : State) (q fid : Nat) : Steady s (s.cutLost q fid) := by
  unfold State.cutLost
  split
  · exact .refl s
  · exact ((Steady.modQueue s q _).trans (.modSq (by intro; rfl))).trans (.foldl (fun s r => .dropRef s _ r) _ _)

theorem Steady.takePos (s : State) (e port : Nat) (fids : List Nat) (r : CellRef) (skip : Bool) :
    Steady s (s.takePos e port fids r skip) := .ite (.refl s) (.modSq fun _ => rfl)

theorem Steady.takeAll (s : State) (e : Nat) : Steady s (s.takeAll e) := by
  refine .foldl (fun s p => .foldl (fun s f => ?_) _ s) _ s
  unfold State.takeFrame'
  split
  · exact .refl s
  · exact .foldl (fun s r => .takePos s e p _ r false) _ s

theorem Steady.takeDiscards (s : State) (e : Nat) : Steady s (s.takeDiscards e) :=
  Steady.trans (.modSq (by intro; rfl)) (.foldl (fun s r => .takePos s e noPort [] r true) _ _)

theorem Steady.markLate (s : State) (q : Nat) (fids : List Nat) : Steady s (s.markLate q fids) :=
  .foldl (fun s _ => .modEport s _ _) _ s

theorem Steady.readPos (s : State) (e : Nat) (p : PullPos) (c : Cell) : Steady s (s.readPos e p c).1 := by
  unfold State.readPos
  split
  · exact Steady.trans (.ite ((Steady.count s _ 1).trans (.sqFault _ e 6)) (.refl s)) (.freeByHeader _ e _)
  · exact .refl s

theorem Steady.passHead (s : State) (e : Nat) : Steady s (s.passHead e) := by
  unfold State.passHead
  split
  · exact .refl s
  next p ps _ =>
    split
    · exact .refl s
    next c _ =>
      have hread : Steady s ((s.modSq e fun q => { q with pullBuf := ps }).readPos e p c).1 :=
        Steady.trans (.modSq (by intro; rfl)) (.readPos _ e p c)
      generalize (s.modSq e fun q => { q with pullBuf := ps }).readPos e p c = r at hread
      have hlate := hread.trans (.markLate r.1 (16 * r.2.ctx.eport + r.2.ctx.cls) p.fids)
      refine .ite hlate (.ite ?_ ?_)
      · exact (((hlate.trans (.count _ _ _)).trans (.count _ _ _)).trans (.modQueue _ _ _)).trans
          (.foldl (fun s f => .judgeFrame s _ f) _ _)
      · exact ((hlate.trans (.count _ _ _)).trans (.count _ _ _)).trans (.modQueue _ _ _)

theorem Steady.passCells (e n : Nat) (s : State) : Steady s (passCells e n s) := by
  induction n generalizing s with
  | zero => exact .refl s
  | succ n ih =>
    unfold Machine.passCells
    split
    · exact .refl s
    · exact .ite ((Steady.passHead s e).trans (ih _)) (.refl s)

theorem Steady.moveCells (s : State) (e : Nat) : Steady s (s.moveCells e) :=
  (((Steady.takeAll s e).trans (.passCells e _ _)).trans (.takeAll _ e)).trans (.takeDiscards _ e)

end Sys2Proof.Machine
end

section
/-!
SUPPORT. A port that goes down and a function that enters OFF keep the mesh's timing, the Book in force, the channels,
the resequencer and the claims.
-/

namespace Sys2Proof.Machine

/-! ### PFC, held frames and a port that goes down (R56, R188, R195, R196) -/

theorem Steady.sendPfc (s : State) (p : Nat) (pris : List (Nat × Nat)) : Steady s (s.sendPfc p pris) := by
  unfold State.sendPfc
  refine .ite (.refl s) ?_
  exact (Steady.trans (.of_eq (by rfl)) (.foldl (fun s _ => .countPort s p _ 1) _ _)).trans (.modSq (by intro; rfl))

theorem Steady.pfcSquare (s : State) (i : Nat) : Steady s (s.pfcSquare i) :=
  .foldl (fun s p => .ite (.refl s) (Steady.trans (.modSq (by intro; rfl)) (.sendPfc _ p _))) _ s

theorem Steady.discardHeld (s : State) (i q w : Nat) : Steady s (s.discardHeld i q w) := by
  unfold State.discardHeld
  exact ((((Steady.foldl (fun s k => .freeByHeader s i k) _ s).trans (.modSq (by intro; rfl))).trans
    (.count _ _ _)).trans
    (.foldl (fun s h => .reportTx s h 11 0) _ _)).trans (.pfcSquare _ i)

theorem Steady.abortTx (s : State) (p : Nat) : Steady s (s.abortTx p) := by
  unfold State.abortTx
  split
  · exact .refl s
  · exact ((((Steady.modEport s p _).trans (.removeFrames _ _ _)).trans (.countPort _ p 52 1)).trans
      (.of_eq (by rfl))).trans
      (.reportTx _ _ _ _)

theorem Steady.queuesDown (s : State) (p : Nat) : Steady s (s.queuesDown p) := by
  have hfree (s : State) (c : Nat) : Steady s
      (if s.lossless c then s else s.discardFrames (16 * p + c) 9 fun _ => true) :=
    .ite (.refl s) (.discardFrames s _ 9 _)
  exact .thenIf ((Steady.abortTx s p).trans (.foldl hfree _ _)) (.modSq fun _ => rfl)

theorem Steady.dropLossless (s : State) (p : Nat) : Steady s (s.dropLossless p) := by
  unfold State.dropLossless
  refine Steady.trans (.foldl (fun s q => ?_) _ s) (.modLink _ p _)
  exact ((Steady.discardFrames s q _ _).trans (.foldl (fun s i => .discardHeld s i q _) _ _)).trans (.chargeQueue _ q _)

theorem Steady.bcLeave (s : State) (p : Nat) : Steady s (s.bcLeave p) := .ite (.refl s) (.of_eq (by rfl))

theorem Steady.linkDownEvent (s : State) (p cause lane : Nat) : Steady s (s.linkDownEvent p cause lane) := by
  have hport : srcChannel (portSrc p) = none := srcChannel_of_lt (by unfold portSrc; omega)
  unfold State.linkDownEvent
  dsimp only
  refine .ite (Steady.trans ?_ (.dropLossless _ p)) ?_
  all_goals exact ((((((Steady.modLink s p _).trans (.setLsv _ p false)).trans (.bcLeave _ p)).trans
    (.orReg _ _ _)).trans (.countPort _ p 24 1)).trans (.queuesDown _ p)).trans (.faultEvent _ hport 1 p cause false)

/-! ### What a function's entry to OFF does (R21, R42, R63, R209, R252, R298, R334) -/

theorem Steady.applyMap (s : State) (k : Nat) : Steady s (s.applyMap k) :=
  .ite ((Steady.latch s _).trans (.foldl (fun s _ => .ite (.latch s _) (.refl s)) _ _)) (.refl s)

theorem Steady.portOffLatch (s : State) (p : Nat) : Steady s (s.portOffLatch p) :=
  .thenIf ((Steady.latch s _).trans (.applyMap _ _)) (.latch _ _)

theorem Steady.freeChan (s : State) (c : Nat) : Steady s (s.freeChan c) :=
  Steady.trans (.of_eq (by rfl)) (.foldl (fun s _ => .ite (.of_eq (by rfl)) (.refl s)) _ _)

theorem Steady.offPort (s : State) (p : Nat) : Steady s (s.offActions 0 p) := by
  have hlink : Steady s (if (s.link p).up then s.linkDownEvent p 9 255 else s) :=
    .ite (.linkDownEvent s p 9 255) (.refl s)
  refine .ite (Steady.trans (.of_eq (by rfl)) (.latch _ _)) ?_
  exact (((hlink.trans (.foldl (fun s k => .modLane s k _) _ _)).trans (.modLink _ p _)).trans (.of_eq (by rfl))).trans
    (.portOffLatch _ p)

theorem Steady.offEngine (s : State) (e : Nat) : Steady s (s.offActions 4 e) := by
  unfold State.offActions
  exact .thenIf ((Steady.modEngine s e _).thenIf ((Steady.modEngine _ e _).trans (.post _ _ _ _ _))) (.latch _ _)

theorem Steady.offService (s : State) (inst : Nat) : Steady s (s.offActions 9 inst) := by
  unfold State.offActions
  exact ((Steady.foldl .bcLeave _ s).trans (.of_eq (by rfl))).trans (.latch _ _)

theorem Steady.latchTelem (s : State) (k : Nat) : Steady s (s.latchTelem k) :=
  (Steady.foldl (fun s _ => .setForce s _ _) _ s).trans (.latch _ _)

theorem Steady.offActions (s : State) (cls inst : Nat) : Steady s (s.offActions cls inst) := by
  unfold State.offActions
  split
  · exact .offPort s inst
  · exact .modQueue s inst _
  · exact .freeChan s inst
  · exact .offEngine s inst
  · exact .modRing s inst _
  · exact .latch s _
  · exact .latchTelem s inst
  · exact .offService s inst
  · exact .latch s _
  · exact .refl s

/-! ### A function that enters OFF (R34, R169) -/

theorem Steady.startOff (s : State) (f : Nat × Nat) : Steady s (s.startOff f) :=
  .ite (.refl s) ((Steady.setFn s _ _ _).trans (.offActions _ _ _))

theorem Steady.removedFn (s : State) (f : Nat × Nat) (units : Nat) : Steady s (s.removedFn f units) := by
  unfold State.removedFn
  exact .thenIf (.ite (.refl s) ((Steady.setFn s _ _ _).trans (.offActions _ _ _))) (.post _ _ _ _ _)

theorem Steady.removedPort (s : State) (p : Nat) : Steady s (s.removedPort p) := by
  have hport : srcChannel (portSrc p) = none := srcChannel_of_lt (by unfold portSrc; omega)
  unfold State.removedPort
  refine .ite ?_ (.refl s)
  exact (((((Steady.modLink s p _).trans (.setLsv _ p false)).trans (.bcLeave _ p)).trans (.orReg _ _ _)).trans
    (.countPort _ p 24 1)).trans (.faultEvent _ hport 1 p 10 false)

theorem Steady.clearPort (s : State) (p : Nat) : Steady s (s.clearPort p) :=
  (Steady.foldl (fun s _ => .modQueue s _ _) _ s).trans (.modEport _ p _)

theorem Steady.loseQueue (s : State) (i q : Nat) : Steady s (s.loseQueue i q) :=
  (Steady.modQueue s q _).trans (.foldl (fun s f => (Steady.judgeFrame s q f).trans (.cutLost _ q f)) _ _)

theorem Steady.chargeRemoval (s : State) (i : Nat) (ports : List Nat) : Steady s (s.chargeRemoval i ports) :=
  (Steady.foldl (fun s q => .chargeQueue s q _) _ s).trans (.foldl (fun s q => .chargeQueue s q _) _ _)

theorem Steady.isoRecord (s : State) (i lost inner : Nat) : Steady s (s.isoRecord i lost inner) :=
  (Steady.post s _ _ _ _).trans (.of_eq (by rfl))

end Sys2Proof.Machine
end

section
/-!
SUPPORT. Reservations, gaps, accounts, claims, the old epoch and the end of RECOVERY (R134, R150, R155, R180, R183,
R193).
-/

namespace Sys2Proof.Machine

/-! ### DIRECT_RESERVE_EXPIRE (R150) -/

/-- A cell whose reservation has lasted MAX_GAP slots loses it. -/
def Cell.afterReserve (s : State) (c : Cell) : Cell :=
  { c with reserved := c.reserved && !(c.st == .waiting && decide (c.numSlot + s.maxGap ≤ s.tour.slot)) }

theorem directReserveExpire_eq {s : State} (hu : Up s) (i k : Nat) : exec (.directReserveExpire i k) s =
    .next (s.modSq i fun q => { q with cells := tmod q.cells k (Cell.afterReserve s) }) := by
  have hfree (c : Cell) : (if c.reserved && c.st == .waiting && decide (c.numSlot + s.maxGap ≤ s.tour.slot)
      then { c with reserved := false } else c) = Cell.afterReserve s c := by
    rw [Cell.afterReserve, Bool.and_assoc]
    generalize (c.st == .waiting && decide (c.numSlot + s.maxGap ≤ s.tour.slot)) = due
    obtain ⟨⟩ := c
    cases due with
    | false => simp
    | true => simp
  change execDirectReserveExpire i k s = _
  rw [execDirectReserveExpire, gated_up hu]
  simp only [hfree]

theorem directReserveExpire_ends {s : State} (hu : Up s) {i k : Nat} {c : Cell} (hc : tget (s.sq i).cells k = some c) :
    Yields (.directReserveExpire i k) s fun t =>
      tget (t.sq i).cells k = some (c.afterReserve s) ∧
      (∀ j, j ≠ k → tget (t.sq i).cells j = tget (s.sq i).cells j) ∧ t = { s with sqs := t.sqs } := by
  refine ⟨_, directReserveExpire_eq hu i k, ?_, fun j hj => ?_, rfl⟩ <;> rw [State.sq_modSq, if_pos rfl, tget_tmod]
  · rw [if_pos rfl, hc, Option.map_some]
  · rw [if_neg hj]

/-! ### The resequencer (R154 to R157) -/

theorem Steady.linkSeg (s : State) (q : Nat) (c : Cell) (r : CellRef) (g : Seg) : Steady s (s.linkSeg q c r g) := by
  unfold State.linkSeg
  split
  · exact ((Steady.modQueue s q _).trans (.modQueue _ q _)).trans (.count _ _ _)
  · exact .thenIf (.modQueue s q _) ((Steady.modQueue _ _ _).trans (.modEport _ _ _))

theorem Steady.noteDepth (s : State) (e q : Nat) : Steady s (s.noteDepth e q) := .ite (.modQueue s q _) (.refl s)

theorem Steady.linkCell (s : State) (e : Nat) (c : Ctx) (r : CellRef) : Steady s (s.linkCell e c r).1 := by
  unfold State.linkCell
  dsimp only
  split
  · exact .refl s
  next x _ =>
    have hsegs : Steady s (x.segs.foldl (fun s g => s.linkSeg (16 * c.eport + c.cls) x r g) s) :=
      .foldl (fun s g => .linkSeg s _ x r g) x.segs s
    have hqueued := (hsegs.trans (.noteDepth _ e (16 * c.eport + c.cls))).trans (.tagQueue _ (16 * c.eport + c.cls))
    dsimp only
    exact (Steady.trans (.ite hqueued (hqueued.trans (.dropRef _ e r)))
      (.foldl (fun s f => .judgeFrame s _ f) _ _)).trans (.moveCells _ e)

theorem Steady.gapFrame (s : State) (q : Nat) (run : Option Nat) : Steady s (s.gapFrame q run) := by
  unfold State.gapFrame
  split
  · exact .refl s
  · exact (Steady.modQueue s q _).trans (.judgeFrame _ q _)

theorem Steady.context {s t : State} (h : Steady s t) (e k : Nat) : t.ctxOut e k = s.ctxOut e k := by
  rw [State.ctxOut, h.ctxOut, ← State.ctxOut]

theorem State.ctxOut_setCtxOut (s : State) (e k : Nat) (x : CtxOut) : (s.setCtxOut e k x).ctxOut e k = x := by
  rw [State.ctxOut, State.setCtxOut, State.sq_modSq, if_pos rfl]
  exact SMap.get_set_same _ _ _ _

/-- Linking a cell parks none and takes none from the parked ones. -/
theorem State.parked_linkNext (s : State) (e k : Nat) (c : Ctx) (r : CellRef) :
    ((s.linkNext e k c r).ctxOut e k).parked = (s.ctxOut e k).parked := by
  unfold State.linkNext
  dsimp only
  rw [State.ctxOut_setCtxOut]
  dsimp only
  split
  · rw [(Steady.gapFrame s _ _).context]
  · rw [(Steady.linkCell s e c r).context]

/-- Draining takes parked cells away and adds none. -/
theorem State.mem_parked_drainParked (e k : Nat) (c : Ctx) (n : Nat) (s : State) :
    ∀ x ∈ ((State.drainParked e k c n s).ctxOut e k).parked, x ∈ (s.ctxOut e k).parked := by
  induction n generalizing s with
  | zero => exact fun _ hx => hx
  | succ n ih =>
    unfold State.drainParked
    dsimp only
    split
    · exact fun _ hx => hx
    · intro x hx
      have hlinked := ih _ x hx
      rw [State.parked_linkNext, State.ctxOut_setCtxOut] at hlinked
      exact (List.mem_filter.mp hlinked).1

/-- The cell that a context expects is parked no more once the parked ones drain. -/
theorem State.parked_drainAll {s : State} {e k : Nat} {m : Parked} (hm : m ∈ (s.ctxOut e k).parked)
    (hexp : m.seq = (s.ctxOut e k).exp) (c : Ctx) :
    ∀ x ∈ ((s.drainAll e k c).ctxOut e k).parked, x.seq ≠ m.seq ∧ x ∈ (s.ctxOut e k).parked := by
  unfold State.drainAll State.drainParked
  dsimp only
  split
  · next hnone =>
    exact absurd hexp (by simpa using List.find?_eq_none.mp hnone m hm)
  · next p hp =>
    intro x hx
    have hdrained := State.mem_parked_drainParked e k c _ _ x hx
    rw [State.parked_linkNext, State.ctxOut_setCtxOut] at hdrained
    obtain ⟨hmem, hne⟩ := List.mem_filter.mp hdrained
    have hseq : p.seq = m.seq := by
      have := List.find?_some hp
      simp only [beq_iff_eq] at this
      rw [this, hexp]
    exact ⟨by simpa [hseq] using hne, hmem⟩

/-! ### GAP_DECLARE (R155) -/

theorem mem_insertBy {α : Type} {f : α → Nat} {x y : α} {ys : List α} (h : y ∈ insertBy f x ys) : y = x ∨ y ∈ ys := by
  induction ys with
  | nil => exact .inl (List.mem_singleton.mp h)
  | cons z zs ih =>
    unfold insertBy at h
    split at h
    · exact List.mem_cons.mp h
    · rcases List.mem_cons.mp h with rfl | hzs
      · exact .inr List.mem_cons_self
      · exact (ih hzs).imp_right (List.mem_cons_of_mem z)

theorem mem_sortBy {α : Type} {f : α → Nat} {y : α} {xs : List α} (h : y ∈ sortBy f xs) : y ∈ xs := by
  have hsorted : ∀ z ∈ sortBy f xs, z ∈ xs :=
    List.foldlRecOn xs _ (motive := fun acc => ∀ z ∈ acc, z ∈ xs) (fun z hz => absurd hz List.not_mem_nil)
      fun acc hacc x hx z hz => (mem_insertBy hz).elim (fun heq => heq ▸ hx) (hacc z)
  exact hsorted y h

theorem CtxOut.mem_of_lowest {x : CtxOut} {m : Parked} (h : x.lowest = some m) : m ∈ x.parked :=
  mem_sortBy (List.mem_of_head? h)

/-- A gap ends with the lowest parked cell linked. -/
theorem State.parked_declareGap {s : State} {e k : Nat} {m : Parked} (hm : (s.ctxOut e k).lowest = some m) (c : Ctx)
    (w : Nat) : ∀ x ∈ ((s.declareGap e k c w).ctxOut e k).parked, x.seq ≠ m.seq ∧ x ∈ (s.ctxOut e k).parked := by
  intro x hx
  unfold State.declareGap at hx
  simp only [hm] at hx
  have hmem := CtxOut.mem_of_lowest hm
  have hdrained := State.parked_drainAll (m := m) (by rwa [State.ctxOut_setCtxOut])
    (by rw [State.ctxOut_setCtxOut]) c x hx
  rwa [State.ctxOut_setCtxOut] at hdrained

section
variable {s : State} (hu : Up s)
include hu

theorem gapDeclare_idle {e isq p c : Nat} (h : (s.ctxOut e (reseqKey isq { eport := p, cls := c })).gapCount < 4) :
    exec (.gapDeclare e isq p c) s = .next s := by
  change execGapDeclare e isq p c s = _
  rw [execGapDeclare, gated_up hu]
  exact congrArg _ (if_neg (Nat.not_le.mpr h))

theorem gapDeclare_links {e isq p c : Nat} {m : Parked}
    (h : 4 ≤ (s.ctxOut e (reseqKey isq { eport := p, cls := c })).gapCount)
    (hm : (s.ctxOut e (reseqKey isq { eport := p, cls := c })).lowest = some m) :
    Yields (.gapDeclare e isq p c) s fun t =>
      ∀ x ∈ (t.ctxOut e (reseqKey isq { eport := p, cls := c })).parked, x.seq ≠ m.seq ∧
        x ∈ (s.ctxOut e (reseqKey isq { eport := p, cls := c })).parked := by
  refine ⟨s.declareGap e (reseqKey isq { eport := p, cls := c }) { eport := p, cls := c } 8, ?_,
    State.parked_declareGap hm _ 8⟩
  change execGapDeclare e isq p c s = _
  rw [execGapDeclare, gated_up hu]
  exact congrArg _ (if_pos h)

/-! ### ACCOUNT_UPDATE (R180) -/

theorem accountUpdate_free_eq (j : Nat) : exec (.accountUpdate j none) s =
    .next (({ s with buf := { s.buf with gf := s.gfNow } } : State).modSq j fun q => { q with viewGf := s.gfNow }) := by
  change execAccountUpdate j none s = _
  rw [execAccountUpdate, gated_up hu]

theorem accountUpdate_free (j : Nat) : Yields (.accountUpdate j none) s fun t =>
    t.buf = { s.buf with gf := s.gfNow } ∧ t.sq j = { s.sq j with viewGf := s.gfNow } ∧
      (∀ i, i ≠ j → t.sq i = s.sq i) ∧ t = { s with sqs := t.sqs, buf := t.buf } := by
  refine ⟨_, accountUpdate_free_eq hu j, rfl, ?_, fun i hi => ?_, rfl⟩ <;> rw [State.sq_modSq]
  · rw [if_pos rfl]
    rfl
  · rw [if_neg hi]
    rfl

theorem accountUpdate_queue_eq (j q : Nat) : exec (.accountUpdate j (some q)) s = .next (s.modSq j fun x => { x with
    viewLevel := SMap.set (fun _ => 0) x.viewLevel q (s.level q)
    viewVictim := SMap.set (fun _ => false) x.viewVictim q (s.queue q).victim }) := by
  change execAccountUpdate j (some q) s = _
  rw [execAccountUpdate, gated_up hu]

theorem accountUpdate_queue (j q : Nat) : Yields (.accountUpdate j (some q)) s fun t =>
    t.seenLevel j q = s.level q ∧ SMap.get (fun _ => false) (t.sq j).viewVictim q = (s.queue q).victim ∧
      (∀ n, n ≠ q → t.seenLevel j n = s.seenLevel j n) ∧ (∀ i, i ≠ j → t.sq i = s.sq i) ∧
      t = { s with sqs := t.sqs } := by
  refine ⟨_, accountUpdate_queue_eq hu j q, ?_, ?_, fun n hn => ?_, fun i hi => ?_, rfl⟩
  · rw [State.seenLevel, State.sq_modSq, if_pos rfl]
    exact SMap.get_set_same _ _ _ _
  · rw [State.sq_modSq, if_pos rfl]
    exact SMap.get_set_same _ _ _ _
  · rw [State.seenLevel, State.sq_modSq, if_pos rfl]
    exact SMap.get_set_ne _ _ _ hn
  · rw [State.sq_modSq, if_neg hi]

/-! ### CAPTURE_CLAIM (R193) -/

omit hu in
theorem Steady.capture (s : State) (e : Nat) (c : Claim) : Steady s (s.capture e c) :=
  .ite (.count s _ 1) ((Steady.discardFrames s _ 8 _).trans (.moveCells _ e))

/-- Square `e` with a claim taken up. -/
def State.claimTaken (s : State) (e : Nat) (c : Claim) : State :=
  s.modSq e fun q => { q with claims := q.claims.erase c }

theorem captureClaim_idle {e : Nat} (h : (s.sq e).claims = []) : exec (.captureClaim e) s = .next s := by
  change execCaptureClaim e s = _
  rw [execCaptureClaim, gated_up hu]
  simp only [h]
  rfl

theorem captureClaim_eq {e : Nat} {c : Claim} {cs : List Claim}
    (h : sortBy (fun x => (x.from_ + 128 - (s.sq e).rotP) % 64) (s.sq e).claims = c :: cs) :
    exec (.captureClaim e) s = .next ((s.claimTaken e c).capture e c) := by
  change execCaptureClaim e s = _
  rw [execCaptureClaim, gated_up hu]
  simp only [h]
  rfl

theorem captureClaim_serves {e : Nat} {c : Claim} {cs : List Claim}
    (h : sortBy (fun x => (x.from_ + 128 - (s.sq e).rotP) % 64) (s.sq e).claims = c :: cs) :
    Yields (.captureClaim e) s fun t => (t.sq e).claims = (s.sq e).claims.erase c := by
  refine ⟨_, captureClaim_eq hu h, ((Steady.capture _ e c).claims e).trans ?_⟩
  rw [State.claimTaken, State.sq_modSq, if_pos rfl]

omit hu in
/-- Nothing is captured from a queue whose newest frame may not be. -/
theorem captureTail_none {n k : Nat} {fs : List QFrame} (h : ∀ f, fs.getLast? = some f → f.eligible = false) :
    (captureTail n k fs []).2 = [] := by
  cases k with
  | zero => rfl
  | succ k =>
    unfold captureTail
    split
    · rfl
    · next f hf => simp [h f hf]

theorem captureClaim_counted {e : Nat} {c : Claim} {cs : List Claim}
    (h : sortBy (fun x => (x.from_ + 128 - (s.sq e).rotP) % 64) (s.sq e).claims = c :: cs)
    (hnone : ∀ f, (s.queue c.queue).frames.getLast? = some f → f.eligible = false) : exec (.captureClaim e) s =
      .next ((s.modSq e fun q => { q with claims := q.claims.erase c }).count (queueCtr c.queue 15) 1) := by
  rw [captureClaim_eq hu h]
  exact congrArg _ (if_pos (captureTail_none hnone))

/-! ### EPOCH_RETIRE and BUF_RECOVERY_END (R134, R183) -/

theorem epochRetire_none (h : s.book.old = none) : exec .epochRetire s = .next s := by
  change execEpochRetire s = _
  rw [execEpochRetire, gated_up hu]
  simp only [h]

/-- The old epoch `x` has retired, with its event. -/
def State.retired (s : State) (x : OldEpoch) : State :=
  ({ s with book := { s.book with
    old := none, oldMap := [], lastOld := x.epoch, policyFrom := s.book.policyFrom.map fun _ => 256 } }).post 2 0
      s.book.epoch (leBytes 2 x.mask ++ leBytes 2 0 ++ leBytes 4 (s.waitSecond x.epoch))

theorem epochRetire_eq {x : OldEpoch} (h : s.book.old = some x) : exec .epochRetire s = .next (
    if s.waitSecond x.epoch = 0 ∨ x.swapAt + usT 100 ≤ s.elapsed then s.retired x else s) := by
  change execEpochRetire s = _
  rw [execEpochRetire, gated_up hu]
  simp only [h]
  rfl

theorem epochRetire_waits {x : OldEpoch} (h : s.book.old = some x) (hwait : 0 < s.waitSecond x.epoch)
    (hearly : s.elapsed < x.swapAt + usT 100) : exec .epochRetire s = .next s := by
  rw [epochRetire_eq hu h, if_neg]
  rintro (hnone | hlate)
  · exact hwait.ne' hnone
  · exact Nat.not_le.mpr hearly hlate

theorem bufRecoveryEnd_due (hstate : s.buf.state = 3) (hend : s.buf.recovEnd ≤ s.elapsed) (hnone : s.buf.pending = []) :
    exec .bufRecoveryEnd s = .next { s with buf := { s.buf with recovDue := true } } := by
  change execBufRecoveryEnd s = _
  rw [execBufRecoveryEnd, gated_up hu, if_pos ⟨hstate, hend, hnone⟩]

theorem bufRecoveryEnd_idle (h : s.buf.state ≠ 3 ∨ s.elapsed < s.buf.recovEnd ∨ s.buf.pending ≠ []) :
    exec .bufRecoveryEnd s = .next s := by
  change execBufRecoveryEnd s = _
  rw [execBufRecoveryEnd, gated_up hu, if_neg]
  rintro ⟨hstate, hend, hnone⟩
  rcases h with h | h | h
  · exact h hstate
  · exact Nat.not_le.mpr h hend
  · exact h hnone

end

/-- Settles O47: what is due of the mesh's housekeeping happens, and what is not due changes nothing. -/
theorem meshHousekeeping : Obligations.MeshHousekeeping := by
  unfold Obligations.MeshHousekeeping
  exact ⟨fun i k c s hu => directReserveExpire_ends hu,
    fun e isq p c s hu => ⟨gapDeclare_idle hu, fun m => gapDeclare_links hu⟩,
    fun j s hu => ⟨accountUpdate_free hu j, accountUpdate_queue hu j⟩,
    fun e s hu => ⟨captureClaim_idle hu, fun c cs h => ⟨captureClaim_serves hu h, captureClaim_counted hu h⟩⟩,
    fun s hu => ⟨epochRetire_none hu, fun x => epochRetire_waits hu,
      fun x h hdue => (epochRetire_eq hu h).trans (congrArg _ (if_pos hdue)), bufRecoveryEnd_due hu,
      bufRecoveryEnd_idle hu⟩⟩

end Sys2Proof.Machine
end

section
/-! SUPPORT. Squares that leave the Tour and squares that rejoin it (R15, R145, R168, R169). -/

namespace Sys2Proof.Machine

/-! ### The removal of a square (R168, R320) -/

theorem TableFrame.timed {s t : State} (h : TableFrame s t) : Timed s t := by
  rw [h]
  exact ⟨rfl, rfl, fun _ hi => hi⟩

theorem Timed.removeSquare (s : State) (i : Nat) : Timed s (s.removeSquare i) := by
  have hforget (ports : List Nat) (s : State) (j : Nat) : Timed s (if j = i then s else
      s.modSq j fun q => (q.forget ports.contains).loseRefs i) := .ite (.refl s) (.modSq s j _)
  have hcharge := ((Steady.chargeRemoval s i (s.heldPorts i)).trans
    (.foldl (fun s e => .freeByHeader s e.1 e.2) (s.boundFor i) _)).toTimed
  have hempty := (hcharge.trans (.foldl (hforget (s.heldPorts i)) squares _)).trans (.modSq _ i Sq.emptied)
  unfold State.removeSquare
  dsimp only
  refine hempty.trans (Steady.toTimed ?_)
  refine Steady.trans ?_ (.isoRecord _ i _ _)
  refine Steady.trans ?_ (.foldl .pfcSquare _ _)
  refine Steady.trans ?_ (.foldl (fun s h => .reportTx s h 11 0) _ _)
  refine Steady.trans ?_ (.foldl (fun s _ => .removedFn s _ _) _ _)
  refine Steady.trans ?_ (.foldl .removedPort _ _)
  exact (Steady.foldl .clearPort _ _).trans (.foldl (fun s q => .loseQueue s i q) _ _)

/-! ### A rejoin (R169, R177, R198) -/

theorem Steady.latchQuotas (s : State) (i : Nat) : Steady s (s.latchQuotas i) :=
  .ite (.latch s _) ((Steady.foldl (fun s a => .setForce s a _) _ s).trans (.orReg _ _ _))

/-- Square `i` has left X. -/
def State.leftX (s : State) (i : Nat) : State :=
  { s with tour := { s.tour with x := setBit s.tour.x i false, xSource := SMap.set (fun _ => 0) s.tour.xSource i 0 } }

/-- What holds once a square that rejoins has left X, by what comes before and after. -/
theorem State.leftX_spec {s t u : State} {i : Nat} (hst : Timed s t) (htu : Timed (t.leftX i) u) :
    u.beat = s.beat ∧ u.triad.chans = s.triad.chans ∧
      ∀ j, j ≠ i → bit s.tour.x j = true → bit u.tour.x j = true :=
  ⟨htu.beat.trans hst.beat, htu.chans.trans hst.chans, fun j hj hx =>
    htu.x j ((bit_setBit _ _ _ _).trans ((if_neg hj).trans (hst.x j hx)))⟩

/-- Full buckets and new quotas for square `i`. -/
theorem Timed.refilled {s t : State} (h : Timed s t) (i : Nat) :
    Timed s ((t.repolicy t true [i]).latchQuotas i) :=
  (h.trans (TableFrame.repolicy _ _ true [i]).timed).trans (Steady.latchQuotas _ i).toTimed

/-- A square rejoins: the beat and the channels are as before, and no other square leaves X. -/
theorem State.rejoinSquare_spec (s : State) (i : Nat) : (s.rejoinSquare i).beat = s.beat ∧
    (s.rejoinSquare i).triad.chans = s.triad.chans ∧
    ∀ j, j ≠ i → bit s.tour.x j = true → bit (s.rejoinSquare i).tour.x j = true := by
  have hoff : Timed s ((s.removedFns i).foldl State.startOff
      ((s.squarePorts i ++ [1024 + i]).foldl State.clearPort (s.modSq i Sq.emptied))) :=
    (Timed.modSq s i Sq.emptied).trans ((Steady.foldl .clearPort _ _).trans (.foldl .startOff _ _)).toTimed
  have hctx (u : State) : Timed u (squares.foldl (fun s j => s.modSq j fun q => { q with
      ctxOut := q.ctxOut.filter fun x => x.1 / 32768 ≠ i }) u) := .foldl (fun s j => .modSq s j _) squares u
  unfold State.rejoinSquare
  have hdepth (u : State) (ps : List Nat) : Timed u (ps.foldl (fun s p => (List.range 16).foldl (fun s c =>
      s.modQueue (16 * p + c) fun q => { q with depthHwm := 0, depthNow := 0, delayLast := 0, delayMax := 0 }) s) u) :=
    (Steady.foldl (fun s p => .foldl (fun s c => .modQueue s (16 * p + c) _) _ s) ps u).toTimed
  exact State.leftX_spec hoff (Timed.refilled (((hctx _).trans (.modSq _ i _)).trans (hdepth _ _)) i)

/-- Every rejoin that is due: no other square leaves X. -/
theorem State.foldl_rejoinSquare_spec (is : List Nat) (s : State) :
    (is.foldl State.rejoinSquare s).beat = s.beat ∧
    (is.foldl State.rejoinSquare s).triad.chans = s.triad.chans ∧
    ∀ j, j ∉ is → bit s.tour.x j = true → bit (is.foldl State.rejoinSquare s).tour.x j = true := by
  induction is generalizing s with
  | nil => exact ⟨rfl, rfl, fun _ _ hx => hx⟩
  | cons i is ih =>
    obtain ⟨hbeat, hchans, hx⟩ := s.rejoinSquare_spec i
    obtain ⟨hbeat', hchans', hx'⟩ := ih (s.rejoinSquare i)
    refine ⟨hbeat'.trans hbeat, hchans'.trans hchans, fun j hj hin => ?_⟩
    rw [List.mem_cons, not_or] at hj
    exact hx' j hj.2 (hx j hj.1 hin)

theorem State.rejoinDue_spec (s : State) :
    s.rejoinDue.beat = ({ s.beat.1 with rejoin := 0 }, s.beat.2) ∧ s.rejoinDue.triad.chans = s.triad.chans ∧
    ∀ j, bit s.tour.rejoin j = false → bit s.tour.x j = true → bit s.rejoinDue.tour.x j = true := by
  obtain ⟨hbeat, hchans, hx⟩ := State.foldl_rejoinSquare_spec (bitList s.tour.rejoin 64) s
  refine ⟨congrArg (fun b => ({ b.1 with rejoin := 0 }, b.2)) hbeat, hchans, fun j hj => hx j fun hmem => ?_⟩
  rw [(mem_bitList.mp hmem).2] at hj
  cases hj

theorem State.rejoinDue_none {s : State} (h : s.tour.rejoin = 0) : s.rejoinDue = s := by
  have hnone : bitList s.tour.rejoin 64 = [] := by rw [h]; decide
  unfold State.rejoinDue
  rw [hnone]
  dsimp only [List.foldl_nil]
  rw [← h]

/-! ### X comes into force (R15, R145, R168) -/

theorem State.applyX_spec (s : State) : s.applyX.beat = ({ s.beat.1 with xInForce := s.tour.x }, s.beat.2) ∧
    s.applyX.triad.chans = s.triad.chans := by
  have hremoved := Timed.foldl Timed.removeSquare
    ((bitList s.tour.x 64).filter fun i => !bit s.tour.xInForce i && !bit s.baseExcl i) s
  exact ⟨congrArg (fun b => ({ b.1 with xInForce := s.tour.x }, b.2)) hremoved.beat, hremoved.chans⟩

end Sys2Proof.Machine
end

section
/-!
SUPPORT. What a Tour-period boundary does before and after the change of squares (R155, R166, R183, R308, R331, R334).
-/

namespace Sys2Proof.Machine

/-! ### Channels at a boundary (R308, R314) -/

/-- What an event of a source that is no square's may touch. -/
def FaultFrame (s t : State) : Prop := t = { s with
  regs := t.regs, host := t.host, io := t.io, cnt := t.cnt, fault := t.fault, nv := t.nv, boot := t.boot
  triad := t.triad }

theorem FaultFrame.refl (s : State) : FaultFrame s s := rfl

theorem FaultFrame.trans {s t u : State} (h : FaultFrame s t) (k : FaultFrame t u) : FaultFrame s u := by
  unfold FaultFrame at *
  rw [k, h]

theorem FaultFrame.foldl {α : Type} {f : State → α → State} {l : List α} (h : ∀ s, ∀ a ∈ l, FaultFrame s (f s a))
    (s : State) : FaultFrame s (l.foldl f s) :=
  List.foldlRecOn l f (motive := FaultFrame s) (.refl s) fun t ht a ha => ht.trans (h t a ha)

theorem FaultFrame.ite {c : Prop} [Decidable c] {s t u : State} (ht : FaultFrame s t) (hu : FaultFrame s u) :
    FaultFrame s (if c then t else u) := by
  split
  · exact ht
  · exact hu

theorem FaultFrame.of_post {s t : State} (h : PostFrame s t) : FaultFrame s t := by
  unfold FaultFrame
  rw [h]

theorem FaultFrame.post (s : State) (type sub src : Nat) (payload : List Byte) :
    FaultFrame s (s.post type sub src payload) := .of_post (.postAt s _ _ _ _ _ _)

theorem FaultFrame.latchFirst (s : State) (n sev : Nat) : FaultFrame s (s.latchFirst n sev) := by
  unfold State.latchFirst
  split <;> rfl

theorem FaultFrame.logFault (s : State) (r : List Nat) : FaultFrame s (s.logFault r) :=
  .ite (by rfl) (.ite (FaultFrame.trans (by rfl) (.post _ _ _ _ _)) (by rfl))

theorem FaultFrame.recordFault (s : State) (n detail concerned cause : Nat) (forced : Bool) :
    FaultFrame s (s.recordFault n detail concerned cause forced).1 := by
  have hsrc (x : Src) (sev : Nat) : FaultFrame s ((s.modSrc n fun _ => x).latchFirst n sev) :=
    FaultFrame.trans (by rfl) (.latchFirst _ n sev)
  unfold State.recordFault
  dsimp only
  generalize srcAfter (s.faultCfgOf n) forced s.elapsed (s.src n) = x
  have hlog (r : List Nat) : FaultFrame s (if x.st = (s.src n).st then (s.modSrc n fun _ => x).latchFirst n x.st.code
      else ((s.modSrc n fun _ => x).latchFirst n x.st.code).logFault r) :=
    .ite (hsrc x _) ((hsrc x _).trans (.logFault _ r))
  exact .ite (hlog _) ((hlog _).trans (.post _ _ _ _ _))

theorem FaultFrame.loseTriad (s : State) : FaultFrame s s.loseTriad := by
  unfold State.loseTriad
  exact .ite (.refl s) ((FaultFrame.trans (by rfl) (.post _ _ _ _ _)).trans (.recordFault _ 4 0 0 0 false))

theorem FaultFrame.failChannel (s : State) (c : Nat) : FaultFrame s (s.failChannel c) := by
  have hfail (f : Chn → Chn) (payload : List Byte) : FaultFrame s ((s.modChn c f).post 0x12 0 c payload) :=
    FaultFrame.trans (by rfl) (.post _ _ _ _ _)
  unfold State.failChannel
  refine .ite (.refl s) ?_
  dsimp only
  split
  · exact (hfail _ _).trans (.loseTriad _)
  · exact .ite ((hfail _ _).trans (FaultFrame.trans (by rfl) (.post _ _ _ _ _))) ((hfail _ _).trans (.loseTriad _))
  · exact hfail _ _

theorem FaultFrame.react (s : State) {n : Nat} (hn : srcSquare n = none) (code : Nat) :
    FaultFrame s (s.react n code) := by
  unfold State.react
  rw [hn]
  refine .ite ?_ (.ite (.refl s) (.ite (.ite (.refl s) (by rfl)) (.refl s)))
  split
  · exact .failChannel s _
  · contradiction
  · exact .refl s

theorem FaultFrame.faultEvent (s : State) {n : Nat} (hn : srcSquare n = none) (detail concerned cause : Nat)
    (forced : Bool) : FaultFrame s (s.faultEvent n detail concerned cause forced) :=
  .ite ((FaultFrame.recordFault s n _ _ _ _).trans (.react _ hn _)) (.refl s)

theorem FaultFrame.reseed (s : State) (bad : List Nat) {c : Nat} (hc : c < 3) : FaultFrame s (s.reseed bad c) := by
  have hsrc : srcSquare (8 + c) = none := if_neg (by omega)
  unfold State.reseed
  exact .ite (FaultFrame.trans (by rfl) (.faultEvent _ hsrc 0 c 0 false))
    (.ite (.ite (FaultFrame.trans (by rfl) (.post _ _ _ _ _)) (.refl s)) (by rfl))

theorem mem_faultOrder {s : State} {src : Nat → Nat} {l : List Nat} {c : Nat} : c ∈ s.faultOrder src l ↔ c ∈ l := by
  rw [State.faultOrder, List.mem_append, List.mem_filter, List.mem_filter]
  cases s.wouldBeSevere (src c) <;> simp

/-- A channel that a re-seed brings back to act: live, and not outvoted. -/
def Chn.sound (x : Chn) : Prop := x.failed = false ∧ x.outvoted = false

theorem State.post_chn (s : State) (type sub src : Nat) (payload : List Byte) (c : Nat) :
    (s.post type sub src payload).chn c = s.chn c := by
  have hpost : PostFrame s (s.post type sub src payload) := .postAt s _ _ _ _ _ _
  rw [hpost]
  rfl

/-- What a re-seed that succeeds makes of channel `c`. -/
theorem State.chn_reseed (s : State) (c d : Nat) : (s.reseed [] c).chn d =
    if d = c then
      if (s.chn c).failed then
        if (s.chn c).rejoin = 3 then { s.chn c with failed := false, act := true, outvoted := false, rejoin := 0 }
        else s.chn c
      else { s.chn c with act := (s.chn c).act || !(s.chn c).outvoted, outvoted := false }
    else s.chn d := by
  unfold State.reseed
  dsimp only
  rw [if_neg (by simp)]
  split
  · split
    · rw [State.post_chn, State.chn_modChn]
    · split
      · next h => rw [h]
      · rfl
  · rw [State.chn_modChn]

theorem State.sound_reseed {s : State} {d : Nat} (h : (s.chn d).sound) (c : Nat) : ((s.reseed [] c).chn d).sound := by
  obtain ⟨hlive, hvote⟩ := h
  rw [State.chn_reseed]
  split
  · next hd =>
    subst hd
    rw [if_neg (by simp [hlive])]
    exact ⟨hlive, rfl⟩
  · exact ⟨hlive, hvote⟩

theorem State.act_reseed {s : State} {d : Nat} (h : (s.chn d).sound) (c : Nat) (hact : d = c ∨ (s.chn d).act = true) :
    ((s.reseed [] c).chn d).act = true := by
  obtain ⟨hlive, hvote⟩ := h
  rw [State.chn_reseed]
  split
  · next hd =>
    subst hd
    rw [if_neg (by simp [hlive])]
    simp [hvote]
  · next hd => exact hact.resolve_left hd

/-- After the re-seeds that succeed, a channel that was sound acts. -/
theorem State.act_foldl_reseed {l : List Nat} {d : Nat} (hd : d ∈ l) (s : State) (h : (s.chn d).sound) :
    ((l.foldl (fun s c => s.reseed [] c) s).chn d).act = true :=
  foldl_of_mem (Q := fun s : State => (s.chn d).sound) (P := fun s : State => (s.chn d).act = true)
    (fun _ c hs => State.sound_reseed hs c) (fun _ hs => State.act_reseed hs d (.inl rfl))
    (fun _ c hs hact => State.act_reseed hs c (.inr hact)) hd h

end Sys2Proof.Machine
end

section
/-! SUPPORT. Buffer state, phase and tempo at a Tour-period boundary (R180, R183, R331, R334). -/

namespace Sys2Proof.Machine

/-! ### Buffer state (R183) -/

/-- What a change of the buffer's state may touch. -/
def BufFrame (s t : State) : Prop := t = { s with
  regs := t.regs, force := t.force, buf := t.buf, host := t.host, cnt := t.cnt, io := t.io }

theorem BufFrame.refl (s : State) : BufFrame s s := rfl

theorem BufFrame.trans {s t u : State} (h : BufFrame s t) (k : BufFrame t u) : BufFrame s u := by
  unfold BufFrame at *
  rw [k, h]

theorem BufFrame.ite {c : Prop} [Decidable c] {s t u : State} (ht : BufFrame s t) (hu : BufFrame s u) :
    BufFrame s (if c then t else u) := by
  split
  · exact ht
  · exact hu

theorem BufFrame.post (s : State) (type sub src : Nat) (payload : List Byte) :
    BufFrame s (s.post type sub src payload) := by
  have hpost : PostFrame s (s.post type sub src payload) := .postAt s _ _ _ _ _ _
  unfold BufFrame
  rw [hpost]

theorem BufFrame.bufLatch (s : State) (m : SMap Reg) : BufFrame s (s.bufLatch m) :=
  List.foldlRecOn m _ (motive := BufFrame s) (.refl s) fun t ht e _ =>
    ht.trans (by rfl : BufFrame t (t.setForce e.1 e.2))

theorem BufFrame.toBufState (s : State) (t : Nat) : BufFrame s (s.toBufState t) :=
  BufFrame.trans (by rfl) (.post _ _ _ _ _)

theorem BufFrame.bufAuto (s : State) (t : Nat) : BufFrame s (s.bufAuto t) :=
  BufFrame.trans (.ite (.bufLatch s _) (by rfl)) (.toBufState _ t)

theorem BufFrame.bufEndRecovery (s : State) (trigger : Bool) : BufFrame s (s.bufEndRecovery trigger) :=
  .ite (.bufAuto s 1) (.refl s)

theorem BufFrame.bufNextCommand (s : State) : BufFrame s s.bufNextCommand := by
  unfold State.bufNextCommand
  split
  · exact (BufFrame.trans (by rfl) (.bufLatch _ _)).trans (.toBufState _ _)
  · exact .refl s

theorem BufFrame.recoveryTrigger (s : State) : BufFrame s s.recoveryTrigger :=
  .ite ((BufFrame.bufAuto s 3).trans (by rfl)) (.ite (by rfl) (.refl s))

theorem BufFrame.bufBoundary (s : State) (trigger : Bool) : BufFrame s (s.bufBoundary trigger) := by
  have hnext := (BufFrame.bufEndRecovery s trigger).trans (.bufNextCommand _)
  exact .ite (hnext.trans (.recoveryTrigger _)) hnext

/-! ### Phases (R334) -/

/-- What a phase that comes into force may touch; no selection joins those that wait. -/
def PhaseFrame (s t : State) : Prop := t = { s with
  regs := t.regs, force := t.force, fns := t.fns, host := t.host, red := t.red, cnt := t.cnt, io := t.io
  power := { t.power with pending := s.power.pending } }

theorem PhaseFrame.refl (s : State) : PhaseFrame s s := rfl

theorem PhaseFrame.trans {s t u : State} (h : PhaseFrame s t) (k : PhaseFrame t u) : PhaseFrame s u := by
  unfold PhaseFrame at *
  rw [k, h]

theorem PhaseFrame.ite {c : Prop} [Decidable c] {s t u : State} (ht : PhaseFrame s t) (hu : PhaseFrame s u) :
    PhaseFrame s (if c then t else u) := by
  split
  · exact ht
  · exact hu

theorem PhaseFrame.foldl {α : Type} {f : State → α → State} (h : ∀ s a, PhaseFrame s (f s a)) (l : List α) (s : State) :
    PhaseFrame s (l.foldl f s) :=
  List.foldlRecOn l f (motive := PhaseFrame s) (.refl s) fun t ht a _ => ht.trans (h t a)

theorem PhaseFrame.of_post {s t : State} (h : PostFrame s t) : PhaseFrame s t := by
  unfold PhaseFrame
  rw [h]

theorem PhaseFrame.post (s : State) (type sub src : Nat) (payload : List Byte) :
    PhaseFrame s (s.post type sub src payload) := .of_post (.postAt s _ _ _ _ _ _)

theorem PhaseFrame.finishCmd (s : State) (n : Nat) (tag : BitVec 32) (st res : Nat) :
    PhaseFrame s (s.finishCmd n tag st res) := by
  unfold State.finishCmd
  split
  · exact .ite (.of_post (.of_return (.completeCmd n s _ st res))) (.refl s)
  · exact .refl s

/-- With a timeout, a drain begins without an end of another. -/
theorem PhaseFrame.beginDrain {us : Nat} (h : 0 < us) (s : State) (cls inst : Nat) (ph : Bool) :
    PhaseFrame s (s.beginDrain cls inst us ph) := by
  have hinside (x : Fn) (s : State) (f : Nat × Nat) : PhaseFrame s (if s.isOn f.1 f.2 then s.setFn f.1 f.2 x else s) :=
    .ite (by rfl) (.refl s)
  have hring (f : Ring → Ring) (s : State) (n : Nat) : PhaseFrame s (s.modRing n f) := rfl
  unfold State.beginDrain
  dsimp only
  rw [if_neg h.ne']
  exact (PhaseFrame.trans (by rfl) (.foldl (hinside _) _ _)).trans (.foldl (hring _) _ _)

theorem PhaseFrame.disableFn {us : Nat} (h : 0 < us) (s : State) (cls inst : Nat) (ph : Bool) :
    PhaseFrame s (s.disableFn cls inst us ph).1 := by
  unfold State.disableFn
  split
  · exact .beginDrain h s cls inst ph
  · split
    · rfl
    · exact .refl s
  · exact .refl s

theorem PhaseFrame.phaseEngine (s : State) (e : Nat) : PhaseFrame s (s.phaseEngine e) := by
  unfold State.phaseEngine
  exact .ite (.refl s) (.ite (.ite (PhaseFrame.trans (by rfl) (.post _ _ _ _ _)) (.refl s))
    (.disableFn (by decide) s 4 e true))

theorem PhaseFrame.raiseSetpoints (s : State) : PhaseFrame s s.raiseSetpoints := by
  have hset (s : State) (i : Nat) (f : Vsq → Vsq) : PhaseFrame s (s.modVsq i f) := rfl
  exact .foldl (fun s i => hset s i _) _ s

theorem PhaseFrame.applyPhase (s : State) (x : Nat × Nat × Option (Nat × BitVec 32)) :
    PhaseFrame s (s.applyPhase x) := by
  have hsel (p : Power) (hp : p.pending = s.power.pending) : PhaseFrame s { s with power := p } := by
    rw [PhaseFrame, ← hp]
  unfold State.applyPhase
  extract_lets old p0 s0 p1 s1 s2 s3
  have hsel1 : PhaseFrame s s1 := by
    unfold s1
    exact .ite (hsel _ rfl) (hsel _ rfl)
  have hsel3 : PhaseFrame s s3 :=
    ((hsel1.trans (.raiseSetpoints s1)).trans (.post _ _ _ _ _)).trans (.foldl .phaseEngine _ s2)
  split
  · exact hsel3.trans (.finishCmd s3 _ _ _ _)
  · exact hsel3

theorem State.phaseBoundary_frame (s : State) :
    PhaseFrame { s with power := { s.power with pending := [] } } s.phaseBoundary :=
  .foldl .applyPhase _ _

theorem State.phaseBoundary_none {s : State} (h : s.power.pending = []) : s.phaseBoundary = s := by
  unfold State.phaseBoundary
  rw [h]
  dsimp only [List.foldl_nil]
  rw [← h]

/-! ### The paced tempo (R331) -/

theorem State.lowerSetpoints_shape (s : State) :
    ∃ v, s.lowerSetpoints = { s with power := { s.power with vsq := v } } := by
  refine List.foldlRecOn (motive := fun t : State => ∃ v, t = { s with power := { s.power with vsq := v } }) _ _
    ⟨s.power.vsq, rfl⟩ ?_
  rintro _ ⟨v, rfl⟩ i -
  exact ⟨_, rfl⟩

/-- The boundary paces the tempo and nothing but the power settings. -/
theorem State.tempoBoundary_spec (s : State) : ∃ p, s.tempoBoundary = { s with power := p } ∧
    p.pending = s.power.pending ∧ p.tempo = s.nextTempo := by
  unfold State.tempoBoundary
  dsimp only
  split
  · obtain ⟨v, hv⟩ := State.lowerSetpoints_shape _
    exact ⟨_, hv, rfl, rfl⟩
  · exact ⟨_, rfl, rfl, rfl⟩

/-- Above its target, a paced tempo falls by at most 2 %. -/
theorem State.nextTempo_falls {s : State} (hpaced : s.freeRun = false) (h : s.targetTempo ≤ s.power.tempo) :
    s.nextTempo = max s.targetTempo (cdiv (98 * s.power.tempo) 100) := by
  rw [State.nextTempo, if_neg (by simp [hpaced]), if_neg (by omega), rampStep, if_pos h]

section
variable {s t : State} (h : t.beat.2.2 = s.beat.2.2)
include h

theorem tempo_of_beat : t.power.tempo = s.power.tempo := congrArg (fun b : Power × TimeSt => b.1.tempo) h

theorem freeRun_of_beat : t.freeRun = s.freeRun :=
  congrArg (fun b : Power × TimeSt => b.1.cur.mode == 1 && b.1.tcap == 0 && b.1.ttherm == 0) h

theorem targetTempo_of_beat (hslot : t.tour.slot = s.tour.slot) : t.targetTempo = s.targetTempo := by
  have hphase : t.phaseTempo = s.phaseTempo := by
    have hbase := congrArg (fun b : Power × TimeSt => if b.1.cur.mode = 0 then 10 * b.1.cur.tempo
      else Config.naturalTempo b.2.cycles s.tour.slot) h
    rw [State.phaseTempo, hslot]
    exact hbase
  rw [State.targetTempo, hphase]
  exact congrArg (fun b : Power × TimeSt => max 600 (limitTo b.1.ttherm (limitTo b.1.tcap s.phaseTempo))) h

end

end Sys2Proof.Machine
end

section
/-! SUPPORT. TOUR_PERIOD_BOUNDARY and MESH_START (R133, R145, R155, R167 to R169, R180, R183, R308, R331, R334). -/

namespace Sys2Proof.Machine

/-! ### The settings and the turn of a new period (R133, R308, R349) -/

theorem FaultFrame.beat {s t : State} (h : FaultFrame s t) : t.beat = s.beat := by
  rw [h]
  rfl

theorem FaultFrame.tour {s t : State} (h : FaultFrame s t) : t.tour = s.tour := by rw [h]

theorem State.latchPower_spec (s : State) : s.latchPower.beat = s.beat ∧ s.latchPower.tour = s.tour ∧
    s.latchPower.triad = s.triad := by
  unfold State.latchPower
  dsimp only
  split <;> exact ⟨rfl, rfl, rfl⟩

theorem State.endSimplex_chans (s : State) : s.endSimplex.triad.chans = s.triad.chans := by
  unfold State.endSimplex
  split <;> rfl

/-- The boundary is no longer due. -/
def State.atBoundary (s : State) : State := { s with tour := { s.tour with boundary := false } }

/-- The boundary has re-seeded the channels and latched the power settings. -/
def State.periodBegun (s : State) (bad : List Nat) : State :=
  ((s.atBoundary.faultOrder (8 + ·) [0, 1, 2]).foldl (fun s c => s.reseed bad c) s.atBoundary).endSimplex.latchPower

theorem State.periodBegun_spec (s : State) (bad : List Nat) :
    (s.periodBegun bad).beat = ({ s.beat.1 with boundary := false }, s.beat.2) ∧
    (s.periodBegun bad).tour.x = s.tour.x := by
  have hseed : FaultFrame s.atBoundary
      ((s.atBoundary.faultOrder (8 + ·) [0, 1, 2]).foldl (fun s c => s.reseed bad c) s.atBoundary) :=
    FaultFrame.foldl (fun s c hc => .reseed s bad (by
      have := mem_faultOrder.mp hc
      simp at this
      omega)) _
  have hsimplex (u : State) : FaultFrame u u.endSimplex := .ite (by rfl) (.refl u)
  obtain ⟨hbeat, htour, -⟩ := State.latchPower_spec
    ((s.atBoundary.faultOrder (8 + ·) [0, 1, 2]).foldl (fun s c => s.reseed bad c) s.atBoundary).endSimplex
  have hframe := hseed.trans (hsimplex _)
  exact ⟨hbeat.trans hframe.beat, (congrArg Tour.x (htour.trans hframe.tour)).trans rfl⟩

/-- A channel that is live and was not outvoted acts once the re-seed has succeeded. -/
theorem State.periodBegun_act (s : State) {c : Nat} (hc : c < 3) (h : (s.chn c).sound) :
    ((s.periodBegun []).chn c).act = true := by
  have hmem : c ∈ s.atBoundary.faultOrder (8 + ·) [0, 1, 2] := by
    rw [mem_faultOrder]
    simp
    omega
  have hact := State.act_foldl_reseed hmem s.atBoundary h
  rw [State.periodBegun, State.chn, (State.latchPower_spec _).2.2, State.endSimplex_chans]
  exact hact

theorem turnDue_of_beat {s t : State} (h : t.beat.2 = s.beat.2) : t.turnDue = s.turnDue :=
  congrArg (fun b : Book × Power × TimeSt => match b.1.turn with
    | some x => x.act == 0 || decide (x.act ≤ toNs (votedTick b.2.2.c0 b.2.2.c1 b.2.2.c2))
    | none => false) h

theorem State.swapTurn_none {s : State} (h : s.book.turn = none) : s.swapTurn = s := by
  rw [State.swapTurn, h]

/-- The turn that is due at a boundary. -/
def State.dueTurn (s : State) : State :=
  if s.turnDue then
    (if s.turnDue && (s.book.turn.map fun x => bit x.mask 10).getD false then s.swapTurn.dropBase else s.swapTurn)
  else s

theorem State.swapTurn_tour (s : State) : s.swapTurn.tour = s.tour ∧ s.swapTurn.triad = s.triad := by
  cases hx : s.book.turn with
  | none => rw [State.swapTurn_none hx]; exact ⟨rfl, rfl⟩
  | some x => rw [State.swapTurn_frame hx]; exact ⟨rfl, rfl⟩

theorem State.dueTurn_spec (s : State) : s.dueTurn.beat.1 = s.beat.1 ∧ s.dueTurn.triad.chans = s.triad.chans := by
  obtain ⟨htour, htriad⟩ := s.swapTurn_tour
  have hbeat : s.swapTurn.beat.1 = s.beat.1 :=
    congrArg (fun x : Tour => { x with x := 0, xSource := [], attHost := 0, attSvc := 0 }) htour
  unfold State.dueTurn
  split
  · split
    · exact ⟨hbeat, congrArg Triad.chans htriad⟩
    · exact ⟨hbeat, congrArg Triad.chans htriad⟩
  · exact ⟨rfl, rfl⟩

theorem State.dueTurn_none {s : State} (h : s.turnDue = false) : s.dueTurn = s := if_neg (by simp [h])

/-! ### The squares of a new period (R145, R155, R167 to R169) -/

theorem foldl_modSq_shape (f : State → Nat → Sq → Sq) (l : List Nat) (s : State) :
    ∃ q, l.foldl (fun s i => s.modSq i (f s i)) s = { s with sqs := q } := by
  refine List.foldlRecOn (motive := fun t : State => ∃ q, t = { s with sqs := q }) _ _ ⟨s.sqs, rfl⟩ ?_
  rintro _ ⟨q, rfl⟩ i -
  exact ⟨_, rfl⟩

theorem State.gapBoundary_shape (s : State) : ∃ q, s.gapBoundary = { s with sqs := q } :=
  foldl_modSq_shape (fun s e q => { q with ctxOut := q.ctxOut.map fun x => (x.1, s.gapStep e x.2) }) squares s

/-- The squares of a new period: gaps are counted, rejoins that are due take place, and X comes into force. -/
def State.squaresChanged (s : State) : State := s.gapBoundary.rejoinDue.applyX

theorem State.squaresChanged_spec (s : State) :
    s.squaresChanged.beat = ({ s.beat.1 with rejoin := 0, xInForce := s.gapBoundary.rejoinDue.tour.x }, s.beat.2) ∧
    s.squaresChanged.triad.chans = s.triad.chans := by
  obtain ⟨q, hgap⟩ := s.gapBoundary_shape
  obtain ⟨hbeat, hchans, -⟩ := s.gapBoundary.rejoinDue_spec
  obtain ⟨hbeat', hchans'⟩ := s.gapBoundary.rejoinDue.applyX_spec
  have hgapBeat : s.gapBoundary.beat = s.beat := by rw [hgap]; rfl
  refine ⟨?_, (hchans'.trans hchans).trans (by rw [hgap])⟩
  rw [State.squaresChanged, hbeat', hbeat, hgapBeat]

/-- X as it comes into force, where no turn has changed it. -/
theorem State.rejoined_x {s : State} :
    (s.tour.rejoin = 0 → s.gapBoundary.rejoinDue.tour.x = s.tour.x) ∧
    ∀ i, bit s.tour.rejoin i = false → bit s.tour.x i = true → bit s.gapBoundary.rejoinDue.tour.x i = true := by
  obtain ⟨q, hgap⟩ := s.gapBoundary_shape
  rw [hgap]
  refine ⟨fun h => ?_, fun i => (State.rejoinDue_spec { s with sqs := q }).2.2 i⟩
  rw [State.rejoinDue_none (show ({ s with sqs := q } : State).tour.rejoin = 0 from h)]

/-! ### The end of the period that ran (R166, R167, R180, R183, R331, R334) -/

/-- The period has ended for every square. -/
def State.periodEnded (s : State) : State :=
  squares.foldl (fun s i => s.modSq i fun q => q.endPeriod s.elapsed) s

theorem State.periodEnded_shape (s : State) : ∃ q, s.periodEnded = { s with sqs := q } :=
  foldl_modSq_shape (fun s _ q => q.endPeriod s.elapsed) squares s

theorem State.periodEnded_sq (s : State) {i : Nat} (hi : i < 64) :
    (s.periodEnded.sq i).fenced = false ∧ (s.periodEnded.sq i).lastRecorded = false := by
  refine foldl_of_mem (Q := fun _ => True)
    (P := fun t : State => (t.sq i).fenced = false ∧ (t.sq i).lastRecorded = false)
    (fun _ _ h => h) (fun t _ => ?_) (fun t k _ h => ?_) (List.mem_range.mpr hi) trivial
  · rw [State.sq_modSq, if_pos rfl]
    exact ⟨rfl, rfl⟩
  · rw [State.sq_modSq]
    split
    · exact ⟨rfl, rfl⟩
    · exact h

/-- The buffer's state, the phase, the tempo and the free count of the period that begins. -/
def State.periodSet (s : State) (trigger : Bool) : State :=
  let t := (s.bufBoundary trigger).phaseBoundary.tempoBoundary
  { t with buf := { t.buf with gf := t.gfNow } }

theorem State.periodSet_spec (s : State) (trigger : Bool) :
    (s.periodSet trigger).tour = s.tour ∧ (s.periodSet trigger).triad = s.triad ∧
    (s.periodSet trigger).sqs = s.sqs ∧ (s.periodSet trigger).power.pending = [] ∧
    (s.periodSet trigger).buf.gf = (s.periodSet trigger).gfNow := by
  have hbuf := BufFrame.bufBoundary s trigger
  have hphase := (s.bufBoundary trigger).phaseBoundary_frame
  obtain ⟨p, htempo, hpending, -⟩ := (s.bufBoundary trigger).phaseBoundary.tempoBoundary_spec
  unfold State.periodSet
  rw [htempo]
  refine ⟨?_, ?_, ?_, ?_, rfl⟩
  · rw [hphase, hbuf]
  · rw [hphase, hbuf]
  · rw [hphase, hbuf]
  · dsimp only
    rw [hpending, hphase]

/-- With no phase to come into force, a paced tempo above its target falls towards it. -/
theorem State.periodSet_tempo {s : State} (trigger : Bool) (hnone : s.power.pending = []) (hpaced : s.freeRun = false)
    (habove : s.targetTempo ≤ s.power.tempo) :
    (s.periodSet trigger).power.tempo = max s.targetTempo (cdiv (98 * s.power.tempo) 100) := by
  have hbuf := BufFrame.bufBoundary s trigger
  have hbeat : (s.bufBoundary trigger).beat = s.beat := by rw [hbuf]; rfl
  have hpower : (s.bufBoundary trigger).power = s.power := by rw [hbuf]
  have hslot : (s.bufBoundary trigger).tour.slot = s.tour.slot := by rw [hbuf]
  have hrest := congrArg (fun b => b.2.2) hbeat
  have htarget := targetTempo_of_beat hrest hslot
  obtain ⟨p, htempo, -, hnext⟩ := (s.bufBoundary trigger).tempoBoundary_spec
  unfold State.periodSet
  rw [State.phaseBoundary_none (by rw [hpower, hnone]), htempo]
  dsimp only
  rw [hnext, State.nextTempo_falls ((freeRun_of_beat hrest).trans hpaced) (by rw [htarget, hpower]; exact habove),
    htarget, hpower]

end Sys2Proof.Machine
end

section
/-! PROOFS. TOUR_PERIOD_BOUNDARY and MESH_START (R133, R145, R155, R167 to R169, R180, R183, R308, R331, R334). -/

namespace Sys2Proof.Machine

/-! ### The Tour-period boundary -/

/-- The state in which the squares of a new period come into force. -/
def State.periodTurned (s : State) (bad : List Nat) : State := (s.periodBegun bad).dueTurn

/-- X changes at this boundary: a trigger of RECOVERY. -/
def State.periodTrigger (s : State) (bad : List Nat) : Bool :=
  (s.periodTurned bad).xChanges || (s.periodTurned bad).tour.x != (s.periodBegun bad).tour.x

/-- The state of the buffer and the tempo is still that of the period that ended. -/
def State.periodSquares (s : State) (bad : List Nat) : State :=
  (s.periodTurned bad).squaresChanged.periodEnded

/-- The new period. -/
def State.newPeriod (s : State) (bad : List Nat) : State := (s.periodSquares bad).periodSet (s.periodTrigger bad)

theorem State.periodTurned_spec (s : State) (bad : List Nat) :
    (s.periodTurned bad).beat.1 = { s.beat.1 with boundary := false } ∧
    (s.periodTurned bad).triad.chans = (s.periodBegun bad).triad.chans := by
  obtain ⟨hbeat, hchans⟩ := (s.periodBegun bad).dueTurn_spec
  exact ⟨hbeat.trans (congrArg Prod.fst (s.periodBegun_spec bad).1), hchans⟩

/-- Where no turn is due, none takes place. -/
theorem State.periodTurned_none {s : State} (bad : List Nat) (h : s.turnDue = false) :
    s.periodTurned bad = s.periodBegun bad := by
  refine State.dueTurn_none ((turnDue_of_beat ?_).trans h)
  rw [(s.periodBegun_spec bad).1]

theorem State.periodSquares_spec (s : State) (bad : List Nat) :
    (s.periodSquares bad).beat = ({ (s.periodTurned bad).beat.1 with
      rejoin := 0, xInForce := (s.periodTurned bad).gapBoundary.rejoinDue.tour.x }, (s.periodTurned bad).beat.2) ∧
    (s.periodSquares bad).triad.chans = (s.periodTurned bad).triad.chans := by
  obtain ⟨q, hended⟩ := (s.periodTurned bad).squaresChanged.periodEnded_shape
  unfold State.periodSquares
  rw [hended]
  exact (s.periodTurned bad).squaresChanged_spec

/-- The timing of the mesh in the new period. -/
theorem State.newPeriod_tour (s : State) (bad : List Nat) :
    (s.newPeriod bad).beat.1 = { s.beat.1 with
      boundary := false, rejoin := 0, xInForce := (s.periodTurned bad).gapBoundary.rejoinDue.tour.x } := by
  have htour := ((s.periodSquares bad).periodSet_spec (s.periodTrigger bad)).1
  have hbeat := congrArg Prod.fst (s.periodSquares_spec bad).1
  rw [(s.periodTurned_spec bad).1] at hbeat
  exact (congrArg (fun x : Tour => { x with x := 0, xSource := [], attHost := 0, attSvc := 0 }) htour).trans hbeat

theorem State.newPeriod_sq (s : State) (bad : List Nat) {i : Nat} (hi : i < 64) :
    ((s.newPeriod bad).sq i).fenced = false ∧ ((s.newPeriod bad).sq i).lastRecorded = false := by
  obtain ⟨-, -, hsqs, -⟩ := (s.periodSquares bad).periodSet_spec (s.periodTrigger bad)
  have hsq : (s.newPeriod bad).sq i = (s.periodSquares bad).sq i := by rw [State.sq, State.newPeriod, hsqs, ← State.sq]
  rw [hsq, State.periodSquares]
  exact (s.periodTurned bad).squaresChanged.periodEnded_sq hi

theorem State.newPeriod_act (s : State) {c : Nat} (hc : c < 3) (h : (s.chn c).sound) :
    ((s.newPeriod []).chn c).act = true := by
  obtain ⟨-, htriad, -⟩ := (s.periodSquares []).periodSet_spec (s.periodTrigger [])
  have hchans := (s.periodSquares_spec []).2.trans (s.periodTurned_spec []).2
  have hact := s.periodBegun_act hc h
  rw [State.chn] at hact ⊢
  rw [State.newPeriod, htriad, hchans]
  exact hact

section
variable {s : State} (bad : List Nat) (hnone : s.turnDue = false)
include hnone

/-- Without a turn or a rejoin, X comes into force as it stands. -/
theorem State.newPeriod_x (h : s.xChanges = false) : (s.newPeriod bad).tour.xInForce = s.tour.x := by
  have hrejoin : s.tour.rejoin = 0 := by
    simp only [State.xChanges, Bool.or_eq_false_iff, bne_eq_false_iff_eq] at h
    exact h.1
  obtain ⟨hbeat, hx⟩ := s.periodBegun_spec bad
  have hbegun : (s.periodBegun bad).tour.rejoin = 0 := (congrArg (fun b => b.1.rejoin) hbeat).trans hrejoin
  refine (congrArg Tour.xInForce (s.newPeriod_tour bad)).trans ?_
  rw [State.periodTurned_none bad hnone]
  exact (State.rejoined_x.1 hbegun).trans hx

/-- Without a turn, a square of X that does not rejoin is excluded. -/
theorem State.newPeriod_excluded {i : Nat} (hi : bit s.tour.x i = true) (hstays : bit s.tour.rejoin i = false) :
    bit (s.newPeriod bad).tour.xInForce i = true := by
  obtain ⟨hbeat, hx⟩ := s.periodBegun_spec bad
  have hbegun : bit (s.periodBegun bad).tour.rejoin i = false :=
    (congrArg (fun b => bit b.1.rejoin i) hbeat).trans hstays
  have hforce : (s.newPeriod bad).tour.xInForce = (s.periodTurned bad).gapBoundary.rejoinDue.tour.x :=
    congrArg Tour.xInForce (s.newPeriod_tour bad)
  rw [hforce, State.periodTurned_none bad hnone]
  exact State.rejoined_x.2 i hbegun (by rwa [hx])

/-- Without a turn or a phase, a paced tempo above its target falls towards it. -/
theorem State.newPeriod_tempo (hpending : s.power.pending = []) (hpaced : s.freeRun = false)
    (habove : s.targetTempo ≤ s.power.tempo) :
    (s.newPeriod bad).power.tempo = max s.targetTempo (cdiv (98 * s.power.tempo) 100) := by
  have hbeat := (s.periodSquares_spec bad).1
  rw [State.periodTurned_none bad hnone, (s.periodBegun_spec bad).1] at hbeat
  have hrest := congrArg (fun b => b.2.2) hbeat
  have hslot : (s.periodSquares bad).tour.slot = s.tour.slot := congrArg (fun b => b.1.slot) hbeat
  have htarget := targetTempo_of_beat hrest hslot
  have htempo := tempo_of_beat hrest
  refine (State.periodSet_tempo _ ?_ ((freeRun_of_beat hrest).trans hpaced) ?_).trans ?_
  · exact (congrArg (fun b : Power × TimeSt => b.1.pending) hrest).trans hpending
  · rw [htarget, htempo]
    exact habove
  · rw [htarget, htempo]

end

section
variable {s : State} (hu : Up s)
include hu

theorem tourPeriodBoundary_idle (bad : List Nat)
    (h : s.tour.boundary = false ∨ s.triad.hold.isSome = true ∨ s.triad.lost = true) :
    exec (.tourPeriodBoundary bad) s = .next s := by
  change execTourPeriodBoundary bad s = _
  rw [execTourPeriodBoundary, gated_up hu, if_pos]
  rcases h with h | h | h <;> simp [h]

theorem tourPeriodBoundary_eq (bad : List Nat) (hdue : s.tour.boundary = true) (hhold : s.triad.hold = none)
    (hlost : s.triad.lost = false) : exec (.tourPeriodBoundary bad) s = .next (s.newPeriod bad) := by
  change execTourPeriodBoundary bad s = _
  rw [execTourPeriodBoundary, gated_up hu, if_neg (by simp [hdue, hhold, hlost])]
  extract_lets _ s0 s1 s2 turn10 s3 trigger s4 s5 s6 s7
  have hbegun : s.periodBegun bad = s2 := rfl
  clear_value s2
  have hturned : s.periodTurned bad = s3 := by rw [State.periodTurned, hbegun, State.dueTurn]
  have htrigger : s.periodTrigger bad = trigger := by rw [State.periodTrigger, hturned, hbegun]
  clear_value s3 trigger
  have hsquares : s.periodSquares bad = s6 := by
    rw [State.periodSquares, hturned, State.squaresChanged, State.periodEnded]
  clear_value s6
  rw [State.newPeriod, hsquares, htrigger, State.periodSet]

end

/-! ### The start of the mesh -/

/-- The mesh is at the first slot of its first Tour. -/
def State.atSlot0 (s : State) : State :=
  { s with tour := { s.tour with running := true, slot := 0, released := false, boundary := false } }

theorem State.startMesh_spec (s : State) :
    s.startMesh.beat.2.1 = s.beat.2.1 ∧ s.startMesh.tour.running = true ∧ s.startMesh.tour.slot = 0 ∧
    s.startMesh.tour.released = false ∧ s.startMesh.tour.boundary = false ∧
    s.startMesh.power.tempo = s.startMesh.power.lastTarget ∧ s.startMesh.buf.gf = s.startMesh.gfNow := by
  have hlatch := ((Steady.latch s [A.tourCfg, A.triadCfg, A.svcPoolCfg, A.svcQuotaHost]).trans
    (.foldl Steady.latchQuotas squares _)).beat
  obtain ⟨hbeat, -⟩ := (squares.foldl State.latchQuotas
    (s.latch [A.tourCfg, A.triadCfg, A.svcPoolCfg, A.svcQuotaHost])).atSlot0.dropBase.applyX_spec
  have htour := congrArg Prod.fst hbeat
  refine ⟨(congrArg (fun b => b.2.1) hbeat).trans (congrArg (fun b => b.2.1) hlatch), congrArg Tour.running htour,
    congrArg Tour.slot htour, congrArg Tour.released htour, congrArg Tour.boundary htour, rfl, rfl⟩

theorem State.swapTurn_book {s : State} {x : Turn} (hx : s.book.turn = some x) :
    s.swapTurn.book = s.book.swap x s.elapsed := by rw [State.swapTurn_frame hx]

section
variable {s : State} (hu : Up s)
include hu

theorem meshStart_idle (h : s.tour.running = true ∨ s.turnDue = false) : exec .meshStart s = .next s := by
  change execMeshStart s = _
  rw [execMeshStart, gated_up hu, if_pos]
  rcases h with h | h <;> simp [h]

variable {x : Turn} (hstill : s.tour.running = false) (hdue : s.turnDue = true) (hx : s.book.turn = some x)
include hstill hdue hx

theorem meshStart_turn : exec .meshStart s = .next (if bit x.mask 10 then s.swapTurn.startMesh else s.swapTurn) := by
  change execMeshStart s = _
  rw [execMeshStart, gated_up hu, if_neg (by simp [hstill, hdue]), hx]
  rfl

theorem meshStart_spec : Yields .meshStart s fun t =>
    t.book.epoch = x.epoch ∧ t.book.turn = none ∧ t.book.turned = true ∧
    t.tour.running = bit x.mask 10 ∧
    (bit x.mask 10 = true → t.tour.slot = 0 ∧ t.tour.released = false ∧ t.tour.boundary = false ∧
      t.power.tempo = t.power.lastTarget ∧ t.buf.gf = t.gfNow) := by
  have hbook := State.swapTurn_book hx
  refine ⟨_, meshStart_turn hu hstill hdue hx, ?_⟩
  cases h10 : bit x.mask 10 with
  | false =>
    rw [if_neg Bool.false_ne_true, hbook, s.swapTurn_tour.1]
    exact ⟨rfl, rfl, rfl, hstill, fun h => absurd h Bool.false_ne_true⟩
  | true =>
    rw [if_pos rfl]
    obtain ⟨hstart, hrun, hslot, hrel, hbound, htempo, hgf⟩ := s.swapTurn.startMesh_spec
    have hswap : s.swapTurn.beat.2.1 = { s.book.swap x s.elapsed with lsv := [] } :=
      congrArg (fun b : Book => { b with lsv := [] }) hbook
    have hturned := hstart.trans hswap
    exact ⟨congrArg Book.epoch hturned, congrArg Book.turn hturned, congrArg Book.turned hturned, hrun,
      fun _ => ⟨hslot, hrel, hbound, htempo, hgf⟩⟩

end

/-- Settles O46: the boundary's operations keep the timing of the mesh but for what each is there to change, and the
start of the mesh sets it anew after the turn. -/
theorem periodsAndTheStart : Obligations.PeriodsAndTheStart := by
  refine ⟨fun bad s hu => ⟨tourPeriodBoundary_idle hu bad, fun hdue hhold hlost =>
    ⟨_, tourPeriodBoundary_eq hu bad hdue hhold hlost, ?_⟩⟩,
    fun s hu => ⟨meshStart_idle hu, fun x hstill hdue hx => meshStart_spec hu hstill hdue hx⟩⟩
  have htour := s.newPeriod_tour bad
  obtain ⟨-, -, -, hpending, hgf⟩ := (s.periodSquares bad).periodSet_spec (s.periodTrigger bad)
  refine ⟨congrArg Tour.boundary htour, congrArg Tour.rejoin htour, (congrArg Tour.slot htour :), hpending, hgf,
    fun i hi => s.newPeriod_sq bad hi, State.newPeriod_x bad, fun i hnone hi hstays =>
      State.newPeriod_excluded bad hnone hi hstays, ?_, State.newPeriod_tempo bad⟩
  rintro rfl c hc hlive hvoted
  exact s.newPeriod_act hc ⟨hlive, hvoted⟩

end Sys2Proof.Machine
end

section
/-! PROOFS. A frame of the port's queue that has the name of the one whose transmission ends (R154, R158, R389). -/

namespace Sys2Proof.Machine
open Sys2Proof.Tests

/-- A frame that port 448 transmits in class 0 and that asks for a postcard. -/
def namesakeTx : Tx := { fid := 9, hdr := { fid := 9, telem := 1 } }

/-- The square of `straySq`, whose parked cell starts a frame of that name. -/
def namesakeSq (q : Sq) : Sq := { straySq q with
  blitz := []
  cells := [(0, { segs := [{ fid := 9, hdr := some { fid := 9 }, last := true }] })] }

/-- The postcards of square 28 fill a telemetry frame with the one that frame 9 asks for, and a frame of two cells, on
its way to the same queue, waits in the services outbox. -/
def namesake : State := (sqAt 28 namesakeSq stray).modEport 448 fun e => { e with tx := some namesakeTx }

theorem namesake_sends : Up namesake ∧ (namesake.eport 448).tx = some namesakeTx := by decide +kernel

/-- Frame 9 ends, its postcard closes the telemetry frame, and that injects the frame of the outbox. Its second cell
enters the resequencer of square 28, which then links the parked cell to the queue that frame 9 has left. -/
theorem namesake_queued :
    ((ran (.frameTransmitEnd 448) namesake).queue 7168).frames.map (fun f => f.fid) = [9] := by decide +kernel

/-- Refutes O48: after FRAME_TRANSMIT_END the queue may hold a frame with the name of the one that left it. The statement
does not say that the names of frames differ, and the postcard that the end makes may link another frame. -/
theorem not_framesLeave : ¬ Obligations.FramesLeave := by
  unfold Obligations.FramesLeave
  intro h
  obtain ⟨hup, htx⟩ := namesake_sends
  obtain ⟨-, -, -, -, hend⟩ := h 448 namesake hup
  obtain ⟨t, hexec, -, hleft, -⟩ := hend namesakeTx htx
  have hqueued : (t.queue 7168).frames.map (fun f => f.fid) = [9] := by
    simpa only [ran, hexec] using namesake_queued
  obtain ⟨f, hf, hname⟩ : ∃ f ∈ (t.queue 7168).frames, f.fid = 9 := List.mem_map.mp (by rw [hqueued]; exact .head _)
  exact hleft f hf hname

end Sys2Proof.Machine
end

section
/-! PROOFS. Quiet sources, ALIVE, the recovery counters, slow squares and the regulators' alert (R166, R321, R324, R364). -/

namespace Sys2Proof.Machine

/-! ### FAULT_QUIET_EXPIRE (R321) -/

/-- A source that has been quiet long enough. -/
def Src.quieted (x : Src) : Src :=
  { x with st := .idle, count := 0, recov := if x.st = .severe then min 65535 (x.recov + 1) else x.recov }

/-- Source `n` has become IDLE, before its event. -/
def State.sourceQuiet (s : State) (n : Nat) : State :=
  let s1 := s.modSrc n fun y => { y with
    st := .idle, count := 0, recov := if (s.src n).st == .severe then min 65535 (y.recov + 1) else y.recov }
  let s2 := if (s.src n).st == .severe then
    { s1 with boot := { s1.boot with recovDirty := (n :: s1.boot.recovDirty).dedup } } else s1
  match srcChannel n with
  | some c => s2.modChn c fun y => { y with cleared := false }
  | none => s2

theorem State.sourceQuiet_shape (s : State) (n : Nat) :
    ∃ b x, s.sourceQuiet n = { s with
        fault := { s.fault with srcs := SMap.set (fun _ => {}) s.fault.srcs n (s.src n).quieted }, boot := b, triad := x } ∧
      ((s.src n).st = .severe → n ∈ b.recovDirty) := by
  have hsrc : (s.modSrc n fun y => { y with
      st := .idle, count := 0, recov := if (s.src n).st == .severe then min 65535 (y.recov + 1) else y.recov }) =
      { s with fault := { s.fault with srcs := SMap.set (fun _ => {}) s.fault.srcs n (s.src n).quieted } } := by
    simp only [State.modSrc, SMap.upd, Src.quieted, beq_iff_eq]
    rfl
  unfold State.sourceQuiet
  rw [hsrc]
  dsimp only
  by_cases hsev : (s.src n).st = .severe
  · rw [if_pos (beq_iff_eq.mpr hsev)]
    have hdirty : n ∈ (n :: s.boot.recovDirty).dedup := List.mem_dedup.mpr (.head _)
    split
    · exact ⟨_, _, rfl, fun _ => hdirty⟩
    · exact ⟨_, _, rfl, fun _ => hdirty⟩
  · rw [if_neg (by simpa using hsev)]
    split
    · exact ⟨_, _, rfl, fun h => absurd h hsev⟩
    · exact ⟨_, _, rfl, fun h => absurd h hsev⟩

section
variable {s : State} (hu : Up s) {n : Nat}
include hu

theorem faultQuietExpire_idle (h : (s.src n).st = .idle ∨ s.elapsed < (s.src n).last + s.quietOf n) :
    exec (.faultQuietExpire n) s = .next s := by
  change execFaultQuietExpire n s = _
  rw [execFaultQuietExpire, gated_up hu, if_neg]
  rintro ⟨hst, hdue⟩
  exact h.elim hst (Nat.not_lt.mpr hdue)

theorem faultQuietExpire_eq (hst : (s.src n).st ≠ .idle) (hdue : (s.src n).last + s.quietOf n ≤ s.elapsed) :
    exec (.faultQuietExpire n) s = .next ((s.sourceQuiet n).postCleared n 0) := by
  change execFaultQuietExpire n s = _
  rw [execFaultQuietExpire, gated_up hu, if_pos ⟨hst, hdue⟩]
  rfl

theorem faultQuietExpire_quiets (hst : (s.src n).st ≠ .idle) (hdue : (s.src n).last + s.quietOf n ≤ s.elapsed) :
    Yields (.faultQuietExpire n) s fun t =>
      t.src n = (s.src n).quieted ∧ (∀ m, m ≠ n → t.src m = s.src m) ∧
      ((s.src n).st = .severe → n ∈ t.boot.recovDirty) ∧ t.host.evSeq = (s.post 0x11 0 n []).host.evSeq := by
  refine ⟨_, faultQuietExpire_eq hu hst hdue, ?_⟩
  obtain ⟨b, x, hquiet, hdirty⟩ := s.sourceQuiet_shape n
  have hpost : PostFrame (s.sourceQuiet n) ((s.sourceQuiet n).postCleared n 0) := .postAt _ _ _ _ _ _ _
  have hseq : ((s.sourceQuiet n).postCleared n 0).host.evSeq = (s.post 0x11 0 n []).host.evSeq := by
    rw [State.postCleared, State.post, State.postAt_evSeq, State.post, State.postAt_evSeq, hquiet]
    rfl
  rw [hquiet] at hpost hseq ⊢
  refine ⟨?_, fun m hm => ?_, fun h => ?_, hseq⟩
  · rw [hpost]
    exact SMap.get_set_same _ _ _ _
  · rw [hpost]
    exact SMap.get_set_ne _ _ _ hm
  · rw [hpost]
    exact hdirty h

/-! ### ALIVE_EDGE (R324) -/

theorem aliveEdge_due (hrun : s.fwRuns = true) (hdue : s.triad.aliveAt + usT 500 ≤ s.elapsed) :
    exec .aliveEdge s = .next { s with triad := { s.triad with
      alive := if s.anySevere then s.triad.alive else !s.triad.alive, aliveAt := s.elapsed } } := by
  change execAliveEdge s = _
  rw [execAliveEdge, gated_up hu, if_pos (by simp [hrun, hdue])]

theorem aliveEdge_idle (h : s.fwRuns = false ∨ s.elapsed < s.triad.aliveAt + usT 500) :
    exec .aliveEdge s = .next s := by
  change execAliveEdge s = _
  rw [execAliveEdge, gated_up hu, if_neg]
  rcases h with h | h <;> simp [h]

/-! ### SCORESHEET_COUNTER_WRITE (R364) -/

theorem scoresheetCounterWrite_idle (h : s.boot.recovDirty = []) (ok : Bool) :
    exec (.scoresheetCounterWrite ok) s = .next s := by
  change execScoresheetCounterWrite ok s = _
  rw [execScoresheetCounterWrite, gated_up hu]
  exact congrArg _ (if_pos h)

theorem scoresheetCounterWrite_eq (h : s.boot.recovDirty ≠ []) (ok : Bool) :
    exec (.scoresheetCounterWrite ok) s = .next (if ok then { s with
        nv := { s.nv with
          recov := s.boot.recovDirty.foldl (fun m n => SMap.set (fun _ => 0) m n (s.src n).recov) s.nv.recov
          recovCopy := (s.nv.recovCopy + 1) % 32 }
        boot := { s.boot with recovDirty := [] } }
      else ((s.orReg A.bootSsStat (2 ^ 31)).post 0x33 0 0x41 (leBytes 4 s.boot.recovDirty.length)).faultEvent 23) := by
  change execScoresheetCounterWrite ok s = _
  rw [execScoresheetCounterWrite, gated_up hu]
  exact congrArg _ (if_neg h)

theorem scoresheetCounterWrite_writes (h : s.boot.recovDirty ≠ []) :
    Yields (.scoresheetCounterWrite true) s fun t =>
      (∀ n ∈ s.boot.recovDirty, SMap.get (fun _ => 0) t.nv.recov n = (s.src n).recov) ∧ t.boot.recovDirty = [] ∧
      t.nv.recovCopy = (s.nv.recovCopy + 1) % 32 ∧ t = { s with
        nv := { s.nv with recov := t.nv.recov, recovCopy := t.nv.recovCopy }
        boot := { s.boot with recovDirty := [] } } :=
  ⟨_, scoresheetCounterWrite_eq hu h true,
    fun _ hn => SMap.get_foldl_set (fun _ => 0) (fun n => (s.src n).recov) hn s.nv.recov, rfl, rfl, rfl⟩

/-! ### SLOW_SQUARE_REPORT (R166) -/

theorem slowSquareReport_eq {i u : Nat} (h : (s.sq i).lastSince = some u) :
    exec (.slowSquareReport i) s = .next (if u + msT 1 ≤ s.elapsed then
      ({ s with tour := { s.tour with slow := true, slowSq := i } } : State).faultEvent (64 + 8 * i + 1) 0 i else s) := by
  change execSlowSquareReport i s = _
  rw [execSlowSquareReport, gated_up hu, h]
  rfl

theorem slowSquareReport_none {i : Nat} (h : (s.sq i).lastSince = none) :
    exec (.slowSquareReport i) s = .next s := by
  change execSlowSquareReport i s = _
  rw [execSlowSquareReport, gated_up hu, h]

/-! ### REGULATOR_ALERT (R316, R415) -/

theorem regulatorAlert_eq : exec .regulatorAlert s = .next (s.faultEvent 22) := by
  change execRegulatorAlert s = _
  rw [execRegulatorAlert, gated_up hu]

end

/-- Settles O57: each of the five operations waits for its instant and then changes what it is there to change. -/
theorem faultRecovery : Obligations.FaultRecovery := by
  intro s hu
  refine ⟨fun n => faultQuietExpire_idle hu, fun n => faultQuietExpire_quiets hu, aliveEdge_due hu, aliveEdge_idle hu,
    fun ok h => scoresheetCounterWrite_idle hu h ok, scoresheetCounterWrite_writes hu,
    fun h => scoresheetCounterWrite_eq hu h false, fun i u h => ⟨fun hdue => ?_, fun hearly => ?_⟩,
    fun i => slowSquareReport_none hu, regulatorAlert_eq hu⟩
  · rw [slowSquareReport_eq hu h, if_pos hdue]
  · rw [slowSquareReport_eq hu h, if_neg (Nat.not_le.mpr hearly)]

end Sys2Proof.Machine
end

section
/-! SUPPORT. ISOLATE, REJOIN and SQ_RESET as they are accepted (R36, R167, R169, R418). -/

namespace Sys2Proof.Machine

/-- The state with another record of the Tour. -/
def State.withTour (s : State) (x : Tour) : State := { s with tour := x }

/-- A served command that answers with the Tour's record changed and nothing else. -/
theorem yields_tour {i : Instr} {op st res : Nat} {c : Cmd} {ok : Bool} {f : State → CmdOut} {s : State} {x : Tour}
    (hx : exec i s = gated s (runCmd op c ok f)) (ho : op < 65536) (ht : Takes s c) (hok : ok = true)
    (hf : f (accepted op c s) = .ret ((accepted op c s).withTour x) st res) :
    Yields i s fun t => Returns (s.withTour x) t c op st res :=
  ⟨_, exec_eq_completeCmd hx ht hok hf, returns_completeCmd ho c (s.withTour x) st res⟩

theorem squareParamsOk {c : Cmd} (h0 : c.p0.toNat < 64) (h1 : c.p1 = 0) (h2 : c.p2 = 0) :
    (p0Below c 6 && p1Below c 0 && p2Below c 0) = true := by
  simp [p0Below, p1Below, p2Below, h0, h1, h2]

/-! ### ISOLATE (R167, R168) -/

/-- The effect of ISOLATE on the state in which it is accepted. -/
def isolateAnswer (i : Nat) (s : State) : CmdOut :=
  if !bit s.tour.x i ∧ s.leaves (setBit s.tour.x i true) = 0 then .ret s stBusy 0 else .ret (s.addToX i 65535) stOk 0

theorem exec_isolate (c : Cmd) (s : State) : exec (.isolate c) s =
    gated s (runCmd 0x60 c (p0Below c 6 && p1Below c 0 && p2Below c 0) (isolateAnswer c.p0.toNat)) := rfl

theorem isolateAnswer_adds {i : Nat} {s : State} (h : bit s.tour.x i = false)
    (hleft : s.leaves (setBit s.tour.x i true) ≠ 0) : isolateAnswer i s = .ret (s.withTour { s.tour with
      x := setBit s.tour.x i true, xSource := SMap.set (fun _ => 0) s.tour.xSource i 65536 }) stOk 0 := by
  simp [isolateAnswer, hleft, State.addToX, h, State.withTour]

theorem isolateAnswer_inX {i : Nat} {s : State} (h : bit s.tour.x i = true) :
    isolateAnswer i s = .ret s stOk 0 := by
  simp [isolateAnswer, State.addToX, h]

theorem isolateAnswer_last {i : Nat} {s : State} (h : bit s.tour.x i = false)
    (hleft : s.leaves (setBit s.tour.x i true) = 0) : isolateAnswer i s = .ret s stBusy 0 := by
  simp [isolateAnswer, hleft, h]

/-! ### REJOIN (R169) -/

/-- The effect of REJOIN on the state in which it is accepted. -/
def rejoinAnswer (i : Nat) (s : State) : CmdOut :=
  if bit s.tour.xInForce i && (s.sq i).resetSt == 2 then
    .ret (s.withTour { s.tour with rejoin := setBit s.tour.rejoin i true }) stOk 0
  else .ret s stBusy 0

theorem exec_rejoin (c : Cmd) (s : State) : exec (.rejoin c) s =
    gated s (runCmd 0x61 c (p0Below c 6 && p1Below c 0 && p2Below c 0) (rejoinAnswer c.p0.toNat)) := rfl

/-! ### SQ_RESET (R36, R418) -/

/-- Square `i` with its reset begun for a command. -/
def State.resetBegun (s : State) (i : Nat) (c : Cmd) : State :=
  s.modSq i fun q => { q with resetSt := 1, resetCmd := some (c.ring, c.tag) }

/-- The effect of SQ_RESET on the state in which it is accepted. -/
def sqResetAnswer (c : Cmd) (s : State) : CmdOut :=
  if bit s.tour.x c.p0.toNat && (s.sq c.p0.toNat).resetSt != 1 then
    .later ((s.resetBegun c.p0.toNat c).endDrains c.p0.toNat)
  else .ret s stBusy 0

theorem exec_sqReset (c : Cmd) (s : State) : exec (.sqReset c) s =
    gated s (runCmd 0x62 c (p0Below c 6 && p1Below c 0 && p2Below c 0) (sqResetAnswer c)) := rfl

theorem State.endDrains_none {s : State} {i : Nat} (h : ∀ f ∈ s.removedFns i, s.isDraining f.1 f.2 = false) :
    s.endDrains i = s := by
  have hnone : (s.removedFns i).filter (fun f => s.isDraining f.1 f.2) = [] :=
    List.filter_eq_nil_iff.mpr fun f hf => Bool.not_eq_true _ ▸ h f hf
  rw [State.endDrains, hnone]
  rfl

theorem accepted_modSq (op : Nat) (c : Cmd) (s : State) (i : Nat) (f : Sq → Sq) :
    accepted op c (s.modSq i f) = (accepted op c s).modSq i f := rfl

theorem State.removedFns_modSq (s : State) (i j : Nat) (f : Sq → Sq) :
    (s.modSq i f).removedFns j = s.removedFns j := rfl

theorem removedFns_accepted (op : Nat) (c : Cmd) (s : State) (j : Nat) :
    (accepted op c s).removedFns j = s.removedFns j := rfl

theorem State.isDraining_modSq (s : State) (i : Nat) (f : Sq → Sq) (cls inst : Nat) :
    (s.modSq i f).isDraining cls inst = s.isDraining cls inst := rfl

theorem isDraining_accepted (op : Nat) (c : Cmd) (s : State) (cls inst : Nat) :
    (accepted op c s).isDraining cls inst = s.isDraining cls inst := rfl

theorem waits_resetBegun (op : Nat) (c : Cmd) (i : Nat) (s : State) :
    Waits (s.resetBegun i c) ((accepted op c s).resetBegun i c) c op := by
  have h := accepted_waits op c (s.resetBegun i c)
  rwa [State.resetBegun, accepted_modSq, ← State.resetBegun, ← State.resetBegun] at h

/-! ### What the host sees of the three commands -/

section
variable {c : Cmd} {s : State} (ht : Takes s c) (h0 : c.p0.toNat < 64) (h1 : c.p1 = 0) (h2 : c.p2 = 0)
include ht h0 h1 h2

theorem isolate_adds (h : bit s.tour.x c.p0.toNat = false)
    (hleft : s.leaves (setBit s.tour.x c.p0.toNat true) ≠ 0) : Yields (.isolate c) s fun t =>
      Returns (s.withTour { s.tour with
        x := setBit s.tour.x c.p0.toNat true
        xSource := SMap.set (fun _ => 0) s.tour.xSource c.p0.toNat 65536 }) t c 0x60 stOk 0 :=
  yields_tour (exec_isolate c s) (by decide) ht (squareParamsOk h0 h1 h2)
    (isolateAnswer_adds (s := accepted 0x60 c s) h hleft)

theorem isolate_inX (h : bit s.tour.x c.p0.toNat = true) :
    Yields (.isolate c) s fun t => Returns s t c 0x60 stOk 0 :=
  yields_returns (exec_isolate c s) (by decide) ht (squareParamsOk h0 h1 h2)
    (isolateAnswer_inX (s := accepted 0x60 c s) h)

theorem isolate_last (h : bit s.tour.x c.p0.toNat = false)
    (hleft : s.leaves (setBit s.tour.x c.p0.toNat true) = 0) :
    Yields (.isolate c) s fun t => Returns s t c 0x60 stBusy 0 :=
  yields_returns (exec_isolate c s) (by decide) ht (squareParamsOk h0 h1 h2)
    (isolateAnswer_last (s := accepted 0x60 c s) h hleft)

theorem rejoin_waits (hx : bit s.tour.xInForce c.p0.toNat = true) (hst : (s.sq c.p0.toNat).resetSt = 2) :
    Yields (.rejoin c) s fun t =>
      Returns (s.withTour { s.tour with rejoin := setBit s.tour.rejoin c.p0.toNat true }) t c 0x61 stOk 0 :=
  yields_tour (exec_rejoin c s) (by decide) ht (squareParamsOk h0 h1 h2)
    (if_pos (by rw [Bool.and_eq_true, beq_iff_eq]; exact ⟨hx, hst⟩))

theorem rejoin_busy (h : bit s.tour.xInForce c.p0.toNat = false ∨ (s.sq c.p0.toNat).resetSt ≠ 2) :
    Yields (.rejoin c) s fun t => Returns s t c 0x61 stBusy 0 :=
  yields_returns (exec_rejoin c s) (by decide) ht (squareParamsOk h0 h1 h2)
    (if_neg (by
      rw [Bool.and_eq_true, beq_iff_eq]
      rintro ⟨hx, hst⟩
      exact h.elim (fun hx' => Bool.false_ne_true (hx'.symm.trans hx)) fun hne => hne hst))

theorem sqReset_begins (hx : bit s.tour.x c.p0.toNat = true) (hst : (s.sq c.p0.toNat).resetSt ≠ 1)
    (hidle : ∀ f ∈ s.removedFns c.p0.toNat, s.isDraining f.1 f.2 = false) :
    Yields (.sqReset c) s fun t => Waits (s.resetBegun c.p0.toNat c) t c 0x62 := by
  refine yields_later (exec_sqReset c s) ht (squareParamsOk h0 h1 h2)
    (t := (accepted 0x62 c s).resetBegun c.p0.toNat c) ?_ (waits_resetBegun 0x62 c _ s)
  have hidle' : ∀ f ∈ ((accepted 0x62 c s).resetBegun c.p0.toNat c).removedFns c.p0.toNat,
      ((accepted 0x62 c s).resetBegun c.p0.toNat c).isDraining f.1 f.2 = false := by
    intro f
    rw [State.resetBegun, State.removedFns_modSq, removedFns_accepted, State.isDraining_modSq, isDraining_accepted]
    exact hidle f
  have hgo : (bit (accepted 0x62 c s).tour.x c.p0.toNat && ((accepted 0x62 c s).sq c.p0.toNat).resetSt != 1) = true := by
    rw [Bool.and_eq_true, bne_iff_ne]
    exact ⟨hx, hst⟩
  rw [sqResetAnswer, if_pos hgo, State.endDrains_none hidle']

theorem sqReset_busy (h : bit s.tour.x c.p0.toNat = false ∨ (s.sq c.p0.toNat).resetSt = 1) :
    Yields (.sqReset c) s fun t => Returns s t c 0x62 stBusy 0 :=
  yields_returns (exec_sqReset c s) (by decide) ht (squareParamsOk h0 h1 h2)
    (if_neg (by
      rw [Bool.and_eq_true, bne_iff_ne]
      rintro ⟨hx, hne⟩
      exact h.elim (fun hx' => Bool.false_ne_true (hx'.symm.trans hx)) hne))

end

end Sys2Proof.Machine
end

section
/-!
SUPPORT. What an event of a fault source, a returned transmit frame and a cleared port leave of the squares, and of the
commands that the rings hold.
-/

namespace Sys2Proof.Machine

/-! ### The squares after an event (R318) -/

/-- Squares are fenced, and nothing else of them changes. -/
def Fences (s t : State) : Prop :=
  ∀ k, t.sq k = { s.sq k with fenced := (t.sq k).fenced } ∧ ((s.sq k).fenced = true → (t.sq k).fenced = true)

theorem Fences.of_sqs {s t : State} (h : t.sqs = s.sqs) : Fences s t := fun k => by
  have hk : t.sq k = s.sq k := by rw [State.sq, h, ← State.sq]
  rw [hk]
  exact ⟨rfl, id⟩

theorem Fences.refl (s : State) : Fences s s := .of_sqs rfl

theorem Fences.trans {s t u : State} (h : Fences s t) (g : Fences t u) : Fences s u := fun k => by
  obtain ⟨hst, hfst⟩ := h k
  obtain ⟨htu, hftu⟩ := g k
  refine ⟨?_, fun hk => hftu (hfst hk)⟩
  rw [htu, hst]

theorem Fences.foldl {α : Type} {f : State → α → State} (h : ∀ s a, Fences s (f s a)) (l : List α) (s : State) :
    Fences s (l.foldl f s) :=
  List.foldlRecOn l f (motive := Fences s) (.refl s) fun t ht a _ => ht.trans (h t a)

theorem Fences.ite {c : Prop} [Decidable c] {s t u : State} (ht : Fences s t) (hu : Fences s u) :
    Fences s (if c then t else u) := by
  split
  · exact ht
  · exact hu

theorem FaultFrame.sqs {s t : State} (h : FaultFrame s t) : t.sqs = s.sqs := by rw [h]

theorem Fences.of_fault {s t : State} (h : FaultFrame s t) : Fences s t := .of_sqs h.sqs

theorem Fences.fence (s : State) (i : Nat) : Fences s (s.modSq i fun q => { q with fenced := true }) := fun k => by
  rw [State.sq_modSq]
  split
  · next hk =>
    subst hk
    exact ⟨rfl, fun _ => rfl⟩
  · exact ⟨rfl, id⟩

theorem Fences.addToX (s : State) (i source : Nat) : Fences s (s.addToX i source) :=
  .ite (.refl s) (.of_sqs rfl)

theorem Fences.react (s : State) (n code : Nat) : Fences s (s.react n code) := by
  unfold State.react
  refine .ite ?_ (.ite ?_ (.ite (.ite (.refl s) (.of_sqs rfl)) (.refl s)))
  · split
    · exact .of_fault (.failChannel s _)
    · exact .fence s _
    · exact .refl s
  · split
    · exact .addToX s _ n
    · exact .refl s

theorem Fences.faultEvent (s : State) (n detail concerned cause : Nat) (forced : Bool) :
    Fences s (s.faultEvent n detail concerned cause forced) :=
  .ite ((Fences.of_fault (.recordFault s n _ _ _ _)).trans (.react _ n _)) (.refl s)

theorem Fences.sqFault (s : State) (i j : Nat) : Fences s (s.sqFault i j) := .faultEvent s _ _ _ _ _

section
variable {s t : State} (h : Fences s t) (k : Nat)
include h

theorem Fences.cells : (t.sq k).cells = (s.sq k).cells := by rw [(h k).1]
theorem Fences.ctxOut : (t.sq k).ctxOut = (s.sq k).ctxOut := by rw [(h k).1]
theorem Fences.resetSt : (t.sq k).resetSt = (s.sq k).resetSt := by rw [(h k).1]
theorem Fences.resetCmd : (t.sq k).resetCmd = (s.sq k).resetCmd := by rw [(h k).1]

end

theorem PostFrame.sqs {s t : State} (h : PostFrame s t) : t.sqs = s.sqs := by rw [h]

/-! ### The commands that rings hold -/

theorem SameRets.of_host {s t : State} (hio : t.io.rets = s.io.rets) (hrings : t.host.rings = s.host.rings) :
    SameRets s t := ⟨hio, fun n => by rw [State.ring, hrings, ← State.ring]⟩

theorem SameRets.flushTx (s : State) (n : Nat) : SameRets s (s.flushTx n) := by
  refine .foldl (fun s _ => ?_) _ s
  unfold State.flushTxOne
  split
  · exact SameRets.trans (.modRing s n (by intro; rfl)) (.foldl (fun s _ => .ringReturn s n _ _) _ _)
  · exact .refl s

theorem SameRets.reportTx (s : State) (h : FrameHdr) (status stamp : Nat) : SameRets s (s.reportTx h status stamp) := by
  have hlost : SameRets s (if h.built && status != 0 then s.bcLost h.fid else s) :=
    .ite (.ite (.of_host rfl rfl) (.refl s)) (.refl s)
  unfold State.reportTx
  dsimp only
  split
  · exact hlost
  · exact (hlost.trans (.modRing _ _ (by intro; rfl))).trans (.flushTx _ _)

theorem SameRets.modQueue (s : State) (q : Nat) (f : Queue → Queue) : SameRets s (s.modQueue q f) := .of_host rfl rfl

theorem SameRets.modEport (s : State) (p : Nat) (f : EPort → EPort) : SameRets s (s.modEport p f) := .of_host rfl rfl

theorem SameRets.modLane (s : State) (k : Nat) (f : Lane → Lane) : SameRets s (s.modLane k f) := .of_host rfl rfl

theorem SameRets.modLink (s : State) (p : Nat) (f : Link → Link) : SameRets s (s.modLink p f) := .of_host rfl rfl

theorem SameRets.clearPort (s : State) (p : Nat) : SameRets s (s.clearPort p) := by
  unfold State.clearPort
  exact (SameRets.foldl (fun s _ => .modQueue s _ _) _ s).trans (.modEport _ p _)

end Sys2Proof.Machine
end

section
/-! PROOFS. Commands on squares, the audit, and the end of a square's reset (R167, R169, R199, R201, R402, R418). -/

namespace Sys2Proof.Machine

/-! ### The audit (R199 to R201) -/

/-- Square `i` with its audit period started anew, by the setting as written. -/
def State.auditLatched (s : State) (i : Nat) : State :=
  s.modSq i fun q => { q with auditAt := s.elapsed, audit := s.reg A.bufAudit }

/-- The cells of square `i` are one period older. -/
def State.aged (s : State) (i : Nat) : State :=
  s.modSq i fun q => { q with cells := q.cells.map fun x => (x.1, { x.2 with age := min 15 (x.2.age + 1) }) }

/-- A cell that nothing refers to. -/
def State.unreferenced (s : State) (i : Nat) (x : Nat × Cell) : Bool := !(s.sq i).ownRef x.1 && !s.egressRef i x.1 x.2

theorem State.audit_eq (s : State) (i age : Nat) : s.audit i age =
    (((((s.aged i).sq i).cells.filter fun x => decide (age ≤ x.2.age)).take 4096).filter
      ((s.aged i).unreferenced i)).foldl (fun s x => s.freeLeaked i x) (s.aged i) := rfl

theorem State.aged_cells (s : State) (i : Nat) : ((s.aged i).sq i).cells =
    (s.sq i).cells.map fun x => (x.1, { x.2 with age := min 15 (x.2.age + 1) }) := by
  rw [State.aged, State.sq_modSq, if_pos rfl]

theorem State.audit_young {s : State} {i age : Nat} (h : ∀ x ∈ (s.sq i).cells, min 15 (x.2.age + 1) < age) :
    s.audit i age = s.aged i := by
  have hnone : ((s.aged i).sq i).cells.filter (fun x => decide (age ≤ x.2.age)) = [] := by
    rw [State.aged_cells, List.filter_eq_nil_iff]
    intro x hx
    obtain ⟨y, hy, rfl⟩ := List.mem_map.mp hx
    simpa only [decide_eq_true_eq, Nat.not_le] using h y hy
  rw [State.audit_eq, hnone]
  rfl

/-- Where a square's references are kept, a change of it leaves them. -/
theorem State.egressRef_modSq (s : State) (i j k : Nat) (c : Cell) {f : Sq → Sq}
    (hctx : ∀ q, (f q).ctxOut = q.ctxOut) (hpull : ∀ q, (f q).pullBuf = q.pullBuf)
    (hdis : ∀ q, (f q).discards = q.discards) : (s.modSq i f).egressRef j k c = s.egressRef j k c := by
  have hsq (e : Nat) : ((s.modSq i f).sq e).ctxOut = (s.sq e).ctxOut ∧ ((s.modSq i f).sq e).pullBuf = (s.sq e).pullBuf ∧
      ((s.modSq i f).sq e).discards = (s.sq e).discards := by
    rw [State.sq_modSq]
    split
    · next h => exact h ▸ ⟨hctx _, hpull _, hdis _⟩
    · exact ⟨rfl, rfl, rfl⟩
  have hqs : (s.modSq i f).queueSquare c.ctx.eport = s.queueSquare c.ctx.eport := rfl
  obtain ⟨h1, h2, h3⟩ := hsq (s.queueSquare c.ctx.eport)
  unfold State.egressRef
  dsimp only
  rw [hqs, h1, h2, h3]
  rfl

theorem State.egressRef_auditLatched (s : State) (i j k : Nat) (c : Cell) :
    (s.auditLatched i).egressRef j k c = s.egressRef j k c :=
  s.egressRef_modSq i j k c (fun _ => rfl) (fun _ => rfl) fun _ => rfl

theorem State.egressRef_aged (s : State) (i j k : Nat) (c : Cell) : (s.aged i).egressRef j k c = s.egressRef j k c :=
  s.egressRef_modSq i j k c (fun _ => rfl) (fun _ => rfl) fun _ => rfl

theorem State.cells_freeLeaked {s : State} {i k : Nat} {c : Cell} (hx : bit s.tour.x i = false)
    (hc : (s.sq i).cells = [(k, c)]) : ((s.freeLeaked i (k, c)).sq i).cells = [] := by
  have hget : tget (s.sq i).cells k = some c := by simp [hc, tget_cons]
  have hfree : s.freeCell i k c.owner = s.modSq i fun q => { q with
      cells := SMap.erase q.cells k, waiting := q.waiting.erase k, heldCells := q.heldCells.erase k } := by
    simp [State.freeCell, hx, hget]
  have hcount : ((s.freeCell i k c.owner).count (sqWord i 13) 1).sqs = (s.freeCell i k c.owner).sqs :=
    (PostFrame.count _ _ _).sqs
  rw [State.freeLeaked, if_neg (by simp [hx]), (Fences.sqFault _ i 5).cells, State.sq, hcount, ← State.sq, hfree,
    State.sq_modSq, if_pos rfl]
  simp [hc, SMap.erase]

section
variable {s : State} (hu : Up s) {i : Nat}
include hu

theorem bufAuditPeriod_early (h : s.auditDue i = false) : exec (.bufAuditPeriod i) s = .next s := by
  change execBufAuditPeriod i s = _
  rw [execBufAuditPeriod, gated_up hu, if_pos (by simp [h])]

variable (hdue : s.auditDue i = true)
include hdue

theorem bufAuditPeriod_due : exec (.bufAuditPeriod i) s = .next (if rbit (s.reg A.bufAudit) 31 then
    (s.auditLatched i).audit i (leakAge (s.reg A.bufAudit)) else s.auditLatched i) := by
  change execBufAuditPeriod i s = _
  rw [execBufAuditPeriod, gated_up hu, if_neg (by simp [hdue])]
  rfl

theorem bufAuditPeriod_off (hen : rbit (s.reg A.bufAudit) 31 = false) :
    exec (.bufAuditPeriod i) s = .next (s.auditLatched i) := by
  rw [bufAuditPeriod_due hu hdue, if_neg (by simp [hen])]

variable (hen : rbit (s.reg A.bufAudit) 31 = true)
include hen

theorem bufAuditPeriod_young (h : ∀ x ∈ (s.sq i).cells, min 15 (x.2.age + 1) < leakAge (s.reg A.bufAudit)) :
    exec (.bufAuditPeriod i) s = .next ((s.auditLatched i).aged i) := by
  have hcells : ((s.auditLatched i).sq i).cells = (s.sq i).cells := by rw [State.auditLatched, State.sq_modSq, if_pos rfl]
  rw [bufAuditPeriod_due hu hdue, if_pos hen, State.audit_young (hcells ▸ h)]

theorem bufAuditPeriod_leaked {k : Nat} {c : Cell} (hc : (s.sq i).cells = [(k, c)])
    (hold : leakAge (s.reg A.bufAudit) ≤ min 15 (c.age + 1)) (hown : (s.sq i).ownRef k = false)
    (hegr : s.egressRef i k c = false) (hx : bit s.tour.x i = false) :
    Yields (.bufAuditPeriod i) s fun t => (t.sq i).cells = [] := by
  refine ⟨_, (bufAuditPeriod_due hu hdue).trans (congrArg _ (if_pos hen)), ?_⟩
  have hcells : (((s.auditLatched i).aged i).sq i).cells = [(k, { c with age := min 15 (c.age + 1) })] := by
    rw [State.aged_cells, State.auditLatched, State.sq_modSq, if_pos rfl, hc]
    rfl
  have hownRef : (((s.auditLatched i).aged i).sq i).ownRef k = false := by
    rw [State.aged, State.sq_modSq, if_pos rfl, State.auditLatched, State.sq_modSq, if_pos rfl]
    exact hown
  have hegrRef : ((s.auditLatched i).aged i).egressRef i k { c with age := min 15 (c.age + 1) } = false := by
    rw [State.egressRef_aged, State.egressRef_auditLatched]
    exact hegr
  have hleaked : ((((s.auditLatched i).aged i).sq i).cells.filter fun x =>
      decide (leakAge (s.reg A.bufAudit) ≤ x.2.age)) = [(k, { c with age := min 15 (c.age + 1) })] := by
    rw [hcells]
    exact List.filter_cons_of_pos (decide_eq_true hold)
  have hfree : (((((s.auditLatched i).aged i).sq i).cells.filter fun x =>
      decide (leakAge (s.reg A.bufAudit) ≤ x.2.age)).take 4096).filter (((s.auditLatched i).aged i).unreferenced i) =
      [(k, { c with age := min 15 (c.age + 1) })] := by
    rw [hleaked]
    simp [State.unreferenced, hownRef, hegrRef]
  rw [State.audit_eq, hfree]
  exact State.cells_freeLeaked (s := (s.auditLatched i).aged i) hx hcells

end

/-! ### The end of a reset (R169, R172, R402, R418) -/

/-- What a reset that ends makes of its square. -/
def Sq.resetEnded (q : Sq) (ok : Bool) : Sq :=
  { q.emptied with resetSt := if ok then 2 else 3, resetCmd := none, rotP := q.rotP, reseqHwm := 0, frag := [] }

/-- The frames of square `i` that its reset discards are reported. -/
def State.resetReported (s : State) (i : Nat) : State :=
  (s.resetFrames i).foldl (fun s h => s.reportTx h stDropped 0) s

/-- The ports of square `i` hold nothing more. -/
def State.portsCleared (s : State) (i : Nat) : State := (s.squarePorts i ++ [1024 + i]).foldl State.clearPort s

/-- The lanes and links of square `i` are at their reset values. -/
def State.lanesReset (s : State) (i : Nat) : State :=
  (List.range 16).foldl (fun s l => (s.modLane (16 * i + l) fun _ => {}).modLink (16 * i + l) fun _ => {}) s

/-- Square `i` after its reset, before the self-test is judged. -/
def State.squareReset (s : State) (i : Nat) (ok : Bool) : State :=
  ((((s.resetReported i).portsCleared i).setSq i ((s.sq i).resetEnded ok)).roReset i).zeroCounters i |>.lanesReset i

/-- A self-test that fails raises the square's source. -/
def State.resetJudged (s : State) (i : Nat) (ok : Bool) : State := if ok then s else s.sqFault i 7

/-- The command that waits for a reset returns. -/
def State.resetAnswered (s : State) (cmd : Option (Nat × BitVec 32)) (ok : Bool) : State :=
  match cmd with
  | some (ring, tag) => s.finishCmd ring tag stOk (b2n ok)
  | none => s

theorem sqResetDone_idle {s : State} (hu : Up s) {i : Nat} (h : (s.sq i).resetSt ≠ 1) (ok : Bool) :
    exec (.sqResetDone i ok) s = .next s := by
  change execSqResetDone i ok s = _
  rw [execSqResetDone, gated_up hu]
  exact congrArg _ (if_neg h)

theorem sqResetDone_eq {s : State} (hu : Up s) {i : Nat} (h : (s.sq i).resetSt = 1) (ok : Bool) :
    exec (.sqResetDone i ok) s =
      .next (((s.squareReset i ok).resetJudged i ok).resetAnswered (s.sq i).resetCmd ok) := by
  change execSqResetDone i ok s = _
  rw [execSqResetDone, gated_up hu]
  exact congrArg _ (if_pos h)

theorem State.lanesReset_sqs (s : State) (i : Nat) : (s.lanesReset i).sqs = s.sqs :=
  List.foldlRecOn _ _ (motive := fun t : State => t.sqs = s.sqs) rfl fun _ ht _ _ => ht

theorem SameRets.lanesReset (s : State) (i : Nat) : SameRets s (s.lanesReset i) :=
  .foldl (fun s _ => (SameRets.modLane s _ _).trans (.modLink _ _ _)) _ s

theorem State.lanesReset_wires (s : State) {i l : Nat} (hl : l < 16) :
    (s.lanesReset i).lane (16 * i + l) = {} ∧ (s.lanesReset i).link (16 * i + l) = {} := by
  have hlane (s : State) (m k : Nat) : ((s.modLane m fun _ => {}).modLink m fun _ => {}).lane k =
      if k = m then {} else s.lane k := s.lane_modLane m k fun _ => {}
  have hlink (s : State) (m k : Nat) : ((s.modLane m fun _ => {}).modLink m fun _ => {}).link k =
      if k = m then {} else s.link k := (s.modLane m fun _ => {}).link_modLink m k fun _ => {}
  refine foldl_of_mem (Q := fun _ => True)
    (P := fun t : State => t.lane (16 * i + l) = {} ∧ t.link (16 * i + l) = {}) (fun _ _ h => h)
    (fun t _ => ?_) (fun t c _ ht => ?_) (List.mem_range.mpr hl) trivial
  · rw [hlane, hlink, if_pos rfl, if_pos rfl]
    exact ⟨rfl, rfl⟩
  · rw [hlane, hlink, ht.1, ht.2, ite_self, ite_self]
    exact ⟨rfl, rfl⟩

theorem State.squareReset_sq (s : State) (i : Nat) (ok : Bool) : (s.squareReset i ok).sq i = (s.sq i).resetEnded ok := by
  rw [State.sq, State.squareReset, State.lanesReset_sqs]
  exact (State.sq_setSq _ i i _).trans (if_pos rfl)

theorem SameRets.squareReset (s : State) (i : Nat) (ok : Bool) : SameRets s (s.squareReset i ok) := by
  have hreported : SameRets s (s.resetReported i) := .foldl (fun s h => .reportTx s h _ _) _ s
  have hcleared : SameRets (s.resetReported i) ((s.resetReported i).portsCleared i) := .foldl .clearPort _ _
  have hsquare (u : State) (q : Sq) : SameRets u (((u.setSq i q).roReset i).zeroCounters i) := .of_host rfl rfl
  exact ((hreported.trans hcleared).trans (hsquare _ _)).trans (.lanesReset _ i)

theorem Fences.resetJudged (s : State) (i : Nat) (ok : Bool) : Fences s (s.resetJudged i ok) :=
  .ite (.refl s) (.sqFault s i 7)

theorem State.resetJudged_wires (s : State) (i : Nat) (ok : Bool) : (s.resetJudged i ok).wires = s.wires := by
  rw [State.resetJudged, apply_ite State.wires, State.sqFault_wires, ite_self]

theorem PostFrame.finishCmd (s : State) (n : Nat) (tag : BitVec 32) (st res : Nat) :
    PostFrame s (s.finishCmd n tag st res) := by
  unfold State.finishCmd
  split
  · split
    · exact .of_return (.completeCmd n s _ st res)
    · exact .refl s
  · exact .refl s

theorem PostFrame.resetAnswered (s : State) (cmd : Option (Nat × BitVec 32)) (ok : Bool) :
    PostFrame s (s.resetAnswered cmd ok) := by
  unfold State.resetAnswered
  split
  · exact .finishCmd s _ _ _ _
  · exact .refl s

theorem PostFrame.lanes {s t : State} (h : PostFrame s t) (k : Nat) : t.lane k = s.lane k ∧ t.link k = s.link k := by
  rw [h]
  exact ⟨rfl, rfl⟩

/-- The newest return after the command that a ring holds has been finished. -/
theorem State.finishCmd_rets {s : State} {n : Nat} {tag : BitVec 32} {d : List Byte}
    (hd : (s.ring n).accepted = some d) (htag : leAt d 4 4 = tag.toNat) (st res : Nat) :
    ((s.finishCmd n tag st res).io.rets.head?.map fun r => (r.ring, r.tag, r.status, r.res)) = some (n, tag, st, res) := by
  have hfinish : s.finishCmd n tag st res = s.completeCmd n d st res := by
    simp only [State.finishCmd, hd]
    exact if_pos htag
  rw [hfinish, State.completeCmd, (SameRets.ringReturn _ _ _ _).1]
  simp [htag]

theorem sqResetDone_ends {s : State} (hu : Up s) {i : Nat} (h : (s.sq i).resetSt = 1) (ok : Bool) :
    Yields (.sqResetDone i ok) s fun t =>
      (t.sq i).resetSt = (if ok then 2 else 3) ∧ (t.sq i).resetCmd = none ∧ (t.sq i).cells = [] ∧ (t.sq i).ctxOut = [] ∧
      (∀ l < 16, t.lane (16 * i + l) = {} ∧ t.link (16 * i + l) = {}) ∧
      (∀ n tag d, ok = true → (s.sq i).resetCmd = some (n, tag) → (s.ring n).accepted = some d → leAt d 4 4 = tag.toNat →
        (t.io.rets.head?.map fun r => (r.ring, r.tag, r.status, r.res)) = some (n, tag, stOk, 1)) := by
  refine ⟨_, sqResetDone_eq hu h ok, ?_⟩
  have hpost := PostFrame.resetAnswered ((s.squareReset i ok).resetJudged i ok) (s.sq i).resetCmd ok
  have hsq : Fences (s.squareReset i ok)
      (((s.squareReset i ok).resetJudged i ok).resetAnswered (s.sq i).resetCmd ok) :=
    (Fences.resetJudged _ i ok).trans (.of_sqs hpost.sqs)
  have hwires := State.resetJudged_wires (s.squareReset i ok) i ok
  refine ⟨?_, ?_, ?_, ?_, fun l hl => ?_, ?_⟩
  · rw [hsq.resetSt, State.squareReset_sq]
    rfl
  · rw [hsq.resetCmd, State.squareReset_sq]
    rfl
  · rw [hsq.cells, State.squareReset_sq]
    rfl
  · rw [hsq.ctxOut, State.squareReset_sq]
    rfl
  · obtain ⟨hlane, hlink⟩ := hpost.lanes (16 * i + l)
    rw [hlane, hlink, lane_of_wires hwires, link_of_wires hwires]
    exact State.lanesReset_wires _ hl
  · rintro n tag d rfl hcmd hd htag
    have hheld : ((s.squareReset i true).ring n).accepted = some d := ((SameRets.squareReset s i true).2 n).trans hd
    rw [hcmd]
    exact State.finishCmd_rets hheld htag stOk 1

/-- Settles O20: the three commands by their checks, the audit by the cells it finds, and the end of a reset by what it
clears. -/
theorem squareCommandsAndReset : Obligations.SquareCommandsAndReset := by
  refine ⟨fun c s ht h0 h1 h2 => ⟨isolate_adds ht h0 h1 h2, isolate_inX ht h0 h1 h2, isolate_last ht h0 h1 h2,
      rejoin_waits ht h0 h1 h2, rejoin_busy ht h0 h1 h2, sqReset_begins ht h0 h1 h2,
      fun _ hst => sqReset_busy ht h0 h1 h2 (.inr hst), fun hx => sqReset_busy ht h0 h1 h2 (.inl hx)⟩,
    fun i s hu => ⟨bufAuditPeriod_early hu, bufAuditPeriod_off hu, bufAuditPeriod_young hu,
      fun k c hdue hen => bufAuditPeriod_leaked hu hdue hen⟩,
    fun i ok s hu => ⟨fun h => sqResetDone_idle hu h ok, fun h => sqResetDone_ends hu h ok⟩⟩

end Sys2Proof.Machine
end

section
/-! SUPPORT. The frames, cells and events of a slot leave the slot number and the elapsed time alone (R140). -/

namespace Sys2Proof.Machine

/-! ### The slot and the time -/

/-- The number of the slot and the time elapsed. -/
def State.slotTime (s : State) : Nat × Tick := (s.tour.slot, s.elapsed)

theorem Timed.slotTime {s t : State} (h : Timed s t) : t.slotTime = s.slotTime := by
  have hslot : t.tour.slot = s.tour.slot := congrArg (fun b => b.1.slot) h.beat
  have helapsed : t.elapsed = s.elapsed := congrArg (fun b => b.2.2.2.elapsed) h.beat
  rw [State.slotTime, hslot, helapsed, ← State.slotTime]

theorem Steady.slotTime {s t : State} (h : Steady s t) : t.slotTime = s.slotTime := h.toTimed.slotTime

theorem foldl_slotTime {α : Type} {f : State → α → State} (h : ∀ s a, (f s a).slotTime = s.slotTime) (l : List α)
    (s : State) : (l.foldl f s).slotTime = s.slotTime :=
  List.foldlRecOn l f (motive := fun t : State => t.slotTime = s.slotTime) rfl fun t ht a _ => (h t a).trans ht

@[simp] theorem State.modSq_slotTime (s : State) (i : Nat) (f : Sq → Sq) : (s.modSq i f).slotTime = s.slotTime := rfl

@[simp] theorem State.modQueue_slotTime (s : State) (q : Nat) (f : Queue → Queue) :
    (s.modQueue q f).slotTime = s.slotTime := rfl

@[simp] theorem State.count_slotTime (s : State) (o n : Nat) : (s.count o n).slotTime = s.slotTime :=
  (Steady.count s o n).slotTime

@[simp] theorem State.countPort_slotTime (s : State) (p w n : Nat) : (s.countPort p w n).slotTime = s.slotTime :=
  (Steady.countPort s p w n).slotTime

@[simp] theorem State.sqFault_slotTime (s : State) (i j : Nat) : (s.sqFault i j).slotTime = s.slotTime :=
  (Steady.sqFault s i j).slotTime

@[simp] theorem State.reportTx_slotTime (s : State) (h : FrameHdr) (status stamp : Nat) :
    (s.reportTx h status stamp).slotTime = s.slotTime := (Steady.reportTx s h status stamp).slotTime

@[simp] theorem State.noteCrc_slotTime (s : State) (i : Nat) (bad : Bool) : (s.noteCrc i bad).slotTime = s.slotTime := by
  unfold State.noteCrc
  split <;> simp

/-! ### The resequencer (R154 to R157) -/

@[simp] theorem State.setCtxOut_slotTime (s : State) (e k : Nat) (x : CtxOut) :
    (s.setCtxOut e k x).slotTime = s.slotTime := rfl

@[simp] theorem State.linkNext_slotTime (s : State) (e k : Nat) (c : Ctx) (r : CellRef) :
    (s.linkNext e k c r).slotTime = s.slotTime := by
  unfold State.linkNext
  dsimp only
  rw [State.setCtxOut_slotTime]
  split
  · exact (Steady.gapFrame s _ _).slotTime
  · exact (Steady.linkCell s e c r).slotTime

@[simp] theorem State.drainAll_slotTime (s : State) (e k : Nat) (c : Ctx) : (s.drainAll e k c).slotTime = s.slotTime := by
  unfold State.drainAll
  generalize (s.ctxOut e k).parked.length + 1 = n
  induction n generalizing s with
  | zero => rfl
  | succ n ih =>
    unfold State.drainParked
    dsimp only
    split
    · rfl
    · rw [ih, State.linkNext_slotTime, State.setCtxOut_slotTime]

@[simp] theorem State.declareGap_slotTime (s : State) (e k : Nat) (c : Ctx) (w : Nat) :
    (s.declareGap e k c w).slotTime = s.slotTime := by
  unfold State.declareGap
  dsimp only
  split
  · rfl
  · rw [State.drainAll_slotTime, State.setCtxOut_slotTime]
    exact ((Steady.count s _ _).trans (.gapFrame _ _ _)).slotTime

@[simp] theorem State.entry_slotTime (s : State) (e isq : Nat) (c : Ctx) (seq slot : Nat) (r : CellRef) :
    (s.entry e isq c seq slot r).slotTime = s.slotTime := by
  have hlate (s : State) : ((s.dropRef e r).count (sqWord e 10) 1).slotTime = s.slotTime :=
    ((Steady.dropRef s e r).trans (.count _ _ 1)).slotTime
  have hpark (s : State) (k : Nat) : (s.park e k seq slot r).slotTime = s.slotTime := rfl
  unfold State.entry
  dsimp only
  repeat' split
  all_goals simp only [hlate, hpark, State.drainAll_slotTime, State.linkNext_slotTime, State.declareGap_slotTime]

@[simp] theorem State.settleCell_slotTime (s : State) (i k : Nat) : (s.settleCell i k).slotTime = s.slotTime := by
  unfold State.settleCell
  split
  · rfl
  · split
    · exact State.entry_slotTime _ _ _ _ _ _ _
    · rfl

/-! ### Frames that are admitted and stored (R148, R173, R185 to R192) -/

@[simp] theorem State.setCtxIn_slotTime (s : State) (i : Nat) (c : Ctx) (x : CtxIn) :
    (s.setCtxIn i c x).slotTime = s.slotTime := rfl

@[simp] theorem State.alloc_slotTime (s : State) (i r : Nat) (c : Cell) : (s.alloc i r c).1.slotTime = s.slotTime := by
  unfold State.alloc
  split <;> simp

@[simp] theorem State.numberCell_slotTime (s : State) (i k : Nat) (c : Ctx) (held kept : Bool) :
    (s.numberCell i k c held kept).slotTime = s.slotTime := by
  unfold State.numberCell
  dsimp only
  split <;> simp

@[simp] theorem State.storePiece_slotTime (s : State) (i typ owner : Nat) (c : Ctx) (held : Bool) (epoch : Nat)
    (p : Piece) : (s.storePiece i typ owner c held epoch p).slotTime = s.slotTime := by
  have halloc := s.alloc_slotTime i owner ({ typ := typ, isq := i, ctx := c, epoch := epoch, segs := p.segs
                                             bad := p.segs.any (fun g => g.badEnd), st := .deferred } : Cell).sealed
  unfold State.storePiece
  dsimp only
  split
  · next hs => rwa [hs] at halloc
  · next hs =>
    rw [hs] at halloc
    rw [State.modSq_slotTime]
    split
    · exact (State.numberCell_slotTime _ _ _ _ _ _).trans halloc
    · exact halloc

@[simp] theorem State.storeGroup_slotTime (s : State) (i typ owner : Nat) (g : Group) :
    (s.storeGroup i typ owner g).slotTime = s.slotTime :=
  (foldl_slotTime (fun s _ => s.storePiece_slotTime _ _ _ _ _ _ _) _ _).trans (State.count_slotTime _ _ _)

@[simp] theorem State.storeGroups_slotTime (s : State) (i typ owner : Nat) (gs : List Group) :
    (s.storeGroups i typ owner gs).1.slotTime = s.slotTime := by
  unfold State.storeGroups
  dsimp only
  split
  · exact foldl_slotTime (fun s g => s.storeGroup_slotTime i typ owner g) gs s
  · exact State.count_slotTime _ _ _

@[simp] theorem State.storeWhole_slotTime (s : State) (i typ owner : Nat) (v : Verdict) (bs : List Byte) :
    (s.storeWhole i typ owner v bs).slotTime = s.slotTime := by
  unfold State.storeWhole
  dsimp only
  cases v.main <;> cases v.copy <;> simp

@[simp] theorem State.accept_slotTime (s : State) (i : Nat) (h : FrameHdr) (q need : Nat) :
    (s.accept i h q need).slotTime = s.slotTime := by
  rw [State.accept, State.count_slotTime, State.count_slotTime, State.modSq_slotTime]

@[simp] theorem State.holdFrame_slotTime (s : State) (i typ : Nat) (h : FrameHdr) (q need : Nat) :
    (s.holdFrame i typ h q need).1.slotTime = s.slotTime := by
  unfold State.holdFrame
  dsimp only
  split <;> simp

@[simp] theorem State.takeIn_slotTime (s : State) (i lane typ owner : Nat) (h : FrameHdr) (c : Ctx) :
    (s.takeIn i lane typ owner h c).1.slotTime = s.slotTime := by
  unfold State.takeIn
  dsimp only
  repeat' split
  all_goals simp

/-! ### The frames of the device's own complexes (R175) -/

@[simp] theorem State.injectTo_slotTime (s : State) (i typ owner : Nat) (c : Ctx) (h : FrameHdr) (bs : List Byte) :
    (s.injectTo i typ owner c h bs).1.slotTime = s.slotTime := by
  unfold State.injectTo
  dsimp only
  repeat' split
  all_goals simp

@[simp] theorem State.flushHostOut_slotTime (s : State) : s.flushHostOut.slotTime = s.slotTime := by
  unfold State.flushHostOut
  split
  · rfl
  · dsimp only
    split <;> exact State.injectTo_slotTime s _ _ _ _ _ _

@[simp] theorem State.flushRedOut_slotTime (s : State) : s.flushRedOut.slotTime = s.slotTime := by
  unfold State.flushRedOut
  split
  · rfl
  · dsimp only
    split
    · exact State.injectTo_slotTime s _ _ _ _ _ _
    · rw [State.portIn, State.countPort_slotTime, State.countPort_slotTime]
      exact State.injectTo_slotTime s _ _ _ _ _ _

end Sys2Proof.Machine
end

section
/-! SUPPORT. A frame that the core decides leaves the slot number and the elapsed time alone (R74 to R99, R147). -/

namespace Sys2Proof.Machine

/-! ### The decision on a frame -/

@[simp] theorem State.settle_slotTime (s : State) (i e : Nat) (p : Parse) : (s.settle i e p).1.slotTime = s.slotTime := by
  have hread : (s.fragRead i e p).1.slotTime = s.slotTime := by
    unfold State.fragRead
    dsimp only
    repeat' split
    all_goals simp
  unfold State.settle
  dsimp only
  split
  · exact hread
  · split
    · split <;> rfl
    · rfl

@[simp] theorem State.learnFrom_slotTime (s : State) (i e : Nat) (p : Parse) (bad : Bool) :
    (s.learnFrom i e p bad).slotTime = s.slotTime := by
  have hhit (b : Book) : ({ s with book := b } : State).slotTime = s.slotTime := rfl
  unfold State.learnFrom
  dsimp only
  repeat' split
  all_goals simp [hhit]

@[simp] theorem State.noteLookup_slotTime (s : State) (i e : Nat) (p : Parse) (inj : Bool) (slot : Option Nat)
    (r : LookRes) (rz : Option (Nat × Nat)) : (s.noteLookup i e p inj slot r rz).slotTime = s.slotTime := by
  have hwrite (k : Nat) (r : LookRes) : (s.fragWrite i e p k r).slotTime = s.slotTime := rfl
  unfold State.noteLookup
  dsimp only
  cases slot <;> cases inj <;> cases rz <;> simp [hwrite]

@[simp] theorem State.hostToken_slotTime (s : State) (i : Nat) (rz : Option (Nat × Nat)) :
    (s.hostToken i rz).1.slotTime = s.slotTime := by
  have htake (n : Nat) : (s.takeToken i n).1.slotTime = s.slotTime := by
    unfold State.takeToken
    dsimp only
    split <;> simp
  unfold State.hostToken
  split
  · dsimp only
    split
    · exact htake _
    · rfl
  · rfl

@[simp] theorem State.meterFrame_slotTime (s : State) (i m b c : Nat) : (s.meterFrame i m b c).1.slotTime = s.slotTime := by
  unfold State.meterFrame
  dsimp only
  repeat' split
  all_goals simp

@[simp] theorem State.forwardFrame_slotTime (s : State) (i : Nat) (p : Parse) (inj : Bool) (r : LookRes) (f : Fwd)
    (d : Decision) : (s.forwardFrame i p inj r f d).1.slotTime = s.slotTime := by
  unfold State.forwardFrame
  dsimp only
  repeat' split
  all_goals simp

@[simp] theorem State.decideFrame_slotTime (s : State) (i e : Nat) (p : Parse) (inj : Bool) :
    (s.decideFrame i e p inj).1.slotTime = s.slotTime := by
  unfold State.decideFrame
  dsimp only
  repeat' split
  all_goals simp

@[simp] theorem State.judge_slotTime (s : State) (i lane typ owner e : Nat) (h : FrameHdr) (p : Parse) (inj : Bool) :
    (s.judge i lane typ owner e h p inj).1.slotTime = s.slotTime := by
  have hfresh (s : State) : s.freshFid.1.slotTime = s.slotTime := rfl
  unfold State.judge
  dsimp only
  repeat' split
  all_goals simp [hfresh]

/-! ### The crossings into the core -/

/-- A frame that meets no error in the Book's memory. -/
@[simp] theorem State.startFrame_slotTime (s : State) (i lane : Nat) (h : FrameHdr) (p : Parse) :
    (s.startFrame i lane h p none).slotTime = s.slotTime := by
  have hput (s : State) (v : Verdict) (f : Sq → Sq) :
      ((if v.main = none then s.reportTx h stDropped 0 else s).modSq i f).slotTime = s.slotTime := by
    rw [State.modSq_slotTime]
    split <;> simp
  unfold State.startFrame State.meetEcc
  dsimp only
  rw [if_neg Bool.false_ne_true]
  split
  · split
    · exact (hput _ _ _).trans (State.judge_slotTime _ _ _ _ _ _ _ _ _)
    · exact (hput (s.count (sqWord i 1) 1) {} _).trans (State.count_slotTime _ _ _)
  · exact (hput _ _ _).trans (State.judge_slotTime _ _ _ _ _ _ _ _ _)

@[simp] theorem State.enterCore_slotTime (s : State) (i lane : Nat) :
    (s.enterCore i lane none).1.slotTime = s.slotTime := by
  have hstart (l : List ((FrameHdr × Parse) × Nat)) (s : State) :
      (l.foldl (fun s f => s.startFrame i lane f.1.1 f.1.2 (if f.2 = 0 then none else none)) s).slotTime = s.slotTime :=
    foldl_slotTime (fun s f => by rw [ite_self, State.startFrame_slotTime]) l s
  unfold State.enterCore
  dsimp only
  split
  · rfl
  · split
    · refine (Steady.pfcSquare _ i).slotTime.trans ?_
      rw [State.modSq_slotTime, State.storeGroups_slotTime, hstart]
    · rw [State.storeGroups_slotTime, hstart]

@[simp] theorem drainLane_slotTime (i lane n : Nat) (s : State) : (drainLane i lane n s).slotTime = s.slotTime := by
  induction n generalizing s with
  | zero => rfl
  | succ n ih =>
    unfold drainLane
    dsimp only
    split
    · rw [ih, State.enterCore_slotTime]
    · exact State.enterCore_slotTime s i lane

end Sys2Proof.Machine
end

section
/-! SUPPORT. The sends, notices and transfers of a slot leave its number and the elapsed time alone (R140 to R153). -/

namespace Sys2Proof.Machine

/-! ### Cells that are closed, offered and announced -/

theorem State.closeIdle_slotTime (s : State) (rows : List (List (Option Nat))) (i : Nat) :
    (s.closeIdle rows i).slotTime = s.slotTime := by
  have hclose (s : State) (l : Nat) : (s.closeCell i l).slotTime = s.slotTime := by
    unfold State.closeCell
    dsimp only
    split <;> rfl
  unfold State.closeIdle
  dsimp only
  split
  · exact foldl_slotTime (fun s l => by rw [drainLane_slotTime, hclose]) _ s
  · rfl

@[simp] theorem State.offer_slotTime (s : State) (x : Send) (bad : Bool) : (s.offer x bad).1.slotTime = s.slotTime := by
  unfold State.offer
  dsimp only
  repeat' split
  all_goals simp

theorem State.serve_slotTime (bad : List (Nat × Nat)) (a : State × List Accepted) (q : Request) :
    (State.serve bad a q).1.slotTime = a.1.slotTime := by
  unfold State.serve
  split <;> simp

theorem State.serveAll_slotTime (s : State) (qs : List Request) (bad : List (Nat × Nat)) :
    (s.serveAll qs bad).1.slotTime = s.slotTime :=
  List.foldlRecOn (sortBy s.serveKey qs) (State.serve bad)
    (motive := fun a : State × List Accepted => a.1.slotTime = s.slotTime) rfl
    fun a ha q _ => (State.serve_slotTime bad a q).trans ha

theorem State.markEager_slotTime (s : State) (a : Accepted) : (s.markEager a).slotTime = s.slotTime := by
  unfold State.markEager
  split
  · rfl
  · split <;> rfl

theorem State.retype_slotTime (s : State) (a : Accepted) : (s.retype a).slotTime = s.slotTime := by
  unfold State.retype
  split <;> rfl

theorem State.notice_slotTime (s : State) (idle : List Nat) (i p : Nat) : (s.notice idle i p).slotTime = s.slotTime := by
  have harrive (s : State) (x : Nat × Cell) : (s.arriveReport i p x).slotTime = s.slotTime :=
    State.entry_slotTime _ _ _ _ _ _ _
  unfold State.notice
  dsimp only
  rw [State.modSq_slotTime]
  exact foldl_slotTime harrive _ _

/-! ### Transfers that complete (R153) -/

theorem State.pullArrive_slotTime (s : State) (e pos : Nat) (c : Cell) : (s.pullArrive e pos c).slotTime = s.slotTime := by
  unfold State.pullArrive
  split
  · rfl
  · dsimp only
    refine (Steady.moveCells _ e).slotTime.trans ?_
    split
    · rfl
    · exact foldl_slotTime (fun s f => (Steady.judgeFrame s _ f).slotTime) _ _

theorem State.acked_slotTime (s : State) (a : Accepted) : (s.acked a).slotTime = s.slotTime := by
  have hfree (s : State) (i k : Nat) : (s.freeByHeader i k).slotTime = s.slotTime := (Steady.freeByHeader s i k).slotTime
  have hnote (s : State) (i : Nat) (c : Cell) : (s.noteEager i c).slotTime = s.slotTime := rfl
  unfold State.acked
  dsimp only
  split
  · rfl
  · split
    · rw [State.settleCell_slotTime, hnote, State.modSq_slotTime]
    · rw [State.pullArrive_slotTime, State.noteCrc_slotTime, hfree, State.modSq_slotTime]
    · rw [State.settleCell_slotTime, hfree, hnote]

theorem State.runSlot_slotTime (s : State) (stalled : List Nat) (crcBad memBad : List (Nat × Nat)) :
    (s.runSlot stalled crcBad memBad).slotTime = s.slotTime := by
  unfold State.runSlot
  extract_lets act s0 rows go idle s1 live r0 r pairs s2
  have hupset (s : State) (e : Nat × Nat) : (s.upsetCell e).slotTime = s.slotTime := rfl
  have hdiscards : s0.slotTime = s.slotTime :=
    (foldl_slotTime (fun s e => (Steady.takeDiscards s e).slotTime) act _).trans (foldl_slotTime hupset memBad s)
  clear_value s0
  have hclosed : s1.slotTime = s0.slotTime := foldl_slotTime (fun s i => s.closeIdle_slotTime rows i) act s0
  clear_value s1
  have hserved : r0.1.slotTime = s1.slotTime := State.serveAll_slotTime _ _ _
  clear_value r0
  have htyped : r.1.slotTime = r0.1.slotTime :=
    (foldl_slotTime State.retype_slotTime _ _).trans (foldl_slotTime State.markEager_slotTime _ _)
  clear_value r pairs idle
  have hnoticed : s2.slotTime = r.1.slotTime :=
    foldl_slotTime (f := fun s (e : Nat × Nat) => s.notice idle e.1 e.2) (fun s e => s.notice_slotTime idle e.1 e.2) _ _
  clear_value s2
  calc (r.2.foldl State.acked s2).slotTime
      _ = s2.slotTime := foldl_slotTime State.acked_slotTime _ _
      _ = r.1.slotTime := hnoticed
      _ = r0.1.slotTime := htyped
      _ = s1.slotTime := hserved
      _ = s0.slotTime := hclosed
      _ = s.slotTime := hdiscards

end Sys2Proof.Machine
end

section
/-! PROOFS. A slot is released, completes, or stalls (R140, R141, R166, R167, R174, R310). -/

namespace Sys2Proof.Machine

/-! ### SLOT_RELEASE (R140, R305 to R310) -/

/-- The slot words that the three channels present. -/
def slotWords (d0 d1 d2 : Nat) (c : Nat) : Nat := if c = 0 then d0 else if c = 1 then d1 else d2

/-- The channels that present another word than the voted one, in the order of their events, are outvoted. -/
def State.slotVoted (s : State) (d : Nat → Nat) (w : Nat) : State :=
  (s.faultOrder id ((List.range 3).filter fun c => ((s.chn c).failed || (s.chn c).act) && d c != w)).foldl
    (fun s c => s.outvote c 1 (s.tour.slot % 64 == 63)) s

/-- Slot `s.tour.slot` has been released, and the squares `stuck` have not finished in it. -/
def State.slotReleased (s : State) (stuck : List Nat) : State :=
  { s with
    tour := { s.tour with released := true, lastReleased := s.tour.slot, releasedAt := s.elapsed
                          unfinished := stuck.foldl (fun m i => setBit m i true) 0 }
    triad := { s.triad with failedHolds := 0 } }

theorem FaultFrame.outvote (s : State) {c : Nat} (hc : c < 3) (detail : Nat) (boundary : Bool) :
    FaultFrame s (s.outvote c detail boundary) := by
  have hsrc : srcSquare c = none := if_neg (by omega)
  unfold State.outvote
  exact FaultFrame.trans (.ite (.refl s) (by rfl)) (.faultEvent _ hsrc _ _ _ _)

theorem FaultFrame.slotVoted (s : State) (d : Nat → Nat) (w : Nat) : FaultFrame s (s.slotVoted d w) :=
  .foldl (fun s _ hc => .outvote s (List.mem_range.mp (List.mem_filter.mp (mem_faultOrder.mp hc)).1) _ _) s

theorem FaultFrame.inSlot {s t : State} (h : FaultFrame s t) : t.inSlot = s.inSlot := by
  rw [h]
  rfl

theorem FaultFrame.slotTime {s t : State} (h : FaultFrame s t) : t.slotTime = s.slotTime := by
  rw [h]
  rfl

section
variable {s : State} (hu : Up s) {d0 d1 d2 : Nat} {stalled : List Nat} {bad mem : List (Nat × Nat)}
include hu

theorem slotRelease_idle (h : s.mayRelease = false) : exec (.slotRelease d0 d1 d2 stalled bad mem) s = .next s := by
  change execSlotRelease d0 d1 d2 stalled bad mem s = _
  rw [execSlotRelease, gated_up hu]
  simp [h]

variable (h : s.mayRelease = true)
include h

theorem slotRelease_held (hw : s.majority (slotWords d0 d1 d2) = none) :
    exec (.slotRelease d0 d1 d2 stalled bad mem) s = .next (s.noMajority .slot) := by
  have hw' : s.majority (fun c => if c = 0 then d0 else if c = 1 then d1 else d2) = none := hw
  change execSlotRelease d0 d1 d2 stalled bad mem s = _
  rw [execSlotRelease, gated_up hu]
  simp [h, hw']

theorem slotRelease_eq {w : Nat} (hw : s.majority (slotWords d0 d1 d2) = some w) :
    exec (.slotRelease d0 d1 d2 stalled bad mem) s = .next
      (((s.slotVoted (slotWords d0 d1 d2) w).runSlot
          (stalled.filter (s.slotVoted (slotWords d0 d1 d2) w).inSlot.contains) bad mem).slotReleased
        (stalled.filter (s.slotVoted (slotWords d0 d1 d2) w).inSlot.contains)) := by
  have hw' : s.majority (fun c => if c = 0 then d0 else if c = 1 then d1 else d2) = some w := hw
  change execSlotRelease d0 d1 d2 stalled bad mem s = _
  rw [execSlotRelease, gated_up hu]
  dsimp only
  rw [if_neg (by simp [h]), hw']
  refine congrArg _ ?_
  dsimp only
  -- the state after the vote stands in every field of both sides: it gets a name before they are compared
  generalize hs1 : List.foldl _ s _ = s1
  have hs1' : s.slotVoted (slotWords d0 d1 d2) w = s1 := hs1
  rw [hs1']
  rfl

theorem slotRelease_releases {w : Nat} (hw : s.majority (slotWords d0 d1 d2) = some w) :
    Yields (.slotRelease d0 d1 d2 stalled bad mem) s fun t =>
      t.tour.released = true ∧ t.tour.lastReleased = s.tour.slot ∧ t.tour.slot = s.tour.slot ∧
      t.tour.releasedAt = s.elapsed ∧ t.triad.failedHolds = 0 ∧
      t.tour.unfinished = (stalled.filter s.inSlot.contains).foldl (fun m i => setBit m i true) 0 := by
  refine ⟨_, slotRelease_eq hu h hw, ?_⟩
  have hvoted := FaultFrame.slotVoted s (slotWords d0 d1 d2) w
  rw [hvoted.inSlot]
  have htime := (State.runSlot_slotTime (s.slotVoted (slotWords d0 d1 d2) w)
    (stalled.filter s.inSlot.contains) bad mem).trans hvoted.slotTime
  exact ⟨rfl, congrArg Prod.fst htime, congrArg Prod.fst htime, congrArg Prod.snd htime, rfl, rfl⟩

end

/-! ### SLOT_COMPLETE (R140, R166, R174) -/

theorem sq_foldl_modSq {l : List Nat} (hl : l.Nodup) (f : Sq → Sq) (s : State) (i : Nat) :
    (l.foldl (fun s i => s.modSq i f) s).sq i = if i ∈ l then f (s.sq i) else s.sq i := by
  induction l generalizing s with
  | nil => rfl
  | cons j l ih =>
    obtain ⟨hj, hl⟩ := List.nodup_cons.mp hl
    rw [List.foldl_cons, ih hl, State.sq_modSq]
    by_cases hij : i = j
    · subst hij
      simp [hj]
    · simp [hij]

/-- The rotation pointer of a square advances by one (R174). -/
def Sq.rotated (q : Sq) : Sq := { q with rotP := (q.rotP + 1) % 66 }

/-- The rotation pointers of the squares advance by one. -/
def State.squaresRotated (s : State) : State := squares.foldl (fun s i => s.modSq i Sq.rotated) s

theorem State.rotate_eq (s : State) : s.rotate = { s.squaresRotated with
    red := { s.squaresRotated.red with svcRotP := (s.squaresRotated.red.svcRotP + 1) % 6 } } := rfl

theorem State.rotate_shape (s : State) : ∃ q, s.rotate =
    { s with sqs := q, red := { s.red with svcRotP := (s.red.svcRotP + 1) % 6 } } := by
  obtain ⟨q, hq⟩ : ∃ q, s.squaresRotated = { s with sqs := q } := foldl_modSq_shape (fun _ _ => Sq.rotated) squares s
  refine ⟨q, ?_⟩
  rw [State.rotate_eq, hq]

theorem State.sq_rotate (s : State) (i : Nat) : s.rotate.sq i = if i < 64 then (s.sq i).rotated else s.sq i := by
  have hred (s : State) (r : Red) : ({ s with red := r } : State).sq i = s.sq i := rfl
  rw [State.rotate_eq, hred, State.squaresRotated, sq_foldl_modSq (l := squares) List.nodup_range]
  exact if_congr List.mem_range rfl rfl

/-- The square that completed last in a late slot is recorded. -/
def State.lateRecorded (s : State) (last : Nat) : State :=
  if s.slotLate && s.inSlot.contains last then s.recordLast last else s

/-- The slot is over, and the next one has its number. -/
def State.slotEnded (s : State) : State :=
  { s with tour := { s.tour with
      released := false, slot := (s.tour.slot + 1) % 2 ^ 64, boundary := decide ((s.tour.slot + 1) % 64 = 0) } }

theorem State.sq_slotEnded (s : State) (i : Nat) : s.slotEnded.sq i = s.sq i := rfl

theorem State.lateRecorded_shape (s : State) (last : Nat) : ∃ q v, s.lateRecorded last =
    { s with sqs := q, power := { s.power with vsq := v } } := by
  unfold State.lateRecorded
  split
  · exact ⟨_, _, rfl⟩
  · exact ⟨_, _, rfl⟩

theorem State.sq_lateRecorded (s : State) (last i : Nat) : (s.lateRecorded last).sq i =
    if s.slotLate = true ∧ s.inSlot.contains last = true ∧ i = last then { s.sq i with lastRecorded := true }
    else s.sq i := by
  have hrecord : (s.recordLast last).sq i = if i = last then { s.sq last with lastRecorded := true } else s.sq i :=
    s.sq_modSq last i fun q => { q with lastRecorded := true }
  unfold State.lateRecorded
  by_cases hlate : s.slotLate = true ∧ s.inSlot.contains last = true
  · rw [if_pos (by rw [Bool.and_eq_true]; exact hlate), hrecord]
    by_cases hi : i = last
    · rw [if_pos hi, if_pos ⟨hlate.1, hlate.2, hi⟩, hi]
    · rw [if_neg hi, if_neg fun h => hi h.2.2]
  · rw [if_neg (by rw [Bool.and_eq_true]; exact hlate), if_neg fun h => hlate ⟨h.1, h.2.1⟩]

section
variable {s : State} (hu : Up s) {last : Nat}
include hu

theorem slotComplete_idle (h : s.tour.released = false ∨ s.tour.unfinished ≠ 0 ∨ s.triad.hold.isSome = true) :
    exec (.slotComplete last) s = .next s := by
  change execSlotComplete last s = _
  rw [execSlotComplete, gated_up hu, if_neg]
  rcases h with h | h | h
  · simp [h]
  · simp [h]
  · simp [Option.isSome_iff_ne_none.mp h]

theorem slotComplete_eq (hr : s.tour.released = true) (hf : s.tour.unfinished = 0) (hh : s.triad.hold = none) :
    exec (.slotComplete last) s = .next (s.lateRecorded last).rotate.slotEnded := by
  change execSlotComplete last s = _
  rw [execSlotComplete, gated_up hu, if_pos (by simp [hr, hf, hh])]
  rfl

theorem slotComplete_completes (hr : s.tour.released = true) (hf : s.tour.unfinished = 0) (hh : s.triad.hold = none) :
    Yields (.slotComplete last) s fun t =>
      t.tour = { s.tour with released := false, slot := (s.tour.slot + 1) % 2 ^ 64
                             boundary := decide ((s.tour.slot + 1) % 64 = 0) } ∧
      (∀ i < 64, (t.sq i).rotP = ((s.sq i).rotP + 1) % 66) ∧ t.red.svcRotP = (s.red.svcRotP + 1) % 6 ∧
      (s.slotLate = true → s.inSlot.contains last = true → (t.sq last).lastRecorded = true) ∧
      (∀ i, s.slotLate = false ∨ i ≠ last → (t.sq i).lastRecorded = (s.sq i).lastRecorded) ∧
      t = { s with tour := t.tour, sqs := t.sqs, red := { s.red with svcRotP := t.red.svcRotP }
                   power := { s.power with vsq := t.power.vsq } } := by
  refine ⟨_, slotComplete_eq hu hr hf hh, ?_⟩
  have hrotP (i : Nat) : ((s.lateRecorded last).sq i).rotP = (s.sq i).rotP := by
    rw [State.sq_lateRecorded]
    split <;> rfl
  have hrecorded (i : Nat) : ((s.lateRecorded last).rotate.slotEnded.sq i).lastRecorded =
      ((s.lateRecorded last).sq i).lastRecorded := by
    rw [State.sq_slotEnded, State.sq_rotate]
    split <;> rfl
  obtain ⟨q, v, hlate⟩ := s.lateRecorded_shape last
  obtain ⟨q', hrotate⟩ := (s.lateRecorded last).rotate_shape
  rw [hlate] at hrotate
  refine ⟨?_, fun i hi => ?_, ?_, fun hl hc => ?_, fun i hi => ?_, ?_⟩
  · rw [hlate, hrotate]
    rfl
  · rw [State.sq_slotEnded, State.sq_rotate, if_pos hi, ← hrotP]
    rfl
  · rw [hlate, hrotate]
    rfl
  · rw [hrecorded, State.sq_lateRecorded, if_pos ⟨hl, hc, rfl⟩]
  · rw [hrecorded, State.sq_lateRecorded, if_neg]
    rintro ⟨hl, -, heq⟩
    exact hi.elim (fun hl' => Bool.false_ne_true (hl'.symm.trans hl)) fun hne => hne heq
  · rw [hlate, hrotate]
    rfl

/-! ### SLOT_STALL_TIMEOUT (R167) -/

theorem slotStallTimeout_idle
    (h : s.tour.released = false ∨ s.tour.unfinished = 0 ∨ s.elapsed < s.tour.releasedAt + s.stallTime) :
    exec .slotStallTimeout s = .next s := by
  change execSlotStallTimeout s = _
  rw [execSlotStallTimeout, gated_up hu, if_neg]
  rcases h with h | h | h <;> simp [h]

end

/-- A square that stalls is fenced, with an event of its first source. -/
def State.fenceStalled (s : State) (i : Nat) : State := (s.modSq i fun q => { q with fenced := true }).sqFault i 0

/-- The unfinished squares of a slot are fenced, in the order of their events. -/
def State.stalledFenced (s : State) : State :=
  (s.faultOrder (fun i => sqSrc i 0) (bitList s.tour.unfinished 64)).foldl State.fenceStalled s

theorem State.fenceStalled_fenced (s : State) (i : Nat) : ((s.fenceStalled i).sq i).fenced = true :=
  (Fences.sqFault _ i 0 i).2 (by rw [State.sq_modSq, if_pos rfl])

theorem Fences.fenceStalled (s : State) (i : Nat) : Fences s (s.fenceStalled i) := (Fences.fence s i).trans (.sqFault _ i 0)

theorem Steady.fenceStalled (s : State) (i : Nat) : Steady s (s.fenceStalled i) :=
  (Steady.modSq (f := fun q => { q with fenced := true }) fun _ => rfl).trans (.sqFault _ i 0)

theorem Steady.stalledFenced (s : State) : Steady s s.stalledFenced := .foldl .fenceStalled _ s

theorem State.stalledFenced_fenced {s : State} {i : Nat} (hi : i < 64) (hbit : bit s.tour.unfinished i = true) :
    (s.stalledFenced.sq i).fenced = true :=
  foldl_of_mem (Q := fun _ => True) (P := fun t : State => (t.sq i).fenced = true) (fun _ _ h => h)
    (fun t _ => t.fenceStalled_fenced i) (fun t c _ ht => (Fences.fenceStalled t c i).2 ht)
    (mem_faultOrder.mpr (mem_bitList.mpr ⟨hi, hbit⟩)) trivial

theorem slotStallTimeout_fences {s : State} (hu : Up s) (hr : s.tour.released = true) (hf : s.tour.unfinished ≠ 0)
    (hdue : s.tour.releasedAt + s.stallTime ≤ s.elapsed) : Yields .slotStallTimeout s fun t =>
      t.tour.unfinished = 0 ∧ t.tour.released = true ∧ t.tour.slot = s.tour.slot ∧
      ∀ i < 64, bit s.tour.unfinished i = true → (t.sq i).fenced = true := by
  have hexec : exec .slotStallTimeout s = .next
      { s.stalledFenced with tour := { s.stalledFenced.tour with unfinished := 0 } } := by
    change execSlotStallTimeout s = _
    rw [execSlotStallTimeout, gated_up hu, if_pos (by simp [hr, hf, hdue])]
    rfl
  have hsteady := Steady.stalledFenced s
  have hreleased : s.stalledFenced.tour.released = s.tour.released := congrArg (fun b => b.1.released) hsteady.beat
  exact ⟨_, hexec, rfl, hreleased.trans hr, congrArg Prod.fst hsteady.slotTime,
    fun i hi hbit => State.stalledFenced_fenced hi hbit⟩

/-- Settles O45: what a slot runs keeps its number and the time; the release, the completion and the timeout then set
what they are there to set. -/
theorem slotCycle : Obligations.SlotCycle := by
  intro d0 d1 d2 stalled bad mem s hu
  exact ⟨slotRelease_idle hu, slotRelease_held hu, fun w h => slotRelease_releases hu h,
    fun last => slotComplete_completes hu, fun last => slotComplete_idle hu, slotStallTimeout_fences hu,
    slotStallTimeout_idle hu⟩

end Sys2Proof.Machine
end

section
/-! SUPPORT. The settings of the buffer as a state change latches them, and how a change is accepted (R183, R426). -/

namespace Sys2Proof.Machine

/-- A served command that answers with an effect which does not depend on its acceptance. -/
theorem yields_effect {i : Instr} {op st res : Nat} {c : Cmd} {ok : Bool} {f : State → CmdOut} {s u : State}
    (hx : exec i s = gated s (runCmd op c ok f)) (ho : op < 65536) (ht : Takes s c) (hok : ok = true)
    (hf : f (accepted op c s) = .ret (accepted op c u) st res) : Yields i s fun t => Returns u t c op st res :=
  ⟨_, exec_eq_completeCmd hx ht hok hf, returns_completeCmd ho c u st res⟩

/-! ### Settings that come into force (R183) -/

/-- Captured values come into force, and nothing else changes. -/
theorem State.bufLatch_eq (s : State) (m : SMap Reg) : s.bufLatch m = { s with force := (s.bufLatch m).force } :=
  List.foldlRecOn m _ (motive := fun t : State => t = { s with force := t.force }) rfl
    fun _ ht e _ => congrArg (fun u => u.setForce e.1 e.2) ht

/-- A register that was not captured keeps its value in force. -/
theorem State.bufLatch_inForce {s : State} {m : SMap Reg} {a : Nat} (h : ∀ e ∈ m, e.1 ≠ a) :
    (s.bufLatch m).inForce a = s.inForce a :=
  List.foldlRecOn m _ (motive := fun t : State => t.inForce a = s.inForce a) rfl fun t ht e he => by
    rw [State.inForce_setForce, if_neg (h e he).symm, ht]

/-- Events keep their ring: HOST_CFG is no register of the buffer. -/
theorem State.bufLatch_evtRing (s : State) : (s.bufLatch s.bufCapture).evtRing = s.evtRing := by
  have hhost : A.hostCfg ∉ bufRegs := by decide
  refine congrArg (fun r => fld r 27 16) (State.bufLatch_inForce fun e he => ?_)
  obtain ⟨a, ha, rfl⟩ := List.mem_map.mp he
  exact fun heq => hhost (heq ▸ ha)

/-! ### A change made at once -/

/-- The buffer takes the state of the command. -/
theorem State.bufCommand_state (s : State) (x : BufChange) : (s.bufCommand x).buf.state = x.target := by
  have hpost (u : State) (sub src : Nat) : (u.post 3 sub src []).buf = u.buf := by
    rw [State.post, PostFrame.postAt u u.evtRing 3 sub src [] u.nowNs]
  exact congrArg Buf.state (hpost _ _ _)

theorem State.toBufState_evSeq (s : State) (t : Nat) : (s.toBufState t).host.evSeq =
    SMap.set (fun _ => 0) s.host.evSeq s.evtRing ((SMap.get (fun _ => 0) s.host.evSeq s.evtRing + 1) % 2147483648) :=
  State.postAt_evSeq _ _ _ _ _ _ _

/-- The change takes one number of the event ring, that of its event. -/
theorem State.bufCommand_evSeq (s : State) (t : Nat) :
    (s.bufCommand { target := t, regs := s.bufCapture }).host.evSeq = (s.post 3 t 0 []).host.evSeq := by
  have hhost : (s.bufLatch s.bufCapture).host = s.host := by rw [s.bufLatch_eq]
  rw [State.bufCommand, State.toBufState_evSeq, s.bufLatch_evtRing, hhost, State.post, State.postAt_evSeq]

/-! ### How a change is accepted (R183, R426) -/

/-- A change to state `v`, with the settings as written now, that waits for the boundary. -/
def State.bufWaits (s : State) (v : Nat) : State :=
  { s with buf := { s.buf with pending := s.buf.pending ++ [{ target := v, regs := s.bufCapture }] } }

theorem State.bufAccept_invalid {s : State} (hbad : bufSettingOk s.bufCapture = false) (v : Nat) :
    s.bufAccept v = .ret s stInvalid 0 := by
  simp [State.bufAccept, hbad]

section
variable {s : State} (hgood : bufSettingOk s.bufCapture = true)
include hgood

theorem State.bufAccept_waits (hwait : s.tour.running = true ∨ s.buf.state ≠ 0 ∨ s.buf.pending ≠ []) (v : Nat) :
    s.bufAccept v = .ret (s.bufWaits v) stOk 0 := by
  rw [State.bufAccept, if_neg (by simp [hgood]), if_pos hwait]
  rfl

theorem State.bufAccept_atOnce (hrun : s.tour.running = false) (hst : s.buf.state = 0) (hpend : s.buf.pending = [])
    (v : Nat) : s.bufAccept v = .ret (s.bufCommand { target := v, regs := s.bufCapture }) stOk 0 := by
  rw [State.bufAccept, if_neg (by simp [hgood]), if_neg (by simp [hrun, hst, hpend])]

end

/-- STARTUP stays in force while no change waits. -/
theorem State.bufNext_startup {s : State} (hst : s.buf.state = 0) (hpend : s.buf.pending = []) : s.bufNext = 0 := by
  simp [State.bufNext, hst, hpend]

end Sys2Proof.Machine
end

section
/-! SUPPORT. BUF_STATE (R182, R183, R426). -/

namespace Sys2Proof.Machine

/-! ### What the command answers -/

/-- The effect of BUF_STATE with value `v` on the state in which it is accepted. -/
def bufStateAnswer (v : Nat) (c : Cmd) (s : State) : CmdOut :=
  if c.p0.toNat ≠ v then .ret s stInvalid 0
  else if s.bufNext = v then .ret s stOk 0
  else if v = 1 ∧ (s.bufNext = 3 ∨ s.bufNext = 0 ∧ !s.tour.running) then .ret s stBusy 0
  else s.bufAccept v

section
variable {v : Nat} {c : Cmd} {s : State} (hv : c.p0.toNat = v)
include hv

theorem bufStateAnswer_same (h : s.bufNext = v) : bufStateAnswer v c s = .ret s stOk 0 := by
  rw [bufStateAnswer, if_neg (not_not_intro hv), if_pos h]

theorem bufStateAnswer_busy (hone : v = 1) (h : s.bufNext = 3 ∨ (s.bufNext = 0 ∧ s.tour.running = false)) :
    bufStateAnswer v c s = .ret s stBusy 0 := by
  have hne : s.bufNext ≠ v := by omega
  rw [bufStateAnswer, if_neg (not_not_intro hv), if_neg hne, if_pos (by simpa [hone] using h)]

theorem bufStateAnswer_accepts (hne : s.bufNext ≠ v)
    (hfree : v = 1 → s.bufNext ≠ 3 ∧ (s.tour.running = true ∨ s.bufNext ≠ 0)) :
    bufStateAnswer v c s = s.bufAccept v := by
  have hgo : ¬ (v = 1 ∧ (s.bufNext = 3 ∨ s.bufNext = 0 ∧ (!s.tour.running) = true)) := by
    rintro ⟨hone, hbusy⟩
    obtain ⟨hrec, hstart⟩ := hfree hone
    rcases hbusy with h | ⟨h, hrun⟩
    · exact hrec h
    · exact hstart.elim (fun hrun' => by simp [hrun'] at hrun) fun h' => h' h
  rw [bufStateAnswer, if_neg (not_not_intro hv), if_neg hne, if_neg hgo]

end

/-- A change to NORMAL that is not BUSY waits: from STARTUP it needs the mesh, or a change before it. -/
theorem State.bufNormal_waits {s : State} (h : s.tour.running = true ∨ s.bufNext ≠ 0) :
    s.tour.running = true ∨ s.buf.state ≠ 0 ∨ s.buf.pending ≠ [] := by
  refine h.imp_right fun hne => ?_
  by_cases hst : s.buf.state = 0
  · exact .inr fun hpend => hne (State.bufNext_startup hst hpend)
  · exact .inl hst

/-! ### What the host sees of the command -/

/-- `i` is the command BUF_STATE with value `v`. -/
def IsBufState (i : Instr) (v : Nat) (c : Cmd) : Prop := ∀ s, exec i s =
  gated s (runCmd 0x50 c (p0Below c 2 && p1Below c 0 && p2Below c 0) (bufStateAnswer v c))

theorem isBufState_normal (c : Cmd) : IsBufState (.bufStateNormal c) 1 c := fun _ => rfl

theorem isBufState_test (c : Cmd) : IsBufState (.bufStateTest c) 2 c := fun _ => rfl

section
variable {i : Instr} {v : Nat} {c : Cmd} {s : State} (hi : IsBufState i v c) (ht : Takes s c)
  (hp : (p0Below c 2 && p1Below c 0 && p2Below c 0) = true)
include hi ht hp

theorem bufState_other (hv : c.p0.toNat ≠ v) : Yields i s fun t => Returns s t c 0x50 stInvalid 0 :=
  yields_returns (hi s) (by decide) ht hp (if_pos hv)

variable (hv : c.p0.toNat = v)
include hv

theorem bufState_same (h : s.bufNext = v) : Yields i s fun t => Returns s t c 0x50 stOk 0 :=
  yields_returns (hi s) (by decide) ht hp (bufStateAnswer_same (s := accepted 0x50 c s) hv h)

theorem bufState_busy (hone : v = 1) (h : s.bufNext = 3 ∨ (s.bufNext = 0 ∧ s.tour.running = false)) :
    Yields i s fun t => Returns s t c 0x50 stBusy 0 :=
  yields_returns (hi s) (by decide) ht hp (bufStateAnswer_busy (s := accepted 0x50 c s) hv hone h)

variable (hne : s.bufNext ≠ v) (hfree : v = 1 → s.bufNext ≠ 3 ∧ (s.tour.running = true ∨ s.bufNext ≠ 0))
include hne hfree

theorem bufState_invalid (hbad : bufSettingOk s.bufCapture = false) :
    Yields i s fun t => Returns s t c 0x50 stInvalid 0 :=
  yields_returns (hi s) (by decide) ht hp ((bufStateAnswer_accepts (s := accepted 0x50 c s) hv hne hfree).trans
    (State.bufAccept_invalid (s := accepted 0x50 c s) hbad v))

theorem bufState_waits (hgood : bufSettingOk s.bufCapture = true)
    (hwait : s.tour.running = true ∨ s.buf.state ≠ 0 ∨ s.buf.pending ≠ []) :
    Yields i s fun t => Returns (s.bufWaits v) t c 0x50 stOk 0 :=
  yields_effect (hi s) (by decide) ht hp ((bufStateAnswer_accepts (s := accepted 0x50 c s) hv hne hfree).trans
    (State.bufAccept_waits (s := accepted 0x50 c s) hgood hwait v))

theorem bufState_atOnce (hgood : bufSettingOk s.bufCapture = true) (hrun : s.tour.running = false)
    (hst : s.buf.state = 0) (hpend : s.buf.pending = []) : Yields i s fun t =>
      Answered t c 0x50 stOk 0 ∧ t.buf.state = v ∧ t.host.evSeq = (s.post 3 v 0 []).host.evSeq := by
  have hseq := (accepted 0x50 c s).bufCommand_evSeq v
  refine ⟨_, exec_eq_completeCmd (hi s) ht hp ((bufStateAnswer_accepts (s := accepted 0x50 c s) hv hne hfree).trans
    (State.bufAccept_atOnce (s := accepted 0x50 c s) hgood hrun hst hpend v)),
    answered_completeCmd (by decide) c _ stOk 0, ?_, ?_⟩
  · rw [PostFrame.of_return (.completeCmd _ _ _ _ _)]
    exact State.bufCommand_state _ _
  · rw [(ReturnFrame.completeCmd _ _ _ _ _).evSeq, hseq, State.post, State.post, State.postAt_evSeq,
      State.postAt_evSeq]
    rfl

end

end Sys2Proof.Machine
end

section
/-! SUPPORT. SVC_ALLOC and SVC_FREE (R176, R178, R179). -/

namespace Sys2Proof.Machine

/-! ### Services memory (R179) -/

/-- The state with other counters. -/
def State.withCounters (s : State) (m : SMap Nat) : State := { s with cnt := m }

theorem State.count_eq (s : State) (o n : Nat) : s.count o n = s.withCounters (s.count o n).cnt := by
  unfold State.count
  split <;> rfl

/-- Services memory with buffer `key` given to a tag. -/
def State.withBuffer (s : State) (key tag : Nat) : State :=
  { s with red := { s.red with svc := SMap.insert s.red.svc key tag } }

/-- What an allocation can do: nothing, or one buffer goes to the tag; a larger pool than the smallest is counted. -/
theorem State.svcTake_cases (s : State) (tag n : Nat) :
    s.svcTake tag n = (s, none) ∨
      ∃ key up, s.svcTake tag n = ((s.withBuffer key tag).count (devCtr 6) up, some key) := by
  unfold State.svcTake
  split
  · exact .inl rfl
  · next k b _ =>
    split
    · exact .inl rfl
    · refine .inr ⟨svcKey k b, if 0 < k ∧ n ≤ poolSize (k - 1) then 1 else 0, ?_⟩
      by_cases hup : 0 < k ∧ n ≤ poolSize (k - 1)
      · simp [hup, State.withBuffer]
      · simp [hup, State.withBuffer, State.count]

theorem State.svcTake_none {s : State} {tag n : Nat} (h : (s.svcTake tag n).2 = none) :
    s.svcTake tag n = (s, none) := by
  rcases s.svcTake_cases tag n with htake | ⟨key, up, htake⟩
  · exact htake
  · rw [htake] at h
    cases h

theorem State.svcTake_some {s : State} {tag n key : Nat} (h : (s.svcTake tag n).2 = some key) :
    ∃ cnt, s.svcTake tag n = ((s.withBuffer key tag).withCounters cnt, some key) := by
  rcases s.svcTake_cases tag n with htake | ⟨key', up, htake⟩
  · rw [htake] at h
    cases h
  · rw [htake] at h
    cases h
    exact ⟨_, htake.trans (congrArg (·, some key) (State.count_eq _ _ _))⟩

/-- Offset in services memory of a buffer. -/
def State.svcOffset (s : State) (key : Nat) : Nat :=
  s.poolBase (key / 65536) + poolSize (key / 65536) * (key % 65536)

/-- The pools lie where the setting in force puts them. -/
theorem State.svcOffset_of_force {s t : State} (h : t.force = s.force) (key : Nat) :
    t.svcOffset key = s.svcOffset key := by
  have hblocks : t.poolBlocks = s.poolBlocks := by rw [State.poolBlocks, State.inForce, h]; rfl
  simp only [State.svcOffset, State.poolBase, hblocks]

theorem State.svcOffset_accepted (op : Nat) (c : Cmd) (s : State) (key : Nat) :
    (accepted op c s).svcOffset key = s.svcOffset key := State.svcOffset_of_force rfl key

/-- The return of a command leaves the counters that its effect left. -/
theorem Returns.cnt {u t : State} {c : Cmd} {op st res : Nat} (h : Returns u t c op st res) : t.cnt = u.cnt := by
  obtain ⟨-, -, hframe, -⟩ := h
  rw [hframe]

/-! ### SVC_ALLOC -/

/-- The effect of SVC_ALLOC of `n` bytes on the state in which it is accepted. -/
def svcAllocAnswer (n : Nat) (s : State) : CmdOut :=
  if n = 0 ∨ 16384 < n then .ret s stInvalid 0
  else match s.svcTake 5 n with
    | (s1, some key) => .ret s1 stOk (s1.svcOffset key)
    | (s1, none) => .ret s1 stNoSpace 0

theorem exec_svcAlloc (c : Cmd) (s : State) : exec (.svcAlloc c) s =
    gated s (runCmd 0x51 c (p0Below c 0 && p1Below c 0) (svcAllocAnswer c.p2.toNat)) := rfl

section
variable {n : Nat} {s u : State} (hlow : 1 ≤ n) (hhigh : n ≤ 16384)
include hlow hhigh

theorem svcAllocAnswer_takes {key : Nat} (h : s.svcTake 5 n = (u, some key)) :
    svcAllocAnswer n s = .ret u stOk (u.svcOffset key) := by
  rw [svcAllocAnswer, if_neg (by omega), h]

theorem svcAllocAnswer_noSpace (h : s.svcTake 5 n = (u, none)) : svcAllocAnswer n s = .ret u stNoSpace 0 := by
  rw [svcAllocAnswer, if_neg (by omega), h]

end

section
variable {c : Cmd} {s : State} (ht : Takes s c) (h0 : c.p0 = 0) (h1 : c.p1 = 0)
include h0 h1

theorem svcAllocParamsOk : (p0Below c 0 && p1Below c 0) = true := by
  simp [p0Below, p1Below, h0, h1]

include ht

theorem svcAlloc_invalid (h : c.p2.toNat = 0 ∨ 16384 < c.p2.toNat) :
    Yields (.svcAlloc c) s fun t => Returns s t c 0x51 stInvalid 0 :=
  yields_returns (exec_svcAlloc c s) (by decide) ht (svcAllocParamsOk h0 h1) (if_pos h)

variable (hlow : 1 ≤ c.p2.toNat) (hhigh : c.p2.toNat ≤ 16384)
include hlow hhigh

theorem svcAlloc_noSpace (h : (s.svcTake 5 c.p2.toNat).2 = none) :
    Yields (.svcAlloc c) s fun t => Returns s t c 0x51 stNoSpace 0 := by
  have hsame : SameSvc s (accepted 0x51 c s) := ⟨rfl, rfl, rfl⟩
  have hnone := State.svcTake_none ((hsame.svcTake 5 c.p2.toNat).2.trans h)
  exact yields_returns (exec_svcAlloc c s) (by decide) ht (svcAllocParamsOk h0 h1)
    (svcAllocAnswer_noSpace hlow hhigh hnone)

theorem svcAlloc_takes {key : Nat} (h : (s.svcTake 5 c.p2.toNat).2 = some key) : Yields (.svcAlloc c) s fun t =>
    Returns ((s.withBuffer key 5).withCounters t.cnt) t c 0x51 stOk (s.svcOffset key) := by
  have hsame : SameSvc s (accepted 0x51 c s) := ⟨rfl, rfl, rfl⟩
  obtain ⟨cnt, hsome⟩ := State.svcTake_some ((hsame.svcTake 5 c.p2.toNat).2.trans h)
  have hyields : Yields (.svcAlloc c) s fun t =>
      Returns ((s.withBuffer key 5).withCounters cnt) t c 0x51 stOk (s.svcOffset key) := by
    have htake : (accepted 0x51 c s).svcTake 5 c.p2.toNat =
        (accepted 0x51 c ((s.withBuffer key 5).withCounters cnt), some key) := hsome
    have hoffset : (accepted 0x51 c ((s.withBuffer key 5).withCounters cnt)).svcOffset key = s.svcOffset key :=
      (State.svcOffset_accepted 0x51 c _ key).trans (State.svcOffset_of_force rfl key)
    exact yields_effect (exec_svcAlloc c s) (by decide) ht (svcAllocParamsOk h0 h1)
      (hoffset ▸ svcAllocAnswer_takes hlow hhigh htake)
  obtain ⟨t, hexec, hreturns⟩ := hyields
  have hcnt : t.cnt = cnt := hreturns.cnt
  exact ⟨t, hexec, by simpa only [hcnt] using hreturns⟩

end

/-! ### SVC_FREE -/

/-- The effect of SVC_FREE at offset `o` on the state in which it is accepted. -/
def svcFreeAnswer (o : Nat) (s : State) : CmdOut :=
  match s.svcAt o with
  | none => .ret s stTarget 0
  | some key => if tget s.red.svc key = some 5 then .ret (s.svcGive key 5) stOk 0 else .ret s stInvalid 0

theorem exec_svcFree (c : Cmd) (s : State) : exec (.svcFree c) s =
    gated s (runCmd 0x52 c (p1Below c 0 && p2Below c 0) (svcFreeAnswer c.p0.toNat)) := rfl

theorem svcFreeAnswer_noBuffer {o : Nat} {s : State} (h : s.svcAt o = none) :
    svcFreeAnswer o s = .ret s stTarget 0 := by
  rw [svcFreeAnswer, h]

theorem svcFreeAnswer_other {o key : Nat} {s : State} (h : s.svcAt o = some key)
    (hown : tget s.red.svc key ≠ some 5) : svcFreeAnswer o s = .ret s stInvalid 0 := by
  rw [svcFreeAnswer, h]
  exact if_neg hown

/-- Services memory with buffer `key` free. -/
def State.withoutBuffer (s : State) (key : Nat) : State :=
  { s with red := { s.red with svc := SMap.erase s.red.svc key } }

theorem svcFreeAnswer_frees {o key : Nat} {s : State} (h : s.svcAt o = some key)
    (hown : tget s.red.svc key = some 5) : svcFreeAnswer o s = .ret (s.withoutBuffer key) stOk 0 := by
  rw [svcFreeAnswer, h]
  dsimp only
  rw [if_pos hown, State.svcGive, if_pos hown]
  rfl

section
variable {c : Cmd} {s : State} (ht : Takes s c) (h1 : c.p1 = 0) (h2 : c.p2 = 0)
include ht h1 h2

theorem svcFree_noBuffer (h : s.svcAt c.p0.toNat = none) :
    Yields (.svcFree c) s fun t => Returns s t c 0x52 stTarget 0 :=
  yields_returns (exec_svcFree c s) (by decide) ht (bookParamsOk h1 h2)
    (svcFreeAnswer_noBuffer (s := accepted 0x52 c s) h)

variable {key : Nat} (h : s.svcAt c.p0.toNat = some key)
include h

theorem svcFree_other (hown : tget s.red.svc key ≠ some 5) :
    Yields (.svcFree c) s fun t => Returns s t c 0x52 stInvalid 0 :=
  yields_returns (exec_svcFree c s) (by decide) ht (bookParamsOk h1 h2)
    (svcFreeAnswer_other (s := accepted 0x52 c s) h hown)

theorem svcFree_frees (hown : tget s.red.svc key = some 5) :
    Yields (.svcFree c) s fun t => Returns (s.withoutBuffer key) t c 0x52 stOk 0 :=
  yields_effect (exec_svcFree c s) (by decide) ht (bookParamsOk h1 h2)
    (svcFreeAnswer_frees (s := accepted 0x52 c s) h hown)

end

end Sys2Proof.Machine
end

section
/-! PROOFS. BUF_STATE, SVC_ALLOC and SVC_FREE (R176, R179, R182, R183, R426). -/

namespace Sys2Proof.Machine

theorem bufStateParamsOk {c : Cmd} (h0 : c.p0.toNat < 4) (h1 : c.p1 = 0) (h2 : c.p2 = 0) :
    (p0Below c 2 && p1Below c 0 && p2Below c 0) = true := by
  simp [p0Below, p1Below, p2Below, h0, h1, h2]

/-- Settles O19: each command by the answer that its effect gives on the state in which it is accepted. -/
theorem bufferAndServicesCommands : Obligations.BufferAndServicesCommands := by
  refine ⟨fun c s ht h1 h2 => ?_, fun c s ht h1 => ?_⟩
  · have hp {v : Nat} (hv : c.p0.toNat = v) (hlt : v < 4) := bufStateParamsOk (hv ▸ hlt) h1 h2
    have hnormal := isBufState_normal c
    have htest := isBufState_test c
    have htoNat {w : W64} (h : c.p0 = w) : c.p0.toNat = w.toNat := congrArg BitVec.toNat h
    refine ⟨fun h => ?_, fun h => ?_, fun h => ?_⟩
    · have hv : c.p0.toNat = 1 := htoNat h
      refine ⟨fun hne hrec hgo => ⟨fun hgood => ?_, fun hbad => ?_⟩, fun hsame => ?_, fun hbusy => ?_⟩
      · exact bufState_waits hnormal ht (hp hv (by decide)) hv hne (fun _ => ⟨hrec, hgo⟩) hgood
          (State.bufNormal_waits hgo)
      · exact bufState_invalid hnormal ht (hp hv (by decide)) hv hne (fun _ => ⟨hrec, hgo⟩) hbad
      · exact bufState_same hnormal ht (hp hv (by decide)) hv hsame
      · exact bufState_busy hnormal ht (hp hv (by decide)) hv rfl hbusy
    · have hv : c.p0.toNat = 2 := htoNat h
      refine ⟨fun hne hwait hgood => ?_, fun hrun hst hpend hgood => ?_, fun hsame => ?_, fun hne hbad => ?_⟩
      · exact bufState_waits htest ht (hp hv (by decide)) hv hne (fun h => by cases h) hgood hwait
      · have hne : s.bufNext ≠ 2 := by rw [State.bufNext_startup hst hpend]; decide
        exact bufState_atOnce htest ht (hp hv (by decide)) hv hne (fun h => by cases h) hgood hrun hst hpend
      · exact bufState_same htest ht (hp hv (by decide)) hv hsame
      · exact bufState_invalid htest ht (hp hv (by decide)) hv hne (fun h => by cases h) hbad
    · have hv : c.p0.toNat = 0 ∨ c.p0.toNat = 3 := h.imp htoNat htoNat
      have hp := bufStateParamsOk (c := c) (by omega) h1 h2
      exact ⟨bufState_other hnormal ht hp (by omega), bufState_other htest ht hp (by omega)⟩
  · refine ⟨fun h0 hlow hhigh => ⟨fun key h => ?_, fun h => ?_⟩, fun h0 h => ?_, fun h2 => ⟨fun key h hown => ?_,
      fun key h hown => ?_, fun h => ?_⟩⟩
    · exact svcAlloc_takes ht h0 h1 hlow hhigh h
    · exact svcAlloc_noSpace ht h0 h1 hlow hhigh h
    · exact svcAlloc_invalid ht h0 h1 h
    · exact svcFree_frees ht h1 h2 h hown
    · exact svcFree_other ht h1 h2 h hown
    · exact svcFree_noBuffer ht h1 h2 h

end Sys2Proof.Machine
end

section
/-!
SUPPORT. The egress state of a port under the load and the start of its gate lists: the frame in transmission is judged,
and the port's queues are tagged anew (R209, R221 to R226).
-/

namespace Sys2Proof.Machine

/-! ### Tags (R209) -/

/-- Nothing but tags of queues differs. -/
structure OnlyTags (s t : State) : Prop where
  shape : t = { s with queues := t.queues }
  queue : ∀ q, t.queue q = { s.queue q with tag := (t.queue q).tag }

theorem OnlyTags.refl (s : State) : OnlyTags s s := ⟨rfl, fun _ => rfl⟩

theorem OnlyTags.trans {s t u : State} (h : OnlyTags s t) (k : OnlyTags t u) : OnlyTags s u :=
  ⟨by rw [k.shape, h.shape], fun q => by rw [k.queue, h.queue]⟩

theorem OnlyTags.eligible {s t : State} (h : OnlyTags s t) (q : Nat) : t.eligible q = s.eligible q := by
  obtain ⟨hshape, hqueue⟩ := h
  unfold State.eligible
  rw [hqueue q, hshape]
  rfl

theorem OnlyTags.newTag {s t : State} (h : OnlyTags s t) (q : Nat) : t.newTag q = s.newTag q := by
  obtain ⟨hshape, hqueue⟩ := h
  unfold State.newTag State.batchLen
  rw [hqueue q, hshape]
  rfl

/-- Neither a tag of another queue nor the queue's own tag, once taken, bears on the tag that a queue takes. -/
theorem OnlyTags.tagFor {s t : State} (h : OnlyTags s t) {q : Nat}
    (hq : (t.queue q).tag = (s.queue q).tag ∨ (t.queue q).tag = s.tagFor q) : t.tagFor q = s.tagFor q := by
  have hbook : t.book = s.book := by rw [h.shape]
  unfold State.tagFor at hq ⊢
  rw [h.eligible, h.newTag, hbook]
  split
  · next helig =>
    rw [if_pos helig] at hq
    rcases hq with hq | hq <;> rw [hq]
    rfl
  · rfl

theorem OnlyTags.tagQueue (s : State) (a : Nat) : OnlyTags s (s.tagQueue a) := by
  unfold State.tagQueue State.setTag
  split
  · exact .refl s
  · refine ⟨rfl, fun q => ?_⟩
    rw [State.queue_modQueue]
    split
    · next hq => rw [hq]
    · rfl

theorem State.tag_tagQueue (s : State) (a q : Nat) :
    ((s.tagQueue a).queue q).tag = if q = a then s.tagFor a else (s.queue q).tag := by
  unfold State.tagQueue State.setTag
  split
  · next hsame =>
    split
    · next hq => rw [hq, hsame]
    · rfl
  · rw [State.queue_modQueue]
    split <;> rfl

theorem State.tagFor_tagQueue (s : State) (a q : Nat) : (s.tagQueue a).tagFor q = s.tagFor q := by
  refine (OnlyTags.tagQueue s a).tagFor ?_
  rw [s.tag_tagQueue]
  split
  · next hq => exact .inr (by rw [hq])
  · exact .inl rfl

/-- Queues tagged one after another take the tags that their eligibility gives them, as it stood before. -/
theorem State.tags_settled (s : State) (qs : List Nat) : OnlyTags s (qs.foldl State.tagQueue s) ∧
    (∀ q, (qs.foldl State.tagQueue s).tagFor q = s.tagFor q) ∧
    ∀ q ∈ qs, ((qs.foldl State.tagQueue s).queue q).tag = s.tagFor q := by
  induction qs using List.reverseRecOn with
  | nil => exact ⟨.refl s, fun _ => rfl, fun q hq => absurd hq List.not_mem_nil⟩
  | append_singleton qs a ih =>
    obtain ⟨honly, hfor, htag⟩ := ih
    rw [List.foldl_append, List.foldl_cons, List.foldl_nil]
    refine ⟨honly.trans (.tagQueue _ a), fun q => ((State.tagFor_tagQueue _ a q).trans (hfor q)), fun q hq => ?_⟩
    rw [State.tag_tagQueue, hfor]
    split
    · next hqa => rw [hqa]
    · next hqa => exact htag q ((List.mem_append.mp hq).resolve_right (by simpa using hqa))

/-! ### The egress state of one port -/

/-- Nothing but the egress state of port `p` differs, which is now `e`. -/
structure OnlyEport (p : Nat) (s t : State) (e : EPort) : Prop where
  shape : t = { s with eports := t.eports }
  port : t.eport p = e
  others : ∀ k, k ≠ p → t.eport k = s.eport k

theorem OnlyEport.refl (p : Nat) (s : State) : OnlyEport p s s (s.eport p) := ⟨rfl, rfl, fun _ _ => rfl⟩

theorem OnlyEport.modEport {p : Nat} {s t : State} {e : EPort} (h : OnlyEport p s t e) (f : EPort → EPort) :
    OnlyEport p s (t.modEport p f) (f e) where
  shape := by rw [h.shape]; rfl
  port := by rw [State.eport_modEport, if_pos rfl, h.port]
  others k hk := by rw [State.eport_modEport, if_neg hk, h.others k hk]

/-- A frame in transmission is judged by the lists of its port alone (R223). -/
theorem OnlyEport.overran {p : Nat} {s t : State} {e : EPort} (h : OnlyEport p s t e)
    (hgate : e.gate = (s.eport p).gate) (hpend : e.pendGate = (s.eport p).pendGate) (x : Tx) :
    t.overran p x = s.overran p x := by
  obtain ⟨hshape, rfl, -⟩ := h
  have hns : t.nowNs = s.nowNs := by rw [hshape]; rfl
  unfold State.overran State.ungated State.gateAt
  rw [hgate, hpend, hns]

theorem OnlyEport.judgeGates {p : Nat} {s t : State} {e : EPort} (h : OnlyEport p s t e)
    (hgate : e.gate = (s.eport p).gate) (hpend : e.pendGate = (s.eport p).pendGate) (ns : Nat) :
    OnlyEport p s (t.judgeGates p ns)
      { e with tx := e.tx.map fun x => { x with overrun := s.overran p x, gateFrom := ns } } := by
  unfold State.judgeGates
  rw [h.port]
  split
  · next x hx =>
    rw [hx, h.overran hgate hpend]
    exact h.modEport fun e => { e with tx := some { x with overrun := s.overran p x, gateFrom := ns } }
  · next hx =>
    have hsame : ({ e with tx := e.tx.map fun x => { x with overrun := s.overran p x, gateFrom := ns } } : EPort) =
        e := by
      obtain ⟨⟩ := e
      simp only at hx
      rw [hx]
      rfl
    rwa [hsame]

/-! ### What a change of a port's gates leads to (R209, R223) -/

/-- The egress state of port `p` is `e`, its queues are tagged as their eligibility now says, and nothing else of the
device differs. -/
def Regated (p : Nat) (s t : State) (e : EPort) : Prop :=
  t.eport p = e ∧ (∀ c < 16, (t.queue (16 * p + c)).tag = t.tagFor (16 * p + c)) ∧
    (∀ q, t.queue q = { s.queue q with tag := (t.queue q).tag }) ∧ (∀ k, k ≠ p → t.eport k = s.eport k) ∧
    t = { s with eports := t.eports, queues := t.queues }

theorem OnlyEport.regated {p : Nat} {s t u : State} {e : EPort} (h : OnlyEport p s t e) (htags : OnlyTags t u)
    (hset : ∀ c < 16, (u.queue (16 * p + c)).tag = u.tagFor (16 * p + c)) : Regated p s u e := by
  have hports (k : Nat) : u.eport k = t.eport k := by rw [htags.shape]; rfl
  have hqueue (q : Nat) : t.queue q = s.queue q := by rw [h.shape]; rfl
  refine ⟨(hports p).trans h.port, hset, fun q => ?_, fun k hk => (hports k).trans (h.others k hk), ?_⟩
  · rw [htags.queue, hqueue]
  · rw [htags.shape, h.shape]

theorem OnlyEport.tagPort {p : Nat} {s t : State} {e : EPort} (h : OnlyEport p s t e) :
    Regated p s (t.tagPort p) e := by
  obtain ⟨htags, hfor, hset⟩ := t.tags_settled ((List.range 16).map (16 * p + ·))
  refine h.regated htags fun c hc => ?_
  exact (hset _ (List.mem_map_of_mem (List.mem_range.mpr hc))).trans (hfor _).symm

/-! ### Registers with a VALID bit (R10) -/

theorem State.logReg_held {s : State} {a : Nat} (h : rbit (s.reg a) 31 = true) (v : Nat) : s.logReg a v = s :=
  if_pos h

theorem State.logReg_first {s : State} {a : Nat} (h : rbit (s.reg a) 31 = false) (v : Nat) :
    s.logReg a v = s.setReg a (BitVec.ofNat 32 (2147483648 + v)) :=
  if_neg (Bool.not_eq_true _ ▸ h)

/-! ### The commands (R221 to R226) -/

section
variable {s : State} (hu : Up s) {p : Nat}
include hu

theorem gclLoadComplete_idle (h : (s.eport p).loadGate = none) : exec (.gclLoadComplete p) s = .next s := by
  change execGclLoadComplete p s = _
  rw [execGclLoadComplete, gated_up hu, h]

/-- List 0 ends gating. -/
theorem gclLoadComplete_none (h : (s.eport p).loadGate = some 0) : Yields (.gclLoadComplete p) s fun t =>
    Regated p s t { s.eport p with
      loadGate := none, gate := none, pendGate := none, gateEntry := 0
      tx := (s.eport p).tx.map fun x => { x with overrun := s.overran p x, gateFrom := s.nowNs } } := by
  have hx : exec (.gclLoadComplete p) s = .next ((((s.modEport p fun e => { e with loadGate := none }).judgeGates p
      s.nowNs).modEport p fun e => { e with gate := none, pendGate := none, gateEntry := 0 }).tagPort p) := by
    change execGclLoadComplete p s = _
    rw [execGclLoadComplete, gated_up hu, h]
    rfl
  exact ⟨_, hx, ((((OnlyEport.refl p s).modEport _).judgeGates (by rfl) (by rfl) _).modEport _).tagPort⟩

variable {n : Nat} (h : (s.eport p).loadGate = some n) (hn : n ≠ 0)
include h hn

theorem gclLoadComplete_refused (hbad : gclCode s.book.current (4096 * mapSize s.book.map 9) n ≠ 0) :
    exec (.gclLoadComplete p) s = .next ((s.modEport p fun e => { e with loadGate := none }).logReg (A.egrStat (p / 16))
      (p % 16 * 2 ^ 24 + gclCode s.book.current (4096 * mapSize s.book.map 9) n * 2 ^ 16 + n)) := by
  change execGclLoadComplete p s = _
  rw [execGclLoadComplete, gated_up hu, h]
  simp only [if_neg hn, if_pos hbad]

/-- A list that has loaded waits for its start, unless the operational one is the same. -/
theorem gclLoadComplete_loads (hgood : gclCode s.book.current (4096 * mapSize s.book.map 9) n = 0) :
    Yields (.gclLoadComplete p) s fun t => Regated p s t { s.eport p with
      loadGate := none
      pendGate := if (s.eport p).gate.any (fun g => sameGates g (gclRead s.book.current n)) then none
        else some (gclRead s.book.current n, gateStart (gclRead s.book.current n) s.nowNs)
      tx := (s.eport p).tx.map fun x => { x with overrun := s.overran p x, gateFrom := s.nowNs } } := by
  have hx : exec (.gclLoadComplete p) s = .next ((((s.modEport p fun e => { e with loadGate := none }).judgeGates p
      s.nowNs).modEport p fun e => { e with
        pendGate := if (s.eport p).gate.any (fun g => sameGates g (gclRead s.book.current n)) then none
          else some (gclRead s.book.current n, gateStart (gclRead s.book.current n) s.nowNs) }).tagPort p) := by
    change execGclLoadComplete p s = _
    rw [execGclLoadComplete, gated_up hu, h]
    simp only [if_neg hn, hgood, ne_eq, not_true_eq_false, if_false]
    cases (s.eport p).gate <;> rfl
  exact ⟨_, hx, ((((OnlyEport.refl p s).modEport _).judgeGates (by rfl) (by rfl) _).modEport _).tagPort⟩

end

section
variable {s : State} (hu : Up s) {p : Nat}
include hu

theorem gclStart_idle (h : (s.eport p).pendGate = none) : exec (.gclStart p) s = .next s := by
  change execGclStart p s = _
  rw [execGclStart, gated_up hu, h]

section
variable {g : GateList} {st : Nat} (h : (s.eport p).pendGate = some (g, st))
include h

theorem gclStart_early (hst : s.nowNs < st) : exec (.gclStart p) s = .next s := by
  change execGclStart p s = _
  rw [execGclStart, gated_up hu, h]
  exact congrArg _ (if_neg (Nat.not_le.mpr hst))

/-- At its start the pending list is the operational one. -/
theorem gclStart_starts (hst : st ≤ s.nowNs) : Yields (.gclStart p) s fun t => Regated p s t { s.eport p with
    gate := some g, pendGate := none, gateEntry := g.entryAt s.nowNs
    tx := (s.eport p).tx.map fun x => { x with overrun := s.overran p x, gateFrom := s.nowNs } } := by
  have hx : exec (.gclStart p) s = .next (((s.judgeGates p s.nowNs).modEport p fun e => { e with
      gate := some g, pendGate := none, gateEntry := g.entryAt s.nowNs }).tagPort p) := by
    change execGclStart p s = _
    rw [execGclStart, gated_up hu, h]
    exact congrArg _ (if_pos hst)
  exact ⟨_, hx, (((OnlyEport.refl p s).judgeGates rfl rfl _).modEport _).tagPort⟩

end

theorem gateEntryChange_idle (h : (s.eport p).gate = none) : exec (.gateEntryChange p) s = .next s := by
  change execGateEntryChange p s = _
  rw [execGateEntryChange, gated_up hu, h]

theorem gateEntryChange_enters {g : GateList} (h : (s.eport p).gate = some g) :
    Yields (.gateEntryChange p) s fun t => Regated p s t { s.eport p with gateEntry := g.entryAt s.nowNs } := by
  have hx : exec (.gateEntryChange p) s =
      .next ((s.modEport p fun e => { e with gateEntry := g.entryAt s.nowNs }).tagPort p) := by
    change execGateEntryChange p s = _
    rw [execGateEntryChange, gated_up hu, h]
  exact ⟨_, hx, ((OnlyEport.refl p s).modEport _).tagPort⟩

end

end Sys2Proof.Machine
end

section
/-!
SUPPORT. The cells, the frames and the events that a frame of the services complex leads to take no postcard from a
square (R175, R389).
-/

namespace Sys2Proof.Machine

/-! ### The basic updates -/

/-- The postcards that each square holds. -/
def State.cards (s : State) (i : Nat) : List Postcard := (s.sq i).postcards

theorem cards_of_sqs {s t : State} (h : t.sqs = s.sqs) : t.cards = s.cards := by
  funext i
  rw [State.cards, State.sq, h, ← State.sq, ← State.cards]

@[simp] theorem State.modSq_cards (s : State) (i : Nat) {f : Sq → Sq} (hf : ∀ q, (f q).postcards = q.postcards) :
    (s.modSq i f).cards = s.cards := by
  funext k
  rw [State.cards, State.sq_modSq]
  split
  · next hk => rw [hf, hk, State.cards]
  · rfl

theorem foldl_cards {α : Type} {f : State → α → State} (h : ∀ s a, (f s a).cards = s.cards) (l : List α) (s : State) :
    (l.foldl f s).cards = s.cards :=
  List.foldlRecOn l f (motive := fun t : State => t.cards = s.cards) rfl fun t ht a _ => (h t a).trans ht

@[simp] theorem State.modQueue_cards (s : State) (q : Nat) (f : Queue → Queue) : (s.modQueue q f).cards = s.cards := rfl
@[simp] theorem State.modEport_cards (s : State) (p : Nat) (f : EPort → EPort) : (s.modEport p f).cards = s.cards := rfl
@[simp] theorem State.modRing_cards (s : State) (n : Nat) (f : Ring → Ring) : (s.modRing n f).cards = s.cards := rfl

/-! ### Counters, events and the fault unit -/

@[simp] theorem State.count_cards (s : State) (o n : Nat) : (s.count o n).cards = s.cards :=
  cards_of_sqs (PostFrame.count s o n).sqs

@[simp] theorem State.countPort_cards (s : State) (p w n : Nat) : (s.countPort p w n).cards = s.cards := by
  simp only [State.countPort, apply_ite State.cards, State.count_cards, ite_self]

@[simp] theorem State.portIn_cards (s : State) (p n : Nat) : (s.portIn p n).cards = s.cards := by
  rw [State.portIn, State.countPort_cards, State.countPort_cards]

@[simp] theorem State.logReg_cards (s : State) (a v : Nat) : (s.logReg a v).cards = s.cards := by
  unfold State.logReg
  split <;> rfl

/-- A fenced square keeps its postcards. -/
theorem Fences.cards {s t : State} (h : Fences s t) : t.cards = s.cards := by
  funext i
  rw [State.cards, (h i).1, State.cards]

@[simp] theorem State.sqFault_cards (s : State) (i j : Nat) : (s.sqFault i j).cards = s.cards :=
  (Fences.sqFault s i j).cards

@[simp] theorem State.noteCrc_cards (s : State) (i : Nat) (bad : Bool) : (s.noteCrc i bad).cards = s.cards := by
  unfold State.noteCrc
  split <;> simp

/-! ### Cells and the frames of a queue (R157, R176, R193) -/

@[simp] theorem State.badFree_cards (s : State) (i k r owner : Nat) (foreign : Bool) :
    (s.badFree i k r owner foreign).cards = s.cards := by
  simp [State.badFree]

@[simp] theorem State.freeCell_cards (s : State) (i k r : Nat) : (s.freeCell i k r).cards = s.cards := by
  unfold State.freeCell
  repeat' split
  all_goals simp

@[simp] theorem State.freeByHeader_cards (s : State) (i k : Nat) : (s.freeByHeader i k).cards = s.cards := by
  unfold State.freeByHeader
  split <;> simp

@[simp] theorem State.dropRef_cards (s : State) (e : Nat) (r : CellRef) : (s.dropRef e r).cards = s.cards := by
  unfold State.dropRef
  repeat' split
  all_goals simp

@[simp] theorem State.tagQueue_cards (s : State) (q : Nat) : (s.tagQueue q).cards = s.cards := by
  unfold State.tagQueue State.setTag
  split <;> rfl

@[simp] theorem State.removeFrames_cards (s : State) (q : Nat) (gone : QFrame → Bool) :
    (s.removeFrames q gone).cards = s.cards := by
  simp [State.removeFrames, foldl_cards]

@[simp] theorem State.chargeQueue_cards (s : State) (q n : Nat) : (s.chargeQueue q n).cards = s.cards := by
  unfold State.chargeQueue
  dsimp only
  repeat' split
  all_goals rfl

@[simp] theorem State.ringReturn_cards (s : State) (n : Nat) (bs : List Byte) (word : Nat) :
    (s.ringReturn n bs word).cards = s.cards := cards_of_sqs (PostFrame.of_return (.ringReturn n s bs word)).sqs

@[simp] theorem State.flushTx_cards (s : State) (n : Nat) : (s.flushTx n).cards = s.cards := by
  refine foldl_cards (fun s _ => ?_) _ s
  unfold State.flushTxOne
  split
  · exact foldl_cards (fun s d => s.ringReturn_cards _ _ _) _ _
  · rfl

@[simp] theorem State.reportTx_cards (s : State) (h : FrameHdr) (status stamp : Nat) :
    (s.reportTx h status stamp).cards = s.cards := by
  have hlost (s : State) (fid : Nat) : (s.bcLost fid).cards = s.cards := by
    unfold State.bcLost
    split <;> rfl
  unfold State.reportTx
  dsimp only
  split <;> simp [apply_ite State.cards, hlost]

@[simp] theorem State.judgeFrame_cards (s : State) (q fid : Nat) : (s.judgeFrame q fid).cards = s.cards := by
  unfold State.judgeFrame State.stompTx
  repeat' split
  all_goals simp

/-! ### The pull buffer (R142, R153) -/

@[simp] theorem State.takePos_cards (s : State) (e port : Nat) (fids : List Nat) (r : CellRef) (skip : Bool) :
    (s.takePos e port fids r skip).cards = s.cards := by
  simp only [State.takePos, apply_ite State.cards, State.modSq_cards, implies_true, ite_self]

@[simp] theorem State.takeAll_cards (s : State) (e : Nat) : (s.takeAll e).cards = s.cards := by
  refine foldl_cards (fun s p => foldl_cards (fun s f => ?_) _ s) _ s
  unfold State.takeFrame'
  split
  · rfl
  · exact foldl_cards (fun s r => s.takePos_cards _ _ _ _ _) _ s

@[simp] theorem State.takeDiscards_cards (s : State) (e : Nat) : (s.takeDiscards e).cards = s.cards := by
  simp [State.takeDiscards, foldl_cards]

@[simp] theorem State.markLate_cards (s : State) (q : Nat) (fids : List Nat) : (s.markLate q fids).cards = s.cards :=
  foldl_cards (fun _ _ => State.modEport_cards _ _ _) _ s

@[simp] theorem State.readPos_cards (s : State) (e : Nat) (p : PullPos) (c : Cell) :
    (s.readPos e p c).1.cards = s.cards := by
  unfold State.readPos State.readCell
  dsimp only
  split <;> simp

@[simp] theorem State.passHead_cards (s : State) (e : Nat) : (s.passHead e).cards = s.cards := by
  unfold State.passHead
  dsimp only
  repeat' split
  all_goals simp [foldl_cards]

theorem passCells_cards (e n : Nat) (s : State) : (passCells e n s).cards = s.cards := by
  induction n generalizing s with
  | zero => rfl
  | succ n ih =>
    unfold Machine.passCells
    split
    · rfl
    · split
      · rw [ih, State.passHead_cards]
      · rfl

@[simp] theorem State.moveCells_cards (s : State) (e : Nat) : (s.moveCells e).cards = s.cards := by
  simp [State.moveCells, passCells_cards]

/-! ### The resequencer (R154 to R157) -/

@[simp] theorem State.linkSeg_cards (s : State) (q : Nat) (c : Cell) (r : CellRef) (g : Seg) :
    (s.linkSeg q c r g).cards = s.cards := by
  unfold State.linkSeg State.creditShapers
  dsimp only
  repeat' split
  all_goals simp

@[simp] theorem State.linkCell_cards (s : State) (e : Nat) (c : Ctx) (r : CellRef) :
    (s.linkCell e c r).1.cards = s.cards := by
  have hdepth (s : State) (q : Nat) : (s.noteDepth e q).cards = s.cards := by
    unfold State.noteDepth
    split <;> rfl
  unfold State.linkCell
  dsimp only
  split
  · rfl
  · simp [apply_ite State.cards, foldl_cards, hdepth]

@[simp] theorem State.setCtxOut_cards (s : State) (e k : Nat) (x : CtxOut) : (s.setCtxOut e k x).cards = s.cards :=
  s.modSq_cards e fun _ => rfl

@[simp] theorem State.gapFrame_cards (s : State) (q : Nat) (run : Option Nat) : (s.gapFrame q run).cards = s.cards := by
  unfold State.gapFrame
  split <;> simp

@[simp] theorem State.linkNext_cards (s : State) (e k : Nat) (c : Ctx) (r : CellRef) :
    (s.linkNext e k c r).cards = s.cards := by
  unfold State.linkNext
  dsimp only
  split <;> simp

@[simp] theorem State.drainAll_cards (s : State) (e k : Nat) (c : Ctx) : (s.drainAll e k c).cards = s.cards := by
  unfold State.drainAll
  generalize (s.ctxOut e k).parked.length + 1 = n
  induction n generalizing s with
  | zero => rfl
  | succ n ih =>
    unfold State.drainParked
    dsimp only
    split
    · rfl
    · rw [ih, State.linkNext_cards, State.setCtxOut_cards]

@[simp] theorem State.declareGap_cards (s : State) (e k : Nat) (c : Ctx) (w : Nat) :
    (s.declareGap e k c w).cards = s.cards := by
  unfold State.declareGap
  dsimp only
  split <;> simp

@[simp] theorem State.park_cards (s : State) (e k seq slot : Nat) (r : CellRef) :
    (s.park e k seq slot r).cards = s.cards := by
  simp [State.park]

@[simp] theorem State.entry_cards (s : State) (e isq : Nat) (c : Ctx) (seq slot : Nat) (r : CellRef) :
    (s.entry e isq c seq slot r).cards = s.cards := by
  unfold State.entry
  dsimp only
  repeat' split
  all_goals simp

/-! ### Frames that are admitted and stored (R148, R173, R185 to R192) -/

@[simp] theorem State.setCtxIn_cards (s : State) (i : Nat) (c : Ctx) (x : CtxIn) : (s.setCtxIn i c x).cards = s.cards :=
  s.modSq_cards i fun _ => rfl

@[simp] theorem State.alloc_cards (s : State) (i r : Nat) (c : Cell) : (s.alloc i r c).1.cards = s.cards := by
  unfold State.alloc
  split <;> simp

@[simp] theorem State.numberCell_cards (s : State) (i k : Nat) (c : Ctx) (held kept : Bool) :
    (s.numberCell i k c held kept).cards = s.cards := by
  have hsettle (s : State) : (s.settleCell i k).cards = s.cards := by
    unfold State.settleCell
    repeat' split
    all_goals simp
  unfold State.numberCell
  dsimp only
  split <;> simp [hsettle]

@[simp] theorem State.storePiece_cards (s : State) (i typ owner : Nat) (c : Ctx) (held : Bool) (epoch : Nat)
    (p : Piece) : (s.storePiece i typ owner c held epoch p).cards = s.cards := by
  have halloc := s.alloc_cards i owner ({ typ := typ, isq := i, ctx := c, epoch := epoch, segs := p.segs
                                          bad := p.segs.any (fun g => g.badEnd), st := .deferred } : Cell).sealed
  unfold State.storePiece
  dsimp only
  split
  · next hs => rwa [hs] at halloc
  · next hs =>
    rw [hs] at halloc
    refine (State.modSq_cards _ i (by intro; rfl)).trans ?_
    split
    · exact (State.numberCell_cards _ _ _ _ _ _).trans halloc
    · exact (State.setCtxIn_cards _ _ _ _).trans halloc

@[simp] theorem State.storeGroup_cards (s : State) (i typ owner : Nat) (g : Group) :
    (s.storeGroup i typ owner g).cards = s.cards :=
  (foldl_cards (fun s _ => s.storePiece_cards _ _ _ _ _ _ _) _ _).trans
    ((State.count_cards _ _ _).trans (s.setCtxIn_cards i _ _))

@[simp] theorem State.storeWhole_cards (s : State) (i typ owner : Nat) (v : Verdict) (bs : List Byte) :
    (s.storeWhole i typ owner v bs).cards = s.cards := by
  unfold State.storeWhole
  dsimp only
  cases v.main <;> cases v.copy <;> simp

@[simp] theorem State.takeIn_cards (s : State) (i lane typ owner : Nat) (h : FrameHdr) (c : Ctx) :
    (s.takeIn i lane typ owner h c).1.cards = s.cards := by
  have haccept (s : State) (q need : Nat) : (s.accept i h q need).cards = s.cards := by simp [State.accept]
  have hhold (s : State) (q need : Nat) : (s.holdFrame i typ h q need).1.cards = s.cards := by
    unfold State.holdFrame
    dsimp only
    split <;> simp [haccept]
  unfold State.takeIn
  dsimp only
  repeat' split
  all_goals simp [haccept, hhold]

@[simp] theorem State.injectTo_cards (s : State) (i typ owner : Nat) (c : Ctx) (h : FrameHdr) (bs : List Byte) :
    (s.injectTo i typ owner c h bs).1.cards = s.cards := by
  unfold State.injectTo
  dsimp only
  repeat' split
  all_goals simp

@[simp] theorem State.flushRedOut_cards (s : State) : s.flushRedOut.cards = s.cards := by
  unfold State.flushRedOut
  split
  · rfl
  · dsimp only
    split
    · exact State.injectTo_cards s _ _ _ _ _ _
    · exact (State.portIn_cards _ _ _).trans (State.injectTo_cards s _ _ _ _ _ _)

theorem State.injectBuilt_cards (s : State) (c : Ctx) (h : FrameHdr) (bs : List Byte) :
    (s.injectBuilt c h bs).cards = s.cards := State.flushRedOut_cards _

end Sys2Proof.Machine
end

section
/-!
SUPPORT. Depth samples, bandwidth windows and collector frames: what the end of a period leaves of each queue, each port
and each square (R227, R382, R389).
-/

namespace Sys2Proof.Machine

/-! ### Operations that act on one place after another -/

/-- What stands at `k` after an operation at each place of a list: what one operation makes of it, where the list names
`k`. A place that is named twice takes no harm where a second operation changes nothing. -/
theorem foldl_place {β : Type} {f : State → Nat → State} {v : State → Nat → β} {g : β → β}
    (hf : ∀ s p k, v (f s p) k = if k = p then g (v s k) else v s k) {l : List Nat}
    (hl : l.Nodup ∨ ∀ x, g (g x) = g x) (s : State) (k : Nat) :
    v (l.foldl f s) k = if k ∈ l then g (v s k) else v s k := by
  induction l generalizing s with
  | nil => rfl
  | cons p l ih =>
    refine (ih (hl.imp_left fun h => (List.nodup_cons.mp h).2) (f s p)).trans ?_
    rw [hf]
    by_cases hk : k = p
    · subst hk
      simp only [if_true, List.mem_cons, true_or]
      rcases hl with hl | hl
      · rw [if_neg (List.nodup_cons.mp hl).1]
      · rw [hl, ite_self]
    · rw [if_neg hk]
      simp only [List.mem_cons, hk, false_or]

theorem State.inForce_latch_one (s : State) (a : Nat) : (s.latch [a]).inForce a = s.reg a :=
  State.inForce_latch (List.mem_singleton_self a)

theorem State.sq_latch (s : State) (as : List Nat) (k : Nat) : (s.latch as).sq k = s.sq k := rfl

/-! ### Depth samples (R227) -/

/-- A queue with its depth recorded. -/
def Queue.sampled (q : Queue) : Queue := { q with depthNow := q.depth }

theorem Queue.sampled_sampled (q : Queue) : q.sampled.sampled = q.sampled := rfl

theorem State.queue_sampled (s : State) (p k : Nat) :
    (s.modQueue p Queue.sampled).queue k = if k = p then (s.queue k).sampled else s.queue k := by
  rw [State.queue_modQueue]
  split
  · next hk => rw [hk]
  · rfl

theorem SMap.get_unlisted {α : Type} (d : Nat → α) {m : SMap α} {k : Nat} (h : k ∉ m.map (fun e => e.1)) :
    SMap.get d m k = d k := by
  induction m with
  | nil => rfl
  | cons e m ih =>
    obtain ⟨hne, hm⟩ := not_or.mp (mt List.mem_cons.mpr h)
    exact (if_neg hne).trans (ih hm)

/-- An empty queue that no entry lists has the depth it had. -/
theorem State.sampled_unlisted {s : State} {q : Nat} (h : q ∉ s.queues.map (fun e => e.1)) :
    (s.queue q).sampled = s.queue q := by
  rw [State.queue, SMap.get_unlisted _ h]
  rfl

/-- A square that visits its queues records the depth of each one that it holds. -/
theorem State.queue_visited (s : State) (i q : Nat) :
    ((s.heldQueues i).foldl (fun s q => s.modQueue q Queue.sampled) s).queue q =
      if s.queueSquare (q / 16) == i then (s.queue q).sampled else s.queue q := by
  refine (foldl_place State.queue_sampled (.inr Queue.sampled_sampled) s q).trans ?_
  simp only [State.heldQueues, List.mem_filter]
  by_cases hlisted : q ∈ s.queues.map (fun e => e.1)
  · simp only [hlisted, true_and]
  · rw [s.sampled_unlisted hlisted]
    simp only [ite_self]

theorem State.visit_shape (s : State) (qs : List Nat) :
    ∃ x, qs.foldl (fun s q => s.modQueue q Queue.sampled) s = { s with queues := x } := by
  refine List.foldlRecOn qs _ (motive := fun t : State => ∃ x, t = { s with queues := x }) ⟨s.queues, rfl⟩ ?_
  rintro _ ⟨x, rfl⟩ q -
  exact ⟨_, rfl⟩

/-- Square `i` at the end of its period: the register takes effect and the next period starts. -/
def State.qsampLatched (s : State) (i : Nat) : State :=
  (s.modSq i fun q => { q with qsampAt := s.elapsed }).latch [A.qsampCfg i]

theorem State.qsampLatched_inForce (s : State) (i : Nat) :
    (s.qsampLatched i).inForce (A.qsampCfg i) = s.reg (A.qsampCfg i) := State.inForce_latch_one _ _

theorem State.qsampLatched_sq (s : State) (i k : Nat) :
    (s.qsampLatched i).sq k = if k = i then { s.sq i with qsampAt := s.elapsed } else s.sq k := by
  rw [State.qsampLatched, State.sq_latch, State.sq_modSq]

theorem State.qsampLatched_shape (s : State) (i : Nat) :
    ∃ f m, s.qsampLatched i = { s with force := f, sqs := m } := ⟨_, _, rfl⟩

theorem State.qsampLatched_sqActive (s : State) (i : Nat) : (s.qsampLatched i).sqActive i = s.sqActive i := by
  obtain ⟨f, m, h⟩ := s.qsampLatched_shape i
  rw [h]
  rfl

section
variable {s : State} (hu : Up s) {i : Nat}
include hu

theorem qsampPeriod_early (h : s.elapsed < (s.sq i).qsampAt + s.qsampPeriod i) :
    exec (.qsampPeriod i) s = .next s := by
  change execQsampPeriod i s = _
  rw [execQsampPeriod, gated_up hu]
  exact congrArg _ (if_pos h)

theorem qsampPeriod_due (h : (s.sq i).qsampAt + s.qsampPeriod i ≤ s.elapsed) : exec (.qsampPeriod i) s = .next (
    if rbit (s.reg (A.qsampCfg i)) 16 && s.sqActive i then
      ((s.qsampLatched i).heldQueues i).foldl (fun s q => s.modQueue q Queue.sampled) (s.qsampLatched i)
    else s.qsampLatched i) := by
  have hon : (s.qsampLatched i).qsampOn i = rbit (s.reg (A.qsampCfg i)) 16 :=
    congrArg (rbit · 16) (s.qsampLatched_inForce i)
  change execQsampPeriod i s = _
  rw [execQsampPeriod, gated_up hu, ← hon, ← s.qsampLatched_sqActive i]
  simp only [if_neg (Nat.not_lt.mpr h)]
  rfl

theorem qsampPeriod_samples (h : (s.sq i).qsampAt + s.qsampPeriod i ≤ s.elapsed) :
    Yields (.qsampPeriod i) s fun t =>
      t.inForce (A.qsampCfg i) = s.reg (A.qsampCfg i) ∧ t.sq i = { s.sq i with qsampAt := s.elapsed } ∧
      (∀ q, t.queue q =
        if rbit (s.reg (A.qsampCfg i)) 16 && s.sqActive i && s.queueSquare (q / 16) == i
        then { s.queue q with depthNow := (s.queue q).depth } else s.queue q) ∧
      (∀ k, k ≠ i → t.sq k = s.sq k) ∧ t = { s with force := t.force, queues := t.queues, sqs := t.sqs } := by
  have hdue := qsampPeriod_due hu h
  have hforce := s.qsampLatched_inForce i
  have hself : (s.qsampLatched i).sq i = { s.sq i with qsampAt := s.elapsed } := by
    rw [s.qsampLatched_sq, if_pos rfl]
  have hothers (k : Nat) (hk : k ≠ i) : (s.qsampLatched i).sq k = s.sq k := by rw [s.qsampLatched_sq, if_neg hk]
  obtain ⟨f, m, hshape⟩ := s.qsampLatched_shape i
  rw [hshape] at hdue hforce hself
  simp only [hshape] at hothers
  refine ⟨_, hdue, ?_⟩
  cases rbit (s.reg (A.qsampCfg i)) 16 && s.sqActive i with
  | false => exact ⟨hforce, hself, fun _ => rfl, hothers, rfl⟩
  | true =>
    have hqueue := State.queue_visited { s with force := f, sqs := m } i
    obtain ⟨x, hx⟩ := State.visit_shape { s with force := f, sqs := m }
      (State.heldQueues { s with force := f, sqs := m } i)
    rw [if_pos rfl]
    rw [hx] at hqueue ⊢
    exact ⟨hforce, hself, hqueue, hothers, rfl⟩

end

/-! ### Bandwidth windows (R382) -/

/-- What the bandwidth windows of a port show: its counts so far, and the words that hold those of the last window, the
highest ones, and the time of the last window's end. -/
structure BwView where
  port : EPort
  rx : Nat
  tx : Nat
  rxMax : Nat
  txMax : Nat
  fin : Nat

def State.bwView (s : State) (k : Nat) : BwView where
  port := s.eport k
  rx := s.counter (portCtr k 56)
  tx := s.counter (portCtr k 57)
  rxMax := s.counter (portCtr k 58)
  txMax := s.counter (portCtr k 59)
  fin := s.counter (portCtr k 60)

/-- A window that ends at device time `fin`. -/
def BwView.ended (fin : Nat) (v : BwView) : BwView where
  port := { v.port with bwRx := 0, bwTx := 0 }
  rx := v.port.bwRx
  tx := v.port.bwTx
  rxMax := max v.rxMax v.port.bwRx
  txMax := max v.txMax v.port.bwTx
  fin := fin

theorem portCtr_eq_iff {p k w v : Nat} (hw : w < 64) (hv : v < 64) : portCtr k w = portCtr p v ↔ k = p ∧ w = v := by
  unfold portCtr
  omega

theorem State.counter_modEport (s : State) (p : Nat) (f : EPort → EPort) (o : Nat) :
    (s.modEport p f).counter o = s.counter o := rfl

theorem State.eport_setCounter (s : State) (o v k : Nat) : (s.setCounter o v).eport k = s.eport k := rfl

theorem State.bwView_bwPort (fin : Nat) (s : State) (p k : Nat) :
    (s.bwPort p fin).bwView k = if k = p then (s.bwView k).ended fin else s.bwView k := by
  by_cases hk : k = p
  · subst hk
    simp [State.bwView, State.bwPort, BwView.ended, State.counter_modEport, State.counter_setCounter,
      State.eport_modEport, State.eport_setCounter, portCtr_eq_iff]
  · simp [hk, State.bwView, State.bwPort, State.counter_modEport, State.counter_setCounter, State.eport_modEport,
      State.eport_setCounter, portCtr_eq_iff]

theorem State.bwPort_shape (s : State) (p fin : Nat) :
    ∃ c e, s.bwPort p fin = { s with cnt := c, eports := e } := by
  simp only [State.bwPort, State.setCounter, State.modEport]
  exact ⟨_, _, rfl⟩

theorem State.bwPorts_shape (s : State) (fin : Nat) (ps : List Nat) :
    ∃ c e, ps.foldl (fun s p => s.bwPort p fin) s = { s with cnt := c, eports := e } := by
  refine List.foldlRecOn ps _ (motive := fun t : State => ∃ c e, t = { s with cnt := c, eports := e })
    ⟨s.cnt, s.eports, rfl⟩ ?_
  rintro _ ⟨c, e, rfl⟩ p -
  exact State.bwPort_shape _ p fin

/-- Every front-panel port ends its window, and the next one runs under the register as it stands. -/
theorem State.bwWindow_ends (s : State) (fin now : Nat) :
    (∀ k < 1024, s.portExists k = true → (s.bwWindow fin now).bwView k = (s.bwView k).ended fin) ∧
    (s.bwWindow fin now).inForce A.cntBwCfg = s.reg A.cntBwCfg ∧
    s.bwWindow fin now = { s with
      cnt := (s.bwWindow fin now).cnt, eports := (s.bwWindow fin now).eports, force := (s.bwWindow fin now).force
      time := { s.time with bwWin := now / (1000 * clip 1 1000000 (fld (s.reg A.cntBwCfg) 19 0)) } } := by
  have hports := foldl_place (State.bwView_bwPort fin) (l := (List.range 1024).filter s.portExists)
    (.inl (List.nodup_range.filter _)) s
  obtain ⟨c, e, hshape⟩ := s.bwPorts_shape fin ((List.range 1024).filter s.portExists)
  rw [hshape] at hports
  have hforce : (({ s with cnt := c, eports := e } : State).latch [A.cntBwCfg]).inForce A.cntBwCfg =
      s.reg A.cntBwCfg := State.inForce_latch_one _ _
  unfold State.bwWindow
  simp only [hshape, State.bwLen, hforce]
  exact ⟨fun k hk hexists => (hports k).trans
    (if_pos (List.mem_filter.mpr ⟨List.mem_range.mpr hk, hexists⟩)), hforce, rfl⟩

section
variable {s : State} (hu : Up s)
include hu

theorem bwWindowEnd_early (h : s.time.bwWin = s.nowNs / s.bwLen) : exec .bwWindowEnd s = .next s := by
  change execBwWindowEnd s = _
  rw [execBwWindowEnd, gated_up hu]
  exact congrArg _ (if_pos h)

theorem bwWindowEnd_ends (h : s.time.bwWin ≠ s.nowNs / s.bwLen) : Yields .bwWindowEnd s fun t =>
    (∀ k < 1024, s.portExists k = true →
      t.counter (portCtr k 56) = (s.eport k).bwRx ∧ t.counter (portCtr k 57) = (s.eport k).bwTx ∧
      t.counter (portCtr k 58) = max (s.counter (portCtr k 58)) (s.eport k).bwRx ∧
      t.counter (portCtr k 59) = max (s.counter (portCtr k 59)) (s.eport k).bwTx ∧
      t.counter (portCtr k 60) = s.nowNs / s.bwLen * s.bwLen ∧
      t.eport k = { s.eport k with bwRx := 0, bwTx := 0 }) ∧
    t.inForce A.cntBwCfg = s.reg A.cntBwCfg ∧
    t = { s with
      cnt := t.cnt, eports := t.eports, force := t.force
      time := { s.time with bwWin := s.nowNs / (1000 * clip 1 1000000 (fld (s.reg A.cntBwCfg) 19 0)) } } := by
  have hx : exec .bwWindowEnd s = .next (s.bwWindow (s.nowNs / s.bwLen * s.bwLen) s.nowNs) := by
    change execBwWindowEnd s = _
    rw [execBwWindowEnd, gated_up hu]
    exact congrArg _ (if_neg h)
  obtain ⟨hports, hforce, hshape⟩ := s.bwWindow_ends (s.nowNs / s.bwLen * s.bwLen) s.nowNs
  refine ⟨_, hx, fun k hk hexists => ?_, hforce, hshape⟩
  have hview := hports k hk hexists
  simp only [State.bwView, BwView.ended, BwView.mk.injEq] at hview
  obtain ⟨hport, hrx, htx, hrxMax, htxMax, hfin⟩ := hview
  exact ⟨hrx, htx, hrxMax, htxMax, hfin, hport⟩

end

/-! ### Collector frames (R389) -/

/-- The first 8 postcards of a square leave it, with a frame that takes the next name or counted as lost. -/
theorem State.closePostcards_leaves {s : State} {i : Nat} {x : Postcard} {xs : List Postcard}
    (h : (s.sq i).postcards = x :: xs) : ((s.closePostcards i).sq i).postcards = xs.drop 7 ∧
      ((s.closePostcards i).nextFid = s.nextFid ∨ (s.closePostcards i).nextFid = s.nextFid + 1) := by
  have hleft : (s.modSq i fun q => { q with postcards := q.postcards.drop 8 }).cards i = xs.drop 7 := by
    rw [State.cards, State.sq_modSq, if_pos rfl, h]
    rfl
  have hsome : ¬ (s.sq i).postcards.take 8 = [] := by simp [h]
  unfold State.closePostcards
  simp only [if_neg hsome]
  split
  · exact ⟨(congrFun (State.count_cards _ _ _) i).trans hleft, .inl (nextFid_of_wires (State.count_wires _ _ _))⟩
  · exact ⟨(congrFun (State.injectBuilt_cards _ _ _ _) i).trans hleft,
      .inr (nextFid_of_wires (State.injectBuilt_wires _ _ _ _))⟩

section
variable {s : State} (hu : Up s) {i : Nat}
include hu

theorem postcardFrameClose_none (h : (s.sq i).postcards = []) : exec (.postcardFrameClose i) s = .next s := by
  change execPostcardFrameClose i s = _
  rw [execPostcardFrameClose, gated_up hu, h]

variable {x : Postcard} {xs : List Postcard} (h : (s.sq i).postcards = x :: xs)
include h

theorem postcardFrameClose_early (hat : s.elapsed < x.at_ + usT 10) : exec (.postcardFrameClose i) s = .next s := by
  change execPostcardFrameClose i s = _
  rw [execPostcardFrameClose, gated_up hu, h]
  exact congrArg _ (if_neg (Nat.not_le.mpr hat))

theorem postcardFrameClose_closes (hat : x.at_ + usT 10 ≤ s.elapsed) : Yields (.postcardFrameClose i) s fun t =>
    (t.sq i).postcards = xs.drop 7 ∧ (t.nextFid = s.nextFid ∨ t.nextFid = s.nextFid + 1) := by
  refine ⟨s.closePostcards i, ?_, State.closePostcards_leaves h⟩
  change execPostcardFrameClose i s = _
  rw [execPostcardFrameClose, gated_up hu, h]
  exact congrArg _ (if_pos hat)

end

end Sys2Proof.Machine
end

section
/-! PROOFS. Gate lists, depth samples, bandwidth windows and collector frames (R209, R221 to R227, R382, R389). -/

namespace Sys2Proof.Machine

/-! ### A list that is turned away (R225) -/

/-- Code 0 is that of a list whose header passes every check. -/
theorem gclCode_ne_zero {w : BookView} {size n base cycle count off : Nat}
    (hdr : gclHeader w n = (base, cycle, count, off))
    (hbad : count = 0 ∨ 256 < count ∨ cycle < 1000 ∨ off % 8 ≠ 0 ∨ size < off + 8 * count) :
    gclCode w size n ≠ 0 := by
  unfold gclCode
  simp only [hdr]
  split
  · decide
  · split
    · decide
    · split
      · decide
      · rw [if_pos (by omega)]
        decide

theorem gclCode_le (w : BookView) (size n : Nat) : gclCode w size n ≤ 4 := by
  unfold gclCode
  dsimp only
  repeat' split
  all_goals decide

/-- The fields of a record of list `n`, which code `k` turns away at port `p` (R229). -/
theorem egrStat_fields {p k n : Nat} (hk : k ≤ 4) (hn : n < 1024) {r : Reg}
    (hr : r = BitVec.ofNat 32 (2147483648 + (p % 16 * 2 ^ 24 + k * 2 ^ 16 + n))) :
    rbit r 31 = true ∧ fld r 27 24 = p % 16 ∧ fld r 15 0 = n := by
  have hv : r.toNat = 2147483648 + (p % 16 * 2 ^ 24 + k * 2 ^ 16 + n) := by
    rw [hr, BitVec.toNat_ofNat, Nat.mod_eq_of_lt (by omega)]
  unfold rbit fld bit bits
  rw [hv, beq_iff_eq]
  omega

/-- A record in a register with a VALID bit leaves the port as it is. -/
theorem OnlyEport.logReg {p : Nat} {s t : State} {e : EPort} (h : OnlyEport p s t e) (a v : Nat) :
    (t.logReg a v).eport p = e ∧
      t.logReg a v = { s with eports := (t.logReg a v).eports, regs := (t.logReg a v).regs } := by
  have hlog : (t.logReg a v).eport p = t.eport p ∧ t.logReg a v = { t with regs := (t.logReg a v).regs } := by
    unfold State.logReg
    split <;> exact ⟨rfl, rfl⟩
  obtain ⟨hport, hshape⟩ := hlog
  generalize t.logReg a v = u at hport hshape ⊢
  exact ⟨hport.trans h.port, by rw [hshape, h.shape]⟩

/-- Settles O50: the list's code is not 0, and the port loads nothing; an EGR_STAT that holds no record takes one. -/
theorem badGateListIsRefused : Obligations.BadGateListIsRefused := by
  intro p n base cycle count off s hu hload hn hlt hdr hbad
  have hcode := gclCode_ne_zero (size := 4096 * mapSize s.book.map 9) hdr hbad
  have hle := gclCode_le s.book.current (4096 * mapSize s.book.map 9) n
  have hexec := gclLoadComplete_refused hu hload hn hcode
  generalize gclCode s.book.current (4096 * mapSize s.book.map 9) n = k at hle hexec
  have honly := (OnlyEport.refl p s).modEport fun e => { e with loadGate := none }
  have hregs : (s.modEport p fun e => { e with loadGate := none }).regs = s.regs := rfl
  generalize (s.modEport p fun e => { e with loadGate := none }) = u at hexec honly hregs
  obtain ⟨hport, hshape⟩ := honly.logReg (A.egrStat (p / 16)) (p % 16 * 2 ^ 24 + k * 2 ^ 16 + n)
  have hstat : u.reg (A.egrStat (p / 16)) = s.reg (A.egrStat (p / 16)) := by
    rw [State.reg, hregs, ← State.reg]
  refine ⟨_, hexec, hport, ?_⟩
  cases hvalid : rbit (s.reg (A.egrStat (p / 16))) 31 with
  | true =>
    rw [State.logReg_held (by rw [hstat, hvalid])] at hshape ⊢
    exact ⟨by rw [hstat, hvalid], fun h => absurd h (by decide), fun _ => hregs, hshape⟩
  | false =>
    rw [State.logReg_first (by rw [hstat, hvalid])] at hshape ⊢
    obtain ⟨hbit, hport, hlist⟩ := egrStat_fields hle hlt
      ((State.reg_setReg u (A.egrStat (p / 16)) (A.egrStat (p / 16)) _).trans (if_pos rfl))
    exact ⟨hbit, fun _ => ⟨hport, hlist⟩, fun h => absurd h (by decide), hshape⟩

/-! ### The commands -/

/-- Settles O49: each command where nothing is due, and where a list, an entry, a period or a frame is. -/
theorem gatesAndWindows : Obligations.GatesAndWindows := by
  intro p s hu
  exact ⟨gclLoadComplete_idle hu, gclLoadComplete_none hu,
    fun n hload hn => ⟨gclLoadComplete_refused hu hload hn, gclLoadComplete_loads hu hload hn⟩,
    gclStart_idle hu, fun g st hpend => ⟨gclStart_starts hu hpend, gclStart_early hu hpend⟩,
    fun g hgate => gateEntryChange_enters hu hgate, gateEntryChange_idle hu,
    fun i => ⟨qsampPeriod_early hu, qsampPeriod_samples hu⟩, bwWindowEnd_early hu, bwWindowEnd_ends hu,
    fun i => postcardFrameClose_none hu,
    fun i x xs hcards => ⟨postcardFrameClose_early hu hcards, postcardFrameClose_closes hu hcards⟩⟩

end Sys2Proof.Machine
end

section
/-!
SUPPORT. What no event, no fault, no cell and no discarded frame changes: reduction, the Book, power, links, lanes, pins
and the values in force. Their operations are followed once, up to a frame that the device sends.
-/

namespace Sys2Proof.Machine

/-! ### What those operations leave alone -/

/-- The state without the parts that events, faults, moves of cells and lost frames write. -/
def State.still (s : State) : State := { s with
  regs := [], fns := [], sqs := [], queues := [], eports := [], cnt := []
  tour := {}, host := {}, triad := {}, fault := {}, boot := {}, nv := {}, io := {}
  time := { s.time with bcSync := [] } }

theorem red_of_still {s t : State} (h : t.still = s.still) : t.red = s.red :=
  (congrArg State.red h :)

theorem foldl_still {α : Type} {f : State → α → State} (h : ∀ s a, (f s a).still = s.still) (l : List α) (s : State) :
    (l.foldl f s).still = s.still :=
  List.foldlRecOn l f (motive := fun t : State => t.still = s.still) rfl fun t ht a _ => (h t a).trans ht

@[simp] theorem State.modSq_still (s : State) (i : Nat) (f : Sq → Sq) : (s.modSq i f).still = s.still := rfl
@[simp] theorem State.modQueue_still (s : State) (q : Nat) (f : Queue → Queue) : (s.modQueue q f).still = s.still := rfl
@[simp] theorem State.modEport_still (s : State) (p : Nat) (f : EPort → EPort) : (s.modEport p f).still = s.still := rfl
@[simp] theorem State.modRing_still (s : State) (n : Nat) (f : Ring → Ring) : (s.modRing n f).still = s.still := rfl
@[simp] theorem State.modChn_still (s : State) (c : Nat) (f : Chn → Chn) : (s.modChn c f).still = s.still := rfl
@[simp] theorem State.modSrc_still (s : State) (n : Nat) (f : Src → Src) : (s.modSrc n f).still = s.still := rfl

/-! ### Counters, events and the fault unit (R295, R317, R318) -/

theorem PostFrame.still {s t : State} (h : PostFrame s t) : t.still = s.still := by rw [h]; rfl

@[simp] theorem State.count_still (s : State) (o n : Nat) : (s.count o n).still = s.still :=
  (PostFrame.count s o n).still

@[simp] theorem State.countPort_still (s : State) (p w n : Nat) : (s.countPort p w n).still = s.still := by
  simp only [State.countPort, apply_ite State.still, State.count_still, ite_self]

@[simp] theorem State.post_still (s : State) (type sub src : Nat) (payload : List Byte) :
    (s.post type sub src payload).still = s.still := (PostFrame.postAt s _ _ _ _ _ _).still

@[simp] theorem State.logReg_still (s : State) (a v : Nat) : (s.logReg a v).still = s.still := by
  unfold State.logReg
  split <;> rfl

@[simp] theorem State.latchFirst_still (s : State) (n sev : Nat) : (s.latchFirst n sev).still = s.still := by
  unfold State.latchFirst
  split <;> rfl

@[simp] theorem State.logFault_still (s : State) (r : List Nat) : (s.logFault r).still = s.still := by
  unfold State.logFault
  dsimp only
  generalize (if s.boot.logSec = s.elapsed / secT 1 then s.boot.logCnt else 0) = n
  repeat' split
  · rfl
  · exact (State.post_still _ _ _ _ _).trans rfl
  · rfl

@[simp] theorem State.recordFault_still (s : State) (n detail concerned cause : Nat) (forced : Bool) :
    (s.recordFault n detail concerned cause forced).1.still = s.still := by
  simp only [State.recordFault, apply_ite State.still, State.post_still, State.logFault_still, State.latchFirst_still,
    State.modSrc_still, ite_self]

/-- The Triad's own parts are among those written. -/
theorem State.withTriad_still (s : State) (x : Triad) : ({ s with triad := x } : State).still = s.still := rfl

@[simp] theorem State.loseTriad_still (s : State) : s.loseTriad.still = s.still := by
  simp only [State.loseTriad, apply_ite State.still, State.recordFault_still, State.post_still, State.withTriad_still,
    ite_self]

@[simp] theorem State.failChannel_still (s : State) (c : Nat) : (s.failChannel c).still = s.still := by
  unfold State.failChannel
  dsimp only
  split
  · rfl
  · split <;> simp only [apply_ite State.still, State.loseTriad_still, State.post_still, State.withTriad_still,
      State.modChn_still, ite_self]

@[simp] theorem State.react_still (s : State) (n code : Nat) : (s.react n code).still = s.still := by
  have hjoins (i : Nat) : (s.addToX i n).still = s.still := by
    unfold State.addToX
    split <;> rfl
  have hholds : (s.beginHold .reaction).still = s.still := by
    unfold State.beginHold
    split <;> rfl
  unfold State.react
  repeat' split
  all_goals simp [hjoins, hholds]

@[simp] theorem State.faultEvent_still (s : State) (n detail concerned cause : Nat) (forced : Bool) :
    (s.faultEvent n detail concerned cause forced).still = s.still := by
  simp only [State.faultEvent, apply_ite State.still, State.react_still, State.recordFault_still, ite_self]

/-! ### Cells and the frames of a queue (R157, R176, R193) -/

@[simp] theorem State.badFree_still (s : State) (i k r owner : Nat) (foreign : Bool) :
    (s.badFree i k r owner foreign).still = s.still := by
  simp [State.badFree, State.sqFault]

@[simp] theorem State.freeByHeader_still (s : State) (i k : Nat) : (s.freeByHeader i k).still = s.still := by
  have hfree (r : Nat) : (s.freeCell i k r).still = s.still := by
    unfold State.freeCell
    repeat' split
    all_goals simp
  unfold State.freeByHeader
  split <;> exact hfree _

@[simp] theorem State.dropRef_still (s : State) (e : Nat) (r : CellRef) : (s.dropRef e r).still = s.still := by
  simp only [State.dropRef, apply_ite State.still, State.freeByHeader_still, State.modSq_still, ite_self]

@[simp] theorem State.tagQueue_still (s : State) (q : Nat) : (s.tagQueue q).still = s.still := by
  unfold State.tagQueue State.setTag
  split <;> rfl

@[simp] theorem State.removeFrames_still (s : State) (q : Nat) (gone : QFrame → Bool) :
    (s.removeFrames q gone).still = s.still := by
  simp [State.removeFrames, foldl_still]

@[simp] theorem State.chargeQueue_still (s : State) (q n : Nat) : (s.chargeQueue q n).still = s.still := by
  unfold State.chargeQueue
  dsimp only
  repeat' split
  all_goals rfl

/-! ### Returns of transmit frames (R289) -/

@[simp] theorem State.flushTx_still (s : State) (n : Nat) : (s.flushTx n).still = s.still := by
  refine foldl_still (fun s _ => ?_) _ s
  unfold State.flushTxOne
  split
  · exact foldl_still (fun s d => (PostFrame.of_return (.ringReturn n s _ _)).still) _ _
  · rfl

@[simp] theorem State.reportTx_still (s : State) (h : FrameHdr) (status stamp : Nat) :
    (s.reportTx h status stamp).still = s.still := by
  have hlost (s : State) (fid : Nat) : (s.bcLost fid).still = s.still := by
    unfold State.bcLost
    split <;> rfl
  unfold State.reportTx
  dsimp only
  split <;> simp [apply_ite State.still, hlost]

@[simp] theorem State.judgeFrame_still (s : State) (q fid : Nat) : (s.judgeFrame q fid).still = s.still := by
  unfold State.judgeFrame State.stompTx
  repeat' split
  all_goals simp

/-! ### The pull buffer (R142, R153) -/

theorem State.takePos_still (s : State) (e port : Nat) (fids : List Nat) (r : CellRef) (skip : Bool) :
    (s.takePos e port fids r skip).still = s.still := by
  simp only [State.takePos, apply_ite State.still, State.modSq_still, ite_self]

@[simp] theorem State.takeAll_still (s : State) (e : Nat) : (s.takeAll e).still = s.still := by
  refine foldl_still (fun s p => foldl_still (fun s f => ?_) _ s) _ s
  unfold State.takeFrame'
  split
  · rfl
  · exact foldl_still (fun s r => s.takePos_still _ _ _ _ _) _ s

@[simp] theorem State.takeDiscards_still (s : State) (e : Nat) : (s.takeDiscards e).still = s.still :=
  foldl_still (fun s _ => s.takePos_still _ _ _ _ _) _ _

@[simp] theorem State.markLate_still (s : State) (q : Nat) (fids : List Nat) : (s.markLate q fids).still = s.still :=
  foldl_still (fun _ _ => State.modEport_still _ _ _) _ s

@[simp] theorem State.readPos_still (s : State) (e : Nat) (p : PullPos) (c : Cell) :
    (s.readPos e p c).1.still = s.still := by
  unfold State.readPos State.readCell State.noteCrc State.sqFault
  split
  · simp [apply_ite State.still]
  · rfl

@[simp] theorem State.passHead_still (s : State) (e : Nat) : (s.passHead e).still = s.still := by
  unfold State.passHead
  repeat' split
  all_goals simp [apply_ite State.still, foldl_still]

theorem passCells_still (e n : Nat) (s : State) : (passCells e n s).still = s.still := by
  induction n generalizing s with
  | zero => rfl
  | succ n ih =>
    unfold passCells
    repeat' split
    · rfl
    · exact (ih _).trans (State.passHead_still s e)
    · rfl

@[simp] theorem State.moveCells_still (s : State) (e : Nat) : (s.moveCells e).still = s.still := by
  simp [State.moveCells, passCells_still]

/-! ### The resequencer (R154 to R157) -/

@[simp] theorem State.linkSeg_still (s : State) (q : Nat) (c : Cell) (r : CellRef) (g : Seg) :
    (s.linkSeg q c r g).still = s.still := by
  unfold State.linkSeg State.creditShapers
  dsimp only
  repeat' split
  all_goals simp

@[simp] theorem State.linkCell_still (s : State) (e : Nat) (c : Ctx) (r : CellRef) :
    (s.linkCell e c r).1.still = s.still := by
  have hdepth (s : State) (q : Nat) : (s.noteDepth e q).still = s.still := by
    unfold State.noteDepth
    split <;> rfl
  unfold State.linkCell
  dsimp only
  split
  · rfl
  · simp [apply_ite State.still, foldl_still, hdepth]

@[simp] theorem State.gapFrame_still (s : State) (q : Nat) (run : Option Nat) : (s.gapFrame q run).still = s.still := by
  unfold State.gapFrame
  split <;> simp

@[simp] theorem State.setCtxOut_still (s : State) (e k : Nat) (x : CtxOut) : (s.setCtxOut e k x).still = s.still := rfl

@[simp] theorem State.linkNext_still (s : State) (e k : Nat) (c : Ctx) (r : CellRef) :
    (s.linkNext e k c r).still = s.still := by
  unfold State.linkNext
  dsimp only
  split <;> simp

@[simp] theorem State.drainAll_still (s : State) (e k : Nat) (c : Ctx) : (s.drainAll e k c).still = s.still := by
  unfold State.drainAll
  generalize (s.ctxOut e k).parked.length + 1 = n
  induction n generalizing s with
  | zero => rfl
  | succ n ih =>
    unfold State.drainParked
    dsimp only
    split
    · rfl
    · rw [ih, State.linkNext_still, State.setCtxOut_still]

@[simp] theorem State.declareGap_still (s : State) (e k : Nat) (c : Ctx) (w : Nat) :
    (s.declareGap e k c w).still = s.still := by
  unfold State.declareGap
  dsimp only
  split <;> simp

@[simp] theorem State.entry_still (s : State) (e isq : Nat) (c : Ctx) (seq slot : Nat) (r : CellRef) :
    (s.entry e isq c seq slot r).still = s.still := by
  unfold State.entry State.park
  dsimp only
  repeat' split
  all_goals simp

/-! ### Frames that are admitted and stored (R148, R173, R185 to R192) -/

@[simp] theorem State.setCtxIn_still (s : State) (i : Nat) (c : Ctx) (x : CtxIn) : (s.setCtxIn i c x).still = s.still :=
  rfl

@[simp] theorem State.alloc_still (s : State) (i r : Nat) (c : Cell) : (s.alloc i r c).1.still = s.still := by
  unfold State.alloc
  split <;> simp

@[simp] theorem State.numberCell_still (s : State) (i k : Nat) (c : Ctx) (held kept : Bool) :
    (s.numberCell i k c held kept).still = s.still := by
  have hsettle (s : State) : (s.settleCell i k).still = s.still := by
    unfold State.settleCell
    repeat' split
    all_goals simp
  unfold State.numberCell
  dsimp only
  split <;> simp [hsettle]

@[simp] theorem State.storePiece_still (s : State) (i typ owner : Nat) (c : Ctx) (held : Bool) (epoch : Nat)
    (p : Piece) : (s.storePiece i typ owner c held epoch p).still = s.still := by
  have halloc := s.alloc_still i owner ({ typ := typ, isq := i, ctx := c, epoch := epoch, segs := p.segs
                                          bad := p.segs.any (fun g => g.badEnd), st := .deferred } : Cell).sealed
  unfold State.storePiece
  dsimp only
  split
  · next hs => rwa [hs] at halloc
  · next hs =>
    rw [hs] at halloc
    rw [State.modSq_still]
    split
    · rw [State.numberCell_still]
      exact halloc
    · exact halloc

@[simp] theorem State.storeGroup_still (s : State) (i typ owner : Nat) (g : Group) :
    (s.storeGroup i typ owner g).still = s.still :=
  (foldl_still (fun s _ => s.storePiece_still _ _ _ _ _ _ _) _ _).trans
    ((State.count_still _ _ _).trans (s.setCtxIn_still i _ _))

@[simp] theorem State.storeWhole_still (s : State) (i typ owner : Nat) (v : Verdict) (bs : List Byte) :
    (s.storeWhole i typ owner v bs).still = s.still := by
  unfold State.storeWhole
  dsimp only
  cases v.main <;> cases v.copy <;> simp

@[simp] theorem State.takeIn_still (s : State) (i lane typ owner : Nat) (h : FrameHdr) (c : Ctx) :
    (s.takeIn i lane typ owner h c).1.still = s.still := by
  have haccept (s : State) (q need : Nat) : (s.accept i h q need).still = s.still := by simp [State.accept]
  unfold State.takeIn State.holdFrame State.sqFault
  dsimp only
  repeat' split
  all_goals simp [haccept]

theorem State.injectTo_still (s : State) (i typ owner : Nat) (c : Ctx) (h : FrameHdr) (bs : List Byte) :
    (s.injectTo i typ owner c h bs).1.still = s.still := by
  unfold State.injectTo
  dsimp only
  repeat' split
  all_goals simp

/-! ### Frames that the services complex sends (R175, R247) -/

/-- The services complex is as before, but for the frames that wait in it for cells. -/
def SameEngines (s t : State) : Prop := t.red = { s.red with outbox := t.red.outbox }

theorem SameEngines.of_red {s t : State} (h : t.red = s.red) : SameEngines s t := by rw [SameEngines, h]

theorem SameEngines.trans {s t u : State} (h : SameEngines s t) (k : SameEngines t u) : SameEngines s u := by
  unfold SameEngines at *
  rw [k, h]

theorem SameEngines.flushRedOut (s : State) : SameEngines s s.flushRedOut := by
  unfold State.flushRedOut
  split
  · exact .of_red rfl
  next f fs _ =>
    have hsent := red_of_still (s.injectTo_still s.tour.attSvc 3 64 f.ctx f.hdr f.bytes)
    dsimp only
    split
    · exact .of_red hsent
    · rw [SameEngines, State.portIn_red, hsent]

theorem SameEngines.injectBuilt (s : State) (c : Ctx) (h : FrameHdr) (bs : List Byte) :
    SameEngines s (s.injectBuilt c h bs) := SameEngines.trans (by rfl) (.flushRedOut _)

/-- A commit releases the output stage, and no channel changes with that (R244). -/
theorem State.releaseOut_chans (s : State) (e : Nat) : (s.releaseOut e).red.chans = s.red.chans := by
  have hsent : SameEngines (s.modEngine e fun x => { x with out := [] }) (s.releaseOut e) :=
    List.foldlRecOn _ _ (motive := SameEngines (s.modEngine e fun x => { x with out := [] })) (.of_red rfl)
      fun t ht f _ => ht.trans (.injectBuilt t f.1 {} f.2)
  exact (congrArg Red.chans hsent :)

/-- With nothing in the output stage there is nothing to release. -/
theorem State.releaseOut_of_empty {s : State} {e : Nat} (h : (s.engine e).out = []) :
    s.releaseOut e = s.modEngine e fun x => { x with out := [] } := by
  rw [State.releaseOut, h, List.foldl_nil]

end Sys2Proof.Machine
end

section
/-! SUPPORT. The dispatcher of a reduction engine: which channel it serves, and what it leaves alone (R242, R251). -/

namespace Sys2Proof.Machine

/-! ### Channels read from the services complex -/

theorem chan_of_chans {s t : State} (h : t.red.chans = s.red.chans) (c : Nat) : t.chan c = s.chan c := by
  rw [State.chan, h, ← State.chan]

theorem State.chan_modChan_same (s : State) (c : Nat) (f : Chan → Chan) : (s.modChan c f).chan c = f (s.chan c) :=
  (s.chan_modChan c c f).trans (if_pos rfl)

theorem State.chan_modChan_ne (s : State) {c k : Nat} (f : Chan → Chan) (h : k ≠ c) :
    (s.modChan c f).chan k = s.chan k := (s.chan_modChan c k f).trans (if_neg h)

theorem State.engine_modEngine_same (s : State) (e : Nat) (f : Engine → Engine) :
    (s.modEngine e f).engine e = f (s.engine e) := (s.engine_modEngine e e f).trans (if_pos rfl)

/-! ### What the dispatcher leaves alone -/

/-- Nothing but channels and engines has changed, and of each channel no more than its count of abandons. -/
structure Redispatched (s t : State) : Prop where
  shape : t = { s with red := { s.red with chans := t.red.chans, engines := t.red.engines } }
  chan : ∀ k, t.chan k = { s.chan k with abandons := (t.chan k).abandons }

theorem Redispatched.refl (s : State) : Redispatched s s := ⟨rfl, fun _ => rfl⟩

theorem Redispatched.trans {s t u : State} (h : Redispatched s t) (k : Redispatched t u) : Redispatched s u :=
  ⟨by rw [k.shape, h.shape], fun c => by rw [k.chan, h.chan]⟩

theorem Redispatched.ite {p : Prop} [Decidable p] {s t u : State} (ht : Redispatched s t) (hu : Redispatched s u) :
    Redispatched s (if p then t else u) := by
  split
  · exact ht
  · exact hu

theorem Redispatched.modEngine (s : State) (e : Nat) (f : Engine → Engine) : Redispatched s (s.modEngine e f) :=
  ⟨rfl, fun _ => rfl⟩

theorem Redispatched.modChan (s : State) (c : Nat) (n : Nat → Nat) :
    Redispatched s (s.modChan c fun x => { x with abandons := n x.abandons }) := by
  refine ⟨rfl, fun k => ?_⟩
  rw [State.chan_modChan]
  split
  · next hk => rw [hk]
  · rfl

theorem Redispatched.abandon (s : State) (e c : Nat) : Redispatched s (s.abandon e c) :=
  (Redispatched.modChan s c (· + 1)).trans (.modEngine _ e _)

theorem Redispatched.preempt (s : State) (e : Nat) : Redispatched s (s.preempt e) := by
  unfold State.preempt
  split
  · exact .ite (.refl s) ((Redispatched.abandon s e _).trans (.modEngine _ e _))
  · exact .refl s

theorem Redispatched.startRoutine (s : State) (e : Nat) : Redispatched s (s.startRoutine e) := by
  unfold State.startRoutine
  split
  · exact .ite (.modEngine s e _) (.refl s)
  · exact .refl s

theorem Redispatched.arrived (s : State) (c : Nat) : Redispatched s (s.arrived c) :=
  (Redispatched.ite (.preempt s _) (.refl s)).trans (.startRoutine _ _)

section
variable {s t : State} (h : Redispatched s t)
include h

theorem Redispatched.due (c : Nat) : (t.chan c).due = (s.chan c).due := by rw [h.chan]
theorem Redispatched.inq (c : Nat) : (t.chan c).inq = (s.chan c).inq := by rw [h.chan]
theorem Redispatched.slots (c : Nat) : (t.chan c).slots = (s.chan c).slots := by rw [h.chan]
theorem Redispatched.ready (c : Nat) : (t.chan c).ready = (s.chan c).ready := by rw [h.chan]; rfl

theorem Redispatched.redSlot (c i : Nat) : t.redSlot c i = s.redSlot c i := by
  rw [State.redSlot, h.slots, ← State.redSlot]

theorem Redispatched.chanWord (c i : Nat) : t.chanWord c i = s.chanWord c i := by rw [h.shape]; rfl

theorem Redispatched.timedOut (c i : Nat) : t.timedOut c i = s.timedOut c i := by
  rw [State.timedOut, h.redSlot, h.shape]
  rfl

end

/-! ### Which channel an engine serves -/

theorem mem_rotated (c last : Nat) : c ∈ rotated (engineOf c) last := by
  unfold rotated engineOf
  refine List.mem_map.mpr ⟨(c + 128 - (last + 1) % 128) % 128, List.mem_range.mpr (by omega), ?_⟩
  omega

theorem State.nextUrgent_input {s : State} {e c : Nat} (h : s.nextUrgent e = some c) :
    s.urgent c = true ∧ (s.chan c).ready = true :=
  (Bool.and_eq_true _ _).mp (List.find?_some h :)

/-- The dispatcher serves a channel that has input. -/
theorem State.dispatch_ready {s : State} {e c : Nat} (h : s.dispatch e = some c) : (s.chan c).ready = true := by
  unfold State.dispatch at h
  dsimp only at h
  split at h
  · next k hk =>
    obtain rfl : k = c := Option.some.inj h
    exact (State.nextUrgent_input hk).2
  · split at h
    · next hslice => rw [← Option.some.inj h, hslice.2]
    · exact (List.find?_some h :)

/-- Where a channel of the engine has input, the dispatcher serves one. -/
theorem State.dispatch_isSome {s : State} {c : Nat} (h : (s.chan c).ready = true) :
    (s.dispatch (engineOf c)).isSome = true := by
  unfold State.dispatch
  dsimp only
  split
  · rfl
  · split
    · rfl
    · exact List.find?_isSome.mpr ⟨c, mem_rotated c _, h⟩

theorem State.nextRoutine_isSome {s : State} {c : Nat} (h : (s.chan c).ready = true) :
    (s.nextRoutine (engineOf c)).isSome = true := by
  unfold State.nextRoutine
  split
  · exact State.dispatch_isSome h
  · rfl

theorem State.nextRoutine_running {s : State} {e c : Nat} (h : (s.engine e).running = some c) :
    s.nextRoutine e = some c := by
  rw [State.nextRoutine, h]

/-- The only channel with input is served, unless the routine of another one runs. -/
theorem State.nextRoutine_only {s : State} {c : Nat} (hc : (s.chan c).ready = true)
    (hothers : ∀ k, k ≠ c → (s.chan k).ready = false)
    (hrun : (s.engine (engineOf c)).running = none ∨ (s.engine (engineOf c)).running = some c) :
    s.nextRoutine (engineOf c) = some c := by
  rcases hrun with hnone | hsome
  · rw [State.nextRoutine, hnone]
    obtain ⟨k, hk⟩ := Option.isSome_iff_exists.mp (State.dispatch_isSome hc)
    have hkc : k = c := by
      by_contra hne
      exact absurd (State.dispatch_ready hk) (by rw [hothers k hne]; decide)
    exact hkc ▸ hk
  · exact State.nextRoutine_running hsome

/-- The only urgent channel with input is the one served next of the urgent ones. -/
theorem State.nextUrgent_only {s : State} {c : Nat} (hurgent : s.urgent c = true) (hc : (s.chan c).ready = true)
    (hothers : ∀ k, k ≠ c → s.urgent k = true → (s.chan k).ready = false) : s.nextUrgent (engineOf c) = some c := by
  obtain ⟨k, hk⟩ : ∃ k, s.nextUrgent (engineOf c) = some k :=
    Option.isSome_iff_exists.mp (List.find?_isSome.mpr ⟨c, mem_rotated c _, by rw [hurgent, hc]; rfl⟩)
  obtain ⟨hku, hkr⟩ := State.nextUrgent_input hk
  have hkc : k = c := by
    by_contra hne
    exact absurd hkr (by rw [hothers k hne hku]; decide)
  exact hkc ▸ hk

/-! ### Start and abandon -/

theorem State.startRoutine_starts {s : State} {e c : Nat} (hruns : s.engineRuns e = true)
    (hnext : s.nextRoutine e = some c) :
    s.startRoutine e = s.modEngine e fun x => { x with running := some c } := by
  rw [State.startRoutine, hnext, hruns]
  rfl

theorem State.startRoutine_running {s : State} {e c : Nat} (hruns : s.engineRuns e = true)
    (hnext : s.nextRoutine e = some c) : ((s.startRoutine e).engine e).running = some c := by
  rw [State.startRoutine_starts hruns hnext, State.engine_modEngine_same]

theorem State.abandon_chan (s : State) (e c : Nat) :
    (s.abandon e c).chan c = { s.chan c with abandons := (s.chan c).abandons + 1 } :=
  s.chan_modChan_same c fun x => { x with abandons := x.abandons + 1 }

theorem State.abandon_engine (s : State) (e c : Nat) :
    (s.abandon e c).engine e = { s.engine e with running := some c, out := [] } :=
  State.engine_modEngine_same _ e _

theorem State.preempt_idle {s : State} {e : Nat} (h : (s.engine e).running = none) : s.preempt e = s := by
  rw [State.preempt, h]

theorem State.preempt_urgent {s : State} {e c : Nat} (h : (s.engine e).running = some c) (hu : s.urgent c = true) :
    s.preempt e = s := by
  rw [State.preempt, h]
  split
  · next hc _ =>
    obtain rfl := Option.some.inj hc
    exact if_pos (.inl hu)
  · rfl

theorem State.preempt_abandons {s : State} {e k c : Nat} (hrun : (s.engine e).running = some k)
    (hnext : s.nextUrgent e = some c) (hk : s.urgent k = false) (hmax : (s.chan k).abandons < s.preemptMax) :
    s.preempt e = (s.abandon e k).modEngine e fun x => { x with running := some c } := by
  rw [State.preempt, hrun, hnext]
  exact if_neg (not_or.mpr ⟨by rw [hk]; decide, Nat.not_le.mpr hmax⟩)

theorem State.engineRuns_modEngine (s : State) (e k : Nat) {f : Engine → Engine}
    (hf : ∀ x, (f x).powered = x.powered) : (s.modEngine e f).engineRuns k = s.engineRuns k := by
  unfold State.engineRuns
  rw [State.engine_modEngine]
  split
  · next h => rw [hf, h]; rfl
  · rfl

theorem State.preempt_engineRuns (s : State) (e k : Nat) : (s.preempt e).engineRuns k = s.engineRuns k := by
  unfold State.preempt State.abandon
  split
  · split
    · rfl
    · rw [State.engineRuns_modEngine _ _ _ (by intro; rfl), State.engineRuns_modEngine _ _ _ (by intro; rfl)]
      rfl
  · rfl

theorem State.arrived_quiet {s : State} {c : Nat} (h : s.urgent c = false) :
    s.arrived c = s.startRoutine (engineOf c) := by
  rw [State.arrived, h, Bool.and_false]
  rfl

theorem State.arrived_urgent {s : State} {c : Nat} (hruns : s.engineRuns (engineOf c) = true) (h : s.urgent c = true) :
    s.arrived c = (s.preempt (engineOf c)).startRoutine (engineOf c) := by
  rw [State.arrived, hruns, h]
  rfl

/-- Input for a channel whose engine runs leaves the engine with a routine. -/
theorem State.arrived_runs {s : State} {c : Nat} (hruns : s.engineRuns (engineOf c) = true)
    (hc : (s.chan c).ready = true) : ((s.arrived c).engine (engineOf c)).running.isSome = true := by
  have hstarts {u : State} (hu : Redispatched s u) (hr : u.engineRuns (engineOf c) = true) :
      ((u.startRoutine (engineOf c)).engine (engineOf c)).running.isSome = true := by
    obtain ⟨k, hk⟩ := Option.isSome_iff_exists.mp (State.nextRoutine_isSome ((hu.ready c).trans hc))
    rw [State.startRoutine_running hr hk]
    rfl
  cases hurgent : s.urgent c with
  | false =>
    rw [State.arrived_quiet hurgent]
    exact hstarts (.refl s) hruns
  | true =>
    rw [State.arrived_urgent hruns hurgent]
    exact hstarts (.preempt s _) ((State.preempt_engineRuns s _ _).trans hruns)

/-- Input for a channel that no other routine keeps waiting: the channel is served next. -/
theorem State.arrived_served {s : State} {c : Nat} (hruns : s.engineRuns (engineOf c) = true)
    (hc : (s.chan c).ready = true) (hothers : ∀ k, k ≠ c → (s.chan k).ready = false)
    (hrun : (s.engine (engineOf c)).running = none ∨ (s.engine (engineOf c)).running = some c) :
    ((s.arrived c).engine (engineOf c)).running = some c := by
  have hstarts := State.startRoutine_running hruns (State.nextRoutine_only hc hothers hrun)
  cases hurgent : s.urgent c with
  | false => rwa [State.arrived_quiet hurgent]
  | true =>
    have hpreempt : s.preempt (engineOf c) = s := hrun.elim State.preempt_idle (State.preempt_urgent · hurgent)
    rwa [State.arrived_urgent hruns hurgent, hpreempt]

/-- Input for an urgent channel abandons the routine of a channel that is not urgent (R251). -/
theorem State.arrived_preempts {s : State} {c k : Nat} (hruns : s.engineRuns (engineOf c) = true)
    (hurgent : s.urgent c = true) (hnext : s.nextUrgent (engineOf c) = some c)
    (hrun : (s.engine (engineOf c)).running = some k) (hk : s.urgent k = false)
    (hmax : (s.chan k).abandons < s.preemptMax) :
    ((s.arrived c).engine (engineOf c)).running = some c ∧
      (s.arrived c).chan k = { s.chan k with abandons := (s.chan k).abandons + 1 } := by
  have hpruns := (State.preempt_engineRuns s (engineOf c) (engineOf c)).trans hruns
  rw [State.arrived_urgent hruns hurgent]
  rw [State.preempt_abandons hrun hnext hk hmax] at hpruns ⊢
  have hpnext := State.nextRoutine_running
    (congrArg Engine.running ((s.abandon (engineOf c) k).engine_modEngine_same (engineOf c)
      fun x => { x with running := some c }))
  refine ⟨State.startRoutine_running hpruns hpnext, ?_⟩
  rw [State.startRoutine_starts hpruns hpnext]
  exact s.abandon_chan (engineOf c) k

end Sys2Proof.Machine
end

section
/-!
SUPPORT. The commit of a routine: the slot that it stores, what it leaves of the channel, and the frames it sends, which
change no channel (R243 to R251).
-/

namespace Sys2Proof.Machine

/-! ### One slot word (R243, R244) -/

theorem State.redSlot_of_slots {s t : State} {c : Nat} (h : (t.chan c).slots = (s.chan c).slots) (i : Nat) :
    t.redSlot c i = s.redSlot c i := by rw [State.redSlot, h, ← State.redSlot]

theorem State.commitSlot_chan (s : State) (c i : Nat) (x : Slot) : (s.commitSlot c i x).chan c =
    { s.chan c with slots := SMap.set (fun _ => {}) (s.chan c).slots i x } :=
  s.chan_modChan_same c fun y => { y with slots := SMap.set (fun _ => {}) y.slots i x }

theorem State.redSlot_commitSlot_same (s : State) (c i : Nat) (x : Slot) : (s.commitSlot c i x).redSlot c i = x := by
  rw [State.redSlot, State.commitSlot_chan]
  exact SMap.get_set_same _ _ _ _

theorem State.redSlot_commitSlot_ne (s : State) (c : Nat) {i j : Nat} (x : Slot) (h : j ≠ i) :
    (s.commitSlot c i x).redSlot c j = s.redSlot c j := by
  rw [State.redSlot, State.commitSlot_chan]
  exact SMap.get_set_ne _ _ _ h

@[simp] theorem Slot.value_put (x : Slot) (v : List (BitVec 32)) : (x.put v).value = v := by
  unfold Slot.put Slot.value
  split <;> rfl

@[simp] theorem Slot.key_put (x : Slot) (v : List (BitVec 32)) : (x.put v).key = x.key := by
  unfold Slot.put Slot.key
  split <;> rfl

@[simp] theorem Slot.state_put (x : Slot) (v : List (BitVec 32)) : (x.put v).state = x.state := by
  unfold Slot.put
  split <;> rfl

/-- The slot of a block that is complete: UP where the channel has a parent, else DONE (R247, R248). -/
def State.finished (s : State) (c : Nat) (sl : Slot) : Slot :=
  if bit (s.chanWord c 0) 53 then { sl with state := 2, t0 := s.nowUs32 } else { sl with state := 3 }

/-- The slot that a commit stores: with the bits of all contributors its block is complete (R245). -/
def State.settled (s : State) (c : Nat) (sl : Slot) : Slot :=
  if sl.bitmap = allBits (s.chan c).ncontrib then s.finished c sl else sl

/-- But for the state and T0, which a parent renews, the slot stays as it is. -/
theorem State.finished_eq (s : State) (c : Nat) (sl : Slot) : s.finished c sl = { sl with
    state := if bit (s.chanWord c 0) 53 then 2 else 3, t0 := (s.finished c sl).t0 } := by
  unfold State.finished
  split <;> rfl

theorem State.finished_t0 {s : State} {sl : Slot} (c : Nat) (h : sl.t0 = s.nowUs32) :
    (s.finished c sl).t0 = s.nowUs32 := by
  unfold State.finished
  split
  · rfl
  · exact h

theorem State.settled_eq (s : State) (c : Nat) {sl : Slot} (h : sl.state = 1) : s.settled c sl = { sl with
    state := if sl.bitmap ≠ allBits (s.chan c).ncontrib then 1 else if bit (s.chanWord c 0) 53 then 2 else 3
    t0 := (s.settled c sl).t0 } := by
  rw [ite_not]
  unfold State.settled
  split
  · exact State.finished_eq s c sl
  · rw [← h]

theorem State.settled_t0 {s : State} {sl : Slot} (c : Nat) (h : sl.t0 = s.nowUs32) :
    (s.settled c sl).t0 = s.nowUs32 := by
  unfold State.settled
  split
  · exact State.finished_t0 c h
  · exact h

/-! ### Frames sent change no channel (R247 to R250) -/

theorem foldl_chans {α : Type} {f : State → α → State} (h : ∀ s a, (f s a).red.chans = s.red.chans) (l : List α)
    (s : State) : (l.foldl f s).red.chans = s.red.chans :=
  List.foldlRecOn l f (motive := fun t : State => t.red.chans = s.red.chans) rfl fun t ht a _ => (h t a).trans ht

theorem State.count_chans (s : State) (o n : Nat) : (s.count o n).red.chans = s.red.chans :=
  congrArg Red.chans (s.count_red o n)

theorem State.redSend_chans (s : State) (c nh da dport : Nat) (hdr body : List Byte) :
    (s.redSend c nh da dport hdr body).red.chans = s.red.chans := by
  unfold State.redSend
  dsimp only
  split
  · exact s.count_chans _ _
  · rfl

theorem State.sendResult_chans (s : State) (c : Nat) (sl : Slot) (i : Nat) :
    (s.sendResult c sl i).red.chans = s.red.chans := s.redSend_chans _ _ _ _ _ _

theorem State.sendParent_chans (s : State) (c kind : Nat) (sl : Slot) (body : List Byte) :
    (s.sendParent c kind sl body).red.chans = s.red.chans := s.redSend_chans _ _ _ _ _ _

theorem State.sendAborts_chans (s : State) (c : Nat) (sl : Slot) : (s.sendAborts c sl).red.chans = s.red.chans :=
  (foldl_chans (fun s _ => s.redSend_chans _ _ _ _ _ _) _ _).trans (s.count_chans _ _)

theorem State.postTimeout_chans (s : State) (c : Nat) (sl : Slot) (sub missing : Nat) :
    (s.postTimeout c sl sub missing).red.chans = s.red.chans := congrArg Red.chans (red_of_still (s.post_still _ _ _ _))

/-! ### What each routine commits (R245, R247 to R251) -/

theorem State.finishBlock_chans (s : State) (c i : Nat) (sl : Slot) :
    (s.finishBlock c i sl).red.chans = (s.commitSlot c i (s.finished c sl)).red.chans := by
  unfold State.finishBlock State.finished
  dsimp only
  split
  · exact State.sendParent_chans _ _ _ _ _
  · exact foldl_chans (fun s m => s.sendResult_chans c _ m) _ _

/-- What is stored in a state that differs in its counters. -/
theorem State.count_commitSlot_chans (s : State) (o n c i : Nat) (x : Slot) :
    ((s.count o n).commitSlot c i x).red.chans = (s.commitSlot c i x).red.chans := by
  unfold State.commitSlot State.modChan
  rw [State.count_red]

theorem State.commitOpen_chans (s : State) (c i : Nat) (sl : Slot) :
    (s.commitOpen c i sl).red.chans = (s.commitSlot c i (s.settled c sl)).red.chans := by
  unfold State.commitOpen State.settled
  split
  · exact (State.finishBlock_chans _ c i sl).trans (s.count_commitSlot_chans _ 1 c i _)
  · rfl

theorem State.accLost_chans (s : State) (c i : Nat) (sl : Slot) :
    (s.accLost c i sl).red.chans = (s.commitSlot c i {}).red.chans := by
  have haborts := (s.commitSlot c i {}).sendAborts_chans c sl
  unfold State.accLost
  dsimp only
  rw [red_of_still (State.faultEvent_still _ _ _ _ _ _)]
  split
  · exact (State.sendParent_chans _ _ _ _ _).trans haborts
  · exact haborts

section
variable {s : State} {c i : Nat} {acc : Bool}

/-- A timeout frees the slot, unless the channel takes a partial result that can be read (R250, R251). -/
theorem State.slotTimeout_frees
    (h : (s.redSlot c i).state = 1 → bit (s.chanWord c 0) 52 = true → acc = true) :
    (s.slotTimeout c i acc).red.chans = (s.commitSlot c i {}).red.chans := by
  unfold State.slotTimeout
  dsimp only
  split
  · exact (State.postTimeout_chans _ _ _ _ _).trans (s.accLost_chans c i _)
  · next hread =>
    rw [if_neg fun hpart => hread ⟨hpart.1, hpart.2, h hpart.1 hpart.2⟩, State.postTimeout_chans]
    split
    · exact (State.sendParent_chans _ _ _ _ _).trans (State.sendAborts_chans _ _ _)
    · exact State.sendAborts_chans _ _ _

/-- With PARTIAL the block is completed as it is (R250). -/
theorem State.slotTimeout_partial (hopen : (s.redSlot c i).state = 1) (hpart : bit (s.chanWord c 0) 52 = true) :
    (s.slotTimeout c i false).red.chans =
      (s.commitSlot c i (s.finished c { s.redSlot c i with partial_ := true })).red.chans := by
  unfold State.slotTimeout
  dsimp only
  rw [if_neg (fun h => absurd h.2.2 (by decide)), if_pos ⟨hopen, hpart⟩, State.postTimeout_chans]
  exact (State.finishBlock_chans _ c i _).trans (s.count_commitSlot_chans _ 1 c i _)

theorem State.slotTimeout_commits (s : State) (c i : Nat) (acc : Bool) :
    ∃ sl, (s.slotTimeout c i acc).red.chans = (s.commitSlot c i sl).red.chans := by
  by_cases h : (s.redSlot c i).state = 1 ∧ bit (s.chanWord c 0) 52 = true ∧ acc = false
  · obtain ⟨hopen, hpart, rfl⟩ := h
    exact ⟨_, State.slotTimeout_partial hopen hpart⟩
  · exact ⟨_, State.slotTimeout_frees fun hopen hpart => by
      rw [← Bool.not_eq_false]
      exact fun hacc => h ⟨hopen, hpart, hacc⟩⟩

end

/-! ### The end of a routine (R242, R245) -/

theorem State.svcGive_chans (s : State) (key tag : Nat) : (s.svcGive key tag).red.chans = s.red.chans := by
  unfold State.svcGive
  split <;> rfl

theorem Redispatched.ended (s : State) (e c : Nat) : Redispatched s (s.ended e c) :=
  (((Redispatched.modChan s c fun _ => 0).trans (.modEngine _ _ _)).trans (.modEngine _ _ _)).trans (.startRoutine _ e)

/-- The channel whose routine ends has its input, its timeouts and its slots as the routine left them. -/
theorem State.ended_releaseOut_chan (s : State) (e c : Nat) :
    (((s.releaseOut e).ended e c).chan c).due = (s.chan c).due ∧
    (((s.releaseOut e).ended e c).chan c).inq = (s.chan c).inq ∧
    (((s.releaseOut e).ended e c).chan c).slots = (s.chan c).slots := by
  have hended := Redispatched.ended (s.releaseOut e) e c
  rw [hended.due, hended.inq, hended.slots, chan_of_chans (s.releaseOut_chans e)]
  exact ⟨rfl, rfl, rfl⟩

/-- The descriptor of a routine that is over goes, and the slots stay as the routine left them. -/
theorem State.retire_releaseOut_chan (s : State) (e c : Nat) (d : InDesc) :
    (((s.releaseOut e).retire e c d).chan c).inq = (s.chan c).inq.drop 1 ∧
    (((s.releaseOut e).retire e c d).chan c).slots = (s.chan c).slots := by
  have hended := Redispatched.ended
    (((s.releaseOut e).modChan c fun x => { x with inq := x.inq.drop 1 }).svcGive d.buf e) e c
  rw [State.retire, hended.inq, hended.slots, chan_of_chans (State.svcGive_chans _ _ _), State.chan_modChan_same,
    chan_of_chans (s.releaseOut_chans e)]
  exact ⟨rfl, rfl⟩

/-- With nothing in the output stage a routine that is over changes no counter of its own accord. -/
theorem State.retire_releaseOut_counter {s : State} {e : Nat} (h : (s.engine e).out = []) (c : Nat) (d : InDesc)
    (o : Nat) : ((s.releaseOut e).retire e c d).counter o = s.counter o := by
  have hgive (u : State) : (u.svcGive d.buf e).cnt = u.cnt := by
    unfold State.svcGive
    split <;> rfl
  rw [State.releaseOut_of_empty h, State.retire, (Redispatched.ended _ e c).shape]
  exact congrArg (SMap.get (fun _ => 0) · o) (hgive _)

/-! ### Contributions by their descriptor (R245) -/

section
variable {s : State} {c : Nat} {d : InDesc} {acc : Bool}

theorem State.routine_badLength (h : d.udpLen ≠ 40 + beAt d.hdr 12 2) :
    s.routine c d acc = (s.count (chanCtr c 2) 1, false) := if_pos h

theorem State.routine_contribution (hlen : d.udpLen = 40 + beAt d.hdr 12 2) (hkind : beAt d.hdr 0 1 % 16 = 0) :
    s.routine c d acc = s.contribute c d acc := by
  rw [State.routine, if_neg (not_not.mpr hlen), if_pos hkind]

theorem State.contribute_badSender (h : s.senderOk c d = false) :
    s.contribute c d acc = (s.count (chanCtr c 3) 1, false) := by
  rw [State.contribute, h]
  rfl

variable {i : Nat} {sl : Slot} (hi : i = beAt d.hdr 8 4 % (s.chan c).window) (hsl : sl = s.redSlot c i)
include hi hsl

/-- A first contribution claims the slot. -/
theorem State.contribute_claims (h : s.senderOk c d = true)
    (hfree : sl.state = 0 ∨ (sl.state = 3 ∧ keyAfter (beAt d.hdr 4 4, beAt d.hdr 8 4) sl.key = true)) :
    s.contribute c d acc = (s.commitOpen c i { sl.put (widenAll (s.chan c).dtype d.payload) with
      state := 1, partial_ := false, len := beAt d.hdr 12 2, gen := beAt d.hdr 4 4, block := beAt d.hdr 8 4
      bitmap := 2 ^ beAt d.hdr 14 1, t0 := s.nowUs32 }, false) := by
  subst hi hsl
  rw [State.contribute, h]
  exact if_pos hfree

variable (h : s.senderOk c d = true) (hopen : sl.state = 1)
  (hkey : sl.key = (beAt d.hdr 4 4, beAt d.hdr 8 4)) (hlen : sl.len = beAt d.hdr 12 2)
  (hbit : bit sl.bitmap (beAt d.hdr 14 1) = false)
include h hopen hkey hlen hbit

/-- A further contribution reads the accumulator. -/
theorem State.contribute_open : s.contribute c d acc =
    if acc then (s.accLost c i sl, true)
    else (s.commitOpen c i { sl.put ((sl.value.zip (widenAll (s.chan c).dtype d.payload)).map fun p =>
      combine (s.chan c).op (s.chan c).dtype p.1 p.2) with
        bitmap := setBit sl.bitmap (beAt d.hdr 14 1) true }, false) := by
  subst hi hsl
  have hclaim : ¬ ((s.redSlot c (beAt d.hdr 8 4 % (s.chan c).window)).state = 0 ∨
      ((s.redSlot c (beAt d.hdr 8 4 % (s.chan c).window)).state = 3 ∧
        keyAfter (beAt d.hdr 4 4, beAt d.hdr 8 4) (s.redSlot c (beAt d.hdr 8 4 % (s.chan c).window)).key = true)) := by
    rintro (hfree | ⟨hdone, -⟩)
    · exact absurd (hopen.symm.trans hfree) (by decide)
    · exact absurd (hopen.symm.trans hdone) (by decide)
  rw [State.contribute, h]
  dsimp only
  rw [if_neg (by decide), if_neg hclaim, if_pos hkey.symm, if_pos hopen, hbit, if_neg (by decide),
    if_neg (not_not.mpr hlen.symm)]

end

end Sys2Proof.Machine
end

section
/-! SUPPORT. RED_FRAME_DELIVER: a frame joins its channel's queue with a buffer, or is dropped (R241, R251). -/

namespace Sys2Proof.Machine

/-! ### The frame is stored, or dropped (R179, R241) -/

/-- A descriptor at the end of a channel's queue. -/
def State.queued (s : State) (c : Nat) (d : InDesc) : State := s.modChan c fun x => { x with inq := x.inq ++ [d] }

theorem State.count_shape (s : State) (o n : Nat) : ∃ cnt, s.count o n = { s with cnt := cnt } := by
  unfold State.count
  split
  · exact ⟨s.cnt, rfl⟩
  · exact ⟨_, rfl⟩

/-- A buffer taken belongs to the tag, and nothing but the pools and the counters has changed. -/
theorem State.svcTake_taken {s : State} {tag n key : Nat} (h : (s.svcTake tag n).2 = some key) :
    ∃ svc cnt, (s.svcTake tag n).1 = { s with red := { s.red with svc := svc }, cnt := cnt } ∧
      tget svc key = some tag := by
  unfold State.svcTake at h ⊢
  split at h
  · contradiction
  next k b _ =>
    split at h
    · contradiction
    next hquota =>
      obtain rfl := Option.some.inj h
      rw [if_neg hquota]
      dsimp only
      have hown := (tget_insert s.red.svc (svcKey k b) (svcKey k b) tag).trans (if_pos rfl)
      split
      · obtain ⟨cnt, hcnt⟩ := State.count_shape
          { s with red := { s.red with svc := SMap.insert s.red.svc (svcKey k b) tag } } (devCtr 6) 1
        exact ⟨_, cnt, hcnt, hown⟩
      · exact ⟨_, s.cnt, rfl, hown⟩

section
variable {s u : State} {f : WholeFrame} {c n : Nat} (hc : c = beAt f.bytes ((redAt f).2 + 2) 2 % 512)
  (hn : n = beAt f.bytes ((redAt f).2 + 12) 2) (hu : u = s.count (chanCtr c 0) 1)
include hc hn hu

theorem State.redDeliver_drops (h : s.isOn 3 c = false ∨ s.isOn 4 (engineOf c) = false ∨
    s.inqMax ≤ (s.chan c).inq.length ∨ 1024 ≤ s.engineDescs (engineOf c) ∨ (u.svcTake (engineOf c) n).2 = none) :
    s.redDeliver f = u.count (chanCtr c 1) 1 := by
  obtain ⟨cnt, hcnt⟩ := s.count_shape (chanCtr c 0) 1
  unfold State.redDeliver
  dsimp only
  rw [← hc, ← hn, hcnt]
  rw [hu, hcnt] at h ⊢
  split
  · rfl
  next hroom =>
    simp only [Bool.not_eq_true, Bool.or_eq_false_iff, Bool.not_eq_false', decide_eq_false_iff_not] at hroom
    obtain ⟨⟨⟨hchan, hengine⟩, hqueue⟩, htable⟩ := hroom
    split
    · rfl
    next hs =>
      rcases h with h | h | h | h | h
      · exact absurd (hchan.symm.trans h) (by decide)
      · exact absurd (hengine.symm.trans h) (by decide)
      · exact absurd h hqueue
      · exact absurd h htable
      · rw [hs] at h
        contradiction

theorem State.redDeliver_queues {key : Nat} (hchan : s.isOn 3 c = true) (hengine : s.isOn 4 (engineOf c) = true)
    (hqueue : (s.chan c).inq.length < s.inqMax) (htable : s.engineDescs (engineOf c) < 1024)
    (htake : (u.svcTake (engineOf c) n).2 = some key) : s.redDeliver f =
      ((u.svcTake (engineOf c) n).1.queued c (redDesc f key)).arrived c := by
  obtain ⟨cnt, hcnt⟩ := s.count_shape (chanCtr c 0) 1
  unfold State.redDeliver
  dsimp only
  rw [← hc, ← hn, hcnt]
  rw [hu, hcnt] at htake ⊢
  split
  next hfull =>
    simp only [Bool.or_eq_true, Bool.not_eq_true', decide_eq_true_eq] at hfull
    rcases hfull with ((h | h) | h) | h
    · exact absurd (hchan.symm.trans h) (by decide)
    · exact absurd (hengine.symm.trans h) (by decide)
    · exact absurd h (Nat.not_le.mpr hqueue)
    · exact absurd h (Nat.not_le.mpr htable)
  · split
    next hs =>
      rw [hs] at htake
      exact absurd htake (Option.some_ne_none key).symm
    next hs =>
      rw [hs] at htake ⊢
      obtain rfl := Option.some.inj htake
      rfl

end

theorem Redispatched.svc_shape {s v t : State} (h : Redispatched v t) (hv : v = { s with red := v.red, cnt := v.cnt }) :
    t = { s with red := t.red, cnt := t.cnt } := by
  rw [h.shape, hv]

/-! ### What its arrival does to the engine (R242, R251) -/

theorem State.queued_ready (s : State) (c : Nat) (d : InDesc) : ((s.queued c d).chan c).ready = true := by
  rw [State.queued, State.chan_modChan_same, Chan.ready]
  simp

/-- A routine that is not urgent gives way to the only urgent channel with input. -/
theorem State.queued_preempts {s : State} {c k : Nat} (d : InDesc) (hruns : s.engineRuns (engineOf c) = true)
    (hrun : (s.engine (engineOf c)).running = some k) (hc : s.urgent c = true) (hk : s.urgent k = false)
    (hmax : (s.chan k).abandons < s.preemptMax)
    (hothers : ∀ j, j ≠ c → s.urgent j = true → (s.chan j).ready = false) :
    (((s.queued c d).arrived c).engine (engineOf c)).running = some c ∧
      ((s.queued c d).arrived c).chan k = { s.chan k with abandons := (s.chan k).abandons + 1 } := by
  have hchan {j : Nat} (hj : j ≠ c) : (s.queued c d).chan j = s.chan j := s.chan_modChan_ne _ hj
  have hkc : k ≠ c := fun h => absurd (hc.symm.trans (h ▸ hk)) (by decide)
  have hnext : (s.queued c d).nextUrgent (engineOf c) = some c :=
    State.nextUrgent_only hc (s.queued_ready c d) fun j hj hurgent => by rw [hchan hj]; exact hothers j hj hurgent
  obtain ⟨hserved, habandoned⟩ :=
    State.arrived_preempts (s := s.queued c d) hruns hc hnext hrun hk (by rw [hchan hkc]; exact hmax)
  exact ⟨hserved, by rw [habandoned, hchan hkc]⟩

/-! ### The command -/

section
variable {s : State} (hu : Up s)
include hu

theorem redFrameDeliver_none (h : takeFirst (fun (f : WholeFrame) => !f.hdr.bc) s.red.inbox = none) :
    exec .redFrameDeliver s = .next s := by
  change execRedFrameDeliver s = _
  rw [execRedFrameDeliver, gated_up hu, h]

variable {f : WholeFrame} {rest : List WholeFrame}
  (h : takeFirst (fun (f : WholeFrame) => !f.hdr.bc) s.red.inbox = some (f, rest))
include h

theorem redFrameDeliver_other (hred : f.hdr.red.isSome = false) :
    exec .redFrameDeliver s = .next { s with red := { s.red with inbox := rest } } := by
  change execRedFrameDeliver s = _
  rw [execRedFrameDeliver, gated_up hu, h]
  dsimp only
  rw [hred, if_neg (by decide)]

theorem redFrameDeliver_red (hred : f.hdr.red.isSome = true) :
    exec .redFrameDeliver s = .next (({ s with red := { s.red with inbox := rest } } : State).redDeliver f) := by
  change execRedFrameDeliver s = _
  rw [execRedFrameDeliver, gated_up hu, h]
  dsimp only
  rw [hred, if_pos rfl]

variable {c n : Nat} {u : State} (hred : f.hdr.red.isSome = true) (hc : c = beAt f.bytes ((redAt f).2 + 2) 2 % 512)
  (hn : n = beAt f.bytes ((redAt f).2 + 12) 2)
  (hcounted : u = ({ s with red := { s.red with inbox := rest } } : State).count (chanCtr c 0) 1)
include hred hc hn hcounted

theorem redFrameDeliver_drops (hdrop : s.isOn 3 c = false ∨ s.isOn 4 (engineOf c) = false ∨
    s.inqMax ≤ (s.chan c).inq.length ∨ 1024 ≤ s.engineDescs (engineOf c) ∨ (u.svcTake (engineOf c) n).2 = none) :
    exec .redFrameDeliver s = .next (u.count (chanCtr c 1) 1) := by
  rw [redFrameDeliver_red hu h hred, State.redDeliver_drops hc hn hcounted hdrop]

theorem redFrameDeliver_queues {key : Nat} (hchan : s.isOn 3 c = true) (hengine : s.isOn 4 (engineOf c) = true)
    (hqueue : (s.chan c).inq.length < s.inqMax) (htable : s.engineDescs (engineOf c) < 1024)
    (htake : (u.svcTake (engineOf c) n).2 = some key) : Yields .redFrameDeliver s fun t =>
      t.red.inbox = rest ∧ (t.chan c).inq = (s.chan c).inq ++ [redDesc f key] ∧
      tget t.red.svc key = some (engineOf c) ∧ t = { s with red := t.red, cnt := t.cnt } ∧
      (s.engineRuns (engineOf c) = true → (t.engine (engineOf c)).running.isSome = true) ∧
      (∀ k, s.engineRuns (engineOf c) = true → (s.engine (engineOf c)).running = some k → s.urgent c = true →
        s.urgent k = false → (s.chan k).abandons < s.preemptMax →
        (∀ j, j ≠ c → s.urgent j = true → (s.chan j).ready = false) →
        (t.engine (engineOf c)).running = some c ∧
        t.chan k = { s.chan k with abandons := (s.chan k).abandons + 1 }) := by
  refine ⟨_, redFrameDeliver_red hu h hred, ?_⟩
  rw [State.redDeliver_queues hc hn hcounted hchan hengine hqueue htable htake]
  obtain ⟨svc, cnt, hstored, howner⟩ := State.svcTake_taken htake
  obtain ⟨cnt', hcnt⟩ := State.count_shape { s with red := { s.red with inbox := rest } } (chanCtr c 0) 1
  rw [hstored, hcounted, hcnt]
  have harrived := Redispatched.arrived
    (({ s with red := { s.red with inbox := rest, svc := svc }, cnt := cnt } : State).queued c (redDesc f key)) c
  refine ⟨(congrArg (fun t : State => t.red.inbox) harrived.shape :), (harrived.inq c).trans ?_,
    (congrArg (fun t : State => tget t.red.svc key) harrived.shape).trans howner, ?_,
    fun hruns => State.arrived_runs hruns (State.queued_ready _ c _),
    fun k hruns hrun hurgent hk hmax hothers =>
      State.queued_preempts (redDesc f key) hruns hrun hurgent hk hmax hothers⟩
  · rw [State.queued, State.chan_modChan_same]
    rfl
  · exact harrived.svc_shape rfl

end

end Sys2Proof.Machine
end

section
/-! SUPPORT. RED_ROUTINE_RUN: the routine of the channel that the engine serves (R242, R244, R245, R250, R251). -/

namespace Sys2Proof.Machine

/-! ### What runs -/

/-- A channel without the first of its timeouts that are due. -/
def State.dueTaken (s : State) (c : Nat) (is : List Nat) : State := s.modChan c fun x => { x with due := is }

theorem State.dueTaken_chan (s : State) (c : Nat) (is : List Nat) :
    (s.dueTaken c is).chan c = { s.chan c with due := is } := s.chan_modChan_same c fun x => { x with due := is }

theorem State.dueTaken_redSlot (s : State) (c : Nat) (is : List Nat) (j : Nat) :
    (s.dueTaken c is).redSlot c j = s.redSlot c j :=
  State.redSlot_of_slots (congrArg Chan.slots (s.dueTaken_chan c is) :) j

theorem State.dueTaken_timedOut (s : State) (c : Nat) (is : List Nat) (j : Nat) :
    (s.dueTaken c is).timedOut c j = s.timedOut c j := by
  rw [State.timedOut, State.dueTaken_redSlot]
  rfl

section
variable {s : State} {e c : Nat} {acc : Bool}

theorem State.runRoutine_due {i : Nat} {is : List Nat} (hdue : (s.chan c).due = i :: is) :
    s.runRoutine e c acc = ((if (s.dueTaken c is).timedOut c i then (s.dueTaken c is).slotTimeout c i acc
      else s.dueTaken c is).releaseOut e).ended e c := by
  unfold State.runRoutine
  dsimp only
  rw [hdue]
  rfl

theorem State.runRoutine_idle (hdue : (s.chan c).due = []) (hinq : (s.chan c).inq = []) :
    s.runRoutine e c acc = s.modEngine e fun y => { y with running := none } := by
  unfold State.runRoutine
  dsimp only
  rw [hdue, hinq]

variable {d : InDesc} {ds : List InDesc} {u : State} (hdue : (s.chan c).due = []) (hinq : (s.chan c).inq = d :: ds)
include hdue hinq

theorem State.runRoutine_commits (h : s.routine c d acc = (u, false)) :
    s.runRoutine e c acc = (u.releaseOut e).retire e c d := by
  unfold State.runRoutine
  dsimp only
  rw [hdue, hinq]
  dsimp only
  rw [h]
  exact if_neg Bool.false_ne_true

theorem State.runRoutine_abandons (h : s.routine c d acc = (u, true)) :
    s.runRoutine e c acc = (u.releaseOut e).abandon e c := by
  unfold State.runRoutine
  dsimp only
  rw [hdue, hinq]
  dsimp only
  rw [h, if_pos rfl]

end

/-! ### What a routine leaves of its channel -/

section
variable {s u : State} {e c i : Nat} {sl : Slot}

/-- After the timeout routine of slot `i` the channel waits for the timeouts that follow, with its input and its other
slots. -/
theorem State.ended_timeout {is : List Nat} (hu : u.red.chans = ((s.dueTaken c is).commitSlot c i sl).red.chans) :
    (((u.releaseOut e).ended e c).chan c).due = is ∧ (((u.releaseOut e).ended e c).chan c).inq = (s.chan c).inq ∧
    ((u.releaseOut e).ended e c).redSlot c i = sl ∧
    ∀ j, j ≠ i → ((u.releaseOut e).ended e c).redSlot c j = s.redSlot c j := by
  obtain ⟨hdue, hinq, hslots⟩ := u.ended_releaseOut_chan e c
  rw [chan_of_chans hu c] at hdue hinq hslots
  have hslot := State.redSlot_of_slots hslots
  rw [State.commitSlot_chan, State.dueTaken_chan] at hdue hinq
  exact ⟨hdue, hinq, (hslot i).trans (State.redSlot_commitSlot_same _ c i sl), fun j hj =>
    ((hslot j).trans (State.redSlot_commitSlot_ne _ c sl hj)).trans (s.dueTaken_redSlot c is j)⟩

variable {d : InDesc} {ds : List InDesc} (hinq : (s.chan c).inq = d :: ds)
include hinq

/-- After a routine with nothing to commit the descriptor is gone and the slots are as before. -/
theorem State.retire_unchanged (hu : u.red.chans = s.red.chans) :
    (((u.releaseOut e).retire e c d).chan c).inq = ds ∧
    (((u.releaseOut e).retire e c d).chan c).slots = (s.chan c).slots := by
  obtain ⟨hqueue, hslots⟩ := u.retire_releaseOut_chan e c d
  rw [chan_of_chans hu c] at hqueue hslots
  exact ⟨hqueue.trans (congrArg (List.drop 1) hinq), hslots⟩

/-- After a commit the descriptor is gone, and one slot is the one that was committed. -/
theorem State.retire_commit (hu : u.red.chans = (s.commitSlot c i sl).red.chans) :
    (((u.releaseOut e).retire e c d).chan c).inq = ds ∧ ((u.releaseOut e).retire e c d).redSlot c i = sl ∧
    ∀ j, j ≠ i → ((u.releaseOut e).retire e c d).redSlot c j = s.redSlot c j := by
  obtain ⟨hqueue, hslots⟩ := u.retire_releaseOut_chan e c d
  rw [chan_of_chans hu c] at hqueue hslots
  have hslot := State.redSlot_of_slots hslots
  rw [State.commitSlot_chan] at hqueue
  exact ⟨hqueue.trans (congrArg (List.drop 1) hinq), (hslot i).trans (s.redSlot_commitSlot_same c i sl),
    fun j hj => (hslot j).trans (s.redSlot_commitSlot_ne c sl hj)⟩

/-- After an abandoned routine the descriptor still heads the queue, and the engine will run it again. -/
theorem State.abandon_commit (hu : u.red.chans = (s.commitSlot c i sl).red.chans) :
    (((u.releaseOut e).abandon e c).chan c).inq = d :: ds ∧ ((u.releaseOut e).abandon e c).redSlot c i = sl ∧
    (((u.releaseOut e).abandon e c).engine e).running = some c := by
  have hchan : ((u.releaseOut e).abandon e c).chan c =
      { (s.commitSlot c i sl).chan c with abandons := ((s.commitSlot c i sl).chan c).abandons + 1 } := by
    rw [State.abandon_chan, chan_of_chans ((u.releaseOut_chans e).trans hu)]
  refine ⟨?_, ?_, by rw [State.abandon_engine]⟩
  · rw [hchan, State.commitSlot_chan]
    exact hinq
  · exact (State.redSlot_of_slots (congrArg Chan.slots hchan :) i).trans (s.redSlot_commitSlot_same c i sl)

end

/-! ### The command -/

theorem redRoutineRun_none {s : State} (hu : Up s) {e : Nat} (h : s.engineRuns e = false ∨ s.nextRoutine e = none)
    (b : Bool) : exec (.redRoutineRun e b) s = .next s := by
  change execRedRoutineRun e b s = _
  rw [execRedRoutineRun, gated_up hu]
  cases hruns : s.engineRuns e with
  | false => rfl
  | true =>
    have hnext : s.nextRoutine e = none := h.resolve_left (by rw [hruns]; decide)
    rw [hnext]
    rfl

section
variable {s : State} (hu : Up s) {e c : Nat} (hruns : s.engineRuns e = true) (hnext : s.nextRoutine e = some c)
include hu hruns hnext

theorem redRoutineRun_runs (x : Bool) : exec (.redRoutineRun e x) s = .next (s.runRoutine e c x) := by
  change execRedRoutineRun e x s = _
  rw [execRedRoutineRun, gated_up hu, hruns, hnext]
  rfl

/-- A timeout that is due goes before the channel's frames. -/
theorem redRoutineRun_due {i : Nat} {is : List Nat} (hdue : (s.chan c).due = i :: is) (x : Bool) :
    Yields (.redRoutineRun e x) s fun t => (t.chan c).due = is ∧ (t.chan c).inq = (s.chan c).inq ∧
      (∀ j, j ≠ i → t.redSlot c j = s.redSlot c j) ∧ (s.timedOut c i = false → t.redSlot c i = s.redSlot c i) := by
  refine ⟨_, redRoutineRun_runs hu hruns hnext x, ?_⟩
  rw [State.runRoutine_due hdue, State.dueTaken_timedOut]
  cases hout : s.timedOut c i with
  | true =>
    obtain ⟨sl, hsl⟩ := (s.dueTaken c is).slotTimeout_commits c i x
    obtain ⟨hdue', hinq, -, hothers⟩ := State.ended_timeout (e := e) hsl
    exact ⟨hdue', hinq, hothers, fun h => absurd h (by decide)⟩
  | false =>
    obtain ⟨hdue', hinq, hslots⟩ := (s.dueTaken c is).ended_releaseOut_chan e c
    rw [State.dueTaken_chan] at hdue' hinq hslots
    have hslot := State.redSlot_of_slots hslots
    exact ⟨hdue', hinq, fun j _ => hslot j, fun _ => hslot i⟩

theorem redRoutineRun_idle (hdue : (s.chan c).due = []) (hinq : (s.chan c).inq = []) (x : Bool) :
    exec (.redRoutineRun e x) s = .next (s.modEngine e fun y => { y with running := none }) := by
  rw [redRoutineRun_runs hu hruns hnext, State.runRoutine_idle hdue hinq]

variable {d : InDesc} {ds : List InDesc} (hdue : (s.chan c).due = []) (hinq : (s.chan c).inq = d :: ds)
include hdue hinq

/-- A frame that is counted and dropped. -/
theorem redRoutineRun_counts {w : Nat} {x : Bool} (h : s.routine c d x = (s.count (chanCtr c w) 1, false)) :
    Yields (.redRoutineRun e x) s fun t => (t.chan c).inq = ds ∧ (t.chan c).slots = (s.chan c).slots ∧
      ((s.engine e).out = [] → t.counter (chanCtr c w) = bumpWord (s.counter (chanCtr c w)) 1) := by
  refine ⟨_, redRoutineRun_runs hu hruns hnext x, ?_⟩
  rw [State.runRoutine_commits hdue hinq h]
  obtain ⟨hqueue, hslots⟩ := State.retire_unchanged (e := e) hinq (s.count_chans (chanCtr c w) 1)
  refine ⟨hqueue, hslots, fun hout => ?_⟩
  have hout' : ((s.count (chanCtr c w) 1).engine e).out = [] := by
    rw [State.engine, State.count_red, ← State.engine, hout]
  rw [State.retire_releaseOut_counter hout', State.count, if_neg (by decide), State.counter_setCounter, if_pos rfl]

/-- A routine that commits an OPEN slot, or the slot of the block that it completes. -/
theorem redRoutineRun_commits {i : Nat} {sl : Slot} {x : Bool} (h : s.routine c d x = (s.commitOpen c i sl, false)) :
    Yields (.redRoutineRun e x) s fun t => (t.chan c).inq = ds ∧ t.redSlot c i = s.settled c sl ∧
      ∀ j, j ≠ i → t.redSlot c j = s.redSlot c j := by
  refine ⟨_, redRoutineRun_runs hu hruns hnext x, ?_⟩
  rw [State.runRoutine_commits hdue hinq h]
  exact State.retire_commit hinq (s.commitOpen_chans c i sl)

section
variable (hlen : d.udpLen = 40 + beAt d.hdr 12 2) (hkind : beAt d.hdr 0 1 % 16 = 0) (hsender : s.senderOk c d = true)
  {i b : Nat} {sl : Slot} {k : Nat × Nat} (hi : i = beAt d.hdr 8 4 % (s.chan c).window) (hsl : sl = s.redSlot c i)
  (hb : b = beAt d.hdr 14 1) (hk : k = (beAt d.hdr 4 4, beAt d.hdr 8 4))
include hlen hkind hsender hi hsl hb hk

theorem redRoutineRun_claims (x : Bool) (hfree : sl.state = 0 ∨ (sl.state = 3 ∧ keyAfter k sl.key = true)) :
    Yields (.redRoutineRun e x) s fun t =>
      (t.chan c).inq = ds ∧ (t.redSlot c i).bitmap = 2 ^ b ∧ (t.redSlot c i).key = k ∧
      (t.redSlot c i).len = beAt d.hdr 12 2 ∧ (t.redSlot c i).t0 = s.nowUs32 ∧
      (t.redSlot c i).value = widenAll (s.chan c).dtype d.payload ∧
      (t.redSlot c i).state =
        (if 2 ^ b ≠ allBits (s.chan c).ncontrib then 1 else if bit (s.chanWord c 0) 53 then 2 else 3) ∧
      (∀ j, j ≠ i → t.redSlot c j = s.redSlot c j) := by
  subst hb hk
  have hroutine := (State.routine_contribution hlen hkind).trans
    (State.contribute_claims (acc := x) hi hsl hsender hfree)
  obtain ⟨t, hexec, hqueue, hslot, hothers⟩ := redRoutineRun_commits hu hruns hnext hdue hinq hroutine
  have heq := hslot.trans (State.settled_eq s c (by rfl))
  exact ⟨t, hexec, hqueue, congrArg Slot.bitmap heq, congrArg Slot.key heq, congrArg Slot.len heq,
    (congrArg Slot.t0 hslot).trans (State.settled_t0 c (by rfl)),
    (congrArg Slot.value heq).trans (sl.value_put _), congrArg Slot.state heq, hothers⟩

variable (hopen : sl.state = 1) (hkey : sl.key = k) (hsame : sl.len = beAt d.hdr 12 2) (hbit : bit sl.bitmap b = false)
include hopen hkey hsame hbit

theorem redRoutineRun_accumulates : Yields (.redRoutineRun e false) s fun t =>
    (t.chan c).inq = ds ∧ (t.redSlot c i).bitmap = setBit sl.bitmap b true ∧ (t.redSlot c i).key = k ∧
    (t.redSlot c i).value = (sl.value.zip (widenAll (s.chan c).dtype d.payload)).map (fun p =>
      combine (s.chan c).op (s.chan c).dtype p.1 p.2) ∧
    (t.redSlot c i).state = (if setBit sl.bitmap b true ≠ allBits (s.chan c).ncontrib then 1
      else if bit (s.chanWord c 0) 53 then 2 else 3) ∧
    (∀ j, j ≠ i → t.redSlot c j = s.redSlot c j) := by
  subst hb hk
  have hroutine := (State.routine_contribution hlen hkind).trans
    (State.contribute_open (acc := false) hi hsl hsender hopen hkey hsame hbit)
  rw [if_neg (by decide)] at hroutine
  obtain ⟨t, hexec, hqueue, hslot, hothers⟩ := redRoutineRun_commits hu hruns hnext hdue hinq hroutine
  have heq := hslot.trans (State.settled_eq s c ((sl.state_put _).trans hopen))
  exact ⟨t, hexec, hqueue, congrArg Slot.bitmap heq, (congrArg Slot.key heq).trans ((sl.key_put _).trans hkey),
    (congrArg Slot.value heq).trans (sl.value_put _), congrArg Slot.state heq, hothers⟩

/-- An accumulator that cannot be read frees the slot, and the frame stays (R251). -/
theorem redRoutineRun_accLost : Yields (.redRoutineRun e true) s fun t =>
    (t.chan c).inq = d :: ds ∧ t.redSlot c i = {} ∧ (t.engine e).running = some c := by
  subst hb hk
  have hroutine := (State.routine_contribution hlen hkind).trans
    (State.contribute_open (acc := true) hi hsl hsender hopen hkey hsame hbit)
  rw [if_pos rfl] at hroutine
  refine ⟨_, redRoutineRun_runs hu hruns hnext true, ?_⟩
  rw [State.runRoutine_abandons hdue hinq hroutine]
  exact State.abandon_commit hinq (s.accLost_chans c i sl)

end

end

/-- Settles O51: the frames delivered, then the routine that runs, by the input at the head of its channel. -/
theorem reductionRoutines : Obligations.ReductionRoutines := by
  intro e s hu
  refine ⟨redFrameDeliver_none hu, fun f rest h hred => redFrameDeliver_other hu h hred,
    fun f rest c n u h hred hc hn hcounted =>
      ⟨fun key => redFrameDeliver_queues hu h hred hc hn hcounted, redFrameDeliver_drops hu h hred hc hn hcounted⟩,
    redRoutineRun_none hu, fun c i ds x hruns hnext hdue => redRoutineRun_due hu hruns hnext hdue x,
    fun c x hruns hnext hdue hinq => redRoutineRun_idle hu hruns hnext hdue hinq x, ?_⟩
  intro c d ds i sl b k hruns hnext hdue hinq hi hsl hb hk
  refine ⟨fun hlen x => redRoutineRun_counts hu hruns hnext hdue hinq (State.routine_badLength hlen),
    fun hlen hkind hsender x => redRoutineRun_counts hu hruns hnext hdue hinq
      ((State.routine_contribution hlen hkind).trans (State.contribute_badSender hsender)),
    fun hlen hkind hsender => ⟨redRoutineRun_claims hu hruns hnext hdue hinq hlen hkind hsender hi hsl hb hk,
      fun hopen hkey hsame hbit =>
        ⟨redRoutineRun_accumulates hu hruns hnext hdue hinq hlen hkind hsender hi hsl hb hk hopen hkey hsame hbit,
          redRoutineRun_accLost hu hruns hnext hdue hinq hlen hkind hsender hi hsl hb hk hopen hkey hsame hbit⟩⟩⟩

end Sys2Proof.Machine
end

section
/-! SUPPORT. RED_SLOT_TIMEOUT, RED_CSTORE_ERROR and ENGINE_POWER_UP (R242, R250, R251, R334). -/

namespace Sys2Proof.Machine

/-! ### RED_SLOT_TIMEOUT (R242, R250, R251) -/

/-- A timeout at the end of those that are due in a channel. -/
def State.dueQueued (s : State) (c i : Nat) : State := s.modChan c fun x => { x with due := x.due ++ [i] }

theorem State.dueQueued_chan (s : State) (c i : Nat) :
    (s.dueQueued c i).chan c = { s.chan c with due := (s.chan c).due ++ [i] } :=
  s.chan_modChan_same c fun x => { x with due := x.due ++ [i] }

theorem State.dueQueued_redSlot (s : State) (c i j : Nat) : (s.dueQueued c i).redSlot c j = s.redSlot c j :=
  State.redSlot_of_slots (congrArg Chan.slots (s.dueQueued_chan c i) :) j

theorem State.dueQueued_ready (s : State) (c i : Nat) : ((s.dueQueued c i).chan c).ready = true := by
  rw [State.dueQueued_chan, Chan.ready]
  simp

theorem State.timedOut_iff {s : State} {c i : Nat} : s.timedOut c i = true ↔
    ((s.redSlot c i).state = 1 ∨ (s.redSlot c i).state = 2) ∧ s.chanTimeout c ≤ s.sinceUs (s.redSlot c i).t0 := by
  simp [State.timedOut]

section
variable {s : State} (hu : Up s) {c i : Nat} {b : Bool}
include hu

theorem redSlotTimeout_idle (h : s.engineRuns (engineOf c) = false ∨ s.isOff 3 c = true ∨ s.timedOut c i = false ∨
    (s.chan c).due.contains i = true) : exec (.redSlotTimeout c i b) s = .next s := by
  change execRedSlotTimeout c i b s = _
  rw [execRedSlotTimeout, gated_up hu]
  refine congrArg _ (if_neg fun hdue => ?_)
  simp only [Bool.and_eq_true, Bool.not_eq_true'] at hdue
  obtain ⟨⟨⟨hruns, hchan⟩, hout⟩, hnew⟩ := hdue
  rcases h with h | h | h | h
  · exact absurd (hruns.symm.trans h) (by decide)
  · exact absurd (h.symm.trans hchan) (by decide)
  · exact absurd (hout.symm.trans h) (by decide)
  · exact absurd (h.symm.trans hnew) (by decide)

variable (hruns : s.engineRuns (engineOf c) = true) (hchan : s.isOff 3 c = false) (hout : s.timedOut c i = true)
  (hnew : (s.chan c).due.contains i = false)
include hruns hchan hout hnew

/-- The timeout is input of its channel, and runs where the dispatcher serves it. -/
theorem redSlotTimeout_eq : exec (.redSlotTimeout c i b) s = .next (
    if ((s.dueQueued c i).arrived c).nextRoutine (engineOf c) = some c ∧
        (((s.dueQueued c i).arrived c).chan c).due = [i]
    then ((s.dueQueued c i).arrived c).runRoutine (engineOf c) c b else (s.dueQueued c i).arrived c) := by
  change execRedSlotTimeout c i b s = _
  rw [execRedSlotTimeout, gated_up hu]
  exact congrArg _ (if_pos (by rw [hruns, hchan, hout, hnew]; rfl))

/-- Behind the routine of another channel it waits (R242). -/
theorem redSlotTimeout_waits {k : Nat} (hrun : (s.engine (engineOf c)).running = some k) (hkc : k ≠ c)
    (hurgent : s.urgent c = false) : Yields (.redSlotTimeout c i b) s fun t =>
      (t.chan c).due = (s.chan c).due ++ [i] ∧ t.redSlot c i = s.redSlot c i ∧
      (t.engine (engineOf c)).running = some k := by
  have harrived := Redispatched.arrived (s.dueQueued c i) c
  have hk : (((s.dueQueued c i).arrived c).engine (engineOf c)).running = some k := by
    rw [State.arrived_quiet (s := s.dueQueued c i) hurgent]
    exact State.startRoutine_running hruns (State.nextRoutine_running hrun)
  refine ⟨_, redSlotTimeout_eq hu hruns hchan hout hnew, ?_⟩
  rw [if_neg fun hserved => hkc (Option.some.inj ((State.nextRoutine_running hk).symm.trans hserved.1))]
  exact ⟨(harrived.due c).trans (congrArg Chan.due (s.dueQueued_chan c i)),
    (harrived.redSlot c i).trans (s.dueQueued_redSlot c i i), hk⟩

end

section
variable {s : State} (hu : Up s) {c i : Nat} {b : Bool}
  (hruns : s.engineRuns (engineOf c) = true) (hchan : s.isOff 3 c = false) (hout : s.timedOut c i = true)
  (hdue : (s.chan c).due = []) (hothers : ∀ k, k ≠ c → (s.chan k).ready = false)
  (hrun : (s.engine (engineOf c)).running = none ∨ (s.engine (engineOf c)).running = some c)
include hu hruns hchan hout hdue hothers hrun

/-- Where no other channel has input the timeout runs at once, in a state with the slot and the channel record
of `s`. -/
theorem redSlotTimeout_runs : ∃ v : State, v.redSlot c i = s.redSlot c i ∧ v.chanWord c 0 = s.chanWord c 0 ∧
    ∀ sl, (v.slotTimeout c i b).red.chans = (v.commitSlot c i sl).red.chans → Yields (.redSlotTimeout c i b) s fun t =>
      t.redSlot c i = sl ∧ (t.chan c).due = [] ∧ (t.chan c).inq = (s.chan c).inq := by
  have harrived := Redispatched.arrived (s.dueQueued c i) c
  have hserved := State.nextRoutine_running (State.arrived_served (s := s.dueQueued c i) hruns (s.dueQueued_ready c i)
    (fun k hk => (congrArg Chan.ready (s.chan_modChan_ne _ hk)).trans (hothers k hk)) hrun)
  have hqueue : (((s.dueQueued c i).arrived c).chan c).inq = (s.chan c).inq :=
    (harrived.inq c).trans (congrArg Chan.inq (s.dueQueued_chan c i) :)
  have hfirst : (((s.dueQueued c i).arrived c).chan c).due = [i] := by
    rw [harrived.due, State.dueQueued_chan, hdue]
    rfl
  have hslot : ((s.dueQueued c i).arrived c).redSlot c i = s.redSlot c i :=
    (harrived.redSlot c i).trans (s.dueQueued_redSlot c i i)
  have hrecord : ((s.dueQueued c i).arrived c).chanWord c 0 = s.chanWord c 0 := harrived.chanWord c 0
  have htime : ((s.dueQueued c i).arrived c).timedOut c i = true := by
    rw [harrived.timedOut, State.timedOut, State.dueQueued_redSlot]
    exact hout
  refine ⟨((s.dueQueued c i).arrived c).dueTaken c [], (State.dueTaken_redSlot _ c [] i).trans hslot, hrecord,
    fun sl hsl => ⟨_, redSlotTimeout_eq hu hruns hchan hout (by rw [hdue]; rfl), ?_⟩⟩
  rw [if_pos ⟨hserved, hfirst⟩, State.runRoutine_due hfirst, State.dueTaken_timedOut, htime, if_pos rfl]
  obtain ⟨hnone, hinq, hcommit, -⟩ := State.ended_timeout (e := engineOf c) hsl
  exact ⟨hcommit, hnone, hinq.trans hqueue⟩

theorem redSlotTimeout_frees (h : (s.redSlot c i).state = 1 → bit (s.chanWord c 0) 52 = true → b = true) :
    Yields (.redSlotTimeout c i b) s fun t =>
      t.redSlot c i = {} ∧ (t.chan c).due = [] ∧ (t.chan c).inq = (s.chan c).inq := by
  obtain ⟨v, hslot, hrecord, hyields⟩ := redSlotTimeout_runs hu hruns hchan hout hdue hothers hrun (b := b)
  refine hyields _ (State.slotTimeout_frees ?_)
  rwa [hslot, hrecord]

theorem redSlotTimeout_partial (hopen : (s.redSlot c i).state = 1) (hpart : bit (s.chanWord c 0) 52 = true) :
    Yields (.redSlotTimeout c i false) s fun t =>
      (t.redSlot c i).state = (if bit (s.chanWord c 0) 53 then 2 else 3) ∧ (t.redSlot c i).partial_ = true ∧
      (t.redSlot c i).bitmap = (s.redSlot c i).bitmap ∧ (t.redSlot c i).value = (s.redSlot c i).value ∧
      (t.chan c).due = [] ∧ (t.chan c).inq = (s.chan c).inq := by
  obtain ⟨v, hslot, hrecord, hyields⟩ := redSlotTimeout_runs hu hruns hchan hout hdue hothers hrun (b := false)
  obtain ⟨t, hexec, hcommit, hnone, hinq⟩ :=
    hyields _ (State.slotTimeout_partial (by rw [hslot, hopen]) (by rw [hrecord, hpart]))
  have heq := hcommit.trans (v.finished_eq c _)
  rw [hrecord, hslot] at heq
  exact ⟨t, hexec, congrArg Slot.state heq, congrArg Slot.partial_ heq, (congrArg Slot.bitmap heq :),
    (congrArg Slot.value heq :), hnone, hinq⟩

end

/-! ### RED_CSTORE_ERROR (R251) -/

section
variable {s : State} (hu : Up s) {e w : Nat}
include hu

theorem redCstoreError_none (h : s.red.ver = 0 ∨ (s.engine e).powered = false) :
    exec (.redCstoreError e w) s = .next s := by
  change execRedCstoreError e w s = _
  rw [execRedCstoreError, gated_up hu]
  exact congrArg _ (if_pos (by rwa [Bool.not_eq_true']))

variable {u : State} (hver : s.red.ver ≠ 0) (hpower : (s.engine e).powered = true)
  (hreload : u = (s.modEngine e fun x => { x with cstore := x.cstore.set w (s.red.patch.getD w 0) }).faultEvent 17 0 w)
include hver hpower hreload

/-- The word is reloaded and the source raised, whatever the engine does. -/
theorem redCstoreError_eq : exec (.redCstoreError e w) s = .next (
    if u.engineRuns e then
      match u.nextRoutine e with
      | some c => u.abandon e c
      | none => u
    else u) := by
  subst hreload
  change execRedCstoreError e w s = _
  rw [execRedCstoreError, gated_up hu]
  exact congrArg _ (if_neg (by rw [hpower]; simpa using hver))

theorem redCstoreError_idle (h : u.engineRuns e = false ∨ u.nextRoutine e = none) :
    exec (.redCstoreError e w) s = .next u := by
  rw [redCstoreError_eq hu hver hpower hreload]
  cases hruns : u.engineRuns e with
  | false => rfl
  | true => rw [h.resolve_left (by rw [hruns]; decide), if_pos rfl]

/-- The routine in progress is abandoned, to restart. -/
theorem redCstoreError_restarts {c : Nat} (hruns : u.engineRuns e = true) (hnext : u.nextRoutine e = some c) :
    Yields (.redCstoreError e w) s fun t => (t.engine e).running = some c ∧ (t.engine e).out = [] ∧
      t.chan c = { u.chan c with abandons := (u.chan c).abandons + 1 } ∧ t = { u with red := t.red } := by
  refine ⟨_, redCstoreError_eq hu hver hpower hreload, ?_⟩
  rw [hruns, hnext, if_pos rfl]
  dsimp only
  rw [State.abandon_engine, State.abandon_chan]
  exact ⟨rfl, rfl, rfl, rfl⟩

end

/-! ### ENGINE_POWER_UP (R334) -/

/-- An engine that turns ON keeps its power. -/
theorem State.turnOn_engine (s : State) (e : Nat) :
    (s.turnOn 4 e).isOn 4 e = true ∧ (s.turnOn 4 e).engine e = s.engine e := by
  have hshape : s.turnOn 4 e = (s.setFn 4 e { st := .on }).postLife 4 e 3 0 0 := rfl
  rw [hshape, State.isOn, State.fn, State.engine, State.postLife, State.post_fns,
    red_of_still (State.post_still _ _ _ _ _)]
  refine ⟨?_, rfl⟩
  rw [← State.fn, State.fn_setFn, if_pos rfl]
  rfl

section
variable {s : State} (hu : Up s) {e : Nat}
include hu

theorem enginePowerUp_none (h : bit s.power.cur.redPwr e = false ∨ s.isOff 4 e = false) :
    exec (.enginePowerUp e) s = .next s := by
  change execEnginePowerUp e s = _
  rw [execEnginePowerUp, gated_up hu]
  refine congrArg _ (if_neg fun hdue => ?_)
  simp only [Bool.and_eq_true] at hdue
  obtain ⟨⟨hpwr, hoff⟩, -⟩ := hdue
  rcases h with h | h
  · exact absurd (hpwr.symm.trans h) (by decide)
  · exact absurd (hoff.symm.trans h) (by decide)

variable (hpwr : bit s.power.cur.redPwr e = true) (hoff : s.isOff 4 e = true)
include hpwr hoff

theorem enginePowerUp_powers (hcold : (s.engine e).powered = false) (hcmd : (s.fn 4 e).byPhase = false) :
    exec (.enginePowerUp e) s = .next ((s.modEngine e fun x => { x with powered := true }).post 0x43 1 e []) := by
  change execEnginePowerUp e s = _
  rw [execEnginePowerUp, gated_up hu]
  dsimp only
  rw [hpwr, hoff, hcold, hcmd]
  rfl

theorem enginePowerUp_powered (hwarm : (s.engine e).powered = true) (hcmd : (s.fn 4 e).byPhase = false) :
    exec (.enginePowerUp e) s = .next s := by
  change execEnginePowerUp e s = _
  rw [execEnginePowerUp, gated_up hu]
  dsimp only
  rw [hpwr, hoff, hwarm, hcmd]
  rfl

/-- An engine that a phase had disabled comes back, with power. -/
theorem enginePowerUp_returns (hphase : (s.fn 4 e).byPhase = true) :
    Yields (.enginePowerUp e) s fun t => t.isOn 4 e = true ∧ (t.engine e).powered = true := by
  have hexec : exec (.enginePowerUp e) s = .next ((if (s.engine e).powered then s
      else (s.modEngine e fun x => { x with powered := true }).post 0x43 1 e []).turnOn 4 e) := by
    change execEnginePowerUp e s = _
    rw [execEnginePowerUp, gated_up hu]
    dsimp only
    rw [hpwr, hoff, hphase, Bool.or_true]
    rfl
  refine ⟨_, hexec, ?_⟩
  obtain ⟨hon, hengine⟩ := State.turnOn_engine (if (s.engine e).powered then s
      else (s.modEngine e fun x => { x with powered := true }).post 0x43 1 e []) e
  refine ⟨hon, ?_⟩
  rw [hengine]
  split
  · assumption
  · rw [State.engine, red_of_still (State.post_still _ _ _ _ _), ← State.engine, State.engine_modEngine_same]

end

/-- Settles O52: a timeout by where the dispatcher stands, then the control store's error and the engine's power. -/
theorem reductionEngines : Obligations.ReductionEngines := by
  intro s hu
  refine ⟨fun c i b => redSlotTimeout_idle hu, fun c i hruns hchan hst hold => ?_, fun e w => redCstoreError_none hu,
    fun e w u hver hpower hreload => ⟨redCstoreError_idle hu hver hpower hreload,
      fun c => redCstoreError_restarts hu hver hpower hreload⟩,
    fun e => enginePowerUp_none hu, fun e hpwr hoff => ⟨enginePowerUp_powers hu hpwr hoff,
      enginePowerUp_powered hu hpwr hoff, enginePowerUp_returns hu hpwr hoff⟩⟩
  have hout := State.timedOut_iff.mpr ⟨hst, hold⟩
  refine ⟨fun k b hnew hrun hkc hurgent => redSlotTimeout_waits hu hruns hchan hout hnew hrun hkc hurgent,
    fun hdue hothers hrun => ⟨fun hopen hpart =>
      ⟨redSlotTimeout_partial hu hruns hchan hout hdue hothers hrun hopen hpart, ?_⟩, fun b hfree => ?_⟩⟩
  · obtain ⟨t, hexec, hslot, hnone, -⟩ :=
      redSlotTimeout_frees hu hruns hchan hout hdue hothers hrun (b := true) fun _ _ => rfl
    exact ⟨t, hexec, hslot, hnone⟩
  · refine redSlotTimeout_frees hu hruns hchan hout hdue hothers hrun fun hopen hpart => ?_
    rcases hfree with hup | habort
    · exact absurd (hopen.symm.trans hup) (by decide)
    · exact absurd (hpart.symm.trans habort) (by decide)

end Sys2Proof.Machine
end

section
/-! PROOFS. One idle cycle of the port clock (R255, R256, R258, R404). -/

namespace Sys2Proof.Machine

/-- A counter takes a whole cycle modulo 2^64 ns. -/
theorem advance_nat (c : Tick) (d : Nat) : advance c d = (c + d) % timeModulus := by
  rw [advance, ← Nat.cast_add, ← Int.natCast_mod, Int.toNat_natCast]

@[simp] theorem freqPart_zero (d : Nat) : freqPart 0 d = 0 := by simp [freqPart]

/-- Where no slew is left, a cycle makes no share of one. -/
@[simp] theorem slewPart_zero (d : Nat) : slewPart 0 d = 0 := by
  rw [slewPart, if_neg (Int.lt_irrefl 0)]
  exact min_eq_left (by positivity)

theorem step_idle {s : State} (h : s.pending = []) : step s = .next (tick s) := by rw [step, h]

theorem State.running_eq_false {s : State} (h : s.boot.stage = 0 ∨ s.boot.stage = 4) : s.running = false := by
  rcases h with h | h <;> rw [State.running, h] <;> rfl

theorem tick_porHeld {s : State} (h : s.boot.stage = 0) : tick s = s := by
  simp [tick, State.running_eq_false (.inl h), h]

theorem tick_devReset {s : State} (h : s.boot.stage = 4) : tick s = { s with time := { s.time with
    elapsed := s.time.elapsed + Config.cycleTime s.time.cycles, cycles := s.time.cycles + 1 } } := by
  simp [tick, State.running_eq_false (.inr h), h]

/-- A steady cycle: every counter and elapsed time advance by its length. -/
theorem tick_steady {s : State} (hrun : s.running = true) (hfreq : s.time.freq = 0) (hslew : s.time.slew = 0) :
    tick s = { s with time := { s.time with
      c0 := (s.time.c0 + Config.cycleTime s.time.cycles) % timeModulus
      c1 := (s.time.c1 + Config.cycleTime s.time.cycles) % timeModulus
      c2 := (s.time.c2 + Config.cycleTime s.time.cycles) % timeModulus
      elapsed := s.time.elapsed + Config.cycleTime s.time.cycles
      cycles := s.time.cycles + 1 } } := by
  have helapsed : ((s.time.elapsed : Int) + Config.cycleTime s.time.cycles).toNat =
      s.time.elapsed + Config.cycleTime s.time.cycles := by omega
  simp only [tick, if_pos hrun, hfreq, hslew, freqPart_zero, slewPart_zero, add_zero, advance_nat, helapsed, sub_zero]

theorem tick_time (s : State) : ∃ x : TimeSt, tick s = { s with time := x } := by
  unfold tick
  split
  · exact ⟨_, rfl⟩
  · split
    · exact ⟨_, rfl⟩
    · exact ⟨s.time, rfl⟩

/-- Settles O2: an idle step is one cycle, by whether the device is held in reset or runs. -/
theorem idleStepIsOneCycle : Obligations.IdleStepIsOneCycle := by
  unfold Obligations.IdleStepIsOneCycle
  intro s hidle
  rw [step_idle hidle]
  obtain ⟨x, hx⟩ := tick_time s
  exact ⟨fun h => congrArg _ (tick_porHeld h), fun h => congrArg _ (tick_devReset h),
    fun hrun hfreq hslew => congrArg _ (tick_steady hrun hfreq hslew), x, congrArg _ hx⟩

end Sys2Proof.Machine
end

section
/-! PROOFS. SET, STEP, FREQ and SLEW of device time (R258 to R260, R293). -/

namespace Sys2Proof.Machine

/-! ### A jump of device time (R259) -/

theorem PostFrame.time {s t : State} (h : PostFrame s t) : t.time = s.time := by rw [h]

theorem State.post_time (s : State) (type sub src : Nat) (payload : List Byte) :
    (s.post type sub src payload).time = s.time := (PostFrame.postAt s _ _ _ _ _ _).time

theorem State.completeCmd_time (s : State) (n : Nat) (d : List Byte) (st res : Nat) :
    (s.completeCmd n d st res).time = s.time := (PostFrame.of_return (ReturnFrame.completeCmd n s d st res)).time

theorem State.judgeGates_time (s : State) (p ns : Nat) : (s.judgeGates p ns).time = s.time := by
  unfold State.judgeGates
  split <;> rfl

theorem State.schedApply_time (s : State) : s.schedApply.time = s.time := by
  unfold State.schedApply
  dsimp only
  split
  · split
    · rfl
    · exact State.post_time _ _ _ _ _
  · rfl

theorem State.secondStep_time (s : State) (ns : Nat) :
    (s.secondStep ns).time = { s.time with second := ns / 1000000000 } := by
  obtain ⟨_, _, hports⟩ := SecondFrame.foldl SecondFrame.portSecond
    ((List.range 1024).filter fun p => s.portLive p && (s.link p).secOn) s
  rw [State.secondStep, hports]

theorem State.bwWindow_time (s : State) (fin now : Nat) :
    (s.bwWindow fin now).time = { s.time with bwWin := (s.bwWindow fin now).time.bwWin } := by
  obtain ⟨-, -, hshape⟩ := s.bwWindow_ends fin now
  rw [hshape]

/-- A jump loads the counters, sets SET and leaves no slew; beside them it begins a second and a bandwidth window anew,
and moves the ends of pulses. -/
theorem State.jump_time (s : State) (new : Tick) (sub : Nat) : ∃ sec win pulses, (s.jump new sub).time = { s.time with
    c0 := new, c1 := new, c2 := new, slew := 0, slewing := false, isSet := true
    second := sec, bwWin := win, pps := pulses } := by
  unfold State.jump
  extract_lets old s0 s1 x1 s2 s3 power
  have hjudged : s0.time = s.time :=
    List.foldlRecOn _ _ (motive := fun t : State => t.time = s.time) rfl
      fun t ht p _ => (t.judgeGates_time p _).trans ht
  have hwindow := (s0.secondStep (toNs new)).bwWindow_time (toNs old) (toNs new)
  rw [State.secondStep_time, hjudged] at hwindow
  have hloaded : s1.time = { ((s0.secondStep (toNs new)).bwWindow (toNs old) (toNs new)).time with
      c0 := new, c1 := new, c2 := new } := rfl
  rw [hwindow] at hloaded
  clear_value s1
  have hset : s2.time = { s1.time with slew := 0, slewing := false, isSet := true, pps := s2.time.pps } := rfl
  have hposted : s3.time = s2.time := State.post_time _ _ _ _ _
  rw [hset, hloaded] at hposted
  refine ⟨_, _, _, Eq.trans ?_ hposted⟩
  split
  · rfl
  · exact State.schedApply_time s3

/-! ### The range of device time (R259) -/

theorem State.moved_inside {s : State} {d : Int} (hlow : 0 ≤ (s.now : Int) + d)
    (hhigh : (s.now : Int) + d < 2 ^ 104) : s.moved d = some ((s.now : Int) + d).toNat := by
  have hmod : (timeModulus : Int) = 2 ^ 104 := rfl
  rw [State.moved, hmod]
  exact if_neg (by omega)

theorem State.moved_outside {s : State} {d : Int} (h : (s.now : Int) + d < 0 ∨ 2 ^ 104 ≤ (s.now : Int) + d) :
    s.moved d = none := by
  have hmod : (timeModulus : Int) = 2 ^ 104 := rfl
  rw [State.moved, hmod]
  exact if_pos h

theorem tickNs_int : (tickNs : Int) = 2 ^ 40 := rfl

/-- The offset of a STEP (R259). -/
def stepOffset (c : Cmd) : Int := c.p0.toInt * tickNs + c.p2.toNat * 2 ^ 24

theorem now_add_stepOffset (s : State) (c : Cmd) :
    (s.now : Int) + stepOffset c = (s.now : Int) + c.p0.toInt * 2 ^ 40 + c.p2.toNat * 2 ^ 24 := by
  rw [stepOffset, tickNs_int, add_assoc]

/-- An offset of whole nanoseconds is none exactly where P0 is 0. -/
theorem offset_ne_zero_iff (c : Cmd) : c.p0.toInt * 2 ^ 40 ≠ 0 ↔ c.p0 ≠ 0 := by
  have hzero : c.p0.toInt = 0 ↔ c.p0 = 0 := by
    rw [← BitVec.toInt_inj]
    rfl
  rw [mul_ne_zero_iff_right (by decide), ne_eq, hzero]

/-! ### What the four commands answer (R259, R260) -/

/-- BUSY while the boundary clock service owns device time, else the answer of `f`. -/
def unlessOwned (f : State → CmdOut) (s : State) : CmdOut := if s.bcOwns then .ret s stBusy 0 else f s

/-- The acceptance of a command does not bear on who owns device time. -/
theorem unlessOwned_owned {f : State → CmdOut} {op : Nat} {c : Cmd} {s : State} (h : s.bcOwns = true) :
    unlessOwned f (accepted op c s) = .ret (accepted op c s) stBusy 0 := if_pos h

theorem unlessOwned_free {f : State → CmdOut} {op : Nat} {c : Cmd} {s : State} (h : s.bcOwns = false) :
    unlessOwned f (accepted op c s) = f (accepted op c s) := if_neg (Bool.eq_false_iff.mp h)

def setAnswer (c : Cmd) (s : State) : CmdOut :=
  .ret (s.jump (nsT c.p0.toNat + c.p2.toNat * 2 ^ 24) 0) stOk 0

def stepAnswer (c : Cmd) (s : State) : CmdOut :=
  match s.moved (stepOffset c) with
  | some t => .ret (s.jump t 1) stOk 0
  | none => .ret s stInvalid 0

theorem stepAnswer_inside {c : Cmd} {s : State} (hlow : 0 ≤ (s.now : Int) + stepOffset c)
    (hhigh : (s.now : Int) + stepOffset c < 2 ^ 104) :
    stepAnswer c s = .ret (s.jump ((s.now : Int) + stepOffset c).toNat 1) stOk 0 := by
  rw [stepAnswer, State.moved_inside hlow hhigh]

theorem stepAnswer_outside {c : Cmd} {s : State}
    (h : (s.now : Int) + stepOffset c < 0 ∨ 2 ^ 104 ≤ (s.now : Int) + stepOffset c) :
    stepAnswer c s = .ret s stInvalid 0 := by
  rw [stepAnswer, State.moved_outside h]

def freqAnswer (v : Int) (s : State) : CmdOut :=
  if v < -freqMax ∨ freqMax < v then .ret s stInvalid 0 else .ret (s.setFreq v) stOk 0

def slewAnswer (d : Int) (s : State) : CmdOut :=
  match s.moved d with
  | some _ => .ret (s.startSlew d) stOk 0
  | none => .ret s stInvalid 0

theorem slewAnswer_inside {d : Int} {s : State} (hlow : 0 ≤ (s.now : Int) + d) (hhigh : (s.now : Int) + d < 2 ^ 104) :
    slewAnswer d s = .ret (s.startSlew d) stOk 0 := by
  rw [slewAnswer, State.moved_inside hlow hhigh]

theorem slewAnswer_outside {d : Int} {s : State} (h : (s.now : Int) + d < 0 ∨ 2 ^ 104 ≤ (s.now : Int) + d) :
    slewAnswer d s = .ret s stInvalid 0 := by
  rw [slewAnswer, State.moved_outside h]

theorem exec_timeSet (c : Cmd) (s : State) : exec (.timeSet c) s =
    gated s (runCmd 0x30 c (c.p1 == 0 && p2Below c 16) (unlessOwned (setAnswer c))) := rfl

theorem exec_timeStep (c : Cmd) (s : State) : exec (.timeStep c) s =
    gated s (runCmd 0x31 c (c.p1 == 0 && p2Below c 16) (unlessOwned (stepAnswer c))) := rfl

theorem exec_timeFreq (c : Cmd) (s : State) : exec (.timeFreq c) s =
    gated s (runCmd 0x32 c (c.p0 == 0 && c.p1 == 0) (unlessOwned (freqAnswer c.p2.toInt))) := rfl

theorem exec_timeSlew (c : Cmd) (s : State) : exec (.timeSlew c) s =
    gated s (runCmd 0x33 c (c.p1 == 0 && c.p2 == 0) (unlessOwned (slewAnswer (c.p0.toInt * 2 ^ 40)))) := rfl

theorem jumpParamsOk {c : Cmd} (h1 : c.p1 = 0) (h2 : c.p2.toNat < 65536) : (c.p1 == 0 && p2Below c 16) = true := by
  simp [h1, p2Below, h2]

theorem freqParamsOk {c : Cmd} (h0 : c.p0 = 0) (h1 : c.p1 = 0) : (c.p0 == 0 && c.p1 == 0) = true := by simp [h0, h1]

theorem slewParamsOk {c : Cmd} (h1 : c.p1 = 0) (h2 : c.p2 = 0) : (c.p1 == 0 && c.p2 == 0) = true := by simp [h1, h2]

/-- A served command whose effect is a jump to `new`. -/
theorem yields_jump {i : Instr} {op : Nat} {c : Cmd} {ok : Bool} {f : State → CmdOut} {s : State} {new : Tick}
    {sub : Nat} (hx : exec i s = gated s (runCmd op c ok f)) (ho : op < 65536) (ht : Takes s c) (hok : ok = true)
    (hf : f (accepted op c s) = .ret ((accepted op c s).jump new sub) stOk 0) : Yields i s fun t =>
      Answered t c op stOk 0 ∧ t.time.c0 = new ∧ t.time.c1 = t.time.c0 ∧ t.time.c2 = t.time.c0 ∧
      t.time.slew = 0 ∧ t.time.slewing = false ∧ t.time.isSet = true ∧ t.elapsed = s.elapsed := by
  refine ⟨_, exec_eq_completeCmd hx ht hok hf, answered_completeCmd ho c _ _ _, ?_⟩
  obtain ⟨sec, win, pulses, hjump⟩ := (accepted op c s).jump_time new sub
  rw [State.elapsed, State.completeCmd_time, hjump]
  exact ⟨rfl, rfl, rfl, rfl, rfl, rfl, rfl⟩

section
variable {c : Cmd} {s : State} (ht : Takes s c) (hfree : s.bcOwns = false)
include ht hfree

theorem timeSet_sets (h1 : c.p1 = 0) (h2 : c.p2.toNat < 65536) : Yields (.timeSet c) s fun t =>
    Answered t c 0x0030 stOk 0 ∧ t.time.c0 = c.p0.toNat * 2 ^ 40 + c.p2.toNat * 2 ^ 24 ∧ t.time.c1 = t.time.c0 ∧
    t.time.c2 = t.time.c0 ∧ t.time.slew = 0 ∧ t.time.slewing = false ∧ t.time.isSet = true ∧ t.elapsed = s.elapsed :=
  yields_jump (exec_timeSet c s) (by decide) ht (jumpParamsOk h1 h2) (unlessOwned_free hfree)

theorem timeStep_steps (h1 : c.p1 = 0) (h2 : c.p2.toNat < 65536) (hlow : 0 ≤ (s.now : Int) + stepOffset c)
    (hhigh : (s.now : Int) + stepOffset c < 2 ^ 104) : Yields (.timeStep c) s fun t =>
      Answered t c 0x0031 stOk 0 ∧ (t.time.c0 : Int) = (s.now : Int) + stepOffset c ∧ t.time.c1 = t.time.c0 ∧
      t.time.c2 = t.time.c0 ∧ t.time.slew = 0 ∧ t.time.slewing = false ∧ t.time.isSet = true ∧
      t.elapsed = s.elapsed := by
  obtain ⟨t, hexec, hans, hc0, hrest⟩ := yields_jump (exec_timeStep c s) (by decide) ht (jumpParamsOk h1 h2)
    ((unlessOwned_free hfree).trans (stepAnswer_inside hlow hhigh))
  exact ⟨t, hexec, hans, (congrArg Nat.cast hc0).trans (Int.toNat_of_nonneg hlow), hrest⟩

theorem timeStep_refused (h1 : c.p1 = 0) (h2 : c.p2.toNat < 65536)
    (hout : (s.now : Int) + stepOffset c < 0 ∨ 2 ^ 104 ≤ (s.now : Int) + stepOffset c) :
    Yields (.timeStep c) s fun t => Returns s t c 0x0031 stInvalid 0 :=
  yields_returns (exec_timeStep c s) (by decide) ht (jumpParamsOk h1 h2)
    ((unlessOwned_free hfree).trans (stepAnswer_outside hout))

theorem timeFreq_adjusts (h0 : c.p0 = 0) (h1 : c.p1 = 0) (hlow : -128000000 ≤ c.p2.toInt)
    (hhigh : c.p2.toInt ≤ 128000000) : Yields (.timeFreq c) s fun t =>
      Returns (s.setFreq c.p2.toInt) t c 0x0032 stOk 0 := by
  have hin : ¬(c.p2.toInt < -freqMax ∨ freqMax < c.p2.toInt) := by
    unfold freqMax
    omega
  exact yields_effect (exec_timeFreq c s) (by decide) ht (freqParamsOk h0 h1)
    ((unlessOwned_free hfree).trans (if_neg hin))

theorem timeFreq_refused (h0 : c.p0 = 0) (h1 : c.p1 = 0)
    (hout : c.p2.toInt < -128000000 ∨ 128000000 < c.p2.toInt) :
    Yields (.timeFreq c) s fun t => Returns s t c 0x0032 stInvalid 0 :=
  yields_returns (exec_timeFreq c s) (by decide) ht (freqParamsOk h0 h1)
    ((unlessOwned_free hfree).trans (if_pos hout))

theorem timeSlew_starts (h1 : c.p1 = 0) (h2 : c.p2 = 0) (hlow : 0 ≤ (s.now : Int) + c.p0.toInt * 2 ^ 40)
    (hhigh : (s.now : Int) + c.p0.toInt * 2 ^ 40 < 2 ^ 104) : Yields (.timeSlew c) s fun t =>
      Returns (s.startSlew (c.p0.toInt * 2 ^ 40)) t c 0x0033 stOk 0 :=
  yields_effect (exec_timeSlew c s) (by decide) ht (slewParamsOk h1 h2)
    ((unlessOwned_free hfree).trans (slewAnswer_inside hlow hhigh))

theorem timeSlew_refused (h1 : c.p1 = 0) (h2 : c.p2 = 0)
    (hout : (s.now : Int) + c.p0.toInt * 2 ^ 40 < 0 ∨ 2 ^ 104 ≤ (s.now : Int) + c.p0.toInt * 2 ^ 40) :
    Yields (.timeSlew c) s fun t => Returns s t c 0x0033 stInvalid 0 :=
  yields_returns (exec_timeSlew c s) (by decide) ht (slewParamsOk h1 h2)
    ((unlessOwned_free hfree).trans (slewAnswer_outside hout))

end

/-- Settles O17: each command by the range of what it asks for, on the state in which it is accepted. -/
theorem timeCommands : Obligations.TimeCommands := by
  unfold Obligations.TimeCommands
  intro c s ht hfree
  simp only [← now_add_stepOffset, ← offset_ne_zero_iff]
  exact ⟨timeSet_sets ht hfree, timeStep_steps ht hfree, timeStep_refused ht hfree, timeFreq_adjusts ht hfree,
    timeFreq_refused ht hfree, timeSlew_starts ht hfree, timeSlew_refused ht hfree⟩

end Sys2Proof.Machine
end

section
/-! PROOFS. The boundary clock service as the owner of device time (R259, R260, R267 to R271). -/

namespace Sys2Proof.Machine

/-! ### TIME_STAT.BC_OWNS (R260, R271) -/

theorem State.bcOwns_iff (s : State) : s.bcOwns = true ↔ ∃ e ∈ s.time.bcPorts, e.2 = 8 ∨ e.2 = 9 := by
  simp only [State.bcOwns, List.any_eq_true, Bool.or_eq_true, beq_iff_eq]

/-- Who owns device time is in the states of the service's ports alone. -/
theorem bcOwns_of_ports {s t : State} (h : t.time.bcPorts = s.time.bcPorts) : t.bcOwns = s.bcOwns := by
  rw [State.bcOwns, h, ← State.bcOwns]

/-- A bit of a value that a register holds. -/
theorem rbit_ofNat {i : Nat} (hi : i < 32) (v : Nat) : rbit (BitVec.ofNat 32 v) i = bit v i := by
  rw [rbit, bit_eq_testBit, bit_eq_testBit, BitVec.toNat_ofNat, Nat.testBit_mod_two_pow]
  simp [hi]

/-- The fields of TIME_STAT hold BC_OWNS in bit 8 (R271). -/
theorem State.bit_readTime_bcOwns (s : State) : bit (s.readTime A.timeStat) 8 = s.bcOwns := by
  have hfield : s.readTime A.timeStat / 2 ^ 8 % 2 = b2n s.bcOwns % 2 := by
    rw [State.readTime, if_pos rfl]
    simp only [at_]
    omega
  have hflag (b : Bool) : (b2n b % 2 == 1) = b := by cases b <;> rfl
  rw [bit, hfield, hflag]

theorem State.rbit_readReg_bcOwns {s : State} (hrun : s.running = true) : rbit (s.readReg A.timeStat) 8 = s.bcOwns := by
  rw [State.readReg_running hrun (by decide) (by decide), rbit_ofNat (by decide)]
  exact s.bit_readTime_bcOwns

/-! ### The host's commands while the service owns device time (R260) -/

section
variable {c : Cmd} {s : State} (ht : Takes s c) (howned : s.bcOwns = true)
include ht howned

theorem timeCommand_busy {i : Instr} {op : Nat} {ok : Bool} {f : State → CmdOut}
    (hx : exec i s = gated s (runCmd op c ok (unlessOwned f))) (ho : op < 65536) (hok : ok = true) :
    Yields i s fun t => Returns s t c op stBusy 0 :=
  yields_returns hx ho ht hok (unlessOwned_owned howned)

end

/-! ### Messages of the service (R259, R260, R268 to R270) -/

/-- A gated command leaves the state as it is or has its effect. -/
theorem gated_next {s t : State} {f : State → State} (h : gated s f = .next t) : t = s ∨ t = f s := by
  unfold gated at h
  split at h
  · cases h
  · split at h
    · exact .inr (Host.Outcome.next.inj h).symm
    · exact .inl (Host.Outcome.next.inj h).symm

/-- A correction changes no port's state. -/
theorem State.steer_bcPorts (s : State) (x : Steer) : (s.steer x).time.bcPorts = s.time.bcPorts := by
  have hjump (new : Tick) (sub : Nat) : (s.jump new sub).time.bcPorts = s.time.bcPorts := by
    obtain ⟨_, _, _, h⟩ := s.jump_time new sub
    rw [h]
  cases x with
  | none => rfl
  | set ns frac => exact hjump _ 0
  | step ns =>
    rw [State.steer]
    split
    · exact hjump _ 1
    · rfl
  | freq adj =>
    rw [State.steer]
    split <;> rfl
  | slew ns =>
    rw [State.steer]
    split <;> rfl

/-- A PTP frame after which the service does not own device time has steered nothing. -/
theorem State.takePtp_freq_of_free {s : State} {f : WholeFrame} {st cl : Nat} {x : Steer}
    (h : (s.takePtp f st cl x).bcOwns = false) : (s.takePtp f st cl x).time.freq = s.time.freq := by
  unfold State.takePtp at h ⊢
  dsimp only at h ⊢
  split at h
  · next howns =>
    rw [bcOwns_of_ports (State.steer_bcPorts _ x), howns] at h
    cases h
  · next hfree =>
    rw [if_neg hfree]
    rfl

theorem bcMessageReceive_freq {st cl : Nat} {x : Steer} {s t : State} (h : exec (.bcMessageReceive st cl x) s = .next t)
    (hfree : t.bcOwns = false) : t.time.freq = s.time.freq := by
  change execBcMessageReceive st cl x s = _ at h
  rcases gated_next h with rfl | rfl
  · rfl
  · revert hfree
    split
    · exact fun _ => rfl
    · split
      · exact fun _ => rfl
      · dsimp only
        split
        · exact fun _ => rfl
        · split
          · exact fun _ => rfl
          · exact fun hfree => State.takePtp_freq_of_free hfree

theorem freq_of_still {s t : State} (h : t.still = s.still) : t.time.freq = s.time.freq :=
  (congrArg (fun u => u.time.freq) h :)

theorem State.portIn_time (s : State) (p n : Nat) : (s.portIn p n).time = s.time := by
  obtain ⟨_, hshape⟩ := s.portIn_shape p n
  rw [hshape]

theorem State.flushRedOut_freq (s : State) : s.flushRedOut.time.freq = s.time.freq := by
  unfold State.flushRedOut
  split
  · rfl
  next f fs _ =>
    have hsent := freq_of_still (s.injectTo_still s.tour.attSvc 3 64 f.ctx f.hdr f.bytes)
    dsimp only
    split
    · exact hsent
    · exact (congrArg TimeSt.freq (State.portIn_time _ _ _)).trans hsent

/-- A message that the service sends steers nothing: it is a frame like any other. -/
theorem State.injectBuilt_freq (s : State) (c : Ctx) (h : FrameHdr) (bs : List Byte) :
    (s.injectBuilt c h bs).time.freq = s.time.freq := State.flushRedOut_freq _

theorem State.sendBc_freq (s : State) (m : BcDue) : (s.sendBc m).time.freq = s.time.freq := by
  unfold State.sendBc
  dsimp only
  split
  · rfl
  · rw [State.injectBuilt_freq]
    split
    · rfl
    · split <;> rfl

theorem bcMessageDue_freq {m : BcDue} {s t : State} (h : exec (.bcMessageDue m) s = .next t) :
    t.time.freq = s.time.freq := by
  change execBcMessageDue m s = _ at h
  rcases gated_next h with rfl | rfl
  · rfl
  · split
    · rfl
    · split
      · rfl
      · unfold State.bcDue
        dsimp only
        split
        · exact State.sendBc_freq _ m
        · rfl

/-- Settles O16: the owner by the states of the ports, the commands' answers by the owner, and the messages by what they
may steer. -/
theorem serviceOwnsTime : Obligations.ServiceOwnsTime := by
  unfold Obligations.ServiceOwnsTime
  exact ⟨State.bcOwns_iff, fun s hu => State.rbit_readReg_bcOwns hu.2, fun c s ht howned =>
    ⟨fun h1 h2 => timeCommand_busy ht howned (exec_timeSet c s) (by decide) (jumpParamsOk h1 h2),
      fun h1 h2 => timeCommand_busy ht howned (exec_timeStep c s) (by decide) (jumpParamsOk h1 h2),
      fun h0 h1 => timeCommand_busy ht howned (exec_timeFreq c s) (by decide) (freqParamsOk h0 h1),
      fun h1 h2 => timeCommand_busy ht howned (exec_timeSlew c s) (by decide) (slewParamsOk h1 h2)⟩,
    fun _ _ _ _ _ h hfree => bcMessageReceive_freq h hfree, fun _ _ _ h => bcMessageDue_freq h⟩

end Sys2Proof.Machine
end

section
/-! SUPPORT. The vote of the three counters and the end of a slew (R257, R259). -/

namespace Sys2Proof.Machine

/-- The counters after a comparison that sees `a`, `b` and `c`, with the event that it raises (R257). -/
def State.compared (s : State) (a b c : Tick) : State :=
  if a / 2 ^ 24 = b / 2 ^ 24 ∧ b / 2 ^ 24 = c / 2 ^ 24 then { s with time := { s.time with c0 := a, c1 := b, c2 := c } }
  else if a / 2 ^ 24 = b / 2 ^ 24 then (s.loadTime a).faultEvent 12 0 2
  else if a / 2 ^ 24 = c / 2 ^ 24 then (s.loadTime a).faultEvent 12 0 1
  else if b / 2 ^ 24 = c / 2 ^ 24 then (s.loadTime b).faultEvent 12 0 0
  else (s.loadTime (votedTick a b c)).faultEvent 12 0 0 0 true

section
variable {s : State} {a b c : Tick}

theorem State.compared_agree (hab : a / 2 ^ 24 = b / 2 ^ 24) (hbc : b / 2 ^ 24 = c / 2 ^ 24) :
    s.compared a b c = { s with time := { s.time with c0 := a, c1 := b, c2 := c } } := if_pos ⟨hab, hbc⟩

theorem State.compared_third (hab : a / 2 ^ 24 = b / 2 ^ 24) (hbc : b / 2 ^ 24 ≠ c / 2 ^ 24) :
    s.compared a b c = (s.loadTime a).faultEvent 12 0 2 := by
  rw [State.compared, if_neg fun h => hbc h.2, if_pos hab]

theorem State.compared_second (hac : a / 2 ^ 24 = c / 2 ^ 24) (hbc : b / 2 ^ 24 ≠ c / 2 ^ 24) :
    s.compared a b c = (s.loadTime a).faultEvent 12 0 1 := by
  have hab : a / 2 ^ 24 ≠ b / 2 ^ 24 := fun h => hbc (h.symm.trans hac)
  rw [State.compared, if_neg fun h => hbc h.2, if_neg hab, if_pos hac]

theorem State.compared_first (hbc : b / 2 ^ 24 = c / 2 ^ 24) (hab : a / 2 ^ 24 ≠ b / 2 ^ 24) :
    s.compared a b c = (s.loadTime b).faultEvent 12 0 0 := by
  have hac : a / 2 ^ 24 ≠ c / 2 ^ 24 := fun h => hab (h.trans hbc.symm)
  rw [State.compared, if_neg fun h => hab h.1, if_neg hab, if_neg hac, if_pos hbc]

theorem State.compared_none (hab : a / 2 ^ 24 ≠ b / 2 ^ 24) (hbc : b / 2 ^ 24 ≠ c / 2 ^ 24)
    (hac : a / 2 ^ 24 ≠ c / 2 ^ 24) :
    s.compared a b c = (s.loadTime (votedTick a b c)).faultEvent 12 0 0 0 true := by
  rw [State.compared, if_neg fun h => hab h.1, if_neg hab, if_neg hac, if_neg hbc]

end

section
variable {s : State} (hu : Up s)
include hu

theorem timeVote_eq (o0 o1 o2 : Int) : exec (.timeVote o0 o1 o2) s =
    .next (s.compared (upset s.time.c0 o0) (upset s.time.c1 o1) (upset s.time.c2 o2)) := by
  change execTimeVote o0 o1 o2 s = _
  rw [execTimeVote, gated_up hu]
  rfl

theorem slewComplete_done (h : s.time.slew = 0) :
    exec .slewComplete s = .next { s with time := { s.time with slewing := false } } := by
  change execSlewComplete s = _
  rw [execSlewComplete, gated_up hu, if_pos h]

theorem slewComplete_runs (h : s.time.slew ≠ 0) : exec .slewComplete s = .next s := by
  change execSlewComplete s = _
  rw [execSlewComplete, gated_up hu, if_neg h]

end

end Sys2Proof.Machine
end

section
/-! SUPPORT. The references of device time: lost, returned, and chosen (R256). -/

namespace Sys2Proof.Machine

/-! ### An event of source 13 leaves the references alone -/

/-- The same references are present, and device time is the same. -/
structure SameRefs (s t : State) : Prop where
  refclk : t.nv.refclk = s.nv.refclk
  timeclk : t.nv.timeclk = s.nv.timeclk
  time : t.time = s.time

theorem SameRefs.refl (s : State) : SameRefs s s := ⟨rfl, rfl, rfl⟩

theorem SameRefs.trans {s t u : State} (h : SameRefs s t) (k : SameRefs t u) : SameRefs s u :=
  ⟨k.refclk.trans h.refclk, k.timeclk.trans h.timeclk, k.time.trans h.time⟩

theorem SameRefs.ite {p : Prop} [Decidable p] {s t u : State} (ht : SameRefs s t) (hu : SameRefs s u) :
    SameRefs s (if p then t else u) := by
  split
  · exact ht
  · exact hu

/-- An operation on the other parts of the device. -/
theorem SameRefs.of_eq {s t : State} (h : (t.nv.refclk, t.nv.timeclk, t.time) = (s.nv.refclk, s.nv.timeclk, s.time)) :
    SameRefs s t := by
  simp only [Prod.mk.injEq] at h
  obtain ⟨hrefclk, htimeclk, htime⟩ := h
  exact ⟨hrefclk, htimeclk, htime⟩

theorem SameRefs.post (s : State) (type sub src : Nat) (payload : List Byte) :
    SameRefs s (s.post type sub src payload) := by
  rw [State.post, PostFrame.postAt]
  exact .of_eq rfl

theorem SameRefs.latchFirst (s : State) (n sev : Nat) : SameRefs s (s.latchFirst n sev) := by
  unfold State.latchFirst
  split <;> exact .of_eq rfl

theorem SameRefs.logFault (s : State) (r : List Nat) : SameRefs s (s.logFault r) :=
  .ite (.of_eq (by rfl)) (.ite (SameRefs.trans (.of_eq (by rfl)) (.post _ _ _ _ _)) (.of_eq (by rfl)))

theorem SameRefs.recordFault (s : State) (n detail concerned cause : Nat) (forced : Bool) :
    SameRefs s (s.recordFault n detail concerned cause forced).1 := by
  have hlatched (x : Src) (sev : Nat) : SameRefs s ((s.modSrc n fun _ => x).latchFirst n sev) :=
    SameRefs.trans (.of_eq (by rfl)) (.latchFirst _ n sev)
  unfold State.recordFault
  dsimp only
  generalize srcAfter (s.faultCfgOf n) forced s.elapsed (s.src n) = x
  have hlogged (r : List Nat) : SameRefs s (if x.st = (s.src n).st then (s.modSrc n fun _ => x).latchFirst n x.st.code
      else ((s.modSrc n fun _ => x).latchFirst n x.st.code).logFault r) :=
    .ite (hlatched x _) ((hlatched x _).trans (.logFault _ r))
  exact .ite (hlogged _) ((hlogged _).trans (.post _ _ _ _ _))

/-- Source 13 is no channel's and no square's: its reaction is at most a hold. -/
theorem SameRefs.faultEvent (s : State) : SameRefs s (s.faultEvent 13) := by
  have hreact (u : State) (code : Nat) : SameRefs u (u.react 13 code) :=
    .ite (.refl u) (.ite (.refl u) (.ite (.ite (.refl u) (.of_eq (by rfl))) (.refl u)))
  exact .ite ((SameRefs.recordFault s 13 0 0 0 false).trans (hreact _ _)) (.refl s)

theorem SameRefs.lowRef {s t : State} (h : SameRefs s t) : t.lowRef = s.lowRef := by
  rw [State.lowRef, h.refclk, ← State.lowRef]

/-! ### The choice of the reference (R256) -/

/-- The reference that TIME_CFG.SRC selects is lost. -/
def State.refLost (s : State) : Bool := if s.srcTclk then !(s.nv.timeclk && s.time.tclkOk) else s.lowRef.isNone

/-- What the choice of the reference leaves: the references present, and the three fields that it sets from them. -/
structure Chosen (s t : State) : Prop where
  refclk : t.nv.refclk = s.nv.refclk
  timeclk : t.nv.timeclk = s.nv.timeclk
  time : t.time = { s.time with
    holdover := s.refLost, noRef := s.refLost && s.lowRef.isNone, refUsed := s.lowRef.getD s.time.refUsed }

theorem Chosen.of_refs {s t : State} (h : SameRefs s.chooseRef t) : Chosen s t :=
  ⟨h.refclk, h.timeclk, h.time⟩

theorem Chosen.lowRef {s t : State} (h : Chosen s t) : t.lowRef = s.lowRef := by
  rw [State.lowRef, h.refclk, ← State.lowRef]

theorem Chosen.useRef (s : State) : Chosen s s.useRef := .of_refs (.ite (.faultEvent _) (.refl _))

/-- A REFCLK that is present is a reference. -/
theorem State.lowRef_isNone {s : State} {k : Nat} (hk : k < 16) (h : bit s.nv.refclk k = true) :
    s.lowRef.isNone = false := by
  rw [Option.isNone_eq_false_iff, State.lowRef, List.find?_isSome]
  exact ⟨k, List.mem_range.mpr hk, h⟩

/-! ### TIME_REF_LOSS and TIME_REF_RETURN (R256) -/

/-- REFCLK `k` or TIMECLK_IN is gone; a TIMECLK_IN that returns has its 10 ms before it. -/
def State.refGone (s : State) (isTimeclk : Bool) (k : Nat) : State :=
  if isTimeclk then { s with nv := { s.nv with timeclk := false }, time := { s.time with tclkOk := false } }
  else s.setPresent false k false

/-- REFCLK `k` or TIMECLK_IN is back, with good edges for `ns`. -/
def State.refBack (s : State) (isTimeclk : Bool) (k ns : Nat) : State :=
  let s0 := s.setPresent isTimeclk k true
  { s0 with time := { s0.time with tclkOk := s0.time.tclkOk || (isTimeclk && decide (10000000 ≤ ns)) } }

theorem timeRefLoss_eq {s : State} (hu : Up s) (isTimeclk : Bool) (k : Nat) :
    exec (.timeRefLoss isTimeclk k) s = .next (s.refGone isTimeclk k).useRef := by
  change execTimeRefLoss isTimeclk k s = _
  rw [execTimeRefLoss, gated_up hu]
  cases isTimeclk <;> rfl

theorem timeRefReturn_chooses {s : State} (hw : Wired s) (isTimeclk : Bool) (k ns : Nat) :
    Yields (.timeRefReturn isTimeclk k ns) s (Chosen (s.refBack isTimeclk k ns)) := by
  have hx : exec (.timeRefReturn isTimeclk k ns) s = .next (
      if !s.time.holdover && refChanged s (s.refBack isTimeclk k ns).chooseRef then
        (s.refBack isTimeclk k ns).chooseRef.faultEvent 13
      else (s.refBack isTimeclk k ns).chooseRef) := by
    change execTimeRefReturn isTimeclk k ns s = _
    rw [execTimeRefReturn, atPins_wired hw]
    rfl
  exact ⟨_, hx, .of_refs (.ite (.faultEvent _) (.refl _))⟩

section
variable {s : State} (hu : Up s) (k : Nat)
include hu

theorem timeRefLoss_refclk : Yields (.timeRefLoss false k) s fun t =>
    bit t.nv.refclk k = false ∧ t.nv.timeclk = s.nv.timeclk ∧ t.time.refUsed = t.lowRef.getD s.time.refUsed ∧
    t.time.holdover = (if s.srcTclk then !(s.nv.timeclk && s.time.tclkOk) else t.lowRef.isNone) ∧
    t.time.noRef = (t.time.holdover && t.lowRef.isNone) := by
  have hchosen := Chosen.useRef (s.refGone false k)
  refine ⟨_, timeRefLoss_eq hu false k, ?_, hchosen.timeclk, ?_⟩
  · rw [hchosen.refclk]
    exact bit_setBit_self _ _ _
  · rw [hchosen.time, hchosen.lowRef]
    exact ⟨rfl, rfl, rfl⟩

theorem timeRefLoss_timeclk : Yields (.timeRefLoss true k) s fun t =>
    t.nv.timeclk = false ∧ t.nv.refclk = s.nv.refclk ∧ t.time.tclkOk = false ∧
    t.time.holdover = (s.srcTclk || s.lowRef.isNone) := by
  have hchosen := Chosen.useRef (s.refGone true k)
  have hlost : (s.refGone true k).refLost = (s.srcTclk || s.lowRef.isNone) := by
    change (if s.srcTclk = true then true else s.lowRef.isNone) = _
    cases s.srcTclk <;> rfl
  refine ⟨_, timeRefLoss_eq hu true k, hchosen.timeclk, hchosen.refclk, ?_⟩
  rw [hchosen.time, hlost]
  exact ⟨rfl, rfl⟩

variable (hscan : s.pins.scan = false) (ns : Nat)
include hscan

theorem timeRefReturn_refclk (hk : k < 16) : Yields (.timeRefReturn false k ns) s fun t =>
    bit t.nv.refclk k = true ∧ t.time.refUsed = t.lowRef.getD s.time.refUsed ∧
    t.time.holdover = (s.srcTclk && !(s.nv.timeclk && s.time.tclkOk)) ∧ t.time.noRef = false := by
  obtain ⟨t, hexec, hchosen⟩ := timeRefReturn_chooses ⟨hu, hscan⟩ false k ns
  have hpresent : bit (s.refBack false k ns).nv.refclk k = true := bit_setBit_self _ _ _
  have hlow : (s.refBack false k ns).lowRef.isNone = false := State.lowRef_isNone hk hpresent
  have hlost : (s.refBack false k ns).refLost = (s.srcTclk && !(s.nv.timeclk && s.time.tclkOk)) := by
    rw [State.refLost, hlow]
    change (if s.srcTclk = true then !(s.nv.timeclk && (s.time.tclkOk || false)) else false) = _
    rw [Bool.or_false]
    cases s.srcTclk <;> rfl
  refine ⟨t, hexec, by rw [hchosen.refclk, hpresent], ?_⟩
  rw [hchosen.time, hchosen.lowRef, hlow, hlost, Bool.and_false]
  exact ⟨rfl, rfl, rfl⟩

theorem timeRefReturn_timeclk : Yields (.timeRefReturn true k ns) s fun t =>
    t.nv.timeclk = true ∧ t.nv.refclk = s.nv.refclk ∧
    t.time.tclkOk = (s.time.tclkOk || decide (10000000 ≤ ns)) ∧
    (s.srcTclk = true → t.time.holdover = !t.time.tclkOk) := by
  obtain ⟨t, hexec, hchosen⟩ := timeRefReturn_chooses ⟨hu, hscan⟩ true k ns
  refine ⟨t, hexec, hchosen.timeclk, hchosen.refclk, ?_⟩
  rw [hchosen.time]
  refine ⟨rfl, fun hsrc => ?_⟩
  exact if_pos hsrc

end

end Sys2Proof.Machine
end

section
/-! SUPPORT. The edge inputs: an edge that is taken, and the edges that wait (R264, R269, R295). -/

namespace Sys2Proof.Machine

/-! ### One edge (R264) -/

section
variable {s : State} {k : Nat} {b : Bool}

theorem State.takeEdge_unselected (h : s.edgeOn k b = false) : s.takeEdge k b = s := by
  rw [State.takeEdge, h]
  rfl

variable (h : s.edgeOn k b = true)
include h

theorem State.takeEdge_ringOff (hoff : s.isOn 5 (fld (s.reg A.timeEvtCfg) 27 16) = false) :
    s.takeEdge k b = (s.setEdges k []).count (devCtr (7 + k)) ((s.edgesOf k).length + 1) := by
  rw [State.takeEdge, h, hoff]
  rfl

variable (hon : s.isOn 5 (fld (s.reg A.timeEvtCfg) 27 16) = true)
include hon

theorem State.takeEdge_full (hfull : 64 ≤ (s.edgesOf k).length) : s.takeEdge k b = s.count (devCtr (7 + k)) 1 := by
  rw [State.takeEdge, h, hon]
  exact if_pos hfull

theorem State.takeEdge_waits (hroom : (s.edgesOf k).length < 64) : s.takeEdge k b =
    s.setEdges k (s.edgesOf k ++ [{ input := k, falling := b, stamp := s.now }]) := by
  rw [State.takeEdge, h, hon]
  exact if_neg (Nat.not_le.mpr hroom)

end

/-- The 1 PPS input gives the service a stamp, and nothing else changes (R269). -/
theorem State.takePps_shape (s : State) (k : Nat) (b : Bool) :
    ∃ x, s.takePps k b = { s with time := { s.time with bcPps := x } } := by
  unfold State.takePps
  dsimp only
  split
  · exact ⟨_, rfl⟩
  · exact ⟨s.time.bcPps, rfl⟩

theorem evtInEdge_eq {s : State} (hw : Wired s) (es : List (Nat × Bool)) : exec (.evtInEdge es) s =
    .next (es.foldl (fun u e => (u.takeEdge e.1 e.2).takePps e.1 e.2) s).drainEdges := by
  change execEvtInEdge es s = _
  rw [execEvtInEdge, atPins_wired hw]

/-! ### The edges that wait (R264) -/

theorem State.edgesOf_setEdges (s : State) (k : Nat) (es : List Edge) (j : Nat) :
    (s.setEdges k es).edgesOf j = if j = k then es else s.edgesOf j := SMap.get_set _ _ _ _ _

/-- A posted edge leaves what waits. -/
theorem State.edgesOf_postEdge (s : State) (e : Edge) (j : Nat) : (s.postEdge e).edgesOf j = s.edgesOf j := by
  have hposted : (s.postEdge e).time = s.time := (PostFrame.postAt s _ _ _ _ _ _).time
  rw [State.edgesOf, hposted, ← State.edgesOf]

theorem State.drainInput_empty {s : State} {j : Nat} (h : s.edgesOf j = []) : s.drainInput j = s := by
  rw [State.drainInput, h, List.foldl_nil]

theorem State.drainInput_one {s : State} {k : Nat} {e : Edge} (h : s.edgesOf k = [e])
    (hroom : s.evRoom (fld (s.reg A.timeEvtCfg) 27 16) = true) : s.drainInput k = (s.setEdges k []).postEdge e := by
  rw [State.drainInput, h, List.foldl_cons, List.foldl_nil, if_pos hroom, h]
  rfl

theorem State.drainInputs_empty {s : State} {l : List Nat} (h : ∀ j ∈ l, s.edgesOf j = []) :
    l.foldl State.drainInput s = s :=
  List.foldlRecOn l _ (motive := fun t => t = s) rfl fun t ht j hj => by rw [ht, State.drainInput_empty (h j hj)]

/-- A lone edge that waits is posted, where its ring takes it, and then none waits. -/
theorem State.drainEdges_lone {s : State} {k : Nat} {e : Edge} (hk : k < 4)
    (hedges : ∀ j, s.edgesOf j = if j = k then [e] else [])
    (hroom : s.evRoom (fld (s.reg A.timeEvtCfg) 27 16) = true) :
    s.drainEdges = (s.setEdges k []).postEdge e ∧ ∀ j, s.drainEdges.edgesOf j = [] := by
  obtain ⟨before, after, hsplit⟩ := List.append_of_mem (List.mem_range.mpr hk)
  have hfresh : k ∉ before := fun hmem => by
    have hnodup : (before ++ k :: after).Nodup := hsplit ▸ List.nodup_range
    exact List.disjoint_of_nodup_append hnodup hmem List.mem_cons_self
  have hnone (j : Nat) : ((s.setEdges k []).postEdge e).edgesOf j = [] := by
    rw [State.edgesOf_postEdge, State.edgesOf_setEdges]
    split
    · rfl
    · next hj => rw [hedges, if_neg hj]
  have hbefore : ∀ j ∈ before, s.edgesOf j = [] := fun j hj =>
    (hedges j).trans (if_neg (ne_of_mem_of_not_mem hj hfresh))
  have hdrained : s.drainEdges = (s.setEdges k []).postEdge e := by
    rw [State.drainEdges, hsplit, List.foldl_append, List.foldl_cons, State.drainInputs_empty hbefore,
      State.drainInput_one ((hedges k).trans (if_pos rfl)) hroom, State.drainInputs_empty fun j _ => hnone j]
  exact ⟨hdrained, fun j => by rw [hdrained, hnone]⟩

/-- A selected edge with none before it is posted at once, with the next number of its ring. -/
theorem evtInEdge_lone {s : State} (hw : Wired s) {k : Nat} {b : Bool} (hsel : s.edgeOn k b = true) (hk : k < 4)
    (hroom : s.evRoom (fld (s.reg A.timeEvtCfg) 27 16) = true) (hempty : ∀ j, s.edgesOf j = []) :
    Yields (.evtInEdge [(k, b)]) s fun t => (∀ j, t.edgesOf j = []) ∧
      SMap.get (fun _ => 0) t.host.evSeq (fld (s.reg A.timeEvtCfg) 27 16) =
        (SMap.get (fun _ => 0) s.host.evSeq (fld (s.reg A.timeEvtCfg) 27 16) + 1) % 2147483648 := by
  have hon : s.isOn 5 (fld (s.reg A.timeEvtCfg) 27 16) = true := by
    simp only [State.evRoom, State.ringIs, Bool.and_eq_true] at hroom
    obtain ⟨⟨hon, -⟩, -⟩ := hroom
    exact hon
  have hwaits := State.takeEdge_waits hsel hon (by rw [hempty]; decide)
  rw [hempty, List.nil_append] at hwaits
  obtain ⟨x, hpps⟩ := (s.takeEdge k b).takePps_shape k b
  have hedges (j : Nat) : ((s.takeEdge k b).takePps k b).edgesOf j =
      if j = k then [{ input := k, falling := b, stamp := s.now }] else [] := by
    rw [hpps, hwaits]
    exact (s.edgesOf_setEdges k [{ input := k, falling := b, stamp := s.now }] j).trans (by rw [hempty])
  obtain ⟨hdrained, hnone⟩ := State.drainEdges_lone hk hedges (by rw [hpps, hwaits]; exact hroom)
  refine ⟨_, evtInEdge_eq hw _, hnone, ?_⟩
  rw [List.foldl_cons, List.foldl_nil, hdrained, State.postEdge, State.postAt_evSeq, hpps, hwaits]
  exact SMap.get_set_same _ _ _ _

end Sys2Proof.Machine
end

section
/-! PROOFS. The events of device time: the pulse outputs, and the statement (R256, R257, R259, R264, R265). -/

namespace Sys2Proof.Machine

/-! ### The settings of a pulse output (R265, R271) -/

theorem State.inForce_latchPps (s : State) (k : Nat) :
    (s.latchPps k).inForce (A.timePpsCfg k) = s.reg (A.timePpsCfg k) ∧
      (s.latchPps k).inForce (A.timePpsPeriod k) = s.reg (A.timePpsPeriod k) :=
  ⟨State.inForce_latch (by simp), State.inForce_latch (by simp)⟩

/-- Latched settings enable the output as they were written. -/
theorem State.ppsOn_latchPps (s : State) (k : Nat) : (s.latchPps k).ppsOn k = rbit (s.reg (A.timePpsCfg k)) 31 := by
  rw [State.ppsOn, (s.inForce_latchPps k).1]

theorem State.pps_setPps (s : State) (k : Nat) (x : Pps) (j : Nat) :
    (s.setPps k x).pps j = if j = k then x else s.pps j := SMap.get_set _ _ _ _ _

/-! ### PPS_LEADING_EDGE (R265) -/

/-- A leading edge of an enabled output is due. -/
def State.ppsDue (s : State) (k : Nat) : Bool := s.ppsOn k && s.time.isSet && s.nowNs % s.ppsPeriod k == 0

/-- The settings as written come into force, and the output's pulse starts where they enable it. -/
def State.ppsStart (s : State) (k : Nat) : State :=
  (s.latchPps k).setPps k (if (s.latchPps k).ppsOn k then
    { active := true, widthEnd := s.now + nsT ((s.latchPps k).ppsWidth k) } else {})

theorem State.pps_ppsStart (s : State) (k : Nat) : (s.ppsStart k).pps k = (if rbit (s.reg (A.timePpsCfg k)) 31 then
    { active := true, widthEnd := s.now + nsT ((s.ppsStart k).ppsWidth k) } else {}) := by
  rw [State.ppsStart, State.pps_setPps, if_pos rfl, State.ppsOn_latchPps]
  rfl

section
variable {s : State} (hu : Up s) {k : Nat}
include hu

theorem ppsLeadingEdge_eq : exec (.ppsLeadingEdge k) s = .next (
    let s1 := if s.ppsOn k then s else s.latchPps k
    if s1.ppsDue k then s1.ppsStart k else s1) := by
  change execPpsLeadingEdge k s = _
  rw [execPpsLeadingEdge, gated_up hu]
  rfl

theorem ppsLeadingEdge_starts (hon : s.ppsOn k = true) (hset : s.time.isSet = true)
    (hdue : s.nowNs % s.ppsPeriod k = 0) : exec (.ppsLeadingEdge k) s = .next (s.ppsStart k) := by
  rw [ppsLeadingEdge_eq hu, if_pos hon]
  exact congrArg _ (if_pos (by simp [State.ppsDue, hon, hset, hdue]))

theorem ppsLeadingEdge_elsewhere (hon : s.ppsOn k = true) (h : s.time.isSet = false ∨ s.nowNs % s.ppsPeriod k ≠ 0) :
    exec (.ppsLeadingEdge k) s = .next s := by
  rw [ppsLeadingEdge_eq hu, if_pos hon]
  refine congrArg _ (if_neg ?_)
  rcases h with hunset | hoff
  · simp [State.ppsDue, hunset]
  · simp [State.ppsDue, hoff]

/-- An output that is disabled takes its settings at once, and stays so where they do not enable it. -/
theorem ppsLeadingEdge_disabled (hoff : s.ppsOn k = false) (hcfg : rbit (s.reg (A.timePpsCfg k)) 31 = false) :
    exec (.ppsLeadingEdge k) s = .next (s.latchPps k) := by
  have hlatched : (s.latchPps k).ppsOn k = false := (s.ppsOn_latchPps k).trans hcfg
  rw [ppsLeadingEdge_eq hu, if_neg (Bool.eq_false_iff.mp hoff)]
  exact congrArg _ (if_neg (by simp [State.ppsDue, hlatched]))

/-! ### PPS_WIDTH_END (R258, R265) -/

theorem ppsWidthEnd_ends (hact : (s.pps k).active = true) (hend : (s.pps k).widthEnd ≤ s.now) :
    exec (.ppsWidthEnd k) s = .next (s.setPps k {}) := by
  change execPpsWidthEnd k s = _
  rw [execPpsWidthEnd, gated_up hu, hact, if_pos (by simpa using hend)]

theorem ppsWidthEnd_runs (h : (s.pps k).active = false ∨ s.now < (s.pps k).widthEnd) :
    exec (.ppsWidthEnd k) s = .next s := by
  change execPpsWidthEnd k s = _
  rw [execPpsWidthEnd, gated_up hu, if_neg]
  rcases h with hidle | hwide
  · simp [hidle]
  · simp [hwide]

end

/-- Settles O18: the vote by which counters agree, a slew by what is left of it, the references by those present, an
edge by its input and its ring, and a pulse by its settings and its width. -/
theorem timeEvents : Obligations.TimeEvents := by
  unfold Obligations.TimeEvents
  refine ⟨fun s hu => ⟨?_, slewComplete_done hu, slewComplete_runs hu, timeRefLoss_refclk hu, timeRefLoss_timeclk hu,
      fun hscan k hk ns => timeRefReturn_refclk hu k hscan ns hk,
      fun hscan k ns => timeRefReturn_timeclk hu k hscan ns⟩,
    fun es s hw => evtInEdge_eq hw es, fun k b s => ⟨State.takeEdge_unselected, fun hsel =>
      ⟨State.takeEdge_ringOff hsel, State.takeEdge_full hsel, State.takeEdge_waits hsel,
        fun hw => evtInEdge_lone hw hsel⟩⟩,
    fun k s hu => ⟨fun hon hset hdue => ?_, ppsLeadingEdge_elsewhere hu, fun hoff hcfg => ?_, fun hact hend => ?_,
      ppsWidthEnd_runs hu⟩⟩
  · rintro o0 o1 o2 a b c rfl rfl rfl
    rw [timeVote_eq hu]
    exact ⟨fun hab hbc => congrArg _ (State.compared_agree hab hbc),
      fun hab hbc => congrArg _ (State.compared_third hab hbc),
      fun hac hbc => congrArg _ (State.compared_second hac hbc),
      fun hbc hab => congrArg _ (State.compared_first hbc hab),
      fun hab hbc hac => congrArg _ (State.compared_none hab hbc hac)⟩
  · obtain ⟨hcfg, hperiod⟩ := s.inForce_latchPps k
    exact ⟨_, ppsLeadingEdge_starts hu hon hset hdue, hcfg, hperiod, s.pps_ppsStart k⟩
  · exact ⟨_, ppsLeadingEdge_disabled hu hoff hcfg, (s.inForce_latchPps k).1, rfl⟩
  · exact ⟨_, ppsWidthEnd_ends hu hact hend, (s.pps_setPps k {} k).trans (if_pos rfl),
      fun j hj => (s.pps_setPps k {} j).trans (if_neg hj), rfl⟩

end Sys2Proof.Machine
end

section
/-! PROOFS. How a counter advances, and what an event that is posted leaves of the rings (R295, R375). -/

namespace Sys2Proof.Machine

/-! ### A counter word (R375) -/

/-- A counter word that advances keeps its count below bit 48, where WRAP stands. -/
theorem bumpWord_spec (w n : Nat) : bumpWord w n % 2 ^ 48 = (w + n) % 2 ^ 48 ∧ bumpWord w n < 2 ^ 49 ∧
    bit (bumpWord w n) 48 = (decide (2 ^ 48 ≤ w % 2 ^ 48 + n) || decide (2 ^ 48 ≤ w)) := by
  have hwrap : (bit (bumpWord w n) 48 = true) ↔ (2 ^ 48 ≤ w % 2 ^ 48 + n ∨ 2 ^ 48 ≤ w) := by
    unfold bumpWord bit count48
    dsimp only
    split <;> simp only [beq_iff_eq] <;> omega
  refine ⟨?_, ?_, ?_⟩
  · unfold bumpWord count48
    dsimp only
    split <;> omega
  · unfold bumpWord count48
    dsimp only
    split <;> omega
  · rw [Bool.eq_iff_iff, hwrap, Bool.or_eq_true, decide_eq_true_iff, decide_eq_true_iff]

theorem State.count_pos (s : State) (o : Nat) {n : Nat} (h : 0 < n) :
    s.count o n = s.setCounter o (bumpWord (s.counter o) n) := if_neg (Nat.pos_iff_ne_zero.mp h)

/-! ### An event that joins its ring's queue (R295) -/

/-- The event of a ring's next number. -/
def State.nextEvent (s : State) (n type sub src : Nat) (payload : List Byte) (time : Nat) : Event :=
  { type := type, sub := sub, src := src, time := time, payload := payload, seq := SMap.get (fun _ => 0) s.host.evSeq n }

/-- The ring's number is taken. -/
def State.takeSeq (s : State) (n : Nat) : State := { s with host := { s.host with
  evSeq := SMap.set (fun _ => 0) s.host.evSeq n ((SMap.get (fun _ => 0) s.host.evSeq n + 1) % 2147483648) } }

theorem State.evRoom_eq_true {s : State} {n : Nat} :
    s.evRoom n = true ↔ s.ringIs n 4 = true ∧ (s.ring n).evq.length < 256 := by
  rw [State.evRoom, Bool.and_eq_true, decide_eq_true_iff]

theorem State.postAt_discarded {s : State} {n : Nat} (h : s.evRoom n = false) (type sub src : Nat)
    (payload : List Byte) (time : Nat) :
    s.postAt n type sub src payload time = (s.takeSeq n).count (ringCtr n 1) 1 := by
  unfold State.postAt
  rw [h]
  rfl

theorem State.postAt_taken {s : State} {n : Nat} (h : s.evRoom n = true) (type sub src : Nat)
    (payload : List Byte) (time : Nat) : s.postAt n type sub src payload time =
      ((s.takeSeq n).modRing n fun r => { r with
        evq := r.evq ++ [s.nextEvent n type sub src payload time] }).fillEvents n := by
  unfold State.postAt
  rw [h]
  rfl

/-- One descriptor and one waiting event: the event is written, and neither is left. -/
theorem State.fillEvents_one {s : State} {n : Nat} {e : Event} {d : List Byte} {ds : List (List Byte)}
    (he : (s.ring n).evq = [e]) (hd : (s.ring n).fetched = d :: ds) : s.fillEvents n =
      (s.modRing n fun r => { r with evq := [], fetched := ds }).ringReturn n (eventBytes e) e.seq := by
  have hmin : min (s.ring n).evq.length (s.ring n).fetched.length = 1 := by
    rw [he, hd, List.length_cons, List.length_nil, List.length_cons]
    omega
  rw [State.fillEvents, hmin, List.range_one, List.foldl_cons, List.foldl_nil, State.fillEvent]
  simp only [he, hd]

/-! ### What a return leaves of the rings (R280, R284) -/

/-- Every ring is as before, but for the counts of its returns. -/
def Counted (s t : State) : Prop := ∀ m, t.ring m = { s.ring m with
  c := (t.ring m).c, unsignalled := (t.ring m).unsignalled, oldest := (t.ring m).oldest }

theorem Counted.of_rings {s t : State} (h : t.host.rings = s.host.rings) : Counted s t := fun m => by
  rw [State.ring, h, ← State.ring]

theorem Counted.trans {s t u : State} (h : Counted s t) (k : Counted t u) : Counted s u := fun m => by rw [k m, h m]

theorem Counted.ite {c : Prop} [Decidable c] {s t u : State} (ht : Counted s t) (hu : Counted s u) :
    Counted s (if c then t else u) := by
  split
  · exact ht
  · exact hu

theorem Counted.foldl {α : Type} {f : State → α → State} (h : ∀ s a, Counted s (f s a)) (l : List α) (s : State) :
    Counted s (l.foldl f s) :=
  List.foldlRecOn l f (motive := Counted s) (.of_rings rfl) fun t ht a _ => ht.trans (h t a)

theorem Counted.modRing (s : State) (n : Nat) {f : Ring → Ring} (hf : ∀ r, f r = { r with
    c := (f r).c, unsignalled := (f r).unsignalled, oldest := (f r).oldest }) : Counted s (s.modRing n f) := fun m => by
  rw [State.ring_modRing]
  split
  · next h => rw [h, ← hf]
  · rfl

theorem Counted.fireVector (s : State) (fn vec : Nat) : Counted s (s.fireVector fn vec) :=
  .ite (.of_rings rfl) (.ite (.of_rings rfl) (.of_rings rfl))

theorem Counted.signalRing (s : State) (n : Nat) : Counted s (s.signalRing n) := by
  have hcount : Counted s (s.modRing n fun r => { r with unsignalled := 0 }) := .modRing s n fun _ => rfl
  exact .ite hcount (hcount.trans (.fireVector _ _ _))

theorem Counted.writeReturn (s : State) (n : Nat) (bs : List Byte) (word : Nat) : Counted s (s.writeReturn n bs word) := by
  unfold State.writeReturn
  dsimp only
  refine .ite (Counted.trans ?_ (.signalRing _ n)) ?_
  all_goals
    refine Counted.trans ?_ (.modRing _ n (by intro; rfl))
    exact .ite (.of_rings rfl) (.of_rings rfl)

/-- Every ring is as before, but for the counts of its returns and those that wait. -/
def Returned (s t : State) : Prop := ∀ m, t.ring m = { s.ring m with
  c := (t.ring m).c, unsignalled := (t.ring m).unsignalled, oldest := (t.ring m).oldest, retq := (t.ring m).retq }

theorem Counted.returned {s t : State} (h : Counted s t) : Returned s t := fun m => by rw [h m]

theorem Returned.trans {s t u : State} (h : Returned s t) (k : Returned t u) : Returned s u := fun m => by rw [k m, h m]

theorem Returned.modRetq (s : State) (n : Nat) (f : Ring → List (List Byte × Nat)) :
    Returned s (s.modRing n fun r => { r with retq := f r }) := fun m => by
  rw [State.ring_modRing]
  split
  · next h => rw [h]
  · rfl

theorem Counted.writeReturns (s : State) (n : Nat) (l : List (List Byte × Nat)) :
    Counted s (l.foldl (fun s e => s.writeReturn n e.1 e.2) s) :=
  .foldl (f := fun s (e : List Byte × Nat) => s.writeReturn n e.1 e.2) (fun s e => .writeReturn s n e.1 e.2) l s

theorem Returned.flushReturns (s : State) (n : Nat) : Returned s (s.flushReturns n) := by
  unfold State.flushReturns
  split
  · exact (Returned.modRetq s n fun _ => []).trans (Counted.writeReturns _ n _).returned
  · exact (Counted.of_rings rfl).returned

/-- Where the ring's function may issue requests, no return is left waiting (R302). -/
theorem State.flushReturns_retq {s : State} {n : Nat} (h : s.fnLive (s.ring n).fn = true) :
    ((s.flushReturns n).ring n).retq = [] := by
  have hwritten := Counted.writeReturns (s.modRing n fun r => { r with retq := [] }) n (s.ring n).retq n
  rw [State.flushReturns, if_pos h, hwritten, State.ring_modRing, if_pos rfl]

theorem Returned.ringReturn (s : State) (n : Nat) (bs : List Byte) (word : Nat) :
    Returned s (s.ringReturn n bs word) :=
  (Returned.modRetq s n fun r => r.retq ++ [(body28 bs, word)]).trans (.flushReturns _ n)

/-! ### What the events written to a ring leave (R280, R295) -/

/-- What writing the waiting events of ring `n` may touch: what a return of that ring may, and its waiting events. -/
structure FillFrame (n : Nat) (s t : State) : Prop where
  parts : t = { s with regs := t.regs, host := t.host, io := t.io }
  host : t.host = { s.host with rings := t.host.rings, cmdRot := t.host.cmdRot, vfPending := t.host.vfPending }
  other : ∀ m, m ≠ n → t.ring m = s.ring m
  ring : t.ring n = { s.ring n with
    fetched := (t.ring n).fetched, accepted := (t.ring n).accepted, c := (t.ring n).c, retq := (t.ring n).retq
    unsignalled := (t.ring n).unsignalled, oldest := (t.ring n).oldest, evq := (t.ring n).evq }
  reg : ∀ a, a ≠ A.msixPba ((s.ring n).vec / 32) → t.reg a = s.reg a

theorem FillFrame.refl (n : Nat) (s : State) : FillFrame n s s := ⟨rfl, rfl, fun _ _ => rfl, rfl, fun _ _ => rfl⟩

theorem FillFrame.of_return {n : Nat} {s t : State} (h : ReturnFrame n s t) : FillFrame n s t := by
  obtain ⟨hparts, hhost, -, hother, hring, hreg⟩ := h
  refine ⟨hparts, hhost, hother, ?_, hreg⟩
  rw [hring]

theorem FillFrame.trans {n : Nat} {s t u : State} (h : FillFrame n s t) (k : FillFrame n t u) : FillFrame n s u := by
  have hvec : (t.ring n).vec = (s.ring n).vec := by rw [h.ring]
  refine ⟨?_, ?_, fun m hm => (k.other m hm).trans (h.other m hm), ?_, fun a ha =>
    (k.reg a (hvec.symm ▸ ha)).trans (h.reg a ha)⟩
  · rw [k.parts, h.parts]
  · rw [k.host, h.host]
  · rw [k.ring, h.ring]

theorem FillFrame.modRing (n : Nat) (s : State) {f : Ring → Ring} (hf : ∀ r, f r = { r with
    fetched := (f r).fetched, accepted := (f r).accepted, c := (f r).c, retq := (f r).retq
    unsignalled := (f r).unsignalled, oldest := (f r).oldest, evq := (f r).evq }) : FillFrame n s (s.modRing n f) := by
  refine ⟨rfl, rfl, fun m hm => by rw [State.ring_modRing, if_neg hm], ?_, fun _ _ => rfl⟩
  rw [State.ring_modRing, if_pos rfl]
  exact hf _

theorem FillFrame.fillEvent (s : State) (n : Nat) : FillFrame n s (s.fillEvent n) := by
  unfold State.fillEvent
  dsimp only
  split
  · exact FillFrame.trans (.modRing n s (by intro; rfl)) (.of_return (.ringReturn n _ _ _))
  · exact .refl n s

theorem FillFrame.fillEvents (s : State) (n : Nat) : FillFrame n s (s.fillEvents n) :=
  List.foldlRecOn _ _ (motive := FillFrame n s) (.refl n s) fun t ht _ _ => ht.trans (.fillEvent t n)

/-- Settles O60: a counter by its word, and a posted event by what its ring holds. -/
theorem countersAndEvents : Obligations.CountersAndEvents := by
  unfold Obligations.CountersAndEvents
  refine ⟨fun o n s hn => ?_, fun n ty sub src time bs s => ⟨fun m => ?_, fun h => ?_, fun hring hroom => ?_⟩⟩
  · obtain ⟨hsum, hlt, hwrap⟩ := bumpWord_spec (s.counter o) n
    rw [State.count_pos s o hn]
    have hself : (s.setCounter o (bumpWord (s.counter o) n)).counter o = bumpWord (s.counter o) n :=
      (s.counter_setCounter _ _ _).trans (if_pos rfl)
    rw [hself]
    exact ⟨hsum, hlt, hwrap, fun k hk => (s.counter_setCounter _ _ _).trans (if_neg hk), rfl⟩
  · rw [State.postAt_evSeq, SMap.get_set]
  · have hfull : s.evRoom n = false := by
      rw [← Bool.not_eq_true, State.evRoom_eq_true]
      rintro ⟨hring, hroom⟩
      rcases h with h | h
      · rw [h] at hring
        cases hring
      · omega
    rw [State.postAt_evSeq, State.postAt_discarded hfull]
    rfl
  · rw [State.postAt_taken (State.evRoom_eq_true.mpr ⟨hring, hroom⟩)]
    generalize hu : (s.takeSeq n).modRing n (fun r => { r with
      evq := r.evq ++ [s.nextEvent n ty sub src bs time] }) = u
    have hself : u.ring n = { s.ring n with evq := (s.ring n).evq ++ [s.nextEvent n ty sub src bs time] } := by
      rw [← hu, State.ring_modRing, if_pos rfl]
      rfl
    have hother (m : Nat) (hm : m ≠ n) : u.ring m = s.ring m := by
      rw [← hu, State.ring_modRing, if_neg hm]
      rfl
    refine ⟨fun hnone => ?_, fun hempty hsome => ?_, ?_, fun m hm => (u.fillEvents_ring_ne hm).trans (hother m hm)⟩
    · rw [State.fillEvents_of_none (by rw [hself]; exact hnone), hself]
      exact ⟨rfl, by rw [← hu]; rfl⟩
    · obtain ⟨d, ds, hd⟩ := List.exists_cons_of_ne_nil hsome
      have he : (u.ring n).evq = [s.nextEvent n ty sub src bs time] := by rw [hself, hempty]; rfl
      rw [State.fillEvents_one he (by rw [hself]; exact hd)]
      refine ⟨?_, ?_⟩
      · rw [Returned.ringReturn, State.ring_modRing, if_pos rfl]
      · rw [Returned.ringReturn, State.ring_modRing, if_pos rfl, hd, List.drop_succ_cons, List.drop_zero]
    · rw [(FillFrame.fillEvents u n).parts, ← hu]
      rfl

end Sys2Proof.Machine
end

section
/-! PROOFS. How a command of a command ring is accepted or turned away (R291, R293, R311, R359). -/

namespace Sys2Proof.Machine

/-- Every command of a command ring passes the same acceptance, with its own parameter check and its own effect. -/
theorem exec_ringCmd {i : Instr} {op : Nat} {c : Cmd} (h : i.ringCmd = some (op, c)) :
    op < 65536 ∧ ∃ ok f, ∀ s, exec i s = gated s (runCmd op c ok f) := by
  cases i <;> cases h
  case unsupportedOpcode op => exact ⟨op.isLt, _, _, fun _ => rfl⟩
  all_goals exact ⟨by decide, _, _, fun _ => rfl⟩

section
variable {op : Nat} {c : Cmd} {ok : Bool} {f : State → CmdOut} {s : State}

theorem runCmd_not_accepted (h : s.accepts c.ring = false) : runCmd op c ok f s = s := by
  rw [runCmd, h]
  rfl

variable (ha : s.accepts c.ring = true)
include ha

/-- Recovery mode turns away what it does not serve (R359). -/
theorem runCmd_recovery (hrec : s.boot.recovery = true) (hop : recoveryOp op = false) :
    runCmd op c ok f s = (accepted op c s).completeCmd c.ring (cmdBytes op c) stBusy 0 := by
  simp only [runCmd, ha, hrec, hop, Bool.not_false, Bool.and_self, if_true]
  rfl

/-- A lost Triad turns away what needs it (R311). -/
theorem runCmd_triadLost (hrec : s.boot.recovery = false) (hlost : s.triad.lost = true) (hop : needsTriad op = true) :
    runCmd op c ok f s = (accepted op c s).completeCmd c.ring (cmdBytes op c) stBusy 0 := by
  simp only [runCmd, ha, hrec, hlost, hop, Bool.false_and, Bool.and_self, Bool.false_eq_true, if_true, if_false]
  rfl

/-- A reserved bit of bytes 2–3 (R293). -/
theorem runCmd_reserved (hrec : s.boot.recovery = false) (hlost : s.triad.lost = false)
    (hop : knownOpcodes.contains op = true) (hr : c.rsvd ≠ 0) :
    runCmd op c ok f s = (accepted op c s).completeCmd c.ring (cmdBytes op c) stInvalid 0 := by
  have hbit : (knownOpcodes.contains op && (c.rsvd != 0 || !ok)) = true := by
    rw [hop, Bool.true_and, bne_iff_ne.mpr hr, Bool.true_or]
  simp only [runCmd, ha, hrec, hlost, hbit, Bool.false_and, Bool.false_eq_true, if_true, if_false]
  rfl

/-- A command that neither recovery mode nor a lost Triad turns away, without a reserved bit, has its effect. -/
theorem runCmd_runs (hrec : s.boot.recovery = false ∨ recoveryOp op = true)
    (hlost : s.triad.lost = false ∨ needsTriad op = false)
    (hok : knownOpcodes.contains op = false ∨ (c.rsvd = 0 ∧ ok = true)) {u : State} {st res : Nat}
    (hf : f (accepted op c s) = .ret u st res) :
    runCmd op c ok f s = u.completeCmd c.ring (cmdBytes op c) st res := by
  have hserved : (s.boot.recovery && !recoveryOp op) = false := by rcases hrec with h | h <;> simp [h]
  have htriad : (s.triad.lost && needsTriad op) = false := by rcases hlost with h | h <;> simp [h]
  have hbits : (knownOpcodes.contains op && (c.rsvd != 0 || !ok)) = false := by
    rcases hok with h | ⟨hr, rfl⟩
    · rw [h, Bool.false_and]
    · simp [hr]
  unfold accepted at hf
  simp only [runCmd, ha, hserved, htriad, hbits, hf, Bool.false_eq_true, if_true, if_false]

end

/-- Settles O9: every command by its acceptance, which all share; NOP and an unlisted opcode by their effect. -/
theorem commandAcceptance : Obligations.CommandAcceptance := by
  unfold Obligations.CommandAcceptance
  refine ⟨fun i op c s hi hu => ?_, fun c s hu ha hr h0 h1 h2 => ?_, fun op c s hs hk => ?_⟩
  · obtain ⟨hop, ok, f, hx⟩ := exec_ringCmd hi
    have hrun : exec i s = .next (runCmd op c ok f s) := (hx s).trans (gated_up hu _)
    refine ⟨fun ha => ?_, fun ha hrec hserve => ?_, fun ha hrec hlost hneeds => ?_, fun hs hknown hbit => ?_⟩
    · rw [hrun, runCmd_not_accepted ha]
    · exact ⟨_, hrun.trans (congrArg _ (runCmd_recovery ha hrec hserve)), returns_completeCmd hop c s stBusy 0⟩
    · exact ⟨_, hrun.trans (congrArg _ (runCmd_triadLost ha hrec hlost hneeds)), returns_completeCmd hop c s stBusy 0⟩
    · obtain ⟨-, ha, hrec, hlost⟩ := hs
      exact ⟨_, hrun.trans (congrArg _ (runCmd_reserved ha hrec hlost hknown hbit)),
        returns_completeCmd hop c s stInvalid 0⟩
  · have hok : (p0Below c 0 && p1Below c 0 && p2Below c 0) = true := by simp [p0Below, p1Below, p2Below, h0, h1, h2]
    exact ⟨_, (gated_up hu _).trans (congrArg _ (runCmd_runs ha (.inr rfl) (.inr rfl) (.inr ⟨hr, hok⟩) rfl)),
      returns_completeCmd (by decide) c s stOk 0⟩
  · obtain ⟨hu, ha, hrec, hlost⟩ := hs
    exact ⟨_, (gated_up hu _).trans (congrArg _ (runCmd_runs ha (.inl hrec) (.inl hlost) (.inl hk) rfl)),
      returns_completeCmd op.isLt c s stUnsupported 0⟩

end Sys2Proof.Machine
end

section
/-! PROOFS. Writes that are turned away, and broadcast writes (R301, R393, R394, R399, R401). -/

namespace Sys2Proof.Machine

/-! ### The access rules (R393, R394, R399) -/

section
variable {s : State} {a : Nat} {be : BitVec 4} (v : Reg) (hbe : be ≠ 0)
include hbe

theorem State.hostWriteReg_early (hdp : s.boot.dpReady = false) (ha : 0x20000 ≤ a) :
    s.hostWriteReg a v be = s.accErr 3 a := by
  have hclosed : (!s.boot.dpReady && !alwaysWritable a) = true := by simp [hdp, alwaysWritable, ha]
  rw [State.hostWriteReg, if_neg hbe, if_pos hclosed]

variable (hdp : s.boot.dpReady = true)
include hdp

theorem State.hostWriteReg_ready : s.hostWriteReg a v be =
    if regRow a = none then s.accErr 2 a else if be ≠ 15 then s.accErr 1 a else s.writeReg a v := by
  have hopen : ¬(!s.boot.dpReady && !alwaysWritable a) = true := by simp [hdp]
  rw [State.hostWriteReg, if_neg hbe, if_neg hopen]

theorem State.hostWriteReg_noRegister (hr : regRow a = none) : s.hostWriteReg a v be = s.accErr 2 a := by
  rw [State.hostWriteReg_ready v hbe hdp, if_pos hr]

theorem State.hostWriteReg_partial (hr : regRow a ≠ none) (hall : be ≠ 15) : s.hostWriteReg a v be = s.accErr 1 a := by
  rw [State.hostWriteReg_ready v hbe hdp, if_neg hr, if_pos hall]

end

/-- A write below the broadcast window is a write of one register. -/
theorem registerWrite_below {s : State} (hw : Wired s) {a : Nat} (ha : a < 0x2000000) (v : Reg) (be : BitVec 4) :
    exec (.registerWrite a v be false) s = .next (s.hostWriteReg a v be) := by
  have hwindow : ¬(0x2000000 ≤ a ∧ a < 0x2040000) := by omega
  change execRegisterWrite a v be false s = _
  rw [execRegisterWrite, atPins_wired hw]
  simp only [Bool.false_eq_true, if_false, hwindow]

theorem registerWrite_poisoned {s : State} (hw : Wired s) (a : Nat) (v : Reg) (be : BitVec 4) :
    exec (.registerWrite a v be true) s = .next (s.hostErr 4 0 0) := by
  change execRegisterWrite a v be true s = _
  rw [execRegisterWrite, atPins_wired hw]
  rfl

/-- A write to BAR2 is logged where the log is free, and nothing else happens (R275). -/
theorem bar2Write_eq {s : State} (hw : Wired s) (o fn : Nat) :
    exec (.bar2Write o fn) s = .next (s.logReg A.hostErrLog (5 * 2 ^ 28 + 0 * 2 ^ 16 + fn)) := by
  change execBar2Write o fn s = _
  rw [execBar2Write, atPins_wired hw]
  rfl

/-! ### Broadcast writes (R401) -/

theorem squareBroadcastWrite_eq {s : State} (hw : Wired s) (o : Nat) (v : Reg) (be : BitVec 4) :
    exec (.squareBroadcastWrite o v be) s = .next (s.broadcast o v be) := by
  change execSquareBroadcastWrite o v be s = _
  rw [execSquareBroadcastWrite, atPins_wired hw]

/-- A write through the broadcast window is a broadcast write at its offset. -/
theorem registerWrite_window {s : State} (hw : Wired s) {o : Nat} (ho : o < 0x40000) (v : Reg) (be : BitVec 4) :
    exec (.registerWrite (0x2000000 + o) v be false) s = .next (s.broadcast o v be) := by
  have hwindow : 0x2000000 ≤ 0x2000000 + o ∧ 0x2000000 + o < 0x2040000 := by omega
  change execRegisterWrite (0x2000000 + o) v be false s = _
  rw [execRegisterWrite, atPins_wired hw]
  simp only [Bool.false_eq_true, if_false, if_pos hwindow, Nat.add_sub_cancel_left]

theorem State.broadcast_register {s : State} {o : Nat} {r : RegRow} (hr : findRow squareRows o = some r) (v : Reg)
    (be : BitVec 4) : s.broadcast o v be = (List.range 64).foldl (fun u k => u.hostWriteReg (A.sq k + o) v be) s := by
  rw [State.broadcast, if_neg (by rw [hr]; exact Option.some_ne_none r)]
  rfl

theorem State.broadcast_noRegister {s : State} {o : Nat} (hr : findRow squareRows o = none) (v : Reg) {be : BitVec 4}
    (hbe : be ≠ 0) : s.broadcast o v be = s.accErr 2 (0x2000000 + o) := by
  rw [State.broadcast, if_pos hr, if_neg hbe]

/-- Settles O27: each write by the first access rule that turns it away, and a broadcast by its offset. -/
theorem writesTurnedAwayAndBroadcast : Obligations.WritesTurnedAwayAndBroadcast := by
  unfold Obligations.WritesTurnedAwayAndBroadcast
  refine ⟨fun a v be s hw => ⟨registerWrite_poisoned hw a v be, fun ha hbe => ?_, fun ha hbe hdp hblock => ?_,
    fun ha hbe hdp hr => ?_, fun ha hbe hall hdp hr => ?_, fun fn o => bar2Write_eq hw o fn⟩,
    fun o v be s hw ho => ⟨fun r hr => ?_, fun hr hbe => ?_, ?_⟩⟩
  · rw [registerWrite_below hw ha, State.hostWriteReg, if_pos hbe]
  · rw [registerWrite_below hw ha, State.hostWriteReg_early v hbe hdp hblock]
  · rw [registerWrite_below hw ha, State.hostWriteReg_noRegister v hbe hdp hr]
  · rw [registerWrite_below hw ha, State.hostWriteReg_partial v hbe hdp hr hall]
  · rw [squareBroadcastWrite_eq hw, State.broadcast_register hr]
  · rw [squareBroadcastWrite_eq hw, State.broadcast_noRegister hr v hbe]
  · rw [registerWrite_window hw ho, squareBroadcastWrite_eq hw]

end Sys2Proof.Machine
end

section
/-! SUPPORT. What events, and faults with the events they lead to, leave of the host interface and its rings (R295, R317). -/

namespace Sys2Proof.Machine

/-- What posted events may touch of the host interface: numbers, pending bits, and of the event rings their descriptors,
their waiting events and what returns. A ring of another type stays as it is, and so do the lifecycle states. -/
structure EventFrame (s t : State) : Prop where
  fns : t.fns = s.fns
  host : t.host = { s.host with
    rings := t.host.rings, cmdRot := t.host.cmdRot, vfPending := t.host.vfPending, evSeq := t.host.evSeq }
  ring : ∀ m, t.ring m = { s.ring m with
    fetched := (t.ring m).fetched, accepted := (t.ring m).accepted, c := (t.ring m).c, retq := (t.ring m).retq
    unsignalled := (t.ring m).unsignalled, oldest := (t.ring m).oldest, evq := (t.ring m).evq }
  other : ∀ m, (s.ring m).type ≠ 4 → t.ring m = s.ring m

theorem EventFrame.of_eq {s t : State} (h : (t.fns, t.host) = (s.fns, s.host)) : EventFrame s t := by
  obtain ⟨hfns, hhost⟩ := Prod.mk.inj h
  have hring (m : Nat) : t.ring m = s.ring m := by rw [State.ring, hhost, ← State.ring]
  exact ⟨hfns, by rw [hhost], fun m => by rw [hring], fun m _ => hring m⟩

theorem EventFrame.refl (s : State) : EventFrame s s := .of_eq rfl

theorem EventFrame.type {s t : State} (h : EventFrame s t) (m : Nat) : (t.ring m).type = (s.ring m).type := by
  rw [h.ring]

theorem EventFrame.trans {s t u : State} (h : EventFrame s t) (k : EventFrame t u) : EventFrame s u := by
  refine ⟨k.fns.trans h.fns, ?_, fun m => ?_, fun m hm =>
    (k.other m (by rw [h.type]; exact hm)).trans (h.other m hm)⟩
  · rw [k.host, h.host]
  · rw [k.ring, h.ring]

theorem EventFrame.ite {c : Prop} [Decidable c] {s t u : State} (ht : EventFrame s t) (hu : EventFrame s u) :
    EventFrame s (if c then t else u) := by
  split
  · exact ht
  · exact hu

theorem EventFrame.foldl {α : Type} {f : State → α → State} (h : ∀ s a, EventFrame s (f s a)) (l : List α) (s : State) :
    EventFrame s (l.foldl f s) :=
  List.foldlRecOn l f (motive := EventFrame s) (.refl s) fun t ht a _ => ht.trans (h t a)

/-- Waiting events are written to an event ring. -/
theorem EventFrame.of_fill {n : Nat} {s t : State} (h : FillFrame n s t) (hn : (s.ring n).type = 4) :
    EventFrame s t := by
  refine ⟨?_, ?_, fun m => ?_, fun m hm => h.other m fun hmn => hm (hmn ▸ hn)⟩
  · rw [h.parts]
  · rw [h.host]
  · by_cases hmn : m = n
    · rw [hmn, h.ring]
    · rw [h.other m hmn]

theorem EventFrame.count (s : State) (o n : Nat) : EventFrame s (s.count o n) :=
  .of_eq (by rw [State.count_fns, State.count_host])

theorem State.ringIs_type {s : State} {n type : Nat} (h : s.ringIs n type = true) : (s.ring n).type = type := by
  rw [State.ringIs, Bool.and_eq_true] at h
  exact eq_of_beq h.2

theorem EventFrame.takeSeq (s : State) (n : Nat) : EventFrame s (s.takeSeq n) :=
  ⟨rfl, rfl, fun _ => rfl, fun _ _ => rfl⟩

theorem EventFrame.postAt (s : State) (n type sub src : Nat) (payload : List Byte) (time : Nat) :
    EventFrame s (s.postAt n type sub src payload time) := by
  cases hroom : s.evRoom n with
  | false =>
    rw [State.postAt_discarded hroom]
    exact (EventFrame.takeSeq s n).trans (.count _ _ _)
  | true =>
    have htype := State.ringIs_type (State.evRoom_eq_true.mp hroom).1
    rw [State.postAt_taken hroom]
    exact (EventFrame.takeSeq s n).trans
      (.of_fill (FillFrame.trans (.modRing n _ (by intro; rfl)) (.fillEvents _ n)) htype)

theorem EventFrame.post (s : State) (type sub src : Nat) (payload : List Byte) :
    EventFrame s (s.post type sub src payload) := .postAt s _ _ _ _ _ _

/-! ### Faults (R301, R317 to R319) -/

theorem EventFrame.hostErr (s : State) (kind ring fn : Nat) : EventFrame s (s.hostErr kind ring fn) := by
  have hlog (a v : Nat) : EventFrame s (s.logReg a v) := by
    unfold State.logReg
    exact .ite (.refl s) (.of_eq rfl)
  unfold State.hostErr
  dsimp only
  exact .ite (hlog _ _) ((hlog _ _).trans (.of_eq rfl))

theorem EventFrame.logFault (s : State) (r : List Nat) : EventFrame s (s.logFault r) := by
  unfold State.logFault
  dsimp only
  exact .ite (.of_eq rfl) (.ite (EventFrame.trans (.of_eq (by rfl)) (.post _ _ _ _ _)) (.of_eq rfl))

theorem EventFrame.recordFault (s : State) (n detail concerned cause : Nat) (forced : Bool) :
    EventFrame s (s.recordFault n detail concerned cause forced).1 := by
  have hsrc (x : Src) (sev : Nat) : EventFrame s ((s.modSrc n fun _ => x).latchFirst n sev) := by
    unfold State.latchFirst
    split <;> exact .of_eq rfl
  unfold State.recordFault
  dsimp only
  generalize srcAfter (s.faultCfgOf n) forced s.elapsed (s.src n) = x
  have hlog (r : List Nat) : EventFrame s (if x.st = (s.src n).st then (s.modSrc n fun _ => x).latchFirst n x.st.code
      else ((s.modSrc n fun _ => x).latchFirst n x.st.code).logFault r) :=
    .ite (hsrc x _) ((hsrc x _).trans (.logFault _ r))
  exact .ite (hlog _) ((hlog _).trans (.post _ _ _ _ _))

theorem EventFrame.loseTriad (s : State) : EventFrame s s.loseTriad := by
  unfold State.loseTriad
  dsimp only
  exact .ite (.refl s) ((EventFrame.trans (.of_eq (by rfl)) (.post _ _ _ _ _)).trans (.recordFault _ 4 0 0 0 false))

theorem EventFrame.failChannel (s : State) (c : Nat) : EventFrame s (s.failChannel c) := by
  unfold State.failChannel
  dsimp only
  have hfail (f : Chn → Chn) : EventFrame s ((s.modChn c f).post 0x12 0 c []) :=
    EventFrame.trans (.of_eq (by rfl)) (.post _ _ _ _ _)
  refine .ite (.refl s) ?_
  split
  · exact (hfail _).trans (.loseTriad _)
  · exact .ite ((hfail _).trans (EventFrame.trans (.of_eq (by rfl)) (.post _ _ _ _ _))) ((hfail _).trans (.loseTriad _))
  · exact hfail _

theorem EventFrame.react (s : State) (n code : Nat) : EventFrame s (s.react n code) := by
  refine .ite ?_ (.ite ?_ (.ite (.ite (.refl s) (.of_eq rfl)) (.refl s)))
  · split
    · exact .failChannel s _
    · exact .of_eq rfl
    · exact .refl s
  · split
    · exact .ite (.refl s) (.of_eq rfl)
    · exact .refl s

theorem EventFrame.faultEvent (s : State) (n detail concerned cause : Nat) (forced : Bool) :
    EventFrame s (s.faultEvent n detail concerned cause forced) :=
  .ite ((EventFrame.recordFault s n _ _ _ _).trans (.react _ n _)) (.refl s)

end Sys2Proof.Machine
end

section
/-! PROOFS. HOST_CFG.BOOT: the command ring and the event ring of the PF are enabled, or BOOT_ERR is set (R299). -/

namespace Sys2Proof.Machine

/-! ### What the write does -/

/-- HOST_CFG as the write leaves it, with both contexts asked for. -/
def State.bootAsked (s : State) (v : Reg) : State :=
  ((s.setReg A.hostCfg (v &&& 0x0FFF0004#32)).readContext 0).readContext 1

/-- Rings 0 and 1 with the contexts that were read, the registers latched that their start latches. -/
def State.bootRings (s : State) (x y : List Byte) : State :=
  let s2 := ((s.latch bootLatches).startRing 0 x).startRing 1 y
  { s2 with host := { s2.host with bootOn := true } }

theorem State.bootAsked_eq (s : State) (v : Reg) :
    ∃ io, s.bootAsked v = { s.setReg A.hostCfg (v &&& 0x0FFF0004#32) with io := io } := by
  obtain ⟨io, hfirst⟩ := (s.setReg A.hostCfg (v &&& 0x0FFF0004#32)).readContext_eq 0
  obtain ⟨io', hsecond⟩ := ((s.setReg A.hostCfg (v &&& 0x0FFF0004#32)).readContext 0).readContext_eq 1
  exact ⟨io', by rw [State.bootAsked, hsecond, hfirst]⟩

/-- The contexts start rings 0 and 1: the PF may read them, and they are those of a command and an event ring of it. -/
def State.bootCtxOk (s : State) (x y : List Byte) : Bool :=
  s.fnLive 0 && s.ctxValid x && s.ctxValid y && leAt x 8 1 == 3 && leAt y 8 1 == 4 && leAt x 10 1 == 0 &&
    leAt y 10 1 == 0

/-- Neither the write nor the reads bear on the contexts. -/
theorem State.bootAsked_ctxOk (s : State) (v : Reg) (x y : List Byte) :
    (s.bootAsked v).bootCtxOk x y = s.bootCtxOk x y := by
  obtain ⟨io, heq⟩ := s.bootAsked_eq v
  rw [heq]
  rfl

section
variable {s : State} {v : Reg} (hw : Wired s)
include hw

theorem hostCfgBoot_idle (x y : HostRead) (h : rbit v 0 = false ∨ s.isOff 5 0 = false ∨ s.isOff 5 1 = false) :
    exec (.hostCfgBoot v x y) s = .next (s.setReg A.hostCfg (v &&& 0x0FFF0004#32)) := by
  have hidle : (rbit v 0 && s.isOff 5 0 && s.isOff 5 1) = false := by rcases h with h | h | h <;> simp [h]
  change execHostCfgBoot v x y s = _
  rw [execHostCfgBoot, atPins_wired hw]
  simp only [hidle, Bool.false_eq_true, if_false]

variable (hv : rbit v 0 = true) (h0 : s.isOff 5 0 = true) (h1 : s.isOff 5 1 = true)
include hv h0 h1

theorem hostCfgBoot_unread {x y : HostRead} (h : x = .err ∨ y = .err) :
    exec (.hostCfgBoot v x y) s = .next ((s.bootAsked v).orReg A.hostStat 4) := by
  change execHostCfgBoot v x y s = _
  rw [execHostCfgBoot, atPins_wired hw]
  simp only [hv, h0, h1, Bool.and_self, if_true]
  rcases h with rfl | rfl
  · rfl
  · cases x <;> rfl

theorem hostCfgBoot_read (x y : List Byte) : exec (.hostCfgBoot v (.ok x) (.ok y)) s = .next
    (if s.bootCtxOk x y then ((s.bootAsked v).bootRings x y).releaseBootEvent
      else (s.bootAsked v).orReg A.hostStat 4) := by
  change execHostCfgBoot v (.ok x) (.ok y) s = _
  rw [execHostCfgBoot, atPins_wired hw, ← s.bootAsked_ctxOk v]
  simp only [hv, h0, h1, Bool.and_self, if_true]
  rfl

end

/-! ### The rings that start -/

/-- An event writes no register but pending bits. -/
theorem State.postAt_reg (s : State) (n type sub src : Nat) (payload : List Byte) (time : Nat) {a : Nat}
    (ha : a < 0x1C000) : (s.postAt n type sub src payload time).reg a = s.reg a := by
  cases hroom : s.evRoom n with
  | false =>
    rw [State.postAt_discarded hroom, State.count_pos _ _ Nat.one_pos]
    rfl
  | true =>
    have hpba (k : Nat) : a ≠ A.msixPba k := by unfold A.msixPba; omega
    rw [State.postAt_taken hroom, (FillFrame.fillEvents _ n).reg a (hpba _)]
    rfl

/-- The boot event is posted to an event ring, or nothing happens. -/
theorem State.releaseBootEvent_cases (s : State) : s.releaseBootEvent = s ∨ ∃ e : Event, s.releaseBootEvent =
    ({ s with host := { s.host with bootEvent := none } }).postAt s.evtRing e.type e.sub e.src e.payload e.time := by
  unfold State.releaseBootEvent
  split
  · next e _ =>
    split
    · exact .inr ⟨e, rfl⟩
    · exact .inl rfl
  · exact .inl rfl

theorem State.releaseBootEvent_reg (s : State) {a : Nat} (ha : a < 0x1C000) : s.releaseBootEvent.reg a = s.reg a := by
  obtain h | ⟨e, h⟩ := s.releaseBootEvent_cases
  · rw [h]
  · rw [h, State.postAt_reg _ _ _ _ _ _ _ ha]
    rfl

theorem State.releaseBootEvent_bootOn (s : State) : s.releaseBootEvent.host.bootOn = s.host.bootOn := by
  obtain h | ⟨e, h⟩ := s.releaseBootEvent_cases
  · rw [h]
  · rw [h, (EventFrame.postAt _ _ _ _ _ _ _).host]

theorem State.releaseBootEvent_ring (s : State) {n : Nat} (h : (s.ring n).type ≠ 4) :
    s.releaseBootEvent.ring n = s.ring n := by
  obtain hnone | ⟨e, hposted⟩ := s.releaseBootEvent_cases
  · rw [hnone]
  · rw [hposted]
    exact (EventFrame.postAt _ _ _ _ _ _ _).other n h

theorem State.ring_startRing (s : State) (n : Nat) (x : List Byte) (m : Nat) :
    (s.startRing n x).ring m = if m = n then s.ringOf x else s.ring m := State.ring_modRing s n m _

theorem State.fn_startRing (s : State) (n : Nat) (x : List Byte) (m : Nat) :
    (s.startRing n x).fn 5 m = if m = n then { st := .on } else s.fn 5 m := by
  have hkey : fnKey 5 m = fnKey 5 n ↔ m = n := Nat.add_left_cancel_iff
  rw [State.startRing, State.fn_setFn]
  simp only [hkey]
  rfl

/-- The two rings after BOOT: each ON with its context, the event ring with the boot event where that waited. -/
theorem State.bootRings_started (s : State) (x y : List Byte) (hx : leAt x 8 1 = 3) :
    (s.bootRings x y).releaseBootEvent.isOn 5 0 = true ∧ (s.bootRings x y).releaseBootEvent.isOn 5 1 = true ∧
    (s.bootRings x y).releaseBootEvent.ring 0 = s.ringOf x ∧
    (s.bootRings x y).releaseBootEvent.ring 1 =
      { s.ringOf y with evq := ((s.bootRings x y).releaseBootEvent.ring 1).evq } := by
  have hring (m : Nat) : (s.bootRings x y).ring m =
      if m = 1 then s.ringOf y else if m = 0 then s.ringOf x else s.ring m := by
    refine (State.ring_startRing _ 1 y m).trans ?_
    rw [State.ring_startRing]
    rfl
  have hfn (m : Nat) : (s.bootRings x y).releaseBootEvent.fn 5 m =
      if m = 1 then { st := .on } else if m = 0 then { st := .on } else s.fn 5 m := by
    rw [State.fn, State.releaseBootEvent_fns]
    refine (State.fn_startRing _ 1 y m).trans ?_
    rw [State.fn_startRing]
    rfl
  refine ⟨State.isOn_eq_true.mpr (by rw [hfn]; rfl), State.isOn_eq_true.mpr (by rw [hfn]; rfl), ?_, ?_⟩
  · have hcmd : ((s.bootRings x y).ring 0).type = 3 := by rw [hring]; exact hx
    rw [State.releaseBootEvent_ring _ (by rw [hcmd]; decide), hring]
    rfl
  · have hevent : (s.bootRings x y).ring 1 = s.ringOf y := hring 1
    rw [← hevent]
    exact RingQueue.releaseBootEvent (by rw [hevent]; rfl)

theorem State.bootRings_reg (s : State) (x y : List Byte) (a : Nat) : (s.bootRings x y).reg a = s.reg a := rfl

/-- SPLIT_WB is among the fields that the write stores. -/
theorem rbit_hostCfgField (v : Reg) : rbit (v &&& 0x0FFF0004#32) 2 = rbit v 2 := by
  have hfield : (0x0FFF0004#32 : Reg).getLsbD 2 = true := rfl
  rw [rbit, rbit, bit_toNat, bit_toNat, BitVec.getLsbD_and, hfield, Bool.and_true]

/-- Settles O30: the write by BOOT and the state of the rings, and the rings by their contexts. -/
theorem hostBoot : Obligations.HostBoot := by
  unfold Obligations.HostBoot
  intro v x y s hw
  refine ⟨hostCfgBoot_idle hw x y, fun hv h0 h1 => ⟨?started, ?failed⟩⟩
  case started =>
    rintro a b rfl rfl hlive ha hb hta htb hfa hfb
    have hok : s.bootCtxOk a b = true := by simp [State.bootCtxOk, hlive, ha, hb, hta, htb, hfa, hfb]
    obtain ⟨io, hasked⟩ := s.bootAsked_eq v
    have hcfg : (s.bootAsked v).reg A.hostCfg = v &&& 0x0FFF0004#32 := by
      rw [hasked]
      exact (State.reg_setReg _ _ _ _).trans (if_pos rfl)
    obtain ⟨hon0, hon1, hring0, hring1⟩ := (s.bootAsked v).bootRings_started a b hta
    refine ⟨_, (hostCfgBoot_read hw hv h0 h1 a b).trans (congrArg _ (if_pos hok)), hon0, hon1, ?_, ?_, ?_, ?_⟩
    · rw [State.releaseBootEvent_bootOn]
      rfl
    · rw [State.releaseBootEvent_reg _ (by decide), State.bootRings_reg, hcfg]
    · rw [hring0, State.ringOf, hcfg, hta, hfa, rbit_hostCfgField]
    · rw [hring1, State.ringOf, hcfg, htb, hfb, rbit_hostCfgField]
  case failed =>
    intro h
    have hfails : ∀ a b, x = .ok a → y = .ok b → s.bootCtxOk a b = false := by
      rintro a b rfl rfl
      rcases h with h | h | h | ⟨a', ha, h⟩ | ⟨b', hb, h⟩
      · cases h
      · cases h
      · simp [State.bootCtxOk, h]
      · cases ha
        rcases h with h | h | h <;> simp [State.bootCtxOk, h]
      · cases hb
        rcases h with h | h | h <;> simp [State.bootCtxOk, h]
    cases x with
    | err => exact hostCfgBoot_unread hw hv h0 h1 (.inl rfl)
    | ok a =>
      cases y with
      | err => exact hostCfgBoot_unread hw hv h0 h1 (.inr rfl)
      | ok b =>
        rw [hostCfgBoot_read hw hv h0 h1, hfails a b rfl rfl]
        rfl

end Sys2Proof.Machine
end

section
/-! SUPPORT. What has been written to host memory stays written while rings return descriptors (R280, R290). -/

namespace Sys2Proof.Machine

/-- Nothing written to host memory is taken back. -/
def WritesGrow (s t : State) : Prop := s.io.hostw ⊆ t.io.hostw

theorem WritesGrow.of_eq {s t : State} (h : t.io.hostw = s.io.hostw) : WritesGrow s t := by
  rw [WritesGrow, h]
  exact List.Subset.refl _

theorem WritesGrow.refl (s : State) : WritesGrow s s := .of_eq rfl

theorem WritesGrow.trans {s t u : State} (h : WritesGrow s t) (k : WritesGrow t u) : WritesGrow s u :=
  List.Subset.trans h k

theorem WritesGrow.ite {c : Prop} [Decidable c] {s t u : State} (ht : WritesGrow s t) (hu : WritesGrow s u) :
    WritesGrow s (if c then t else u) := by
  split
  · exact ht
  · exact hu

theorem WritesGrow.foldl {α : Type} {f : State → α → State} (h : ∀ s a, WritesGrow s (f s a)) (l : List α) (s : State) :
    WritesGrow s (l.foldl f s) :=
  List.foldlRecOn l f (motive := WritesGrow s) (.refl s) fun t ht a _ => ht.trans (h t a)

theorem WritesGrow.hostWrite (s : State) (fn addr : Nat) (relaxed : Bool) (bs : List Byte) :
    WritesGrow s (s.hostWrite fn addr relaxed bs) := List.subset_append_right _ _

/-- The pieces of an access are among what has been written. -/
theorem State.mem_hostWrite {s : State} {fn addr : Nat} {relaxed : Bool} {bs : List Byte} {w : HostWr}
    (h : w ∈ s.hostTlps fn addr relaxed bs) : w ∈ (s.hostWrite fn addr relaxed bs).io.hostw :=
  List.mem_append_left _ (List.mem_reverse.mpr h)

theorem WritesGrow.fireVector (s : State) (fn vec : Nat) : WritesGrow s (s.fireVector fn vec) :=
  .ite (.of_eq rfl) (.ite (.of_eq rfl) (.of_eq rfl))

theorem WritesGrow.signalRing (s : State) (n : Nat) : WritesGrow s (s.signalRing n) := by
  have hcount : WritesGrow s (s.modRing n fun r => { r with unsignalled := 0 }) := .of_eq rfl
  exact .ite hcount (hcount.trans (.fireVector _ _ _))

theorem WritesGrow.writeReturn (s : State) (n : Nat) (bs : List Byte) (word : Nat) :
    WritesGrow s (s.writeReturn n bs word) := by
  have hmod (u : State) (f : Ring → Ring) : WritesGrow u (u.modRing n f) := .of_eq rfl
  unfold State.writeReturn
  dsimp only
  refine .ite (WritesGrow.trans ?_ (.signalRing _ n)) ?_
  all_goals
    refine WritesGrow.trans ?_ (hmod _ _)
    exact .ite ((WritesGrow.hostWrite _ _ _ _ _).trans (.hostWrite _ _ _ _ _)) (.hostWrite _ _ _ _ _)

theorem WritesGrow.flushReturns (s : State) (n : Nat) : WritesGrow s (s.flushReturns n) := by
  unfold State.flushReturns
  split
  · refine WritesGrow.trans (t := s.modRing n fun r => { r with retq := [] }) (.of_eq rfl) ?_
    exact .foldl (f := fun s (e : List Byte × Nat) => s.writeReturn n e.1 e.2) (fun s e => .writeReturn s n e.1 e.2) _ _
  · exact .refl s

theorem WritesGrow.ringReturn (s : State) (n : Nat) (bs : List Byte) (word : Nat) :
    WritesGrow s (s.ringReturn n bs word) :=
  WritesGrow.trans (.of_eq (by rfl)) (.flushReturns _ n)

theorem WritesGrow.completeCmd (s : State) (n : Nat) (d : List Byte) (st res : Nat) :
    WritesGrow s (s.completeCmd n d st res) :=
  WritesGrow.trans (.of_eq (by rfl)) (.ringReturn _ n _ _)

end Sys2Proof.Machine
end

section
/-! PROOFS. A counter snapshot: what is copied, what restarts, and what else the command touches (R297, R383 to R386). -/

namespace Sys2Proof.Machine

/-! ### What the command answers -/

/-- What SNAPSHOT of ring `n` and set `set` answers on the state in which it was accepted. -/
def snapshotAnswer (n set : Nat) (s : State) : CmdOut :=
  match s.setRanges set with
  | none => .ret s stTarget 0
  | some rs =>
    if decide (set < 1091) && s.portUnreachable set then .ret s stUnreachable 0 else
    if s.ringIs n 5 ∧ s.rangesOpen (s.ring n).fn rs = false then .ret s stInvalid 0
    else match (s.ring n).fetched with
      | d :: _ =>
        if s.ringIs n 5 && s.fnLive (s.ring n).fn then
          .ret (s.takeSnapshot n set rs d).1 stOk (s.takeSnapshot n set rs d).2
        else .ret (s.count (devCtr 11) 1) stNoSpace 0
      | [] => .ret (s.count (devCtr 11) 1) stNoSpace 0

/-- The parameters of SNAPSHOT hold no reserved bit (R293). -/
def snapshotParamsOk (c : Cmd) : Bool :=
  decide (bits c.p0.toNat 15 12 = 0) && p0Below c 32 && p1Below c 0 && p2Below c 0

theorem exec_snapshot (c : Cmd) (s : State) : exec (.snapshot c) s = gated s (runCmd 0x80 c (snapshotParamsOk c)
    (snapshotAnswer (bits c.p0.toNat 11 0) (bits c.p0.toNat 31 16))) := rfl

section
variable {s : State} {n set : Nat}

theorem snapshotAnswer_noSet (h : s.setRanges set = none) : snapshotAnswer n set s = .ret s stTarget 0 := by
  rw [snapshotAnswer, h]

variable {rs : List (Nat × Nat)} (hset : s.setRanges set = some rs)
  (hreach : set < 1091 → s.portUnreachable set = false)
include hset hreach

/-- A set that exists and is reachable is judged by its pages and its ring. -/
theorem snapshotAnswer_set : snapshotAnswer n set s =
    if s.ringIs n 5 ∧ s.rangesOpen (s.ring n).fn rs = false then .ret s stInvalid 0
    else match (s.ring n).fetched with
      | d :: _ =>
        if s.ringIs n 5 && s.fnLive (s.ring n).fn then
          .ret (s.takeSnapshot n set rs d).1 stOk (s.takeSnapshot n set rs d).2
        else .ret (s.count (devCtr 11) 1) stNoSpace 0
      | [] => .ret (s.count (devCtr 11) 1) stNoSpace 0 := by
  have hreached : ¬(decide (set < 1091) && s.portUnreachable set) = true := by
    rw [Bool.and_eq_true, decide_eq_true_iff]
    rintro ⟨hport, hlost⟩
    rw [hreach hport] at hlost
    cases hlost
  rw [snapshotAnswer, hset]
  exact if_neg hreached

theorem snapshotAnswer_closed (hring : s.ringIs n 5 = true) (hopen : s.rangesOpen (s.ring n).fn rs = false) :
    snapshotAnswer n set s = .ret s stInvalid 0 := by
  rw [snapshotAnswer_set hset hreach, if_pos ⟨hring, hopen⟩]

theorem snapshotAnswer_taken (hring : s.ringIs n 5 = true) (hopen : s.rangesOpen (s.ring n).fn rs = true)
    (hlive : s.fnLive (s.ring n).fn = true) {d : List Byte} {ds : List (List Byte)}
    (hd : (s.ring n).fetched = d :: ds) : snapshotAnswer n set s =
      .ret (s.takeSnapshot n set rs d).1 stOk (s.takeSnapshot n set rs d).2 := by
  rw [snapshotAnswer_set hset hreach, if_neg (by simp [hopen])]
  simp only [hd, hring, hlive, Bool.and_self, if_true]

theorem snapshotAnswer_noBuffer
    (h : s.ringIs n 5 = false ∨ (s.rangesOpen (s.ring n).fn rs = true ∧ (s.ring n).fetched = [])) :
    snapshotAnswer n set s = .ret (s.count (devCtr 11) 1) stNoSpace 0 := by
  rw [snapshotAnswer_set hset hreach]
  rcases h with hring | ⟨hopen, hnone⟩
  · rw [if_neg (by simp [hring])]
    simp only [hring, Bool.false_and, Bool.false_eq_true, if_false]
    split <;> rfl
  · rw [if_neg (by simp [hopen])]
    simp only [hnone]

end

/-! ### What an acceptance leaves of the rings -/

section
variable (op : Nat) (c : Cmd) (s : State) (n : Nat)

theorem accepted_ringIs (type : Nat) : (accepted op c s).ringIs n type = s.ringIs n type := by
  have htype : ((accepted op c s).ring n).type = (s.ring n).type := by
    by_cases hn : n = c.ring
    · obtain ⟨-, -, -, -, hring, -⟩ := accepted_frame op c s
      rw [hn, hring]
    · rw [accepted_ring_ne op c s hn]
  rw [State.ringIs, htype]
  rfl

theorem accepted_ring_fn : ((accepted op c s).ring n).fn = (s.ring n).fn := by
  by_cases hn : n = c.ring
  · obtain ⟨-, -, -, -, hring, -⟩ := accepted_frame op c s
    rw [hn, hring]
  · rw [accepted_ring_ne op c s hn]

/-- A ring without descriptors has none after an acceptance. -/
theorem accepted_fetched_none {op c s n} (h : (s.ring n).fetched = []) : ((accepted op c s).ring n).fetched = [] := by
  by_cases hn : n = c.ring
  · obtain ⟨hring, -⟩ := accepted_waits op c s
    rw [hn, hring, ← hn, h]
    rfl
  · rw [accepted_ring_ne op c s hn, h]

end

/-- A ring that is served is a command ring, and no other. -/
theorem Serves.ring_ne {s : State} {m n : Nat} (hs : Serves s m) (h : s.ringIs n 5 = true) : n ≠ m := by
  rintro rfl
  obtain ⟨-, ha, -⟩ := hs
  have htype := State.ringIs_type h
  simp [State.accepts, htype] at ha

/-! ### What is copied, and what restarts (R383 to R385) -/

/-- Bytes that a snapshot writes of a set with ranges `rs` into the buffer of descriptor `d`. -/
def snapshotLen (rs : List (Nat × Nat)) (d : List Byte) : Nat := min (leAt d 8 4) (64 + (rs.map (fun r => r.2)).sum)

/-- The header, and the ranges cut to the buffer. -/
def State.snapshotBytes (s : State) (set : Nat) (rs : List (Nat × Nat)) (d : List Byte) : List Byte :=
  (snapHeader set s.nowNs rs ++ s.rangeBytes (cutRanges (snapshotLen rs d - 64) rs)).take (snapshotLen rs d)

/-- The words copied have restarted. -/
def State.snapshotRestarted (s : State) (rs : List (Nat × Nat)) (d : List Byte) : State :=
  s.restartCopied (cutRanges (snapshotLen rs d - 64) rs)

theorem State.takeSnapshot_spec (s : State) (n set : Nat) (rs : List (Nat × Nat)) (d : List Byte) :
    (s.takeSnapshot n set rs d).2 = snapshotLen rs d ∧
    FillFrame n (s.snapshotRestarted rs d) (s.takeSnapshot n set rs d).1 ∧
    (∀ w ∈ s.hostTlps (s.ring n).fn (leAt d 0 8) true (s.snapshotBytes set rs d),
      w ∈ (s.takeSnapshot n set rs d).1.io.hostw) := by
  refine ⟨rfl, ?_, fun w hmem => ?_⟩
  · have hwritten : FillFrame n (s.snapshotRestarted rs d)
        ((s.hostWrite (s.ring n).fn (leAt d 0 8) true (s.snapshotBytes set rs d)).snapshotRestarted rs d) :=
      ⟨rfl, rfl, fun _ _ => rfl, rfl, fun _ _ => rfl⟩
    have htaken : FillFrame n _ (((s.hostWrite (s.ring n).fn (leAt d 0 8) true
        (s.snapshotBytes set rs d)).snapshotRestarted rs d).modRing n fun r => { r with fetched := r.fetched.drop 1 }) :=
      hwritten.trans (.modRing n _ fun _ => rfl)
    exact htaken.trans (.of_return (.ringReturn n _ _ _))
  · have hgrows : WritesGrow (s.hostWrite (s.ring n).fn (leAt d 0 8) true (s.snapshotBytes set rs d))
        (s.takeSnapshot n set rs d).1 := WritesGrow.trans (.of_eq (by rfl)) (.ringReturn _ n _ _)
    exact hgrows (State.mem_hostWrite hmem)

/-- What the events and returns of two rings leave together. -/
theorem FillFrame.two {m n : Nat} {s t u : State} (h : FillFrame n s t) (k : FillFrame m t u) :
    u = { s with regs := u.regs, host := u.host, io := u.io } ∧
    u.host = { s.host with rings := u.host.rings, cmdRot := u.host.cmdRot, vfPending := u.host.vfPending } ∧
    (∀ j, j ≠ m → j ≠ n → u.ring j = s.ring j) := by
  refine ⟨?_, ?_, fun j hm hn => (k.other j hm).trans (h.other j hn)⟩
  · rw [k.parts, h.parts]
  · rw [k.host, h.host]

/-- The state that restarts is that before the command, but for the rings. -/
theorem accepted_snapshotRestarted (op : Nat) (c : Cmd) (s : State) (rs : List (Nat × Nat)) (d : List Byte) :
    (accepted op c s).snapshotRestarted rs d =
      { s.snapshotRestarted rs d with host := (accepted op c s).host } := rfl

/-- A snapshot that is taken: the bytes written, the words restarted, and nothing else but the two rings. -/
theorem snapshot_taken {c : Cmd} {s : State} {n set : Nat} {rs : List (Nat × Nat)}
    (hx : exec (.snapshot c) s = gated s (runCmd 0x80 c (snapshotParamsOk c) (snapshotAnswer n set))) (ht : Takes s c)
    (hok : snapshotParamsOk c = true) (hset : s.setRanges set = some rs)
    (hreach : set < 1091 → s.portUnreachable set = false) (hring : s.ringIs n 5 = true)
    (hopen : s.rangesOpen (s.ring n).fn rs = true) (hlive : s.fnLive (s.ring n).fn = true) {d : List Byte}
    {ds : List (List Byte)} (hd : (s.ring n).fetched = d :: ds) : Yields (.snapshot c) s fun t =>
      Answered t c 0x80 stOk (snapshotLen rs d) ∧
      (∀ w ∈ s.hostTlps (s.ring n).fn (leAt d 0 8) true (s.snapshotBytes set rs d), w ∈ t.io.hostw) ∧
      t = { s.snapshotRestarted rs d with regs := t.regs, host := t.host, io := t.io } ∧
      t.host = { s.host with rings := t.host.rings, cmdRot := t.host.cmdRot, vfPending := t.host.vfPending } ∧
      (∀ m, m ≠ c.ring → m ≠ n → t.ring m = s.ring m) := by
  have hsame : (accepted 0x80 c s).ring n = s.ring n := accepted_ring_ne 0x80 c s (ht.1.ring_ne hring)
  have hanswer := snapshotAnswer_taken (s := accepted 0x80 c s) (n := n) hset hreach
    (by rw [accepted_ringIs, hring]) (by rw [hsame]; exact hopen) (by rw [hsame]; exact hlive) (by rw [hsame]; exact hd)
  obtain ⟨hlen, htaken, hwrites⟩ := (accepted 0x80 c s).takeSnapshot_spec n set rs d
  rw [hlen] at hanswer
  have hexec := exec_eq_completeCmd hx ht hok hanswer
  generalize ((accepted 0x80 c s).takeSnapshot n set rs d).1 = u at *
  obtain ⟨hparts, hhost, hother⟩ := htaken.two (.of_return (.completeCmd c.ring u (cmdBytes 0x80 c) stOk (snapshotLen rs d)))
  rw [accepted_snapshotRestarted] at hparts hhost
  refine ⟨_, hexec, answered_completeCmd (by decide) c _ _ _, fun w hw => ?_, hparts, hhost, fun m hm hmn => ?_⟩
  · rw [hsame] at hwrites
    exact WritesGrow.completeCmd _ _ _ _ _ (hwrites w hw)
  · exact (hother m hm hmn).trans (accepted_ring_ne 0x80 c s hm)

/-- Settles O24: the command by the answer that its effect gives on the state in which it is accepted. -/
theorem counterSnapshot : Obligations.CounterSnapshot := by
  unfold Obligations.CounterSnapshot
  intro c s ht hrsvd hp0 hp1 hp2
  have hp0' : p0Below c 32 = true := decide_eq_true hp0
  have hok : snapshotParamsOk c = true := by simp [snapshotParamsOk, p1Below, p2Below, hrsvd, hp0', hp1, hp2]
  have hx := exec_snapshot c s
  generalize bits c.p0.toNat 11 0 = n at *
  generalize bits c.p0.toNat 31 16 = set at *
  refine ⟨fun rs hset hreach => ⟨fun d ds hring hopen hlive hd => ?_, fun hring hopen => ?_, fun h => ?_⟩,
    fun hnone => yields_returns hx (by decide) ht hok (snapshotAnswer_noSet hnone)⟩
  · exact snapshot_taken hx ht hok hset hreach hring hopen hlive hd
  · exact yields_returns hx (by decide) ht hok (snapshotAnswer_closed hset hreach
      (by rw [accepted_ringIs, hring]) (by rw [accepted_ring_fn]; exact hopen))
  · refine ⟨_, exec_eq_completeCmd hx ht hok (snapshotAnswer_noBuffer hset hreach ?_),
      returns_completeCmd (by decide) c (s.count (devCtr 11) 1) stNoSpace 0⟩
    rw [accepted_ringIs, accepted_ring_fn]
    exact h.imp id fun ⟨hopen, hnone⟩ => ⟨hopen, accepted_fetched_none hnone⟩

end Sys2Proof.Machine
end

section
/-! PROOFS. An entry of a VF's MSI-X table whose address is not aligned (R274, R276). -/

namespace Sys2Proof.Machine
open Sys2Proof.Tests

/-- Entry 0 of the MSI-X table of VF 1, masked, with address 1. -/
def oddEntry : MsixEntry := { addr := 1 }

/-- The device with that entry. -/
def oddVector : State := { up with host := { up.host with vfMsix := [(0, oddEntry)] } }

/-- A VF's table takes the entry with its mask bit clear, at an address that is a multiple of 4. -/
theorem State.msixEntry_clearMask_vf (s : State) {fn vec : Nat} (h : fn ≠ 0) : (s.clearMask fn vec).msixEntry fn vec =
    { s.msixEntry fn vec with addr := BitVec.ofNat 64 ((s.msixEntry fn vec).addr.toNat / 4 * 4), mask := false } := by
  rw [State.clearMask, if_neg h, State.setMsix, if_neg h]
  exact (if_neg h).trans (SMap.get_set_same _ _ _ _)

theorem msixUnmask_clears {s : State} (hw : Wired s) (fn vec : Nat) :
    exec (.msixUnmask fn vec none) s = .next ((s.clearMask fn vec).sendPending fn vec) := by
  change execMsixUnmask fn vec none s = _
  rw [execMsixUnmask, atPins_wired hw]

/-- A vector that is not pending sends nothing. -/
theorem State.sendPending_of_idle {s : State} {fn vec : Nat} (h : s.vecPending fn vec = false) :
    s.sendPending fn vec = s := by
  rw [State.sendPending, h]
  rfl

/-- Refutes O38: MSIX_UNMASK of a VF's entry with address 1, as `oddVector` has it, leaves address 0. The statement says
that clearing a mask bit leaves the rest of the entry, and bounds no entry that the table holds before; a write of the
host stores aligned addresses only. -/
theorem not_vectorsFire : ¬ Obligations.VectorsFire := by
  unfold Obligations.VectorsFire
  intro h
  have hw : Wired oddVector := by decide
  have hidle : oddVector.vecPending 1 0 = false := rfl
  obtain ⟨hunmask, -⟩ := h 1 0 oddVector hw (by decide) (by decide)
  obtain ⟨-, hquiet⟩ := hunmask none _ rfl
  obtain ⟨t, hexec, hentry, -⟩ := hquiet (.inl hidle)
  have hstate : t = oddVector.clearMask 1 0 := by
    have hnext := hexec.symm.trans (msixUnmask_clears hw 1 0)
    rw [State.sendPending_of_idle (by exact hidle)] at hnext
    exact Host.Outcome.next.inj hnext
  rw [hstate, State.msixEntry_clearMask_vf _ (by decide)] at hentry
  exact absurd (congrArg MsixEntry.addr hentry) (by decide)

end Sys2Proof.Machine
end

section
/-! SUPPORT. Rings and VFs that go OFF at once, with the resets of the host link and of a VF (R302, R402). -/

namespace Sys2Proof.Machine

/-! ### Functions that go OFF at once -/

/-- Functions go OFF, with the settings and the requests of the host interface that end with them, and none leaves OFF. -/
structure GoesOff (s t : State) : Prop where
  parts : t = { s with fns := t.fns, host := t.host }
  host : t.host = { s.host with
    rings := t.host.rings, bme := t.host.bme, ctl := t.host.ctl, vfMsix := t.host.vfMsix, vfPending := t.host.vfPending
    summaryOut := t.host.summaryOut, swapOut := t.host.swapOut, prodOut := t.host.prodOut, prodWait := t.host.prodWait }
  off : ∀ c i, s.isOff c i = true → t.isOff c i = true

theorem GoesOff.of_host {s t : State} (hparts : t = { s with host := t.host })
    (hhost : t.host = { s.host with
      rings := t.host.rings, bme := t.host.bme, ctl := t.host.ctl, vfMsix := t.host.vfMsix
      vfPending := t.host.vfPending, summaryOut := t.host.summaryOut, swapOut := t.host.swapOut
      prodOut := t.host.prodOut, prodWait := t.host.prodWait }) : GoesOff s t := by
  have hfns : t.fns = s.fns := by rw [hparts]
  refine ⟨?_, hhost, fun c i h => ?_⟩
  · rw [hfns]
    exact hparts
  · rw [State.isOff, State.fn, hfns]
    exact h

theorem GoesOff.refl (s : State) : GoesOff s s := .of_host rfl rfl

theorem GoesOff.trans {s t u : State} (h : GoesOff s t) (k : GoesOff t u) : GoesOff s u := by
  refine ⟨?_, ?_, fun c i hi => k.off c i (h.off c i hi)⟩
  · rw [k.parts, h.parts]
  · rw [k.host, h.host]

theorem GoesOff.foldl {α : Type} {f : State → α → State} (h : ∀ s a, GoesOff s (f s a)) (l : List α) (s : State) :
    GoesOff s (l.foldl f s) :=
  List.foldlRecOn l f (motive := GoesOff s) (.refl s) fun t ht a _ => ht.trans (h t a)

theorem State.isOff_setFn_default (s : State) (c i d j : Nat) :
    (s.setFn c i {}).isOff d j = if fnKey d j = fnKey c i then true else s.isOff d j := by
  rw [State.isOff, State.fn_setFn]
  split <;> rfl

theorem GoesOff.setFn (s : State) (c i : Nat) : GoesOff s (s.setFn c i {}) := by
  refine ⟨rfl, rfl, fun d j h => ?_⟩
  rw [State.isOff_setFn_default, h, ite_self]

theorem State.isOff_setFn_self (s : State) (c i : Nat) : (s.setFn c i {}).isOff c i = true := by
  rw [State.isOff_setFn_default, if_pos rfl]

theorem GoesOff.killRing (s : State) (n : Nat) : GoesOff s (s.killRing n) :=
  GoesOff.trans (.of_host (by rfl) (by rfl)) (.setFn _ 5 n)

theorem State.isOff_killRing_self (s : State) (n : Nat) : (s.killRing n).isOff 5 n = true :=
  State.isOff_setFn_self _ 5 n

/-- Every ring of a list goes OFF. -/
theorem State.isOff_killRings {l : List Nat} {n : Nat} (hn : n ∈ l) (s : State) :
    (l.foldl State.killRing s).isOff 5 n = true :=
  foldl_of_mem (Q := fun _ => True) (P := fun t : State => t.isOff 5 n = true) (fun _ _ h => h)
    (fun t _ => t.isOff_killRing_self n) (fun t m _ h => (GoesOff.killRing t m).off 5 n h) hn trivial

/-- Rings that go OFF change nothing but the rings and their lifecycle states. -/
theorem State.killRings_host (l : List Nat) (s : State) :
    (l.foldl State.killRing s).host = { s.host with rings := (l.foldl State.killRing s).host.rings } :=
  List.foldlRecOn l State.killRing (motive := fun t : State => t.host = { s.host with rings := t.host.rings }) rfl
    fun t ht n _ => by
      have hone : (t.killRing n).host = { t.host with rings := (t.killRing n).host.rings } := rfl
      rw [hone, ht]

/-- Rings that go OFF leave the lifecycle states of the VFs. -/
theorem State.fn_killRings_vf {l : List Nat} (hl : ∀ n ∈ l, n < 4096) (s : State) (v : Nat) :
    (l.foldl State.killRing s).fn 6 v = s.fn 6 v :=
  List.foldlRecOn l State.killRing (motive := fun t : State => t.fn 6 v = s.fn 6 v) rfl fun t ht n hn => by
    have hkey : fnKey 6 v ≠ fnKey 5 n := by
      have hlt := hl n hn
      unfold fnKey
      omega
    rw [State.killRing, State.fn_setFn, if_neg hkey]
    exact ht

theorem State.mem_ringsOf {s : State} {fn n : Nat} (h : n ∈ s.ringsOf fn) :
    n < 4096 ∧ s.isOff 5 n = false ∧ (s.ring n).fn = fn := by
  simpa [State.ringsOf, and_assoc] using (List.mem_filter.mp h).2

/-! ### A VF's reset (R302, R402) -/

theorem GoesOff.flrVf (s : State) (v : Nat) : GoesOff s (s.flrVf v) := by
  have hdrop : GoesOff s (s.dropReads v) := .of_host rfl rfl
  exact (hdrop.trans (.foldl .killRing _ _)).trans (.of_host rfl rfl)

theorem GoesOff.killVf (s : State) (v : Nat) : GoesOff s (s.killVf v) := (GoesOff.flrVf s v).trans (.setFn _ 6 v)

/-- A VF's reset turns its bus mastering off, and no other function's. -/
theorem State.flrVf_bme (s : State) (v : Nat) : (s.flrVf v).host.bme = SMap.set (fun _ => false) s.host.bme v false := by
  have hbme : ((s.ringsOf v).foldl State.killRing (s.dropReads v)).host.bme = s.host.bme := by
    rw [State.killRings_host]
    rfl
  rw [← hbme]
  rfl

theorem State.fn_flrVf (s : State) (v w : Nat) : (s.flrVf v).fn 6 w = s.fn 6 w :=
  State.fn_killRings_vf (fun _ hn => (State.mem_ringsOf hn).1) (s.dropReads v) w

theorem State.isOff_flrVf {s : State} {v n : Nat} (h : n ∈ s.ringsOf v) : (s.flrVf v).isOff 5 n = true :=
  State.isOff_killRings h (s.dropReads v)

end Sys2Proof.Machine
end

section
/-! SUPPORT. Descriptors that a ring asks for (R272, R279, R282, R283). -/

namespace Sys2Proof.Machine

theorem State.askReads_eq (l : List (Nat × Nat)) (fn : Nat) (s : State) :
    l.foldl (fun s e => s.askRead fn e.1 e.2) s = { s with io := { s.io with
      reads := (l.flatMap fun e => s.readTlps fn e.1 e.2).reverse ++ s.io.reads } } := by
  induction l generalizing s with
  | nil => rfl
  | cons e l ih =>
    rw [List.foldl_cons, ih, List.flatMap_cons, List.reverse_append, List.append_assoc]
    rfl

/-- `k` descriptors of ring `n` asked for from its fetch point. -/
def State.descsAsked (s : State) (n k : Nat) : State :=
  ({ s with
    io := { s.io with reads :=
      (((s.ring n).span k).flatMap fun (e : Nat × Nat) => s.readTlps (s.ring n).fn e.1 e.2).reverse ++ s.io.reads }
    host := { s.host with roundCnt := s.host.roundCnt + k } }).modRing n fun r => { r with asked := k }

theorem State.askDescs_idle {s : State} {n : Nat} (h : s.fetchSize n = 0 ∨ 0 < (s.ring n).asked ∨ s.isOn 5 n = false ∨
    (s.ring n).stopped = true ∨ s.fnLive (s.ring n).fn = false) : s.askDescs n = s := by
  rw [State.askDescs]
  rcases h with h | h | h | h | h <;> simp [h]

theorem State.askDescs_asks {s : State} {n : Nat} (hk : s.fetchSize n ≠ 0) (hasked : (s.ring n).asked = 0)
    (hon : s.isOn 5 n = true) (hruns : (s.ring n).stopped = false) (hlive : s.fnLive (s.ring n).fn = true) :
    s.askDescs n = s.descsAsked n (s.fetchSize n) := by
  rw [State.askDescs]
  generalize s.fetchSize n = k at *
  have hasks : ¬(decide (k = 0) || decide (0 < (s.ring n).asked) || !s.isOn 5 n || (s.ring n).stopped ||
      !s.fnLive (s.ring n).fn) = true := by simp [hk, hasked, hon, hruns, hlive]
  refine (if_neg hasks).trans ?_
  rw [State.askReads_eq]
  rfl

/-- A ring asks for descriptors, or nothing happens. -/
theorem State.askDescs_cases (s : State) (n : Nat) : s.askDescs n = s ∨ s.askDescs n = s.descsAsked n (s.fetchSize n) := by
  by_cases h : s.fetchSize n = 0 ∨ 0 < (s.ring n).asked ∨ s.isOn 5 n = false ∨ (s.ring n).stopped = true ∨
      s.fnLive (s.ring n).fn = false
  · exact .inl (State.askDescs_idle h)
  · simp only [not_or, Bool.not_eq_false, Bool.not_eq_true, Nat.not_lt, Nat.le_zero] at h
    obtain ⟨hk, hasked, hon, hruns, hlive⟩ := h
    exact .inr (State.askDescs_asks hk hasked hon hruns hlive)

theorem State.ring_descsAsked (s : State) (n k m : Nat) :
    (s.descsAsked n k).ring m = if m = n then { s.ring n with asked := k } else s.ring m := State.ring_modRing _ n m _

end Sys2Proof.Machine
end

section
/-! PROOFS. Host-link resets and training, virtual functions, and Bus Master Enable (R273, R274, R302, R402). -/

namespace Sys2Proof.Machine

/-! ### The host link goes down (R302, R402) -/

/-- The keys that a table lists. -/
theorem mem_keys_of_thas {α : Type} {m : List (Nat × α)} {k : Nat} (h : thas m k = true) : k ∈ m.map fun e => e.1 := by
  induction m with
  | nil => cases h
  | cons e m ih =>
    rw [thas, tget_cons] at h
    by_cases hk : k = e.1
    · exact hk ▸ List.mem_cons_self
    · rw [if_neg hk] at h
      exact List.mem_cons_of_mem _ (ih h)

/-- Frames that are dropped change counters only. -/
theorem State.rxDrops_eq (l : List WholeFrame) (s : State) :
    l.foldl (fun s f => s.rxDrop f.hdr) s = { s with cnt := (l.foldl (fun s f => s.rxDrop f.hdr) s).cnt } :=
  List.foldlRecOn l _ (motive := fun t : State => t = { s with cnt := t.cnt }) rfl fun t ht f _ => by
    have hone : t.rxDrop f.hdr = { t with cnt := (t.rxDrop f.hdr).cnt } := by
      rw [State.rxDrop, State.count_pos t _ Nat.one_pos]
      rfl
    rw [hone, ht]

/-- What the host link's going down leaves: the counters and the host interface apart, only lifecycle states change. -/
structure Down (s t : State) : Prop where
  parts : t = { s with fns := t.fns, host := t.host, cnt := t.cnt }
  host : t.host = { s.host with
    rings := t.host.rings, bme := t.host.bme, ctl := t.host.ctl, vfMsix := t.host.vfMsix, vfPending := t.host.vfPending
    bootOn := false, inbox := [], outbox := [], summaryOut := [], swapOut := [], prodOut := [], prodWait := []
    roundAt := none, roundCnt := 0 }
  rings : ∀ n, thas s.host.rings n = true → t.isOff 5 n = true
  vfs : ∀ v ≤ 8, t.isOff 6 v = true

theorem State.hostDown_down (s : State) : Down s s.hostDown := by
  have hdrop := s.rxDrops_eq (s.host.inbox ++ s.host.outbox.filter fun f => f.ctx.eport == 1088)
  unfold State.hostDown
  dsimp only
  generalize (s.host.inbox ++ s.host.outbox.filter fun f => f.ctx.eport == 1088).foldl (fun s f => s.rxDrop f.hdr) s = u
    at *
  have hurings : u.host.rings = s.host.rings := by rw [hdrop]
  have hkilled : GoesOff u ((u.host.rings.map fun e => e.1).foldl State.killRing u) := .foldl .killRing _ u
  have hvfs (x : State) : GoesOff x ((List.range 9).foldl (fun s v => s.setFn 6 v {}) x) := .foldl (fun s v => .setFn s 6 v) _ x
  have hring (n : Nat) (hn : thas s.host.rings n = true) :
      ((u.host.rings.map fun e => e.1).foldl State.killRing u).isOff 5 n = true :=
    State.isOff_killRings (mem_keys_of_thas (hurings.symm ▸ hn)) u
  generalize (u.host.rings.map fun e => e.1).foldl State.killRing u = x at *
  have hvf (v : Nat) (hv : v ≤ 8) : ((List.range 9).foldl (fun s v => s.setFn 6 v {}) x).isOff 6 v = true :=
    foldl_of_mem (f := fun (s : State) v => s.setFn 6 v {}) (b := v) (Q := fun _ => True)
      (P := fun t : State => t.isOff 6 v = true) (fun _ _ h => h) (fun t _ => t.isOff_setFn_self 6 v)
      (fun t w _ h => (GoesOff.setFn t 6 w).off 6 v h) (List.mem_range.mpr (by omega)) trivial
  have hdown := hkilled.trans (hvfs x)
  have hoff : ∀ n, thas s.host.rings n = true → ((List.range 9).foldl (fun s v => s.setFn 6 v {}) x).isOff 5 n = true :=
    fun n hn => (hvfs x).off 5 n (hring n hn)
  generalize (List.range 9).foldl (fun s v => s.setFn 6 v {}) x = y at *
  have hparts : y = { s with fns := y.fns, host := y.host, cnt := y.cnt } := by rw [hdown.parts, hdrop]
  have hhost : u.host = s.host := by rw [hdrop]
  refine ⟨?_, ?_, hoff, hvf⟩
  · rw [hparts]
  · rw [hdown.host, hhost]

/-- What a reset of the host link makes of the device whose rings and VFs are OFF (R302, R402). -/
def State.linkReset (s : State) (k : LinkReset) : State :=
  { s with
    host := { s.host with
      bme := [], vfEnable := false, numVfs := 0, ctl := [], vfMsix := [], vfPending := [], vfZero := []
      linkUp := if k = .pfFlr then s.host.linkUp else false
      speed := if k = .pfFlr then s.host.speed else 0
      width := if k = .pfFlr then s.host.width else 0 }
    boot := { s.boot with perstCnt := if k = .perstN then min 255 (s.boot.perstCnt + 1) else s.boot.perstCnt } }

theorem perst_eq {s : State} (hw : Wired s) (k : LinkReset) : exec (.perst k) s = .next (s.hostDown.linkReset k) := by
  change execPerst k s = _
  rw [execPerst, atPins_wired hw]
  cases k <;> rfl

/-- The resets of the host link: rings and VFs are OFF, and the functions' settings are at their reset state. -/
theorem perst_yields {s : State} (hw : Wired s) (k : LinkReset) : Yields (.perst k) s fun t =>
    (∀ n, thas s.host.rings n = true → t.isOff 5 n = true) ∧ (∀ v ≤ 8, t.isOff 6 v = true) ∧
    t.host.inbox = [] ∧ t.host.outbox = [] ∧ t.host.summaryOut = [] ∧ t.host.swapOut = [] ∧ t.host.prodOut = [] ∧
    t.host.prodWait = [] ∧ t.host.bme = [] ∧ t.host.vfEnable = false ∧ t.host.numVfs = 0 ∧ t.host.ctl = [] ∧
    t.host.vfMsix = [] ∧ t.host.vfPending = [] ∧ t.host.bootOn = false ∧
    t.host.linkUp = (s.host.linkUp && decide (k = .pfFlr)) ∧
    t.boot.perstCnt = (if k = .perstN then min 255 (s.boot.perstCnt + 1) else s.boot.perstCnt) ∧
    t = { s with fns := t.fns, host := t.host, cnt := t.cnt, boot := { s.boot with perstCnt := t.boot.perstCnt } } := by
  have hdown := s.hostDown_down
  refine ⟨_, perst_eq hw k, ?_⟩
  generalize s.hostDown = u at *
  have hboot : u.boot = s.boot := by rw [hdown.parts]
  have hlink : u.host.linkUp = s.host.linkUp := by rw [hdown.host]
  have hinbox : u.host.inbox = [] := by rw [hdown.host]
  have houtbox : u.host.outbox = [] := by rw [hdown.host]
  have hsummary : u.host.summaryOut = [] := by rw [hdown.host]
  have hswap : u.host.swapOut = [] := by rw [hdown.host]
  have hprod : u.host.prodOut = [] := by rw [hdown.host]
  have hwait : u.host.prodWait = [] := by rw [hdown.host]
  have hboot' : u.host.bootOn = false := by rw [hdown.host]
  have hup : (u.linkReset k).host.linkUp = (s.host.linkUp && decide (k = .pfFlr)) := by
    rw [← hlink]
    cases k <;> simp [State.linkReset]
  have hperst : (u.linkReset k).boot.perstCnt =
      if k = .perstN then min 255 (s.boot.perstCnt + 1) else s.boot.perstCnt := by
    rw [← hboot]
    rfl
  refine ⟨hdown.rings, hdown.vfs, hinbox, houtbox, hsummary, hswap, hprod, hwait, rfl, rfl, rfl, rfl, rfl, rfl, hboot',
    hup, hperst, ?_⟩
  rw [State.linkReset, hboot, hdown.parts]

/-! ### The host link trains (R273) -/

theorem hostLinkUp_eq {s : State} (hw : Wired s) (sp w : Nat) : exec (.hostLinkUp sp w) s = .next
    (if sp ≠ 3 ∨ w ≠ 8 then ({ s with host := { s.host with linkUp := true, speed := sp, width := w } }).faultEvent 18
      else { s with host := { s.host with linkUp := true, speed := sp, width := w } }) := by
  change execHostLinkUp sp w s = _
  rw [execHostLinkUp, atPins_wired hw]

/-! ### Function-level resets and VF Enable (R274, R302) -/

/-- The VF's reset, with its BAR2 view reading zero. -/
def State.vfReset (s : State) (v : Nat) : State :=
  { s.flrVf v with host := { (s.flrVf v).host with vfZero := SMap.set (fun _ => false) (s.flrVf v).host.vfZero v true } }

theorem vfFlr_eq {s : State} (hw : Wired s) (v : Nat) : exec (.vfFlr v) s = .next
    (if s.vfExists v then (s.vfReset v).post 8 0 v [] else s) := by
  change execVfFlr v s = _
  rw [execVfFlr, atPins_wired hw]
  rfl

theorem vfFlr_yields {s : State} (hw : Wired s) {v : Nat} (hv : s.vfExists v = true) : Yields (.vfFlr v) s fun t =>
    t.fn 6 v = s.fn 6 v ∧ (∀ n ∈ s.ringsOf v, t.isOff 5 n = true) ∧ t.fnLive v = false ∧ (∀ o, t.bar2Word v o = 0) ∧
    (∀ w, w ≠ v → SMap.get (fun _ => false) t.host.bme w = SMap.get (fun _ => false) s.host.bme w) ∧
    t.host.evSeq = ((s.flrVf v).post 8 0 v []).host.evSeq := by
  have hposted := EventFrame.post (s.vfReset v) 8 0 v []
  have hseq : ((s.vfReset v).post 8 0 v []).host.evSeq = ((s.flrVf v).post 8 0 v []).host.evSeq := by
    rw [State.post, State.postAt_evSeq, State.post, State.postAt_evSeq]
    rfl
  refine ⟨_, (vfFlr_eq hw v).trans (congrArg _ (if_pos hv)), ?_⟩
  generalize (s.vfReset v).post 8 0 v [] = t at *
  have hfn (c i : Nat) : t.fn c i = (s.flrVf v).fn c i := by
    rw [State.fn, hposted.fns]
    rfl
  have hbme : t.host.bme = SMap.set (fun _ => false) s.host.bme v false := by
    rw [hposted.host, ← State.flrVf_bme]
    rfl
  have hzero : SMap.get (fun _ => false) t.host.vfZero v = true := by
    rw [hposted.host]
    exact SMap.get_set_same (fun _ => false) (s.flrVf v).host.vfZero v true
  have hpos : v ≠ 0 := by
    simp only [State.vfExists, Bool.and_eq_true, decide_eq_true_eq] at hv
    omega
  refine ⟨(hfn 6 v).trans (s.fn_flrVf v v), fun n hn => ?_, ?_, fun o => ?_, fun w hvw => ?_, hseq⟩
  · rw [State.isOff, hfn, ← State.isOff]
    exact State.isOff_flrVf hn
  · rw [State.fnLive, hbme, SMap.get_set_same, Bool.and_false]
  · have hclosed : t.pageOpen v (o / 4096) = false := by simp [State.pageOpen, hpos, hzero]
    rw [State.bar2Word, hclosed]
    rfl
  · rw [hbme, SMap.get_set_ne _ _ _ hvw]

theorem sriovVfEnable_yields {s : State} (hw : Wired s) (on : Bool) (n : Nat) : Yields (.sriovVfEnable on n) s fun t =>
    t.host.vfEnable = on ∧ t.host.numVfs = min 8 n ∧
    (∀ v ≤ 8, s.vfExists v = true → t.vfExists v = false → t.isOff 6 v = true) ∧
    t = { s with fns := t.fns, host := { s.host with
      vfEnable := on, numVfs := min 8 n, rings := t.host.rings, bme := t.host.bme, ctl := t.host.ctl
      vfMsix := t.host.vfMsix, vfPending := t.host.vfPending, summaryOut := t.host.summaryOut
      swapOut := t.host.swapOut, prodOut := t.host.prodOut, prodWait := t.host.prodWait } } := by
  refine ⟨_, (by change execSriovVfEnable on n s = _; rw [execSriovVfEnable, atPins_wired hw]), ?_⟩
  dsimp only
  generalize hu : ({ s with host := { s.host with vfEnable := on, numVfs := min totalVfs n } } : State) = u
  generalize hl : (List.range 9).filter (fun v => s.vfExists v && !u.vfExists v) = l
  have hoff (v : Nat) (hv : v ∈ l) : (l.foldl State.killVf u).isOff 6 v = true :=
    foldl_of_mem (f := State.killVf) (Q := fun _ => True) (P := fun t : State => t.isOff 6 v = true) (fun _ _ h => h)
      (fun t _ => State.isOff_setFn_self _ 6 v) (fun t w _ h => (GoesOff.killVf t w).off 6 v h) hv trivial
  have hdown : GoesOff u (l.foldl State.killVf u) := .foldl .killVf l u
  generalize l.foldl State.killVf u = t at *
  have hen : t.host.vfEnable = on := by rw [hdown.host, ← hu]
  have hnum : t.host.numVfs = min 8 n := by rw [hdown.host, ← hu]; rfl
  have hexists (v : Nat) : t.vfExists v = u.vfExists v := by rw [State.vfExists, hdown.host]; rfl
  refine ⟨hen, hnum, fun v hv hwas hno => hoff v ?_, ?_⟩
  · rw [← hl, List.mem_filter, List.mem_range, hwas, ← hexists, hno]
    exact ⟨by omega, rfl⟩
  · rw [hdown.parts, hdown.host, ← hu]
    rfl

/-! ### A function that may issue requests again (R302) -/

/-- Work that resumes leaves the link, Bus Master Enable and control fields, and every ring its function; and where a
ring's function may issue requests, no return that waits is added. -/
structure Resumes (s t : State) : Prop where
  link : (t.host.linkUp, t.host.bme, t.host.ctl) = (s.host.linkUp, s.host.bme, s.host.ctl)
  fn : ∀ m, (t.ring m).fn = (s.ring m).fn
  retq : ∀ m, s.fnLive (s.ring m).fn = true → (s.ring m).retq = [] → (t.ring m).retq = []

theorem Resumes.live {s t : State} (h : Resumes s t) (f : Nat) : t.fnLive f = s.fnLive f := by
  have hlink := h.link
  simp only [Prod.mk.injEq] at hlink
  obtain ⟨hup, hbme, -⟩ := hlink
  rw [State.fnLive, hup, hbme, ← State.fnLive]

theorem Resumes.of_same {s t : State}
    (hlink : (t.host.linkUp, t.host.bme, t.host.ctl) = (s.host.linkUp, s.host.bme, s.host.ctl))
    (hring : ∀ m, (t.ring m).fn = (s.ring m).fn ∧ (t.ring m).retq = (s.ring m).retq) : Resumes s t :=
  ⟨hlink, fun m => (hring m).1, fun m _ h => (hring m).2.trans h⟩

theorem Resumes.refl (s : State) : Resumes s s := .of_same rfl fun _ => ⟨rfl, rfl⟩

theorem Resumes.of_rings {s t : State}
    (h : (t.host.linkUp, t.host.bme, t.host.ctl, t.host.rings) = (s.host.linkUp, s.host.bme, s.host.ctl, s.host.rings)) :
    Resumes s t := by
  simp only [Prod.mk.injEq] at h
  obtain ⟨hup, hbme, hctl, hrings⟩ := h
  refine .of_same (by rw [hup, hbme, hctl]) fun m => ?_
  rw [State.ring, hrings, ← State.ring]
  exact ⟨rfl, rfl⟩

theorem Resumes.trans {s t u : State} (h : Resumes s t) (k : Resumes t u) : Resumes s u :=
  ⟨k.link.trans h.link, fun m => (k.fn m).trans (h.fn m), fun m hlive hnone =>
    k.retq m (by rw [h.fn, h.live]; exact hlive) (h.retq m hlive hnone)⟩

theorem Resumes.ite {c : Prop} [Decidable c] {s t u : State} (ht : Resumes s t) (hu : Resumes s u) :
    Resumes s (if c then t else u) := by
  split
  · exact ht
  · exact hu

theorem Resumes.foldl {α : Type} {f : State → α → State} (h : ∀ s a, Resumes s (f s a)) (l : List α) (s : State) :
    Resumes s (l.foldl f s) :=
  List.foldlRecOn l f (motive := Resumes s) (.refl s) fun t ht a _ => ht.trans (h t a)

theorem Resumes.modRing (s : State) (n : Nat) {f : Ring → Ring} (hf : ∀ r, (f r).fn = r.fn ∧ (f r).retq = r.retq) :
    Resumes s (s.modRing n f) := .of_same rfl fun m => by
  rw [State.ring_modRing]
  split
  · next h =>
    rw [h]
    exact hf _
  · exact ⟨rfl, rfl⟩

/-- The returns of one ring: those of its own that wait are written. -/
theorem Resumes.of_return {n : Nat} {s t : State} (h : ReturnFrame n s t)
    (hretq : s.fnLive (s.ring n).fn = true → (t.ring n).retq = []) : Resumes s t := by
  obtain ⟨-, hhost, -, hother, hring, -⟩ := h
  refine ⟨by rw [hhost], fun m => ?_, fun m hlive hnone => ?_⟩
  · by_cases hm : m = n
    · rw [hm, hring]
    · rw [hother m hm]
  · by_cases hm : m = n
    · rw [hm] at hlive ⊢
      exact hretq hlive
    · rw [hother m hm, hnone]

theorem Resumes.flushReturns (s : State) (n : Nat) : Resumes s (s.flushReturns n) :=
  .of_return (.flushReturns n s) State.flushReturns_retq

theorem Resumes.ringReturn (s : State) (n : Nat) (bs : List Byte) (word : Nat) : Resumes s (s.ringReturn n bs word) := by
  refine .of_return (.ringReturn n s bs word) fun hlive => State.flushReturns_retq ?_
  rw [State.ring_modRing, if_pos rfl]
  exact hlive

theorem Resumes.fillEvents (s : State) (n : Nat) : Resumes s (s.fillEvents n) := by
  refine .foldl (fun s _ => ?_) _ s
  unfold State.fillEvent
  dsimp only
  split
  · exact Resumes.trans (.modRing s n (by intro; exact ⟨rfl, rfl⟩)) (.ringReturn _ n _ _)
  · exact .refl s

theorem Resumes.descsAsked (s : State) (n k : Nat) : Resumes s (s.descsAsked n k) := by
  unfold State.descsAsked
  exact Resumes.trans (.of_rings (by rfl)) (.modRing _ n fun _ => ⟨rfl, rfl⟩)

theorem Resumes.askDescs (s : State) (n : Nat) : Resumes s (s.askDescs n) := by
  obtain h | h := s.askDescs_cases n
  · rw [h]
    exact .refl s
  · rw [h]
    exact .descsAsked s n _

theorem Resumes.askProducers (s : State) (fn : Nat) (ns : List Nat) : Resumes s (s.askProducers fn ns) := by
  unfold State.askProducers
  refine .foldl (fun s n => ?_) ns s
  dsimp only
  exact .ite (.ite (.of_rings rfl) (.of_rings rfl)) (.refl s)

theorem Resumes.sendPending (s : State) (fn vec : Nat) : Resumes s (s.sendPending fn vec) := by
  have hclear : Resumes s (s.setVecPending fn vec false) := by
    unfold State.setVecPending
    dsimp only
    exact .ite (.of_rings rfl) (.of_rings rfl)
  unfold State.sendPending
  exact .ite (hclear.trans (.of_rings rfl)) (.refl s)

/-- What resumes for one ring: returns, events and descriptors. -/
def State.resumeRing (s : State) (n : Nat) : State := ((s.flushReturns n).fillEvents n).askDescs n

theorem Resumes.resumeRing (s : State) (n : Nat) : Resumes s (s.resumeRing n) :=
  ((Resumes.flushReturns s n).trans (.fillEvents _ n)).trans (.askDescs _ n)

theorem State.resumeRing_retq {s : State} {n : Nat} (h : s.fnLive (s.ring n).fn = true) :
    ((s.resumeRing n).ring n).retq = [] := by
  have hflushed := Resumes.flushReturns s n
  have hrest := (Resumes.fillEvents (s.flushReturns n) n).trans (.askDescs _ n)
  exact hrest.retq n (by rw [hflushed.fn, hflushed.live]; exact h) (State.flushReturns_retq h)

/-- What follows the rings: producer words and messages that wait. -/
theorem State.resumeFn_rings (s : State) (fn : Nat) :
    Resumes ((s.ringsOf fn).foldl State.resumeRing s) (s.resumeFn fn) := by
  have hwait (u : State) (ws : List Nat) :
      Resumes u (({ u with host := { u.host with prodWait := ws } }).askProducers fn (u.host.prodWait.filter fun n =>
        (u.ring n).fn == fn)) := Resumes.trans (.of_rings (by rfl)) (.askProducers _ fn _)
  exact (hwait _ _).trans (.foldl (fun s v => .sendPending s fn v) _ _)

theorem Resumes.resumeFn (s : State) (fn : Nat) : Resumes s (s.resumeFn fn) :=
  (Resumes.foldl .resumeRing _ s).trans (s.resumeFn_rings fn)

/-- Every ring of the function has written its returns. -/
theorem State.resumeFn_retq {s : State} {fn n : Nat} (hlive : s.fnLive fn = true) (hn : n ∈ s.ringsOf fn) :
    ((s.resumeFn fn).ring n).retq = [] := by
  have hfn := (State.mem_ringsOf hn).2.2
  have hrings : Resumes s ((s.ringsOf fn).foldl State.resumeRing s) := .foldl .resumeRing _ s
  have hwritten : (((s.ringsOf fn).foldl State.resumeRing s).ring n).retq = [] :=
    foldl_of_mem (Q := fun t : State => t.fnLive (t.ring n).fn = true) (P := fun t : State => (t.ring n).retq = [])
      (fun t m ht => by rw [(Resumes.resumeRing t m).fn, (Resumes.resumeRing t m).live]; exact ht)
      (fun t ht => State.resumeRing_retq ht) (fun t m ht h => (Resumes.resumeRing t m).retq n ht h) hn
      (by rw [hfn]; exact hlive)
  exact (s.resumeFn_rings fn).retq n (by rw [hrings.fn, hrings.live, hfn]; exact hlive) hwritten

/-- The function's configuration as the host writes it (R272, R302). -/
def State.setMaster (s : State) (fn : Nat) (on : Bool) (x : Option FnCtl) : State :=
  { s with host := { s.host with
    bme := SMap.set (fun _ => false) s.host.bme fn on
    ctl := match x with
      | some y => SMap.set (fun _ => {}) s.host.ctl fn y
      | none => s.host.ctl } }

theorem busMasterEnableChange_eq {s : State} (hw : Wired s) (fn : Nat) (on : Bool) (x : Option FnCtl) :
    exec (.busMasterEnableChange fn on x) s = .next (if (fn = 0 || s.vfExists fn) then
      (if on then (s.setMaster fn on x).resumeFn fn else s.setMaster fn on x) else s) := by
  change execBusMasterEnableChange fn on x s = _
  rw [execBusMasterEnableChange, atPins_wired hw]
  rfl

theorem State.ctl_setMaster (s : State) (fn : Nat) (on : Bool) (x : Option FnCtl) :
    (s.setMaster fn on x).ctl fn = x.getD (s.ctl fn) := by
  cases x with
  | none => rfl
  | some y => exact SMap.get_set_same (fun _ => {}) s.host.ctl fn y

theorem busMaster_set {s : State} (hw : Wired s) {fn : Nat} (h : (fn = 0 || s.vfExists fn) = true) (x : Option FnCtl) :
    Yields (.busMasterEnableChange fn true x) s fun t =>
      SMap.get (fun _ => false) t.host.bme fn = true ∧ t.ctl fn = x.getD (s.ctl fn) ∧
      (s.host.linkUp = true → ∀ n ∈ s.ringsOf fn, (t.ring n).retq = []) := by
  have hbme : SMap.get (fun _ => false) (s.setMaster fn true x).host.bme fn = true :=
    SMap.get_set_same (fun _ => false) s.host.bme fn true
  have hresumed := Resumes.resumeFn (s.setMaster fn true x) fn
  have hlink := hresumed.link
  simp only [Prod.mk.injEq] at hlink
  obtain ⟨-, hb, hc⟩ := hlink
  have hexec : exec (.busMasterEnableChange fn true x) s = .next ((s.setMaster fn true x).resumeFn fn) := by
    rw [busMasterEnableChange_eq hw, if_pos h, if_pos rfl]
  refine ⟨_, hexec, ?_, ?_, fun hup n hn => ?_⟩
  · rw [hb, hbme]
  · rw [State.ctl, hc]
    exact s.ctl_setMaster fn true x
  · refine State.resumeFn_retq ?_ hn
    rw [State.fnLive, hbme, Bool.and_true]
    exact hup

/-- Settles O37: the resets of the host link and of a VF by what goes OFF, training by speed and width, and Bus Master
Enable by the function. -/
theorem hostFunctions : Obligations.HostFunctions := by
  unfold Obligations.HostFunctions
  refine ⟨fun k s hw => perst_yields hw k, fun sp w s hw => ⟨fun hsp hwidth => ?_, fun h => ?_⟩,
    fun s hw => ⟨fun v hv => vfFlr_yields hw hv, fun v hv => ?_, fun on n => sriovVfEnable_yields hw on n⟩,
    fun fn x s hw => ⟨fun h => ⟨?_, ?_⟩, fun h0 hv on => ?_⟩⟩
  · rw [hostLinkUp_eq hw, if_neg (by omega), hsp, hwidth]
  · rw [hostLinkUp_eq hw, if_pos h]
  · rw [vfFlr_eq hw, hv]
    rfl
  · rw [busMasterEnableChange_eq hw, if_pos (by simpa using h)]
    rfl
  · exact busMaster_set hw (by simpa using h) x
  · rw [busMasterEnableChange_eq hw, if_neg (by simp [h0, hv])]

end Sys2Proof.Machine
end

section
/-! SUPPORT. Doorbell rounds: what a round, a summary and a Swap ask for (R281 to R283). -/

namespace Sys2Proof.Machine

/-! ### Descriptors (R282, R283) -/

/-- Descriptors that are asked for: only what is asked of each ring, the round's count and the read requests change. -/
structure Asks (s t : State) : Prop where
  parts : t = { s with io := { s.io with reads := t.io.reads }
                       host := { s.host with rings := t.host.rings, roundCnt := t.host.roundCnt } }
  ring : ∀ m, t.ring m = { s.ring m with asked := (t.ring m).asked }

theorem Asks.refl (s : State) : Asks s s := ⟨rfl, fun _ => rfl⟩

theorem Asks.trans {s t u : State} (h : Asks s t) (k : Asks t u) : Asks s u := by
  refine ⟨?_, fun m => ?_⟩
  · rw [k.parts, h.parts]
  · rw [k.ring, h.ring]

theorem Asks.descsAsked (s : State) (n k : Nat) : Asks s (s.descsAsked n k) := by
  refine ⟨rfl, fun m => ?_⟩
  rw [State.ring_descsAsked]
  split
  · next hm => rw [hm]
  · rfl

theorem Asks.askDescs (s : State) (n : Nat) : Asks s (s.askDescs n) := by
  obtain h | h := s.askDescs_cases n
  · rw [h]
    exact .refl s
  · rw [h]
    exact .descsAsked s n _

theorem Asks.askAll (l : List Nat) (s : State) : Asks s (l.foldl State.askDescs s) :=
  List.foldlRecOn l State.askDescs (motive := Asks s) (.refl s) fun t ht n _ => ht.trans (.askDescs t n)

/-- The other rings keep what is asked of them. -/
theorem State.ring_askDescs_ne (s : State) {n m : Nat} (h : m ≠ n) : (s.askDescs n).ring m = s.ring m := by
  obtain hidle | hasks := s.askDescs_cases n
  · rw [hidle]
  · rw [hasks, State.ring_descsAsked, if_neg h]

/-- Rings with no descriptor left over ask for none. -/
theorem State.askAll_of_none {s : State} (h : ∀ n, (s.ring n).toFetch = 0) (l : List Nat) :
    l.foldl State.askDescs s = s :=
  List.foldlRecOn l State.askDescs (motive := fun t => t = s) rfl fun t ht n _ => by
    have hsize : s.fetchSize n = 0 := by rw [State.fetchSize, h, Nat.min_zero, Nat.zero_min]
    rw [ht, State.askDescs_idle (.inl hsize)]

/-! ### The round (R282, R283) -/

theorem State.readTlps_askRead (s : State) (f addr len g b n : Nat) :
    (s.askRead f addr len).readTlps g b n = s.readTlps g b n := rfl

theorem State.dbArea_askRead (s : State) (f addr len g : Nat) : (s.askRead f addr len).dbArea g = s.dbArea g := rfl

theorem State.askSummaries_eq (l : List Nat) (s : State) :
    l.foldl (fun s f => s.askRead f (s.dbArea f + 0x4000) 512) s = { s with io := { s.io with
      reads := (l.flatMap fun f => s.readTlps f (s.dbArea f + 0x4000) 512).reverse ++ s.io.reads } } := by
  induction l generalizing s with
  | nil => rfl
  | cons f l ih =>
    rw [List.foldl_cons, ih, List.flatMap_cons, List.reverse_append, List.append_assoc]
    simp only [State.readTlps_askRead, State.dbArea_askRead]
    rw [State.askRead]

/-- A round as it starts: the summaries of the enabled areas are asked for. -/
def State.roundStarted (s : State) : State := { s with
  host := { s.host with summaryOut := (List.range 9).filter s.dbEnabled, roundAt := some s.elapsed, roundCnt := 0 }
  io := { s.io with reads := (((List.range 9).filter s.dbEnabled).flatMap
    fun f => s.readTlps f (s.dbArea f + 0x4000) 512).reverse ++ s.io.reads } }

theorem doorbellPollRound_eq {s : State} (hw : Wired s) : exec .doorbellPollRound s = .next
    (if s.roundDue then (s.host.rings.map fun e => e.1).foldl State.askDescs s.roundStarted else s) := by
  change execDoorbellPollRound s = _
  rw [execDoorbellPollRound, gated_up hw.1]
  unfold State.roundStarted
  dsimp only
  rw [State.askSummaries_eq]

/-! ### Summaries and Swaps (R282) -/

/-- The words of a summary that show a bit, with their numbers. -/
def shownWords (ws : List W64) : List (W64 × Nat) := ws.zipIdx.filter fun e => e.1 != 0 && decide (e.2 < 64)

theorem State.askSwaps_eq (fn : Nat) (l : List (W64 × Nat)) (s : State) :
    l.foldl (fun s e => s.askSwap fn e.2 e.1) s = { s with
      host := { s.host with swapOut := s.host.swapOut ++ l.map fun e => (fn, e.2, e.1) }
      io := { s.io with swaps :=
        (l.map fun e => (fn, s.dbArea fn + 0x4000 + 8 * e.2)).reverse ++ s.io.swaps } } := by
  induction l generalizing s with
  | nil => rw [List.foldl_nil, List.map_nil, List.append_nil]; rfl
  | cons e l ih =>
    rw [List.foldl_cons, ih, List.map_cons, List.map_cons, List.reverse_cons, List.append_assoc, List.append_cons]
    rfl

section
variable {s : State} (hw : Wired s) {fn : Nat} (ws : List W64)
include hw

theorem summaryReadComplete_unasked (h : s.host.summaryOut.contains fn = false) :
    exec (.summaryReadComplete fn ws) s = .next s := by
  change execSummaryReadComplete fn ws s = _
  rw [execSummaryReadComplete, atPins_wired hw]
  simp only [h, Bool.false_eq_true, if_false]

variable (h : s.host.summaryOut.contains fn = true)
include h

theorem summaryReadComplete_eq : exec (.summaryReadComplete fn ws) s = .next
    (if s.fnLive fn = false then { s with host := { s.host with summaryOut := s.host.summaryOut.erase fn } }
      else if s.scanMode = true then (shownWords ws).foldl
        (fun s e => s.askProducers fn ((bitList e.1.toNat 64).map (64 * e.2 + ·)))
        { s with host := { s.host with summaryOut := s.host.summaryOut.erase fn } }
      else (shownWords ws).foldl (fun s e => s.askSwap fn e.2 e.1)
        { s with host := { s.host with summaryOut := s.host.summaryOut.erase fn } }) := by
  change execSummaryReadComplete fn ws s = _
  rw [execSummaryReadComplete, atPins_wired hw, h]
  cases s.fnLive fn <;> rfl

end

end Sys2Proof.Machine
end

section
/-! SUPPORT. Producer words that a summary or a Swap asks for (R282, R302). -/

namespace Sys2Proof.Machine

/-- Producer words that are asked for or wait: nothing else changes but the read requests, and none of either is lost. -/
structure AsksProducers (s t : State) : Prop where
  parts : t = { s with io := { s.io with reads := t.io.reads }
                       host := { s.host with prodOut := t.host.prodOut, prodWait := t.host.prodWait } }
  out : s.host.prodOut ⊆ t.host.prodOut
  wait : s.host.prodWait ⊆ t.host.prodWait

theorem AsksProducers.refl (s : State) : AsksProducers s s := ⟨rfl, List.Subset.refl _, List.Subset.refl _⟩

theorem AsksProducers.trans {s t u : State} (h : AsksProducers s t) (k : AsksProducers t u) : AsksProducers s u := by
  refine ⟨?_, List.Subset.trans h.out k.out, List.Subset.trans h.wait k.wait⟩
  rw [k.parts, h.parts]

/-- The producer word of one ring, where the ring is ON, of the function, and not stopped (R282 step 3). -/
def State.askProducer (s : State) (fn n : Nat) : State :=
  if s.isOn 5 n && (s.ring n).fn == fn && !(s.ring n).stopped && !s.host.prodOut.contains n then
    if s.fnLive fn then
      let s1 := s.askRead fn (s.dbArea fn + 4 * n) 4
      { s1 with host := { s1.host with prodOut := s1.host.prodOut ++ [n] } }
    else { s with host := { s.host with prodWait := s.host.prodWait ++ [n] } }
  else s

theorem AsksProducers.askProducer (s : State) (fn n : Nat) : AsksProducers s (s.askProducer fn n) := by
  unfold State.askProducer State.askRead
  dsimp only
  split
  · split
    · exact ⟨rfl, List.subset_append_left _ _, List.Subset.refl _⟩
    · exact ⟨rfl, List.Subset.refl _, List.subset_append_left _ _⟩
  · exact .refl s

theorem AsksProducers.askProducers (s : State) (fn : Nat) (ns : List Nat) : AsksProducers s (s.askProducers fn ns) :=
  List.foldlRecOn ns _ (motive := AsksProducers s) (.refl s) fun t ht n _ => ht.trans (.askProducer t fn n)

theorem State.askProducer_live {s : State} {fn : Nat} (h : s.fnLive fn = true) (n : Nat) :
    (s.askProducer fn n).host.prodWait = s.host.prodWait := by
  unfold State.askProducer
  rw [h]
  split <;> rfl

theorem AsksProducers.live {s t : State} (h : AsksProducers s t) (f : Nat) : t.fnLive f = s.fnLive f := by
  rw [h.parts]
  rfl

/-- A function that may issue requests lets no ring wait. -/
theorem State.askProducers_live {s : State} {fn : Nat} (h : s.fnLive fn = true) (ns : List Nat) :
    (s.askProducers fn ns).host.prodWait = s.host.prodWait := by
  have hall := List.foldlRecOn ns (fun (s : State) n => s.askProducer fn n)
    (motive := fun t : State => t.fnLive fn = true ∧ t.host.prodWait = s.host.prodWait) ⟨h, rfl⟩
    fun t ⟨hlive, hwait⟩ n _ => ⟨((AsksProducers.askProducer t fn n).live fn).trans hlive,
      (State.askProducer_live hlive n).trans hwait⟩
  exact hall.2

/-- Ring `n` runs for function `fn`: it is ON, of the function, and not stopped. -/
structure RunsFor (s : State) (fn n : Nat) : Prop where
  on : s.isOn 5 n = true
  fn : (s.ring n).fn = fn
  runs : (s.ring n).stopped = false

/-- The producer word of ring `n` is asked for, or waits until its function may issue requests. -/
def ProducerDue (s : State) (fn n : Nat) : Prop :=
  n ∈ s.host.prodOut ∨ (s.fnLive fn = false ∧ n ∈ s.host.prodWait)

theorem AsksProducers.keeps_runs {s t : State} (h : AsksProducers s t) {fn n : Nat} (hr : RunsFor s fn n) :
    RunsFor t fn n := by
  rw [h.parts]
  exact ⟨hr.on, hr.fn, hr.runs⟩

theorem AsksProducers.keeps_due {s t : State} (h : AsksProducers s t) {fn n : Nat} (hd : ProducerDue s fn n) :
    ProducerDue t fn n := by
  rcases hd with hout | ⟨hlive, hwait⟩
  · exact .inl (h.out hout)
  · exact .inr ⟨(h.live fn).trans hlive, h.wait hwait⟩

theorem State.askProducer_due {s : State} {fn n : Nat} (h : RunsFor s fn n) : ProducerDue (s.askProducer fn n) fn n := by
  by_cases hout : n ∈ s.host.prodOut
  · exact .inl ((AsksProducers.askProducer s fn n).out hout)
  · have hasked : (s.isOn 5 n && (s.ring n).fn == fn && !(s.ring n).stopped && !s.host.prodOut.contains n) = true := by
      simp [h.on, h.fn, h.runs, hout]
    rw [State.askProducer, if_pos hasked]
    cases hlive : s.fnLive fn with
    | true => exact .inl (List.mem_append_right _ List.mem_cons_self)
    | false => exact .inr ⟨hlive, List.mem_append_right _ List.mem_cons_self⟩

/-- Every ring of a list that runs for the function has its producer word asked for, or waits. -/
theorem State.askProducers_due {s : State} {fn n : Nat} {ns : List Nat} (hn : n ∈ ns) (h : RunsFor s fn n) :
    ProducerDue (s.askProducers fn ns) fn n :=
  foldl_of_mem (f := fun (s : State) n => s.askProducer fn n) (Q := fun t => RunsFor t fn n) (P := fun t => ProducerDue t fn n)
    (fun t m => (AsksProducers.askProducer t fn m).keeps_runs) (fun _ ht => State.askProducer_due ht)
    (fun t m _ => (AsksProducers.askProducer t fn m).keeps_due) hn h

/-! ### The rings that a word names (R281, R282) -/

/-- The rings that word `k` of a summary names by its bits. -/
def namedRings (k : Nat) (w : W64) : List Nat := (bitList w.toNat 64).map (64 * k + ·)

theorem mem_namedRings {k j : Nat} {w : W64} (hj : j < 64) (hb : bit w.toNat j = true) : 64 * k + j ∈ namedRings k w :=
  List.mem_map.mpr ⟨j, mem_bitList.mpr ⟨hj, hb⟩, rfl⟩

/-- A word that shows a bit is among those shown. -/
theorem mem_shownWords {ws : List W64} {k j : Nat} (hk : k < 64) (hb : bit (ws.getD k 0).toNat j = true) :
    (ws.getD k 0, k) ∈ shownWords ws := by
  have hword : ws.getD k 0 ≠ 0 := by
    intro hzero
    rw [hzero] at hb
    simp [bit] at hb
  have hlen : k < ws.length := by
    by_contra hlen
    exact hword (List.getD_eq_default _ _ (Nat.not_lt.mp hlen))
  rw [shownWords, List.mem_filter]
  refine ⟨?_, (Bool.and_eq_true _ _).mpr ⟨bne_iff_ne.mpr hword, decide_eq_true hk⟩⟩
  rw [List.mem_zipIdx_iff_getElem?]
  simp [List.getD_eq_getElem?_getD, List.getElem?_eq_getElem hlen]

/-- The scan mode: the producer words of the rings that the words name. -/
def State.scanWords (s : State) (fn : Nat) (es : List (W64 × Nat)) : State :=
  es.foldl (fun s e => s.askProducers fn (namedRings e.2 e.1)) s

theorem AsksProducers.scanWords (s : State) (fn : Nat) (es : List (W64 × Nat)) : AsksProducers s (s.scanWords fn es) :=
  List.foldlRecOn es _ (motive := AsksProducers s) (.refl s) fun t ht _ _ => ht.trans (.askProducers t fn _)

theorem State.scanWords_live {s : State} {fn : Nat} (h : s.fnLive fn = true) (es : List (W64 × Nat)) :
    (s.scanWords fn es).host.prodWait = s.host.prodWait := by
  have hall := List.foldlRecOn es (fun (s : State) (e : W64 × Nat) => s.askProducers fn (namedRings e.2 e.1))
    (motive := fun t : State => t.fnLive fn = true ∧ t.host.prodWait = s.host.prodWait) ⟨h, rfl⟩
    fun t ⟨hlive, hwait⟩ _ _ => ⟨((AsksProducers.askProducers t fn _).live fn).trans hlive,
      (State.askProducers_live hlive _).trans hwait⟩
  exact hall.2

theorem State.scanWords_due {s : State} {fn n : Nat} {es : List (W64 × Nat)} {e : W64 × Nat} (he : e ∈ es)
    (hn : n ∈ namedRings e.2 e.1) (h : RunsFor s fn n) : ProducerDue (s.scanWords fn es) fn n :=
  foldl_of_mem (f := fun (s : State) (e : W64 × Nat) => s.askProducers fn (namedRings e.2 e.1))
    (Q := fun t => RunsFor t fn n) (P := fun t => ProducerDue t fn n)
    (fun t _ => (AsksProducers.askProducers t fn _).keeps_runs) (fun _ ht => State.askProducers_due hn ht)
    (fun t _ _ => (AsksProducers.askProducers t fn _).keeps_due) he h

end Sys2Proof.Machine
end

section
/-! PROOFS. Doorbell rounds, Swaps, producer words and descriptors (R279, R282, R283, R301). -/

namespace Sys2Proof.Machine

theorem State.ring_modRing_self (s : State) (n : Nat) (f : Ring → Ring) : (s.modRing n f).ring n = f (s.ring n) := by
  rw [State.ring_modRing, if_pos rfl]

theorem State.ring_modRing_of_ne (s : State) {n m : Nat} (h : m ≠ n) (f : Ring → Ring) :
    (s.modRing n f).ring m = s.ring m := by
  rw [State.ring_modRing, if_neg h]

section
variable {s : State} (hw : Wired s)
include hw

/-! ### Rounds and summaries (R282, R283) -/

theorem roundStarted_yields (h : s.roundDue = true) : Yields .doorbellPollRound s fun t =>
    t.host.summaryOut = (List.range 9).filter s.dbEnabled ∧ t.host.roundAt = some s.elapsed ∧
    (∀ n, t.ring n = { s.ring n with asked := (t.ring n).asked }) ∧
    t = { s with io := { s.io with reads := t.io.reads }, host := { s.host with
      summaryOut := t.host.summaryOut, roundAt := t.host.roundAt, roundCnt := t.host.roundCnt
      rings := t.host.rings } } := by
  have hasks := Asks.askAll (s.host.rings.map fun e => e.1) s.roundStarted
  refine ⟨_, (doorbellPollRound_eq hw).trans (by rw [if_pos h]), ?_, ?_, hasks.ring, ?_⟩
  · rw [hasks.parts]
    rfl
  · rw [hasks.parts]
    rfl
  · rw [hasks.parts]
    rfl

theorem summaryScanned_yields {fn : Nat} (ws : List W64) (hout : s.host.summaryOut.contains fn = true)
    (hlive : s.fnLive fn = true) (hscan : s.scanMode = true) : Yields (.summaryReadComplete fn ws) s fun t =>
      t.host.summaryOut = s.host.summaryOut.erase fn ∧
      (∀ k j, k < 64 → j < 64 → bit (ws.getD k 0).toNat j = true → s.isOn 5 (64 * k + j) = true →
        (s.ring (64 * k + j)).fn = fn → (s.ring (64 * k + j)).stopped = false → 64 * k + j ∈ t.host.prodOut) ∧
      t = { s with host := { s.host with summaryOut := t.host.summaryOut, prodOut := t.host.prodOut }
                   io := { s.io with reads := t.io.reads } } := by
  let u : State := { s with host := { s.host with summaryOut := s.host.summaryOut.erase fn } }
  have hasks := AsksProducers.scanWords u fn (shownWords ws)
  have hexec : exec (.summaryReadComplete fn ws) s = .next (u.scanWords fn (shownWords ws)) := by
    rw [summaryReadComplete_eq hw ws hout, if_neg (by simp [hlive]), if_pos hscan]
    rfl
  have hwait := State.scanWords_live (s := u) hlive (shownWords ws)
  refine ⟨_, hexec, ?_, fun k j hk hj hb hon hfn hruns => ?_, ?_⟩
  · rw [hasks.parts]
  · have hdue := State.scanWords_due (s := u) (mem_shownWords hk hb) (mem_namedRings hj hb) ⟨hon, hfn, hruns⟩
    rcases hdue with hmem | ⟨hdead, -⟩
    · exact hmem
    · rw [hasks.live] at hdead
      exact absurd (hlive.symm.trans hdead) (by decide)
  · generalize u.scanWords fn (shownWords ws) = t at *
    rw [hasks.parts, hwait]

/-! ### Swaps (R282) -/

theorem swapComplete_eq (fn w : Nat) (b : W64) : exec (.swapComplete fn w b) s = .next
    (if s.swapIsOut fn w then (s.endSwap fn w).askProducers fn (namedRings w b) else s) := by
  change execSwapComplete fn w b s = _
  rw [execSwapComplete, atPins_wired hw]
  rfl

omit hw in
theorem State.swapIsOut_endSwap (s : State) (fn w : Nat) : (s.endSwap fn w).swapIsOut fn w = false := by
  rw [State.swapIsOut, List.any_eq_false]
  intro e he
  have hkept := (List.mem_filter.mp he).2
  rw [Bool.not_eq_true']  at hkept
  rw [hkept]
  exact Bool.false_ne_true

theorem swapComplete_yields {fn w : Nat} (b : W64) (h : s.swapIsOut fn w = true) :
    Yields (.swapComplete fn w b) s fun t =>
      t.swapIsOut fn w = false ∧
      (∀ j, j < 64 → bit b.toNat j = true → s.isOn 5 (64 * w + j) = true → (s.ring (64 * w + j)).fn = fn →
        (s.ring (64 * w + j)).stopped = false →
        64 * w + j ∈ t.host.prodOut ∨ (s.fnLive fn = false ∧ 64 * w + j ∈ t.host.prodWait)) ∧
      t = { s with io := { s.io with reads := t.io.reads }, host := { s.host with
        swapOut := t.host.swapOut, prodOut := t.host.prodOut, prodWait := t.host.prodWait } } := by
  have hasks := AsksProducers.askProducers (s.endSwap fn w) fn (namedRings w b)
  refine ⟨_, (swapComplete_eq hw fn w b).trans (by rw [if_pos h]), ?_, fun j hj hb hon hfn hruns => ?_, ?_⟩
  · rw [hasks.parts]
    exact s.swapIsOut_endSwap fn w
  · have hdue := State.askProducers_due (s := s.endSwap fn w) (mem_namedRings hj hb) ⟨hon, hfn, hruns⟩
    rw [ProducerDue, hasks.live] at hdue
    exact hdue
  · rw [hasks.parts]
    rfl

/-! ### Producer words (R279, R282, R301) -/

/-- The read of a ring's producer word is no longer out. -/
def State.endProducer (s : State) (n : Nat) : State :=
  { s with host := { s.host with prodOut := s.host.prodOut.erase n } }

/-- The ring keeps a producer word. -/
def State.producerKept (s : State) (n : Nat) (p : BitVec 32) : State :=
  (s.endProducer n).modRing n fun r => { r with prod := p.toNat }

theorem producerReadComplete_eq (n : Nat) (p : BitVec 32) : exec (.producerReadComplete n p) s = .next
    (if s.host.prodOut.contains n then
      if !s.isOn 5 n || (s.ring n).stopped then s.endProducer n
      else if (p.toNat + 4294967296 - (s.ring n).c) % 4294967296 > 2 ^ (s.ring n).log2 then
        (s.endProducer n).stopRing n 3 6 (s.dbArea (s.ring n).fn + 4 * n)
      else (s.producerKept n p).askDescs n
    else s) := by
  change execProducerReadComplete n p s = _
  rw [execProducerReadComplete, atPins_wired hw]
  rfl

section
variable {n : Nat} {p : BitVec 32} (hout : s.host.prodOut.contains n = true)
include hout

theorem producerRead_dropped (h : s.isOn 5 n = false ∨ (s.ring n).stopped = true) :
    exec (.producerReadComplete n p) s = .next (s.endProducer n) := by
  rw [producerReadComplete_eq hw, if_pos hout, if_pos]
  rcases h with h | h <;> simp [h]

variable (hon : s.isOn 5 n = true) (hruns : (s.ring n).stopped = false)
include hon hruns

/-- A ring is stopped by a producer word beyond it (R301). -/
theorem producerRead_stops (h : 2 ^ (s.ring n).log2 < (p.toNat + 4294967296 - (s.ring n).c) % 4294967296) :
    Yields (.producerReadComplete n p) s fun t =>
      t.host.prodOut = s.host.prodOut.erase n ∧ (t.ring n).stopped = true ∧ (t.ring n).prod = (s.ring n).prod := by
  have hexec : exec (.producerReadComplete n p) s =
      .next ((s.endProducer n).stopRing n 3 6 (s.dbArea (s.ring n).fn + 4 * n)) := by
    rw [producerReadComplete_eq hw, if_pos hout, if_neg (by simp [hon, hruns]), if_pos h]
  let u := (s.endProducer n).modRing n fun r => { r with stopped := true, asked := 0 }
  have hframe : EventFrame u ((s.endProducer n).stopRing n 3 6 (s.dbArea (s.ring n).fn + 4 * n)) :=
    ((EventFrame.post u _ _ _ _).trans (.hostErr _ _ _ _)).trans (.faultEvent _ _ _ _ _ _)
  have hring : u.ring n = { s.ring n with stopped := true, asked := 0 } := State.ring_modRing_self _ n _
  refine ⟨_, hexec, ?_, ?_, ?_⟩
  · rw [hframe.host]
    rfl
  · rw [hframe.ring, hring]
  · rw [hframe.ring, hring]

omit hw hout hon hruns in
theorem State.fetchSize_producerKept (s : State) (n : Nat) (p : BitVec 32) : (s.producerKept n p).fetchSize n =
    min (min 64 ((p.toNat + 4294967296 - (s.ring n).fetch) % 4294967296)) (256 - s.host.roundCnt) := by
  rw [State.fetchSize, Ring.toFetch, State.producerKept, State.ring_modRing_self]
  rfl

omit hw hout hon hruns in
theorem State.ring_producerKept (s : State) (n : Nat) (p : BitVec 32) :
    (s.producerKept n p).ring n = { s.ring n with prod := p.toNat } := State.ring_modRing_self _ n _

omit hw hout hon hruns in
theorem producerKept_idle {k : Nat}
    (hk : k = min (min 64 ((p.toNat + 4294967296 - (s.ring n).fetch) % 4294967296)) (256 - s.host.roundCnt))
    (h : k = 0 ∨ 0 < (s.ring n).asked ∨ s.fnLive (s.ring n).fn = false) :
    (s.producerKept n p).askDescs n = s.producerKept n p := by
  rw [State.askDescs_idle]
  rw [State.fetchSize_producerKept, State.ring_producerKept, ← hk]
  rcases h with hk0 | hasked | hdead
  · exact .inl hk0
  · exact .inr (.inl hasked)
  · exact .inr (.inr (.inr (.inr hdead)))

omit hw hout in
theorem producerKept_asks {k : Nat}
    (hk : k = min (min 64 ((p.toNat + 4294967296 - (s.ring n).fetch) % 4294967296)) (256 - s.host.roundCnt))
    (hk0 : k ≠ 0) (hasked : (s.ring n).asked = 0) (hlive : s.fnLive (s.ring n).fn = true) :
    (s.producerKept n p).askDescs n = (s.producerKept n p).descsAsked n k := by
  have hsize : (s.producerKept n p).fetchSize n = k := (s.fetchSize_producerKept n p).trans hk.symm
  have hring := s.ring_producerKept n p
  have hasks := State.askDescs_asks (s := s.producerKept n p) (by rwa [hsize]) (by rw [hring]; exact hasked) hon
    (by rw [hring]; exact hruns) (by rw [hring]; exact hlive)
  rwa [hsize] at hasks

omit hw hout hon hruns in
theorem State.producerKept_descsAsked (s : State) (n : Nat) (p : BitVec 32) (k : Nat) :
    ((s.producerKept n p).descsAsked n k).ring n = { s.ring n with prod := p.toNat, asked := k } ∧
    ((s.producerKept n p).descsAsked n k).io.reads =
      (((s.ring n).span k).flatMap fun e => s.readTlps (s.ring n).fn e.1 e.2).reverse ++ s.io.reads := by
  rw [State.ring_descsAsked, if_pos rfl, State.ring_producerKept, State.descsAsked, State.ring_producerKept]
  exact ⟨rfl, rfl⟩

omit hw hout hon hruns in
theorem Asks.parts_kept {t : State} (h : Asks (s.producerKept n p) t) :
    t = { s with io := { s.io with reads := t.io.reads }, host := { s.host with
      prodOut := t.host.prodOut, rings := t.host.rings, roundCnt := t.host.roundCnt } } := by
  rw [h.parts]
  rfl

omit hw hout hon hruns in
theorem Asks.prodOut_kept {t : State} (h : Asks (s.producerKept n p) t) : t.host.prodOut = s.host.prodOut.erase n := by
  rw [h.parts]
  rfl

/-- A producer word within the ring is kept, and descriptors are asked for up to it (R282 step 4). -/
theorem producerRead_kept {k : Nat}
    (h : (p.toNat + 4294967296 - (s.ring n).c) % 4294967296 ≤ 2 ^ (s.ring n).log2)
    (hk : k = min (min 64 ((p.toNat + 4294967296 - (s.ring n).fetch) % 4294967296)) (256 - s.host.roundCnt)) :
    Yields (.producerReadComplete n p) s fun t =>
      t.host.prodOut = s.host.prodOut.erase n ∧ (∀ m, m ≠ n → t.ring m = s.ring m) ∧
      (k = 0 ∨ 0 < (s.ring n).asked ∨ s.fnLive (s.ring n).fn = false →
        t.ring n = { s.ring n with prod := p.toNat } ∧ t.io.reads = s.io.reads) ∧
      (k ≠ 0 → (s.ring n).asked = 0 → s.fnLive (s.ring n).fn = true →
        t.ring n = { s.ring n with prod := p.toNat, asked := k } ∧
        t.io.reads = (((s.ring n).span k).flatMap fun e => s.readTlps (s.ring n).fn e.1 e.2).reverse ++ s.io.reads) ∧
      t = { s with io := { s.io with reads := t.io.reads }, host := { s.host with
        prodOut := t.host.prodOut, rings := t.host.rings, roundCnt := t.host.roundCnt } } := by
  have hexec : exec (.producerReadComplete n p) s = .next ((s.producerKept n p).askDescs n) := by
    rw [producerReadComplete_eq hw, if_pos hout, if_neg (by simp [hon, hruns]), if_neg (Nat.not_lt.mpr h)]
  have hasks := Asks.askDescs (s.producerKept n p) n
  refine ⟨_, hexec, hasks.prodOut_kept, fun m hm => ?_, fun hidle => ?_, fun hk0 hasked hlive => ?_,
    hasks.parts_kept⟩
  · rw [State.ring_askDescs_ne _ hm]
    exact State.ring_modRing_of_ne _ hm _
  · rw [producerKept_idle hk hidle]
    exact ⟨s.ring_producerKept n p, rfl⟩
  · rw [producerKept_asks hon hruns hk hk0 hasked hlive]
    exact s.producerKept_descsAsked n p k

end

/-! ### Descriptors (R282) -/

/-- Descriptors join those that a ring holds. -/
def State.descsJoined (s : State) (n : Nat) (ds : List (List Byte)) : State := s.modRing n fun r => { r with
  asked := 0
  fetched := r.fetched ++ ds
  fetch := (r.fetch + ds.length) % 4294967296 }

theorem descriptorFetchComplete_eq (n : Nat) (ds : List (List Byte)) : exec (.descriptorFetchComplete n ds) s = .next
    (if s.isOn 5 n && !(s.ring n).stopped && decide (0 < (s.ring n).asked ∧ ds.length = (s.ring n).asked) then
      (if (s.ring n).type = 4 then ((s.descsJoined n ds).fillEvents n).drainEdges else s.descsJoined n ds).askDescs n
    else s) := by
  change execDescriptorFetchComplete n ds s = _
  rw [execDescriptorFetchComplete, atPins_wired hw]
  rfl

omit hw in
theorem EventFrame.postEdge (s : State) (e : Edge) : EventFrame s (s.postEdge e) := .postAt s _ _ _ _ _ _

omit hw in
theorem EventFrame.drainEdges (s : State) : EventFrame s s.drainEdges := by
  refine EventFrame.foldl (f := State.drainInput) (fun s n => ?_) _ s
  refine EventFrame.foldl (f := fun s e => if s.evRoom (fld (s.reg A.timeEvtCfg) 27 16) then
    (s.setEdges n ((s.edgesOf n).drop 1)).postEdge e else s) (fun s e => ?_) _ s
  exact .ite (EventFrame.trans (t := s.setEdges n ((s.edgesOf n).drop 1)) (.of_eq rfl) (.postEdge _ e)) (.refl s)

omit hw in
/-- An event ring fills its descriptors, and the edges that wait join: only event rings change. -/
theorem EventFrame.fillWaiting {s : State} {n : Nat} (h : (s.ring n).type = 4) :
    EventFrame s (s.fillEvents n).drainEdges :=
  (EventFrame.of_fill (.fillEvents s n) h).trans (.drainEdges _)

section
variable {n : Nat} {ds : List (List Byte)} (hon : s.isOn 5 n = true) (hruns : (s.ring n).stopped = false)
  (hasked : 0 < (s.ring n).asked) (hlen : ds.length = (s.ring n).asked)
include hon hruns hasked hlen

theorem descriptorFetch_joins : exec (.descriptorFetchComplete n ds) s = .next
    ((if (s.ring n).type = 4 then ((s.descsJoined n ds).fillEvents n).drainEdges else s.descsJoined n ds).askDescs n) := by
  rw [descriptorFetchComplete_eq hw, if_pos]
  simp [hon, hruns, hasked, hlen]

/-- The fetch point passes the descriptors, and the producer word stays. -/
theorem descriptorFetch_advances : Yields (.descriptorFetchComplete n ds) s fun t =>
    (t.ring n).fetch = ((s.ring n).fetch + ds.length) % 4294967296 ∧ (t.ring n).prod = (s.ring n).prod := by
  have hring : (s.descsJoined n ds).ring n = _ := State.ring_modRing_self s n _
  refine ⟨_, descriptorFetch_joins hw hon hruns hasked hlen, ?_⟩
  beta_reduce
  rw [(Asks.askDescs _ n).ring]
  by_cases htype : (s.ring n).type = 4
  · have hframe := EventFrame.fillWaiting (s := s.descsJoined n ds) (n := n) (by rw [hring]; exact htype)
    rw [if_pos htype, hframe.ring, hring]
    exact ⟨rfl, rfl⟩
  · rw [if_neg htype, hring]
    exact ⟨rfl, rfl⟩

omit hw hon hruns hasked hlen in
theorem Asks.ring_joined {t : State} (h : Asks (s.descsJoined n ds) t) : t.ring n = { s.ring n with
    fetched := (s.ring n).fetched ++ ds, fetch := ((s.ring n).fetch + ds.length) % 4294967296
    asked := (t.ring n).asked } := by
  rw [h.ring, State.descsJoined, State.ring_modRing_self]

omit hw hon hruns hasked hlen in
theorem Asks.parts_joined {t : State} (h : Asks (s.descsJoined n ds) t) :
    t = { s with io := { s.io with reads := t.io.reads }, host := { s.host with
      rings := t.host.rings, roundCnt := t.host.roundCnt } } := by
  rw [h.parts]
  rfl

theorem descriptorFetch_held (htype : (s.ring n).type ≠ 4) : Yields (.descriptorFetchComplete n ds) s fun t =>
    t.ring n = { s.ring n with
      fetched := (s.ring n).fetched ++ ds, fetch := ((s.ring n).fetch + ds.length) % 4294967296
      asked := (t.ring n).asked } ∧
    (∀ m, m ≠ n → t.ring m = s.ring m) ∧
    t = { s with io := { s.io with reads := t.io.reads }, host := { s.host with
      rings := t.host.rings, roundCnt := t.host.roundCnt } } := by
  have hasks := Asks.askDescs (s.descsJoined n ds) n
  refine ⟨_, (descriptorFetch_joins hw hon hruns hasked hlen).trans (by rw [if_neg htype]), hasks.ring_joined,
    fun m hm => ?_, hasks.parts_joined⟩
  rw [State.ring_askDescs_ne _ hm]
  exact State.ring_modRing_of_ne _ hm _

end

theorem descriptorFetch_left {n : Nat} {ds : List (List Byte)} (h : s.isOn 5 n = false ∨ (s.ring n).stopped = true ∨
    (s.ring n).asked = 0 ∨ ds.length ≠ (s.ring n).asked) : exec (.descriptorFetchComplete n ds) s = .next s := by
  rw [descriptorFetchComplete_eq hw, if_neg]
  rcases h with h | h | h | h <;> simp [h]

end

/-- Settles O39: rounds, summaries and Swaps by what they ask for; producer words and descriptors by whether the ring
takes them. -/
theorem doorbellsAndDescriptors : Obligations.DoorbellsAndDescriptors := by
  unfold Obligations.DoorbellsAndDescriptors
  refine ⟨fun s hw => ⟨roundStarted_yields hw, fun hdue hnone => ?_, fun hdue => ?_,
      fun fn ws => summaryReadComplete_unasked hw ws, fun fn ws hout hdead => ?_, fun fn ws es hout hlive hscan hes => ?_,
      fun fn ws => summaryScanned_yields hw ws, fun fn w b h => ?_, fun fn w b => swapComplete_yields hw b⟩,
    fun n s hw => ⟨fun p h => ?_, fun p => producerRead_dropped hw,
      fun p k hout hon hruns => producerRead_kept hw hout hon hruns, fun p => producerRead_stops hw,
      fun ds hon hruns hasked hlen => ⟨descriptorFetch_advances hw hon hruns hasked hlen,
        descriptorFetch_held hw hon hruns hasked hlen⟩, fun ds => descriptorFetch_left hw⟩⟩
  · rw [doorbellPollRound_eq hw, if_pos hdue, State.askAll_of_none (s := s.roundStarted) hnone]
    rfl
  · rw [doorbellPollRound_eq hw, hdue]
    rfl
  · rw [summaryReadComplete_eq hw ws hout, if_pos hdead]
  · rw [summaryReadComplete_eq hw ws hout, if_neg (by simp [hlive]), if_neg (by simp [hscan]), State.askSwaps_eq, hes]
    rfl
  · rw [swapComplete_eq hw, h]
    rfl
  · rw [producerReadComplete_eq hw, h]
    rfl

end Sys2Proof.Machine
end

section
/-! PROOFS. Failed reads of host memory, and delivery to receive rings (R285, R286, R301). -/

namespace Sys2Proof.Machine

/-! ### Rings that a failed read stops (R301) -/

theorem EventFrame.stopped {s t : State} (h : EventFrame s t) (m : Nat) : (t.ring m).stopped = (s.ring m).stopped := by
  rw [h.ring]

theorem EventFrame.summaryOut {s t : State} (h : EventFrame s t) : t.host.summaryOut = s.host.summaryOut := by
  rw [h.host]

theorem EventFrame.swapOut {s t : State} (h : EventFrame s t) : t.host.swapOut = s.host.swapOut := by
  rw [h.host]

theorem State.haltRing_stopped (s : State) (n c a m : Nat) :
    ((s.haltRing n c a).ring m).stopped = if m = n then true else (s.ring m).stopped := by
  rw [State.haltRing, State.ringError, (EventFrame.post _ _ _ _ _).stopped, State.ring_modRing]
  split <;> rfl

theorem State.haltRing_summaryOut (s : State) (n c a : Nat) :
    (s.haltRing n c a).host.summaryOut = s.host.summaryOut := by
  rw [State.haltRing, State.ringError, (EventFrame.post _ _ _ _ _).summaryOut]
  rfl

/-- Rings that stop, each with its event. -/
def State.haltRings (s : State) (ns : List Nat) (c a : Nat) : State := ns.foldl (fun s n => s.haltRing n c a) s

theorem State.haltRings_summaryOut (s : State) (ns : List Nat) (c a : Nat) :
    (s.haltRings ns c a).host.summaryOut = s.host.summaryOut :=
  List.foldlRecOn ns _ (motive := fun t : State => t.host.summaryOut = s.host.summaryOut) rfl fun t ht n _ =>
    (t.haltRing_summaryOut n c a).trans ht

theorem State.haltRings_stops {s : State} {ns : List Nat} {m : Nat} (h : m ∈ ns) (c a : Nat) :
    ((s.haltRings ns c a).ring m).stopped = true :=
  foldl_of_mem (f := fun s n => State.haltRing s n c a) (Q := fun _ => True) (P := fun t : State => (t.ring m).stopped = true)
    (fun _ _ _ => trivial) (fun t _ => by rw [State.haltRing_stopped, if_pos rfl])
    (fun t n _ ht => by rw [State.haltRing_stopped, ht, ite_self]) h trivial

theorem State.haltRings_leaves {s : State} {ns : List Nat} {m : Nat} (h : m ∉ ns) (c a : Nat) :
    ((s.haltRings ns c a).ring m).stopped = (s.ring m).stopped :=
  List.foldlRecOn ns _ (motive := fun t : State => (t.ring m).stopped = (s.ring m).stopped) rfl fun t ht n hn => by
    rw [State.haltRing_stopped, if_neg (fun hmn : m = n => h (hmn ▸ hn)), ht]

/-- A failed read is logged and raises source 19: the host interface changes by events alone. -/
theorem EventFrame.readFailed (s : State) (kind n fn : Nat) : EventFrame s ((s.hostErr kind n fn).faultEvent 19) :=
  (EventFrame.hostErr s _ _ _).trans (.faultEvent _ _ _ _ _ _)

theorem exec_hostReadError (kind : ReadFail) (fn n : Nat) (a : W64) (s : State) :
    exec (.hostReadError kind fn n a) s = execHostReadError kind fn n a s := rfl

theorem State.completeCmd_fetched (s : State) (n : Nat) (d : List Byte) (st res : Nat) :
    ((s.completeCmd n d st res).ring n).fetched = (s.ring n).fetched := by
  rw [State.completeCmd, Returned.ringReturn]
  change ((s.modRing n fun r => { r with accepted := none }).ring n).fetched = _
  rw [State.ring_modRing_self]

section
variable {s : State} (hu : Up s) {n fn : Nat} (a : W64)
include hu

/-! ### Reads of a ring (R301) -/

section
variable (hfn : (s.ring n).fn = fn)
include hfn

theorem descriptorError_eq : exec (.hostReadError .descriptor fn n a) s = .next
    (if s.isOff 5 n = false ∧ 0 < (s.ring n).asked then s.stopRing n 1 1 a.toNat else s) := by
  rw [exec_hostReadError, execHostReadError, gated_up hu, hfn]
  cases s.isOff 5 n <;> simp

theorem doorbellError_eq : exec (.hostReadError .doorbell fn n a) s = .next
    (if s.isOff 5 n = false ∧ s.host.prodOut.contains n = true then (s.endProducer n).stopRing n 2 2 a.toNat else s) := by
  rw [exec_hostReadError, execHostReadError, gated_up hu, hfn, State.endProducer]
  cases s.isOff 5 n <;> simp

omit hfn in
theorem bufferError_off (h : s.isOff 5 n = true) : exec (.hostReadError .buffer fn n a) s = .next s := by
  rw [exec_hostReadError, execHostReadError, gated_up hu, h]
  rfl

variable (hoff : s.isOff 5 n = false)
include hoff

theorem bufferError_logged (h2 : (s.ring n).type ≠ 2) (h3 : (s.ring n).type ≠ 3) :
    exec (.hostReadError .buffer fn n a) s = .next (s.bufferReadFailed n fn) := by
  rw [exec_hostReadError, execHostReadError, gated_up hu, hoff, hfn]
  simp [h2, h3]

/-- A command whose buffer cannot be read returns HOST_ERR (R301). -/
theorem bufferError_command {d : List Byte} {ds : List (List Byte)} (h3 : (s.ring n).type = 3)
    (hd : (s.ring n).fetched = d :: ds) : Yields (.hostReadError .buffer fn n a) s fun t =>
      (t.ring n).fetched = ds ∧ (t.io.rets.head?.map fun r => (r.ring, r.status)) = some (n, stHostErr) := by
  have hexec : exec (.hostReadError .buffer fn n a) s =
      .next (((s.bufferReadFailed n fn).modRing n fun r => { r with fetched := ds }).completeCmd n d stHostErr 0) := by
    rw [exec_hostReadError, execHostReadError, gated_up hu, hoff, hfn]
    simp [h3, hd]
  refine ⟨_, hexec, ?_, ?_⟩
  · rw [State.completeCmd_fetched, State.ring_modRing_self]
  · rw [State.completeCmd, (SameRets.ringReturn _ _ _ _).1]
    rfl

end

/-! ### Summaries and Swaps (R301) -/

/-- The summary of a function that cannot be read stops the rings of the bits that were pending. -/
theorem summaryError_stops (rs : List Nat) (h : s.host.summaryOut.contains fn = true) :
    Yields (.hostReadError (.summary rs) fn n a) s fun t =>
      t.host.summaryOut = s.host.summaryOut.erase fn ∧
      (∀ m ∈ rs, s.isOn 5 m = true → (s.ring m).fn = fn → (t.ring m).stopped = true) ∧
      (∀ m, m ∉ rs → (t.ring m).stopped = (s.ring m).stopped) := by
  let u : State := { s with host := { s.host with summaryOut := s.host.summaryOut.erase fn } }
  let ns := rs.filter fun n => s.isOn 5 n && (s.ring n).fn == fn
  have hexec : exec (.hostReadError (.summary rs) fn n a) s =
      .next (((u.haltRings ns 2 a.toNat).hostErr 2 (ns.headD 0) fn).faultEvent 19) := by
    rw [exec_hostReadError, execHostReadError, gated_up hu, h]
    rfl
  have hframe := EventFrame.readFailed (u.haltRings ns 2 a.toNat) 2 (ns.headD 0) fn
  refine ⟨_, hexec, ?_, fun m hm hon hfn => ?_, fun m hm => ?_⟩
  · rw [hframe.summaryOut, State.haltRings_summaryOut]
  · have hmem : m ∈ ns := List.mem_filter.mpr ⟨hm, by simp [hon, hfn]⟩
    rw [hframe.stopped, State.haltRings_stops hmem]
  · have hmem : m ∉ ns := fun hns => hm (List.mem_filter.mp hns).1
    rw [hframe.stopped, State.haltRings_leaves hmem]
    rfl

theorem summaryError_unasked (rs : List Nat) (h : s.host.summaryOut.contains fn = false) :
    exec (.hostReadError (.summary rs) fn n a) s = .next s := by
  rw [exec_hostReadError, execHostReadError, gated_up hu, h]
  rfl

theorem swapError_eq {w : Nat} (hword : w = (a.toNat - (s.dbArea fn + 0x4000)) / 8) :
    exec (.hostReadError .swap fn n a) s = .next (if s.swapIsOut fn w then
      ((((s.swapRings fn w).foldl (fun s n => s.ringError n 4 a.toNat) (s.endSwap fn w)).hostErr 2
        ((s.swapRings fn w).headD 0) fn).faultEvent 19) else s) := by
  rw [exec_hostReadError, execHostReadError, gated_up hu, hword]
  rfl

/-- A failed Swap ends, and its rings run on. -/
theorem swapError_ends {w : Nat} (hword : w = (a.toNat - (s.dbArea fn + 0x4000)) / 8) (h : s.swapIsOut fn w = true) :
    Yields (.hostReadError .swap fn n a) s fun t =>
      t.swapIsOut fn w = false ∧ ∀ m, (t.ring m).stopped = (s.ring m).stopped := by
  have hframe := (EventFrame.foldl (f := fun s n => State.ringError s n 4 a.toNat) (fun s n => .post s _ _ _ _)
    (s.swapRings fn w) (s.endSwap fn w)).trans (.readFailed _ 2 ((s.swapRings fn w).headD 0) fn)
  refine ⟨_, (swapError_eq hu a hword).trans (by rw [if_pos h]), ?_, fun m => ?_⟩
  · rw [State.swapIsOut, hframe.swapOut]
    exact s.swapIsOut_endSwap fn w
  · rw [hframe.stopped]
    rfl

end

/-! ### Receive (R285, R286) -/

theorem FillFrame.hostWrite (n : Nat) (s : State) (fn addr : Nat) (relaxed : Bool) (bs : List Byte) :
    FillFrame n s (s.hostWrite fn addr relaxed bs) := .of_return (.hostWrite n s fn addr relaxed bs)

section
variable (s : State) (n : Nat) (seg meta_ : List Byte) (first last : Bool)

theorem FillFrame.fillRx : FillFrame n s (s.fillRx n seg meta_ first last) := by
  unfold State.fillRx
  split
  · exact .refl n s
  · exact ((FillFrame.modRing n s (by intro; rfl)).trans (.hostWrite _ _ _ _ _ _)).trans (.of_return (.ringReturn _ _ _ _))

/-- One descriptor is used for a segment. -/
theorem State.fillRx_fetched : ((s.fillRx n seg meta_ first last).ring n).fetched = (s.ring n).fetched.drop 1 := by
  unfold State.fillRx
  split
  · next h => rw [h, List.drop_nil]
  · next d ds h =>
    rw [Returned.ringReturn, h]
    change ((s.modRing n _).ring n).fetched = ds
    rw [State.ring_modRing_self]

/-- A segment is written to the buffer of the next descriptor. -/
theorem State.fillRx_writes {s : State} {n : Nat} {seg d : List Byte} {ds : List (List Byte)} {w : HostWr}
    (h : (s.ring n).fetched = d :: ds)
    (hw : w ∈ s.hostTlps (s.ring n).fn (leAt d 0 8) true seg) : w ∈ (s.fillRx n seg meta_ first last).io.hostw := by
  simp only [State.fillRx, h]
  refine WritesGrow.ringReturn _ _ _ _ (State.mem_hostWrite ?_)
  exact hw

end

/-- The segments `cs`, numbered, of a frame cut into `k`. -/
def State.fillRxs (s : State) (n k : Nat) (meta_ : List Byte) (cs : List (List Byte × Nat)) : State :=
  cs.foldl (fun s c => s.fillRx n c.1 meta_ (c.2 == 0) (c.2 + 1 == k)) s

section
variable (s : State) (n k : Nat) (meta_ : List Byte) (cs : List (List Byte × Nat))

theorem FillFrame.fillRxs : FillFrame n s (s.fillRxs n k meta_ cs) :=
  List.foldlRecOn cs _ (motive := FillFrame n s) (.refl n s) fun t ht _ _ => ht.trans (.fillRx t n _ _ _ _)

theorem State.fillRxs_fetched : ((s.fillRxs n k meta_ cs).ring n).fetched = (s.ring n).fetched.drop cs.length := by
  induction cs generalizing s with
  | nil => rfl
  | cons c cs ih =>
    have hrest := ih (s.fillRx n c.1 meta_ (c.2 == 0) (c.2 + 1 == k))
    rw [State.fillRx_fetched, List.drop_drop] at hrest
    rw [List.length_cons, Nat.add_comm]
    exact hrest

end

theorem length_chunks (k m : Nat) (bs : List Byte) : (chunks k m bs).length = k := by
  induction k generalizing bs with
  | zero => rfl
  | succ k ih => rw [chunks, List.length_cons, ih]

/-- A frame that one buffer holds is one segment. -/
theorem atLeast1_cdiv_of_le {len size : Nat} (h : len ≤ size) : atLeast1 (cdiv len size) = 1 := by
  have hone : cdiv len size ≤ 1 := by
    rcases Nat.eq_zero_or_pos size with hzero | hpos
    · rw [cdiv, hzero, Nat.div_zero]
      exact Nat.zero_le 1
    · refine Nat.lt_succ_iff.mp (Nat.div_lt_of_lt_mul ?_)
      omega
  unfold atLeast1
  split <;> omega

/-- The segments of a frame for a ring. -/
def State.rxSegments (s : State) (n : Nat) (bs : List Byte) : List (List Byte × Nat) :=
  (chunks (atLeast1 (cdiv bs.length (256 * (s.ring n).bufSize))) (256 * (s.ring n).bufSize) bs).zipIdx

theorem State.length_rxSegments (s : State) (n : Nat) (bs : List Byte) :
    (s.rxSegments n bs).length = atLeast1 (cdiv bs.length (256 * (s.ring n).bufSize)) := by
  rw [State.rxSegments, List.length_zipIdx, length_chunks]

theorem State.rxSegments_one {s : State} {n : Nat} {bs : List Byte} (h : bs.length ≤ 256 * (s.ring n).bufSize) :
    s.rxSegments n bs = [(bs, 0)] := by
  rw [State.rxSegments, atLeast1_cdiv_of_le h, chunks, chunks, List.take_of_length_le h]
  rfl

theorem State.deliverRx_eq (s : State) (n : Nat) (bs meta_ : List Byte) : s.deliverRx n bs meta_ =
    if s.ringIs n 1 = true ∧ s.fnLive (s.ring n).fn = true ∧
        atLeast1 (cdiv bs.length (256 * (s.ring n).bufSize)) ≤ (s.ring n).fetched.length then
      s.fillRxs n (atLeast1 (cdiv bs.length (256 * (s.ring n).bufSize))) meta_ (s.rxSegments n bs)
    else s.count (ringCtr n 0) 1 := by
  rw [State.deliverRx, State.rxSegments, State.fillRxs]
  simp only [Bool.and_eq_true, decide_eq_true_eq, and_assoc]

section
variable {s : State} (hu : Up s)
include hu

theorem rxFrameDeliver_none (h : s.host.inbox = []) : exec .rxFrameDeliver s = .next s := by
  change execRxFrameDeliver s = _
  rw [execRxFrameDeliver, gated_up hu]
  simp only [h]

section
variable {f : WholeFrame} {fs : List WholeFrame} {k n : Nat} (hin : s.host.inbox = f :: fs) (hn : n = s.rxRing f.hdr)
  (hk : k = atLeast1 (cdiv f.bytes.length (256 * (s.ring n).bufSize)))
include hin hn

/-- The oldest frame leaves the queue. -/
theorem rxFrameDeliver_oldest : exec .rxFrameDeliver s =
    .next (({ s with host := { s.host with inbox := fs } } : State).deliverRx n f.bytes (rxMeta f)) := by
  change execRxFrameDeliver s = _
  rw [execRxFrameDeliver, gated_up hu, hn]
  simp only [hin]

include hk

theorem rxFrameDeliver_counted (h : s.ringIs n 1 = false ∨ s.fnLive (s.ring n).fn = false ∨
    (s.ring n).fetched.length < k) : exec .rxFrameDeliver s =
      .next (({ s with host := { s.host with inbox := fs } } : State).count (ringCtr n 0) 1) := by
  rw [rxFrameDeliver_oldest hu hin hn, State.deliverRx_eq, if_neg]
  rintro ⟨hring, hlive, hroom⟩
  rcases h with h | h | h
  · exact absurd (hring.symm.trans h) (by decide)
  · exact absurd (hlive.symm.trans h) (by decide)
  · exact Nat.not_le.mpr (hk ▸ h) hroom

/-- A frame that its ring has descriptors for fills them. -/
theorem rxFrameDeliver_fills (hring : s.ringIs n 1 = true) (hlive : s.fnLive (s.ring n).fn = true)
    (hroom : k ≤ (s.ring n).fetched.length) : Yields .rxFrameDeliver s fun t => t.host.inbox = fs ∧ t.cnt = s.cnt ∧
      (t.ring n).fetched.length + k = (s.ring n).fetched.length ∧ (∀ m, m ≠ n → t.ring m = s.ring m) ∧
      (∀ d ds, (s.ring n).fetched = d :: ds → f.bytes.length ≤ 256 * (s.ring n).bufSize →
        ∀ w ∈ s.hostTlps (s.ring n).fn (leAt d 0 8) true f.bytes, w ∈ t.io.hostw) ∧
      t = { s with regs := t.regs, host := t.host, io := t.io } := by
  let u : State := { s with host := { s.host with inbox := fs } }
  have hexec : exec .rxFrameDeliver s = .next (u.fillRxs n k (rxMeta f) (u.rxSegments n f.bytes)) := by
    rw [rxFrameDeliver_oldest hu hin hn, State.deliverRx_eq, if_pos ⟨hring, hlive, hk ▸ hroom⟩, hk]
    rfl
  have hframe := FillFrame.fillRxs u n k (rxMeta f) (u.rxSegments n f.bytes)
  refine ⟨_, hexec, ?_, ?_, ?_, hframe.other, fun d ds hd hlen w hw => ?_, ?_⟩
  · rw [hframe.host]
  · rw [hframe.parts]
  · have hlength : (u.rxSegments n f.bytes).length = k := (u.length_rxSegments n f.bytes).trans hk.symm
    rw [State.fillRxs_fetched, hlength, List.length_drop]
    exact Nat.sub_add_cancel hroom
  · rw [State.rxSegments_one (s := u) hlen]
    exact State.fillRx_writes _ _ _ (s := u) hd hw
  · rw [hframe.parts]

end

end

/-- Settles O40: failed reads by what could not be read, and delivery by whether the ring takes the frame. -/
theorem hostErrorsAndReceive : Obligations.HostErrorsAndReceive := by
  unfold Obligations.HostErrorsAndReceive
  refine ⟨fun n fn a s hu hfn => ⟨fun hoff => ⟨fun hasked => ?_, fun hasked => ?_, fun hout => ?_, fun hout => ?_,
        bufferError_logged hu a hfn hoff, fun d ds => bufferError_command hu a hfn hoff⟩,
      fun hoff => ⟨?_, ?_, bufferError_off hu a hoff⟩⟩,
    fun n fn a s hu => ⟨summaryError_stops hu a, summaryError_unasked hu a,
      fun w hword => ⟨swapError_ends hu a hword, fun h => ?_⟩⟩,
    fun s => rxFrameDeliver_none, fun f fs k n s hu hin hn hk => ⟨rxFrameDeliver_fills hu hin hn hk,
      rxFrameDeliver_counted hu hin hn hk⟩⟩
  · rw [descriptorError_eq hu a hfn, if_pos ⟨hoff, hasked⟩, State.stopRing, hfn]
    rfl
  · rw [descriptorError_eq hu a hfn, if_neg (by simp [hasked])]
  · rw [doorbellError_eq hu a hfn, if_pos ⟨hoff, hout⟩, ← hfn]
    rfl
  · rw [doorbellError_eq hu a hfn, hout, if_neg (fun h => Bool.false_ne_true h.2)]
  · rw [descriptorError_eq hu a hfn, if_neg (by simp [hoff])]
  · rw [doorbellError_eq hu a hfn, if_neg (by simp [hoff])]
  · rw [swapError_eq hu a hword, h]
    rfl

end Sys2Proof.Machine
end

section
/-!
SUPPORT. A part of the state that the basic updates of squares, queues and ports leave, and counters, faults and
reported frames with them, is left by all that the storing and the moving of cells does (R147 to R157, R173 to R176).
-/

namespace Sys2Proof.Machine

/-- A part of the state that no basic update on the way of a frame writes. -/
structure FrameFree {α : Type} (π : State → α) : Prop where
  modSq : ∀ s i f, π (s.modSq i f) = π s
  modQueue : ∀ s q f, π (s.modQueue q f) = π s
  modEport : ∀ s p f, π (s.modEport p f) = π s
  modFn : ∀ s c i f, π (s.modFn c i f) = π s
  setReg : ∀ s a v, π (s.setReg a v) = π s
  withBook : ∀ (s : State) b, π { s with book := b } = π s
  count : ∀ s o n, π (s.count o n) = π s
  faultEvent : ∀ s n detail concerned cause forced, π (s.faultEvent n detail concerned cause forced) = π s
  reportTx : ∀ s h status stamp, π (s.reportTx h status stamp) = π s

namespace FrameFree

variable {α : Type} {π : State → α} (hπ : FrameFree π)

theorem foldl {β : Type} {f : State → β → State} (hf : ∀ s b, π (f s b) = π s) (l : List β) (s : State) :
    π (l.foldl f s) = π s :=
  List.foldlRecOn l f (motive := fun t : State => π t = π s) rfl fun t ht b _ => (hf t b).trans ht

include hπ

/-! ### Cells and the frames of a queue (R157, R176, R193) -/

theorem countPort (s : State) (p w n : Nat) : π (s.countPort p w n) = π s := by
  simp only [State.countPort, apply_ite π, hπ.count, ite_self]

theorem sqFault (s : State) (i j : Nat) : π (s.sqFault i j) = π s := hπ.faultEvent s _ _ _ _ _

theorem logReg (s : State) (a v : Nat) : π (s.logReg a v) = π s := by
  simp only [State.logReg, apply_ite π, hπ.setReg, ite_self]

theorem badFree (s : State) (i k r owner : Nat) (foreign : Bool) : π (s.badFree i k r owner foreign) = π s := by
  rw [State.badFree, hπ.sqFault, hπ.logReg, hπ.count]

theorem freeCell (s : State) (i k r : Nat) : π (s.freeCell i k r) = π s := by
  unfold State.freeCell
  split
  · exact hπ.modSq _ _ _
  · split
    · exact hπ.badFree _ _ _ _ _ _
    · rw [apply_ite π, hπ.modSq, hπ.badFree, ite_self]

theorem freeByHeader (s : State) (i k : Nat) : π (s.freeByHeader i k) = π s := by
  unfold State.freeByHeader
  split <;> exact hπ.freeCell _ _ _ _

theorem dropRef (s : State) (e : Nat) (r : CellRef) : π (s.dropRef e r) = π s := by
  simp only [State.dropRef, apply_ite π, hπ.freeByHeader, hπ.modSq, ite_self]

theorem tagQueue (s : State) (q : Nat) : π (s.tagQueue q) = π s := by
  simp only [State.tagQueue, State.setTag, apply_ite π, hπ.modQueue, ite_self]

theorem removeFrames (s : State) (q : Nat) (gone : QFrame → Bool) : π (s.removeFrames q gone) = π s := by
  unfold State.removeFrames
  dsimp only
  rw [hπ.tagQueue, foldl fun s r => hπ.dropRef s _ r, hπ.modSq, hπ.modEport, hπ.modQueue]

theorem chargeQueue (s : State) (q n : Nat) : π (s.chargeQueue q n) = π s := by
  unfold State.chargeQueue
  dsimp only
  split
  · split
    · exact hπ.modFn _ _ _ _
    · split
      · exact hπ.modFn _ _ _ _
      · rfl
  · rfl

theorem judgeFrame (s : State) (q fid : Nat) : π (s.judgeFrame q fid) = π s := by
  unfold State.judgeFrame
  split
  · rfl
  · split
    · rfl
    · simp only [State.stompTx, apply_ite π, hπ.modEport, hπ.reportTx, hπ.chargeQueue, hπ.countPort, hπ.removeFrames,
        ite_self]

/-! ### The pull buffer (R142, R153) -/

theorem takePos (s : State) (e port : Nat) (fids : List Nat) (r : CellRef) (skip : Bool) :
    π (s.takePos e port fids r skip) = π s := by
  simp only [State.takePos, apply_ite π, hπ.modSq, ite_self]

theorem takeAll (s : State) (e : Nat) : π (s.takeAll e) = π s := by
  refine foldl (fun s p => foldl (fun s f => ?_) _ s) _ s
  unfold State.takeFrame'
  split
  · rfl
  · exact foldl (fun s r => hπ.takePos s _ _ _ _ _) _ s

theorem takeDiscards (s : State) (e : Nat) : π (s.takeDiscards e) = π s := by
  unfold State.takeDiscards
  dsimp only
  rw [foldl fun s r => hπ.takePos s _ _ _ _ _, hπ.modSq]

theorem markLate (s : State) (q : Nat) (fids : List Nat) : π (s.markLate q fids) = π s :=
  foldl (fun s _ => hπ.modEport s _ _) _ s

theorem readPos (s : State) (e : Nat) (p : PullPos) (c : Cell) : π (s.readPos e p c).1 = π s := by
  unfold State.readPos State.readCell State.noteCrc
  split
  · simp only [hπ.freeByHeader, apply_ite π, hπ.sqFault, hπ.count, ite_self]
  · rfl

theorem passHead (s : State) (e : Nat) : π (s.passHead e) = π s := by
  have hjudge (q : Nat) (l : List Nat) (s : State) : π (l.foldl (fun s f => s.judgeFrame q f) s) = π s :=
    foldl (fun s f => hπ.judgeFrame s q f) l s
  unfold State.passHead
  split
  · rfl
  · split
    · rfl
    · simp only [apply_ite π, hjudge, hπ.modQueue, hπ.count, hπ.markLate, hπ.readPos, hπ.modSq, ite_self]

theorem passCells (e n : Nat) (s : State) : π (Machine.passCells e n s) = π s := by
  induction n generalizing s with
  | zero => rfl
  | succ n ih =>
    unfold Machine.passCells
    split
    · rfl
    · rw [apply_ite π, ih, hπ.passHead, ite_self]

theorem moveCells (s : State) (e : Nat) : π (s.moveCells e) = π s := by
  rw [State.moveCells, hπ.takeDiscards, hπ.takeAll, hπ.passCells, hπ.takeAll]

/-! ### The resequencer (R154 to R157) -/

theorem linkSeg (s : State) (q : Nat) (c : Cell) (r : CellRef) (g : Seg) : π (s.linkSeg q c r g) = π s := by
  unfold State.linkSeg State.creditShapers
  split
  · dsimp only
    rw [hπ.count, hπ.modQueue, hπ.modQueue]
  · simp only [apply_ite π, hπ.modEport, hπ.modQueue, ite_self]

theorem linkCell (s : State) (e : Nat) (c : Ctx) (r : CellRef) : π (s.linkCell e c r).1 = π s := by
  have hlink (q : Nat) (x : Cell) (l : List Seg) (s : State) : π (l.foldl (fun s g => s.linkSeg q x r g) s) = π s :=
    foldl (fun s g => hπ.linkSeg s q x r g) l s
  have hjudge (q : Nat) (l : List Nat) (s : State) : π (l.foldl (fun s f => s.judgeFrame q f) s) = π s :=
    foldl (fun s f => hπ.judgeFrame s q f) l s
  have hdepth (s : State) (q : Nat) : π (s.noteDepth e q) = π s := by
    rw [State.noteDepth, apply_ite π, hπ.modQueue, ite_self]
  unfold State.linkCell
  split
  · rfl
  · dsimp only
    rw [hπ.moveCells, hjudge, apply_ite π, hπ.dropRef, ite_self, hπ.tagQueue, hdepth, hlink]

theorem gapFrame (s : State) (q : Nat) (run : Option Nat) : π (s.gapFrame q run) = π s := by
  unfold State.gapFrame
  split
  · rfl
  · exact (hπ.judgeFrame _ _ _).trans (hπ.modQueue _ _ _)

theorem setCtxOut (s : State) (e k : Nat) (x : CtxOut) : π (s.setCtxOut e k x) = π s := hπ.modSq _ _ _

theorem linkNext (s : State) (e k : Nat) (c : Ctx) (r : CellRef) : π (s.linkNext e k c r) = π s := by
  unfold State.linkNext
  dsimp only
  rw [hπ.setCtxOut]
  split
  · exact hπ.gapFrame _ _ _
  · exact hπ.linkCell _ _ _ _

theorem drainAll (s : State) (e k : Nat) (c : Ctx) : π (s.drainAll e k c) = π s := by
  unfold State.drainAll
  generalize (s.ctxOut e k).parked.length + 1 = n
  induction n generalizing s with
  | zero => rfl
  | succ n ih =>
    unfold State.drainParked
    dsimp only
    split
    · rfl
    · rw [ih, hπ.linkNext, hπ.setCtxOut]

theorem declareGap (s : State) (e k : Nat) (c : Ctx) (w : Nat) : π (s.declareGap e k c w) = π s := by
  unfold State.declareGap
  dsimp only
  split
  · rfl
  · rw [hπ.drainAll, hπ.setCtxOut, hπ.gapFrame, hπ.count]

theorem entry (s : State) (e isq : Nat) (c : Ctx) (seq slot : Nat) (r : CellRef) :
    π (s.entry e isq c seq slot r) = π s := by
  have hpark (s : State) (k : Nat) : π (s.park e k seq slot r) = π s := by
    rw [State.park, hπ.modSq, hπ.setCtxOut]
  unfold State.entry
  dsimp only
  split
  · split <;>
      simp only [apply_ite π, hπ.count, hπ.dropRef, hpark, hπ.drainAll, hπ.linkNext, hπ.declareGap, ite_self]
  · simp only [apply_ite π, hπ.count, hπ.dropRef, hpark, hπ.drainAll, hπ.linkNext, ite_self]

/-! ### Frames that are admitted and stored (R148, R173, R185 to R192) -/

theorem settleCell (s : State) (i k : Nat) : π (s.settleCell i k) = π s := by
  unfold State.settleCell
  split
  · rfl
  · simp only [apply_ite π, hπ.entry, hπ.modSq, ite_self]

theorem setCtxIn (s : State) (i : Nat) (c : Ctx) (x : CtxIn) : π (s.setCtxIn i c x) = π s := hπ.modSq _ _ _

theorem alloc (s : State) (i r : Nat) (c : Cell) : π (s.alloc i r c).1 = π s := by
  unfold State.alloc
  dsimp only
  split
  · dsimp only
    rw [hπ.modSq]
  · dsimp only
    rw [hπ.count]

theorem numberCell (s : State) (i k : Nat) (c : Ctx) (held kept : Bool) : π (s.numberCell i k c held kept) = π s := by
  simp only [State.numberCell, apply_ite π, hπ.settleCell, hπ.modSq, hπ.setCtxIn, ite_self]

theorem storePiece (s : State) (i typ owner : Nat) (c : Ctx) (held : Bool) (epoch : Nat) (p : Piece) :
    π (s.storePiece i typ owner c held epoch p) = π s := by
  have halloc := hπ.alloc s i owner ({ typ := typ, isq := i, ctx := c, epoch := epoch, segs := p.segs
                                       bad := p.segs.any (fun g => g.badEnd), st := .deferred } : Cell).sealed
  unfold State.storePiece
  dsimp only
  split
  · next hs => rwa [hs] at halloc
  · next hs =>
    rw [hs] at halloc
    rw [hπ.modSq]
    split
    · exact (hπ.numberCell _ _ _ _ _ _).trans halloc
    · exact (hπ.setCtxIn _ _ _ _).trans halloc

theorem storeGroup (s : State) (i typ owner : Nat) (g : Group) : π (s.storeGroup i typ owner g) = π s :=
  (foldl (fun s _ => hπ.storePiece s _ _ _ _ _ _ _) _ _).trans ((hπ.count _ _ _).trans (hπ.setCtxIn s i _ _))

theorem storeWhole (s : State) (i typ owner : Nat) (v : Verdict) (bs : List Byte) :
    π (s.storeWhole i typ owner v bs) = π s := by
  unfold State.storeWhole
  dsimp only
  cases v.main <;> cases v.copy <;> simp only [hπ.storeGroup]

theorem accept (s : State) (i : Nat) (h : FrameHdr) (q need : Nat) : π (s.accept i h q need) = π s := by
  rw [State.accept, hπ.count, hπ.count, hπ.modSq]

theorem holdFrame (s : State) (i typ : Nat) (h : FrameHdr) (q need : Nat) :
    π (s.holdFrame i typ h q need).1 = π s := by
  unfold State.holdFrame
  dsimp only
  split
  · exact (hπ.sqFault _ _ _).trans (hπ.countPort _ _ _ _)
  · exact hπ.accept _ _ _ _ _

theorem takeIn (s : State) (i lane typ owner : Nat) (h : FrameHdr) (c : Ctx) :
    π (s.takeIn i lane typ owner h c).1 = π s := by
  unfold State.takeIn
  dsimp only
  cases s.victimClass i c.eport c.cls <;>
    simp only [apply_ite Prod.fst, apply_ite π, hπ.count, hπ.sqFault, hπ.holdFrame, hπ.accept, hπ.modSq, ite_self]

/-! ### The decision on a frame (R74 to R99, R126, R138) -/

theorem meetEcc (s : State) (x : Option EccErr) : π (s.meetEcc x).1 = π s := by
  have hbad (k : Nat) (b : Bool) : π (s.setBadWord k b) = π s := hπ.withBook _ _
  unfold State.meetEcc State.eccUe State.eccSbe State.eccLog
  split
  · rfl
  · split
    · rw [hπ.count, hπ.faultEvent, hπ.logReg, hbad]
    · rw [hπ.logReg, hπ.count]

theorem settle (s : State) (i e : Nat) (p : Parse) : π (s.settle i e p).1 = π s := by
  have hread : π (s.fragRead i e p).1 = π s := by
    unfold State.fragRead
    dsimp only
    repeat' split
    all_goals simp only [hπ.modSq]
  unfold State.settle
  dsimp only
  split
  · exact hread
  · split
    · split <;> rfl
    · rfl

theorem learnFrom (s : State) (i e : Nat) (p : Parse) (bad : Bool) : π (s.learnFrom i e p bad) = π s := by
  unfold State.learnFrom
  dsimp only
  repeat' split
  all_goals simp only [hπ.withBook, hπ.count, hπ.modSq]

theorem noteLookup (s : State) (i e : Nat) (p : Parse) (inj : Bool) (slot : Option Nat) (r : LookRes)
    (rz : Option (Nat × Nat)) : π (s.noteLookup i e p inj slot r rz) = π s := by
  have hwrite (k : Nat) (r : LookRes) : π (s.fragWrite i e p k r) = π s := by
    rw [State.fragWrite, hπ.modSq]
  unfold State.noteLookup
  dsimp only
  cases slot <;> cases rz <;> simp only [apply_ite π, hπ.count, hπ.learnFrom, hwrite, ite_self]

theorem hostToken (s : State) (i : Nat) (rz : Option (Nat × Nat)) : π (s.hostToken i rz).1 = π s := by
  have htake (n : Nat) : π (s.takeToken i n).1 = π s := by
    unfold State.takeToken
    dsimp only
    split
    · dsimp only
      rw [hπ.modSq]
    · dsimp only
      rw [hπ.count]
  unfold State.hostToken
  split
  · dsimp only
    split
    · exact htake _
    · rfl
  · rfl

theorem meterFrame (s : State) (i m b c : Nat) : π (s.meterFrame i m b c).1 = π s := by
  unfold State.meterFrame
  dsimp only
  repeat' split
  all_goals simp only [hπ.count, hπ.modSq]

theorem forwardFrame (s : State) (i : Nat) (p : Parse) (inj : Bool) (r : LookRes) (f : Fwd) (d : Decision) :
    π (s.forwardFrame i p inj r f d).1 = π s := by
  unfold State.forwardFrame
  dsimp only
  repeat' split
  all_goals simp only [hπ.count, hπ.meterFrame]

theorem decideFrame (s : State) (i e : Nat) (p : Parse) (inj : Bool) : π (s.decideFrame i e p inj).1 = π s := by
  unfold State.decideFrame
  dsimp only
  repeat' split
  all_goals simp only [hπ.forwardFrame, hπ.hostToken, hπ.noteLookup, hπ.settle]

/-- A decided frame, where taking a name for its copy leaves the part too. -/
theorem judge (hfresh : ∀ s : State, π s.freshFid.1 = π s) (s : State) (i lane typ owner e : Nat) (h : FrameHdr)
    (p : Parse) (inj : Bool) : π (s.judge i lane typ owner e h p inj).1 = π s := by
  unfold State.judge
  dsimp only
  repeat' split
  all_goals simp only [hfresh, hπ.takeIn, hπ.decideFrame]

end FrameFree

end Sys2Proof.Machine
end

section
/-! PROOFS. Frames of transmit rings (R287 to R289, R301, R377). -/

namespace Sys2Proof.Machine

/-! ### The names of frames, and the descriptors that rings hold -/

/-- A ring's type, and the descriptors it holds where it is no event ring. -/
def State.txHeld (s : State) (m : Nat) : Nat × List (List Byte) :=
  ((s.ring m).type, if (s.ring m).type = 4 then [] else (s.ring m).fetched)

theorem txHeld_of_rings {s t : State} (h : t.host.rings = s.host.rings) : t.txHeld = s.txHeld := by
  funext m
  rw [State.txHeld, State.ring, h, ← State.ring, ← State.txHeld]

theorem type_of_txHeld {s t : State} (h : t.txHeld = s.txHeld) (m : Nat) : (t.ring m).type = (s.ring m).type :=
  congrArg (fun g => (g m).1) h

theorem fetched_of_txHeld {s t : State} (h : t.txHeld = s.txHeld) {m : Nat} (hm : (s.ring m).type ≠ 4) :
    (t.ring m).fetched = (s.ring m).fetched := by
  have hfetched := congrArg (fun g => (g m).2) h
  simp only [State.txHeld, type_of_txHeld h m, if_neg hm] at hfetched
  exact hfetched

theorem EventFrame.txHeld {s t : State} (h : EventFrame s t) : t.txHeld = s.txHeld := by
  funext m
  rw [State.txHeld, State.txHeld, h.type]
  split
  · rfl
  · next hm => rw [h.other m hm]

theorem Returned.txHeld {s t : State} (h : Returned s t) : t.txHeld = s.txHeld := by
  funext m
  rw [State.txHeld, h m, ← State.txHeld]

/-- What waits for return in a ring is no descriptor that it holds. -/
theorem State.modTxWait_txHeld (s : State) (n : Nat) (g : Ring → List (Nat × Option (Nat × Nat) × List Byte)) :
    (s.modRing n fun r => { r with txWait := g r }).txHeld = s.txHeld := by
  funext m
  rw [State.txHeld, State.txHeld, State.ring_modRing]
  split
  · next hm => rw [hm]
  · rfl

theorem State.flushTx_txHeld (s : State) (n : Nat) : (s.flushTx n).txHeld = s.txHeld := by
  have hreturn (s : State) (st stamp : Nat) (bs : List Byte) : (s.returnTx n st stamp bs).txHeld = s.txHeld := by
    unfold State.returnTx
    exact FrameFree.foldl (fun s d => (Returned.ringReturn s n _ _).txHeld) _ _
  refine FrameFree.foldl (fun s _ => ?_) _ s
  unfold State.flushTxOne
  split
  · next ws _ => exact (hreturn _ _ _ _).trans (s.modTxWait_txHeld n fun _ => ws)
  · rfl

theorem State.reportTx_txHeld (s : State) (h : FrameHdr) (status stamp : Nat) :
    (s.reportTx h status stamp).txHeld = s.txHeld := by
  have hlost : (if h.built && status != 0 then s.bcLost h.fid else s).txHeld = s.txHeld := by
    unfold State.bcLost
    repeat' split
    all_goals rfl
  unfold State.reportTx
  dsimp only
  split
  · exact hlost
  · exact (State.flushTx_txHeld _ _).trans ((State.modTxWait_txHeld _ _ _).trans hlost)

theorem frameFree_txHeld : FrameFree State.txHeld where
  modSq _ _ _ := rfl
  modQueue _ _ _ := rfl
  modEport _ _ _ := rfl
  modFn _ _ _ _ := rfl
  setReg _ _ _ := rfl
  withBook _ _ := rfl
  count s o n := txHeld_of_rings (by rw [State.count_host])
  faultEvent s _ _ _ _ _ := (EventFrame.faultEvent s _ _ _ _ _).txHeld
  reportTx := State.reportTx_txHeld

theorem frameFree_nextFid : FrameFree State.nextFid where
  modSq _ _ _ := rfl
  modQueue _ _ _ := rfl
  modEport _ _ _ := rfl
  modFn _ _ _ _ := rfl
  setReg _ _ _ := rfl
  withBook _ _ := rfl
  count s o n := nextFid_of_wires (s.count_wires o n)
  faultEvent s _ _ _ _ _ := nextFid_of_wires (s.faultEvent_wires _ _ _ _ _)
  reportTx s h status stamp := nextFid_of_wires (s.reportTx_wires h status stamp)

/-- A decided frame takes a name for its copy, or none. -/
theorem State.nextFid_le_judge (s : State) (i lane typ owner e : Nat) (h : FrameHdr) (p : Parse) (inj : Bool) :
    s.nextFid ≤ (s.judge i lane typ owner e h p inj).1.nextFid := by
  have hfresh (s : State) : s.freshFid.1.nextFid = s.nextFid + 1 := rfl
  unfold State.judge
  dsimp only
  repeat' split
  all_goals simp only [frameFree_nextFid.takeIn, hfresh, frameFree_nextFid.decideFrame, Nat.le_refl, Nat.le_succ]

/-! ### The head chain leaves its ring (R289) -/

theorem State.takeTx_fetched {s u : State} (hu : u.txHeld = s.txHeld) {n : Nat} (htype : (s.ring n).type = 2) (key : Nat)
    (ch : List (List Byte)) (out : Option (Nat × Nat)) :
    ((u.takeTx n key ch out).ring n).fetched = (s.ring n).fetched.drop ch.length := by
  have hne : (s.ring n).type ≠ 4 := by
    rw [htype]
    decide
  have htype' : (u.ring n).type ≠ 4 := by rwa [type_of_txHeld hu]
  rw [State.takeTx, fetched_of_txHeld (State.flushTx_txHeld _ n), State.ring_modRing_self, fetched_of_txHeld hu hne]
  rw [State.ring_modRing_self]
  exact htype'

theorem State.takeTx_type (s : State) (n key : Nat) (ch : List (List Byte)) (out : Option (Nat × Nat)) :
    ((s.takeTx n key ch out).ring n).type = (s.ring n).type := by
  rw [State.takeTx, type_of_txHeld (State.flushTx_txHeld _ n), State.ring_modRing_self]

theorem State.takeTx_nextFid (s : State) (n key : Nat) (ch : List (List Byte)) (out : Option (Nat × Nat)) :
    (s.takeTx n key ch out).nextFid = s.nextFid := by
  rw [State.takeTx, nextFid_of_wires (State.flushTx_wires _ n)]
  rfl

/-! ### A checked frame (R288, R377) -/

/-- The frame as it is counted at port 1088 and takes its name. -/
def State.txNamed (s : State) (len : Nat) : State := (s.portIn 1088 len).freshFid.1

theorem State.portIn_nextFid (s : State) (p n : Nat) : (s.portIn p n).nextFid = s.nextFid := by
  rw [State.portIn, frameFree_nextFid.countPort, frameFree_nextFid.countPort]

theorem State.portIn_book (s : State) (p n : Nat) : (s.portIn p n).book = s.book := by
  have hcount (s : State) (o n : Nat) : (s.count o n).book = s.book := by
    unfold State.count
    split <;> rfl
  simp only [State.portIn, State.countPort, apply_ite State.book, hcount, ite_self]

theorem State.txNamed_nextFid (s : State) (len : Nat) : (s.txNamed len).nextFid = s.nextFid + 1 :=
  congrArg (· + 1) (s.portIn_nextFid 1088 len)

theorem State.txNamed_txHeld (s : State) (len : Nat) : (s.txNamed len).txHeld = s.txHeld := by
  have hcounted : (s.portIn 1088 len).txHeld = s.txHeld := by
    rw [State.portIn, frameFree_txHeld.countPort, frameFree_txHeld.countPort]
  unfold State.txNamed
  generalize s.portIn 1088 len = u at *
  exact hcounted

/-- Where a frame of MODE 0 goes. -/
def txCtx (d : List Byte) : Ctx := { eport := leAt d 10 2, cls := leAt d 12 1 % 16 }

/-- The header of a frame of MODE 0. -/
def State.txHdr (s : State) (n : Nat) (d bs : List Byte) : FrameHdr :=
  { fid := s.nextFid, length := bs.length, iport := 1088, ingressNs := s.stamp32, cls := leAt d 12 1 % 16, inj := true
    txRet := if bit (leAt d 12 1) 6 then some (n, s.nextFid) else none }

/-- A frame of MODE 0 at its queue. -/
def State.txQueued (s : State) (n : Nat) (d bs : List Byte) : State × Verdict :=
  let a := (s.txNamed bs.length).takeIn s.tour.attHost 5 2 65 (s.txHdr n d bs) (txCtx d)
  match a.2 with
  | none => (a.1, { epoch := s.book.epoch })
  | some held => (a.1, { main := some (txCtx d, s.txHdr n d bs), held := held, epoch := s.book.epoch })

/-- A frame of MODE 1 at its lookup. -/
def State.txLooked (s : State) (n : Nat) (d bs : List Byte) (x : Option EccErr) : State × Verdict :=
  let u := s.txNamed bs.length
  let p := parse (u.parseCfgOf (leAt d 10 2 / 16) (leAt d 10 2) none) bs
  let h : FrameHdr := { fid := s.nextFid, length := bs.length, iport := leAt d 10 2, ingressNs := s.stamp32
                        otag := p.otag, cls := leAt d 12 1 % 16, inj := true
                        txRet := if bit (leAt d 12 1) 6 then some (n, s.nextFid) else none }
  let m := u.meetEcc x
  if m.2 then (m.1, { epoch := m.1.book.epoch }) else m.1.judge s.tour.attHost 5 2 65 m.1.book.epoch h p true

/-- A decided frame is stored, and its descriptors leave the ring; where its cells are lacking it waits, counted (R175). -/
def State.txStored (s : State) (n : Nat) (d bs : List Byte) (r : State × Verdict) : State :=
  if s.mayTake s.tour.attHost 65 < r.2.need bs.length then s.count (sqCtr s.tour.attHost (8 * 65)) 1
  else if r.2.main = none then (r.1.storeWhole s.tour.attHost 2 65 r.2 bs).takeTx n s.nextFid [d] (some (stDropped, 0))
  else (r.1.takeTx n s.nextFid [d] (if bit (leAt d 12 1) 6 then none else some (stOk, 0))).storeWhole
    s.tour.attHost 2 65 r.2 bs

section
variable (s : State) (n : Nat) {d : List Byte} (bs : List Byte) (x : Option EccErr)

theorem injectTx_looked (hlook : (leAt d 12 1 / 16 % 4 == 1) = true) :
    s.injectTx n [d] d bs x = s.txStored n d bs (s.txLooked n d bs x) := by
  have hfid : (s.portIn 1088 bs.length).freshFid.2 = s.nextFid := s.portIn_nextFid 1088 bs.length
  rw [State.injectTx, hlook]
  simp only [hfid, Bool.not_true, Bool.false_and, Bool.false_eq_true, if_false, if_true]
  rfl

theorem injectTx_queued (hlook : (leAt d 12 1 / 16 % 4 == 1) = false) : s.injectTx n [d] d bs x =
    if s.mayTake s.tour.attHost 65 < cellsOf bs.length then s.count (sqCtr s.tour.attHost (8 * 65)) 1
    else s.txStored n d bs (s.txQueued n d bs) := by
  have hfid : (s.portIn 1088 bs.length).freshFid.2 = s.nextFid := s.portIn_nextFid 1088 bs.length
  have hbook : (s.portIn 1088 bs.length).freshFid.1.book = s.book := s.portIn_book 1088 bs.length
  rw [State.injectTx, hlook]
  simp only [hfid, hbook, Bool.not_false, Bool.true_and, Bool.false_eq_true, if_false, decide_eq_true_eq]
  rfl

variable {s n bs x}

/-- A frame that does not wait is stored, and its descriptor leaves the ring. -/
theorem State.txStored_taken {r : State × Verdict} (hheld : r.1.txHeld = s.txHeld) (htype : (s.ring n).type = 2)
    (hroom : r.2.need bs.length ≤ s.mayTake s.tour.attHost 65) : (s.txStored n d bs r).nextFid = r.1.nextFid ∧
      ((s.txStored n d bs r).ring n).fetched = (s.ring n).fetched.drop 1 := by
  have hstore (u : State) : (u.storeWhole s.tour.attHost 2 65 r.2 bs).txHeld = u.txHeld := frameFree_txHeld.storeWhole u _ _ _ _ _
  rw [State.txStored, if_neg (Nat.not_lt.mpr hroom)]
  split
  · rw [State.takeTx_nextFid, frameFree_nextFid.storeWhole]
    exact ⟨rfl, State.takeTx_fetched ((hstore _).trans hheld) htype _ _ _⟩
  · rw [frameFree_nextFid.storeWhole, State.takeTx_nextFid]
    have htaken : ((r.1.takeTx n s.nextFid [d] (if bit (leAt d 12 1) 6 then none else some (stOk, 0))).ring n).type ≠ 4 := by
      rw [State.takeTx_type, type_of_txHeld hheld, htype]
      decide
    exact ⟨rfl, (fetched_of_txHeld (hstore _) htaken).trans (State.takeTx_fetched hheld htype _ _ _)⟩

theorem State.txLooked_txHeld (s : State) (n : Nat) (d bs : List Byte) (x : Option EccErr) :
    (s.txLooked n d bs x).1.txHeld = s.txHeld := by
  unfold State.txLooked
  dsimp only
  split
  · exact (frameFree_txHeld.meetEcc _ _).trans (s.txNamed_txHeld _)
  · rw [frameFree_txHeld.judge fun _ => rfl, frameFree_txHeld.meetEcc, State.txNamed_txHeld]

theorem State.nextFid_lt_txLooked (s : State) (n : Nat) (d bs : List Byte) (x : Option EccErr) :
    s.nextFid < (s.txLooked n d bs x).1.nextFid := by
  have hmet : ((s.txNamed bs.length).meetEcc x).1.nextFid = s.nextFid + 1 :=
    (frameFree_nextFid.meetEcc _ _).trans (s.txNamed_nextFid _)
  unfold State.txLooked
  dsimp only
  split
  · exact hmet.ge
  · exact hmet.ge.trans (State.nextFid_le_judge _ _ _ _ _ _ _ _ _)

/-- A frame of MODE 0 takes a name, leaves its descriptor to the ring, and needs cells for itself at most. -/
theorem State.txQueued_spec (s : State) (n : Nat) (d bs : List Byte) :
    (s.txQueued n d bs).1.txHeld = s.txHeld ∧ (s.txQueued n d bs).1.nextFid = s.nextFid + 1 ∧
    (s.txQueued n d bs).2.need bs.length ≤ cellsOf bs.length := by
  have hheld := frameFree_txHeld.takeIn (s.txNamed bs.length) s.tour.attHost 5 2 65 (s.txHdr n d bs) (txCtx d)
  have hfid := frameFree_nextFid.takeIn (s.txNamed bs.length) s.tour.attHost 5 2 65 (s.txHdr n d bs) (txCtx d)
  rw [State.txNamed_txHeld] at hheld
  rw [State.txNamed_nextFid] at hfid
  unfold State.txQueued
  dsimp only
  split
  · exact ⟨hheld, hfid, by simp [Verdict.need, b2n]⟩
  · exact ⟨hheld, hfid, by simp [Verdict.need, b2n]⟩

theorem State.txQueued_admitted {s u : State} {n : Nat} {d bs : List Byte} {held : Bool}
    (h : (s.txNamed bs.length).takeIn s.tour.attHost 5 2 65 (s.txHdr n d bs) (txCtx d) = (u, some held)) :
    s.txQueued n d bs = (u, { main := some (txCtx d, s.txHdr n d bs), held := held, epoch := s.book.epoch }) := by
  rw [State.txQueued, h]

end

/-! ### The head chain of a transmit ring (R287, R288) -/

/-- The chain `ch` of ring `n`, whole, with its buffers. -/
def State.txChecked (s : State) (n : Nat) (ch : List (List Byte)) (d : List Byte) (bufs : List HostRead)
    (x : Option EccErr) : State :=
  if (match ch.getLast? with | some e => bit (leAt e 12 1) 7 | none => true) || !ch.all txDescOk then
    s.takeTx n 0 ch (some (stInvalid, 0))
  else if !s.portExists (leAt d 10 2) || (leAt d 12 1 / 16 % 4 == 1 && decide (1024 ≤ leAt d 10 2)) then
    s.takeTx n 0 ch (some (stTarget, 0))
  else if s.hostLost || s.portUnreachable (leAt d 10 2) then s.takeTx n 0 ch (some (stUnreachable, 0))
  else match txBytes ch bufs with
    | none => (s.bufferReadFailed n (s.ring n).fn).takeTx n 0 ch (some (stHostErr, 0))
    | some bs =>
      if bs.length < 60 ∨ s.maxFrame (leAt d 10 2) - 4 < bs.length then s.takeTx n 0 ch (some (stInvalid, 0))
      else s.injectTx n ch d bs x

section
variable {s : State} (hw : Wired s) {n : Nat} (bufs : List HostRead) (x : Option EccErr)
include hw

theorem txFrameInject_none (h : txChain 8 (s.ring n).fetched = []) : exec (.txFrameInject n bufs x) s = .next s := by
  change execTxFrameInject n bufs x s = _
  rw [execTxFrameInject, atPins_wired hw]
  simp only [h]

theorem txFrameInject_cons {d : List Byte} {ds : List (List Byte)} (h : txChain 8 (s.ring n).fetched = d :: ds) :
    exec (.txFrameInject n bufs x) s = .next (if s.isOff 5 n || (s.ring n).type != 2 || !s.fnLive (s.ring n).fn ||
      !chainWhole (d :: ds) || bufs.length != (d :: ds).length then s else s.txChecked n (d :: ds) d bufs x) := by
  change execTxFrameInject n bufs x s = _
  rw [execTxFrameInject, atPins_wired hw]
  simp only [h]
  rfl

theorem txFrameInject_left (h : txChain 8 (s.ring n).fetched = [] ∨ s.isOff 5 n = true ∨ (s.ring n).type ≠ 2 ∨
    s.fnLive (s.ring n).fn = false ∨ chainWhole (txChain 8 (s.ring n).fetched) = false ∨
    bufs.length ≠ (txChain 8 (s.ring n).fetched).length) : exec (.txFrameInject n bufs x) s = .next s := by
  generalize hch : txChain 8 (s.ring n).fetched = ch at h
  cases ch with
  | nil => exact txFrameInject_none hw bufs x hch
  | cons d ds =>
    rw [txFrameInject_cons hw bufs x hch, if_pos]
    rcases h with h | h | h | h | h | h
    · exact absurd h (List.cons_ne_nil d ds)
    all_goals simp [-List.length_cons, h]

end

/-! ### A chain of one descriptor -/

/-- A descriptor's MODE is 1 where its low bit is. -/
theorem txMode_eq {d : List Byte} (hok : txDescOk d = true) : (leAt d 12 1 / 16 % 4 == 1) = bit (leAt d 12 1) 4 := by
  have hmode : leAt d 12 1 / 16 % 4 ≤ 1 := by
    simp only [txDescOk, Bool.and_eq_true, decide_eq_true_eq] at hok
    exact hok.1.2.2.2
  have hlow : leAt d 12 1 / 16 % 4 = leAt d 12 1 / 2 ^ 4 % 2 := by omega
  rw [bit, hlow]

/-- Ring `n` is a transmit ring whose head chain is `d` alone, and its function may issue requests. -/
structure SendsOne (s : State) (n : Nat) (d : List Byte) : Prop where
  chain : txChain 8 (s.ring n).fetched = [d]
  ring : s.isOff 5 n = false
  type : (s.ring n).type = 2
  live : s.fnLive (s.ring n).fn = true
  whole : chainWhole [d] = true

section
variable {s : State} (hw : Wired s) {n : Nat} {d : List Byte} (h : SendsOne s n d) (x : Option EccErr)
include hw h

theorem txFrameInject_one {bufs : List HostRead} (hlen : bufs.length = 1) :
    exec (.txFrameInject n bufs x) s = .next (s.txChecked n [d] d bufs x) := by
  rw [txFrameInject_cons hw bufs x h.chain, if_neg]
  simp [h.ring, h.type, h.live, h.whole, hlen]

omit hw in
theorem SendsOne.last : bit (leAt d 12 1) 7 = false := by
  have hwhole := h.whole
  simpa [chainWhole] using hwhole

theorem txFrameInject_invalid {bufs : List HostRead} (hlen : bufs.length = 1) (hok : txDescOk d = false) :
    exec (.txFrameInject n bufs x) s = .next (s.takeTx n 0 [d] (some (stInvalid, 0))) := by
  rw [txFrameInject_one hw h x hlen, State.txChecked, if_pos]
  simp [hok]

variable {bufs : List HostRead} (hlen : bufs.length = 1) (hok : txDescOk d = true)
include hlen hok

theorem txFrameInject_good : exec (.txFrameInject n bufs x) s = .next
    (if s.portExists (leAt d 10 2) = false ∨ bit (leAt d 12 1) 4 = true ∧ 1024 ≤ leAt d 10 2 then
      s.takeTx n 0 [d] (some (stTarget, 0))
    else if s.hostLost = true ∨ s.portUnreachable (leAt d 10 2) = true then s.takeTx n 0 [d] (some (stUnreachable, 0))
    else match txBytes [d] bufs with
      | none => (s.bufferReadFailed n (s.ring n).fn).takeTx n 0 [d] (some (stHostErr, 0))
      | some bs =>
        if bs.length < 60 ∨ s.maxFrame (leAt d 10 2) - 4 < bs.length then s.takeTx n 0 [d] (some (stInvalid, 0))
        else s.injectTx n [d] d bs x) := by
  have hwhole : ¬((match [d].getLast? with | some e => bit (leAt e 12 1) 7 | none => true) || !([d].all txDescOk)) = true := by
    simp [h.last, hok]
  rw [txFrameInject_one hw h x hlen, State.txChecked, if_neg hwhole, txMode_eq hok]
  simp only [Bool.or_eq_true, Bool.not_eq_true', Bool.and_eq_true, decide_eq_true_eq]

theorem txFrameInject_target (hport : s.portExists (leAt d 10 2) = false) :
    exec (.txFrameInject n bufs x) s = .next (s.takeTx n 0 [d] (some (stTarget, 0))) := by
  rw [txFrameInject_good hw h x hlen hok, if_pos (.inl hport)]

variable (hport : s.portExists (leAt d 10 2) = true) (hmode : bit (leAt d 12 1) 4 = false ∨ leAt d 10 2 < 1024)
include hport hmode

omit hw h hlen hok in
theorem not_target : ¬(s.portExists (leAt d 10 2) = false ∨ bit (leAt d 12 1) 4 = true ∧ 1024 ≤ leAt d 10 2) := by
  rintro (hno | ⟨hlook, hfar⟩)
  · exact absurd (hport.symm.trans hno) (by decide)
  · rcases hmode with hqueue | hnear
    · exact absurd (hlook.symm.trans hqueue) (by decide)
    · exact Nat.not_lt.mpr hfar hnear

theorem txFrameInject_unreachable (hlost : s.hostLost = true ∨ s.portUnreachable (leAt d 10 2) = true) :
    exec (.txFrameInject n bufs x) s = .next (s.takeTx n 0 [d] (some (stUnreachable, 0))) := by
  rw [txFrameInject_good hw h x hlen hok, if_neg (not_target hport hmode), if_pos hlost]

variable (hhost : s.hostLost = false) (hreach : s.portUnreachable (leAt d 10 2) = false)
include hhost hreach

theorem txFrameInject_reachable : exec (.txFrameInject n bufs x) s = .next (match txBytes [d] bufs with
    | none => (s.bufferReadFailed n (s.ring n).fn).takeTx n 0 [d] (some (stHostErr, 0))
    | some bs =>
      if bs.length < 60 ∨ s.maxFrame (leAt d 10 2) - 4 < bs.length then s.takeTx n 0 [d] (some (stInvalid, 0))
      else s.injectTx n [d] d bs x) := by
  rw [txFrameInject_good hw h x hlen hok, if_neg (not_target hport hmode), if_neg (by simp [hhost, hreach])]

/-- A chain whose buffer cannot be read leaves the ring (R301). -/
theorem txFrameInject_unread (hbufs : bufs = [.err]) :
    Yields (.txFrameInject n bufs x) s fun t => (t.ring n).fetched = (s.ring n).fetched.drop 1 := by
  have hread : txBytes [d] bufs = none := by
    rw [hbufs]
    rfl
  have hheld : (s.bufferReadFailed n (s.ring n).fn).txHeld = s.txHeld := (EventFrame.readFailed s _ _ _).txHeld
  refine ⟨_, txFrameInject_reachable hw h x hlen hok hport hmode hhost hreach, ?_⟩
  rw [hread]
  exact State.takeTx_fetched hheld h.type _ _ _

variable {b bs : List Byte} (hbufs : bufs = [.ok b]) (hbs : bs = b.take (leAt d 8 2))
include hbufs hbs

theorem txFrameInject_read : exec (.txFrameInject n bufs x) s = .next
    (if bs.length < 60 ∨ s.maxFrame (leAt d 10 2) - 4 < bs.length then s.takeTx n 0 [d] (some (stInvalid, 0))
    else s.injectTx n [d] d bs x) := by
  have hread : txBytes [d] bufs = some bs := by
    rw [hbufs, hbs]
    rfl
  rw [txFrameInject_reachable hw h x hlen hok hport hmode hhost hreach, hread]

variable (hmin : 60 ≤ bs.length) (hmax : bs.length ≤ s.maxFrame (leAt d 10 2) - 4)
include hmin hmax

theorem txFrameInject_injects : exec (.txFrameInject n bufs x) s = .next (s.injectTx n [d] d bs x) := by
  rw [txFrameInject_read hw h x hlen hok hport hmode hhost hreach hbufs hbs, if_neg]
  rintro (hshort | hlong)
  · exact Nat.not_lt.mpr hmin hshort
  · exact Nat.not_lt.mpr hmax hlong

end

/-! ### A good frame (R288, R175) -/

section
variable {s : State} {n : Nat} {d : List Byte} (hok : txDescOk d = true) (x : Option EccErr) (bs : List Byte)
include hok

/-- A good frame of MODE 1 waits, counted, or takes a name, and its descriptor leaves the ring. -/
theorem injectTx_mode1 (htype : (s.ring n).type = 2) (hmode : bit (leAt d 12 1) 4 = true) :
    s.injectTx n [d] d bs x = s.count (sqCtr s.tour.attHost (8 * 65)) 1 ∨
    (s.nextFid < (s.injectTx n [d] d bs x).nextFid ∧
      ((s.injectTx n [d] d bs x).ring n).fetched = (s.ring n).fetched.drop 1) := by
  rw [injectTx_looked s n bs x ((txMode_eq hok).trans hmode)]
  by_cases hroom : (s.txLooked n d bs x).2.need bs.length ≤ s.mayTake s.tour.attHost 65
  · obtain ⟨hfid, hfetched⟩ := State.txStored_taken (s.txLooked_txHeld n d bs x) htype hroom
    exact .inr ⟨by rw [hfid]; exact s.nextFid_lt_txLooked n d bs x, hfetched⟩
  · exact .inl (if_pos (Nat.not_le.mp hroom))

variable (hmode : bit (leAt d 12 1) 4 = false)
include hmode

theorem injectTx_waits (hroom : s.mayTake s.tour.attHost 65 < cellsOf bs.length) :
    s.injectTx n [d] d bs x = s.count (sqCtr s.tour.attHost (8 * 65)) 1 := by
  rw [injectTx_queued s n bs x ((txMode_eq hok).trans hmode), if_pos hroom]

variable (hroom : cellsOf bs.length ≤ s.mayTake s.tour.attHost 65)
include hroom

theorem injectTx_stores : s.injectTx n [d] d bs x = s.txStored n d bs (s.txQueued n d bs) := by
  rw [injectTx_queued s n bs x ((txMode_eq hok).trans hmode), if_neg (Nat.not_lt.mpr hroom)]

/-- A good frame of MODE 0 with cells takes a name, and its descriptor leaves the ring. -/
theorem injectTx_mode0 (htype : (s.ring n).type = 2) : (s.injectTx n [d] d bs x).nextFid = s.nextFid + 1 ∧
    ((s.injectTx n [d] d bs x).ring n).fetched = (s.ring n).fetched.drop 1 := by
  obtain ⟨hheld, hfid, hneed⟩ := s.txQueued_spec n d bs
  obtain ⟨hnamed, hfetched⟩ := State.txStored_taken hheld htype (hneed.trans hroom)
  rw [injectTx_stores hok x bs hmode hroom]
  exact ⟨hnamed.trans hfid, hfetched⟩

/-- A frame that its queue admits is stored at the host's attachment square. -/
theorem injectTx_admitted (hts : bit (leAt d 12 1) 6 = false) {u : State} {held : Bool}
    (htake : (s.txNamed bs.length).takeIn s.tour.attHost 5 2 65 (s.txHdr n d bs) (txCtx d) = (u, some held)) :
    s.injectTx n [d] d bs x = (u.takeTx n s.nextFid [d] (some (stOk, 0))).storeWhole s.tour.attHost 2 65
      { main := some (txCtx d, s.txHdr n d bs), held := held, epoch := s.book.epoch } bs := by
  have hneed := (s.txQueued_spec n d bs).2.2
  rw [injectTx_stores hok x bs hmode hroom, State.txStored, if_neg (Nat.not_lt.mpr (hneed.trans hroom)),
    State.txQueued_admitted htake, hts]
  rfl

end

/-- Settles O41: a chain by its checks, and a good frame by its MODE and the cells it finds. -/
theorem transmitFrames : Obligations.TransmitFrames := by
  unfold Obligations.TransmitFrames
  refine fun n bufs x s hw => ⟨txFrameInject_left hw bufs x, fun d hchain hring htype hlive hwhole hlen => ?_⟩
  have h : SendsOne s n d := ⟨hchain, hring, htype, hlive, hwhole⟩
  refine ⟨txFrameInject_invalid hw h x hlen, fun hok => txFrameInject_target hw h x hlen hok,
    fun hok hqueue hport => txFrameInject_unreachable hw h x hlen hok hport (.inl hqueue),
    fun hok hport hhost hreach hmode => ⟨txFrameInject_unread hw h x hlen hok hport hmode hhost hreach,
      fun b bs hbufs hbs hbad => ?_, fun b bs hbufs hbs hmin hmax => ?_⟩⟩
  · rw [txFrameInject_read hw h x hlen hok hport hmode hhost hreach hbufs hbs, if_pos hbad]
  have hexec := txFrameInject_injects hw h x hlen hok hport hmode hhost hreach hbufs hbs hmin hmax
  refine ⟨fun hlook => ⟨_, hexec, injectTx_mode1 hok x bs htype hlook⟩,
    fun hqueue hroom => hexec.trans (by rw [injectTx_waits hok x bs hqueue hroom]),
    fun hqueue hroom => ⟨⟨_, hexec, injectTx_mode0 hok x bs hqueue hroom htype⟩, fun hts f u held hf htake => ?_⟩⟩
  have hhdr : f = s.txHdr n d bs := by
    rw [hf, State.txHdr, hts]
    rfl
  rw [hhdr] at htake ⊢
  rw [hexec, injectTx_admitted hok x bs hqueue hroom hts htake]
  rfl

end Sys2Proof.Machine
end
